-- ==== Sys2Proof/Word.lean ====
section
/-! DEFINITION. The word types of the block. -/

namespace Sys2Proof

/-- A 64-bit register or memory word. -/
abbrev Word := BitVec 64

/-- A 32-bit work register (05_worryn_core.md R101). -/
abbrev W32 := BitVec 32

/-- The 256 data bits of a spool word or of one half of a mesh line (01_block_overview.md R13). -/
abbrev W256 := BitVec 256

/-- A 64-byte mesh line (10_mesh_ports_and_arbitration.md). -/
abbrev Line := BitVec 512

end Sys2Proof
end

