-- ==== Sys2Proof/Syntax.lean ====
section
/-! DEFINITION. The commands of the block: one constructor of `Instr` per row of spec/opcode_table.json, with the row's
operands. A Worryn instruction's command names the needle and the resident slot whose thread issues it; what the
instruction says stands in the thread's program in pattern memory. -/

namespace Sys2Proof

/-- Which of the three configuration registers of a spool a write names (03_spools_and_ingest.md R78). -/
inductive SpoolCfg where
  | cfg | deepBase | deepCfg
  deriving DecidableEq, Repr

/-- The header fields of a received Seam message that its handling reads (11_seam_ring.md R234). -/
structure SeamHead where
  src : BitVec 12
  dest : BitVec 12
  bc : Bool
  root : BitVec 4
  seq : BitVec 7
  deriving DecidableEq, Repr

/-- The ways a received message or block is not acted on (11_seam_ring.md R236). -/
inductive Malform where
  /-- The CRC is wrong; this node is the first to find it. -/
  | crc
  /-- A short message, a wrong NBLK, an unknown TYPE or a TYPE the ring version lacks. -/
  | shape
  /-- A control block of a type Seam does not use. -/
  | control
  deriving DecidableEq, Repr

/-- What asks for a warm reset (13_power_clocks_startup.md R283). -/
inductive WarmSource where
  | pin | keyed | retention
  deriving DecidableEq, Repr

/-- The commands. -/
inductive Instr where
  /-- CONTROL_PORT_REQUEST (R17). -/
  | controlPortRequest (write : Bool) (addr : BitVec 26) (be : BitVec 8) (wdata : Word)
  /-- REGISTER_WRITE (R6). -/
  | registerWrite (addr : BitVec 26) (data : Word)
  /-- MEMORY_WINDOW_WRITE (R19). -/
  | memoryWindowWrite (addr : BitVec 26) (be : BitVec 8) (wdata : Word)
  /-- MEMORY_WINDOW_READ (R19). -/
  | memoryWindowRead (addr : BitVec 26)
  /-- BCLK_EDGE (R35). -/
  | bclkEdge
  /-- SETAT_ENTRY_APPLY (R35). -/
  | setatEntryApply
  /-- XING_WAIT_WAKE (R35). -/
  | xingWaitWake (t : Fin 262144)
  /-- BCLK_LOST (R23). -/
  | bclkLost
  /-- BCLK_PRESENT (R23). -/
  | bclkPresent
  /-- BCLK_MEASURE (R23). -/
  | bclkMeasure (period : BitVec 16)
  /-- TIMEBASE_RUN (R29). -/
  | timebaseRun
  /-- TIMEBASE_STOP (R29). -/
  | timebaseStop
  /-- TIMEBASE_STOP_COMPLETE (R29). -/
  | timebaseStopComplete
  /-- TIMEBASE_MODE_WRITE (R29). -/
  | timebaseModeWrite (mode : Fin 2)
  /-- OT_GEOM_WRITE (R30). -/
  | otGeomWrite (data : Word)
  /-- RESYNC_ARM (R45). -/
  | resyncArm
  /-- RESYNC_STEP (R45). -/
  | resyncStep
  /-- LOAD_GO (R48). -/
  | loadGo
  /-- FREE_LOAD_STEP (R48). -/
  | freeLoadStep
  /-- MARKER_MISSED (R43). -/
  | markerMissed
  /-- HOLDOVER_EXPIRE (R43). -/
  | holdoverExpire
  /-- INGEST_BEAT (R51). -/
  | ingestBeat (port : Fin 16) (stream : Fin 16) (sop eop : Bool) (xtag : BitVec 24) (poison : Bool) (data : W256)
  /-- SPOOL_WORD_WRITE (R68). -/
  | spoolWordWrite (port : Fin 16)
  /-- QUARANTINE_RELEASE_TICK (R54). -/
  | quarantineReleaseTick
  /-- INGEST_CLK_OK (R54). -/
  | ingestClkOk (port : Fin 16)
  /-- INGEST_CLK_LOST (R57). -/
  | ingestClkLost (port : Fin 16)
  /-- INGEST_ENABLE (R54). -/
  | ingestEnable (port : Fin 16)
  /-- INGEST_STOP (R341). -/
  | ingestStop (port : Fin 16)
  /-- INGEST_STOP_EFFECT (R341). -/
  | ingestStopEffect (port : Fin 16)
  /-- INGEST_STOP_COMPLETE (R341). -/
  | ingestStopComplete (port : Fin 16)
  /-- INGEST_MAP_WRITE (R52). -/
  | ingestMapWrite (port : Fin 16) (stream : Fin 16) (data : Word)
  /-- SPOOL_CFG_WRITE (R78). -/
  | spoolCfgWrite (m : Fin 256) (which : SpoolCfg) (data : Word)
  /-- SPOOL_ENABLE (R77). -/
  | spoolEnable (m : Fin 256)
  /-- SPOOL_STOP (R77). -/
  | spoolStop (m : Fin 256)
  /-- SPOOL_FORCE (R77). -/
  | spoolForce (m : Fin 256)
  /-- SPOOL_STOP_COMPLETE (R77). -/
  | spoolStopComplete (m : Fin 256)
  /-- MARK (R70). -/
  | mark (n : Fin 128) (k : Fin 8) (pick : Nat)
  /-- REWIND (R71). -/
  | rewind (n : Fin 128) (k : Fin 8)
  /-- RELEASE (R72). -/
  | release (n : Fin 128) (k : Fin 8)
  /-- PEEK (R73). -/
  | peek (n : Fin 128) (k : Fin 8)
  /-- DEEP_SPILL (R75). -/
  | deepSpill (m : Fin 256)
  /-- DEEP_SPILL_ACK (R76). -/
  | deepSpillAck (m : Fin 256)
  /-- DEEP_REFILL_DONE (R76). -/
  | deepRefillDone (m : Fin 256)
  /-- THREAD_START (R83). -/
  | threadStart (t : Fin 262144) (gchk : Bool) (gen : BitVec 16)
  /-- THREAD_HALT (R83). -/
  | threadHalt (t : Fin 262144) (gchk : Bool) (gen : BitVec 16)
  /-- THREAD_RESUME (R84). -/
  | threadResume (t : Fin 262144) (gchk : Bool) (gen : BitVec 16)
  /-- THREAD_KILL (R83). -/
  | threadKill (t : Fin 262144) (gchk : Bool) (gen : BitVec 16)
  /-- THREAD_CMD_BOUNDARY (R85). -/
  | threadCmdBoundary (t : Fin 262144)
  /-- RESUME_SEAL_COMPLETE (R84). -/
  | resumeSealComplete (t : Fin 262144)
  /-- THREAD_RECORD_WRITE (R81). -/
  | threadRecordWrite (t : Fin 262144) (word : Fin 8) (be : BitVec 8) (data : Word)
  /-- THREAD_DOORBELL (R94). -/
  | threadDoorbell (t : Fin 262144) (gchk : Bool) (gen : BitVec 16)
  /-- DESC_WAIT_READ_DONE (R94). -/
  | descWaitReadDone (t : Fin 262144)
  /-- THREAD_FETCH_START (R90). -/
  | threadFetchStart (n : Fin 128)
  /-- THREAD_FETCH_DONE (R90). -/
  | threadFetchDone (n : Fin 128) (k : Fin 8)
  /-- IB_LINE_FILL (R89). -/
  | ibLineFill (n : Fin 128) (k : Fin 8)
  /-- TIMER_WAIT_EXPIRE (R340). -/
  | timerWaitExpire (t : Fin 262144)
  /-- NEEDLE_ENABLE (R95). -/
  | needleEnable (n : Fin 128)
  /-- NEEDLE_STOP (R95). -/
  | needleStop (n : Fin 128)
  /-- NEEDLE_STOP_COMPLETE (R95). -/
  | needleStopComplete (n : Fin 128)
  /-- NEEDLE_CLOCK_STOP (R96). -/
  | needleClockStop (n : Fin 128)
  /-- NEEDLE_POWER_GATE (R96). -/
  | needlePowerGate (n : Fin 128)
  /-- NEEDLE_WAKE_DONE (R277). -/
  | needleWakeDone (n : Fin 128)
  /-- NOP (R122). -/
  | nop (n : Fin 128) (k : Fin 8)
  /-- JMP (R104). -/
  | jmp (n : Fin 128) (k : Fin 8)
  /-- BRCC (R104). -/
  | brcc (n : Fin 128) (k : Fin 8)
  /-- CALL (R104). -/
  | call (n : Fin 128) (k : Fin 8)
  /-- RET (R104). -/
  | ret (n : Fin 128) (k : Fin 8)
  /-- HALT (R105). -/
  | halt (n : Fin 128) (k : Fin 8)
  /-- YIELD (R105). -/
  | yield (n : Fin 128) (k : Fin 8)
  /-- HDR (R103). -/
  | hdr (n : Fin 128) (k : Fin 8)
  /-- ILLEGAL_INSTRUCTION (R98). -/
  | illegalInstruction (n : Fin 128) (k : Fin 8)
  /-- LDI (R106). -/
  | ldi (n : Fin 128) (k : Fin 8)
  /-- ADD (R107). -/
  | add (n : Fin 128) (k : Fin 8)
  /-- SUB (R107). -/
  | sub (n : Fin 128) (k : Fin 8)
  /-- AND (R107). -/
  | and (n : Fin 128) (k : Fin 8)
  /-- OR (R107). -/
  | or (n : Fin 128) (k : Fin 8)
  /-- XOR (R107). -/
  | xor (n : Fin 128) (k : Fin 8)
  /-- SHL (R107). -/
  | shl (n : Fin 128) (k : Fin 8)
  /-- SHR (R107). -/
  | shr (n : Fin 128) (k : Fin 8)
  /-- CMPI (R107). -/
  | cmpi (n : Fin 128) (k : Fin 8)
  /-- WAITX (R110). -/
  | waitx (n : Fin 128) (k : Fin 8)
  /-- WAITD (R111). -/
  | waitd (n : Fin 128) (k : Fin 8)
  /-- WAITS (R112). -/
  | waits (n : Fin 128) (k : Fin 8)
  /-- WAITR (R113). -/
  | waitr (n : Fin 128) (k : Fin 8)
  /-- WAITR_TIMEOUT (R113). -/
  | waitrTimeout (t : Fin 262144)
  /-- CROSS (R114). -/
  | cross (n : Fin 128) (k : Fin 8)
  /-- SETAT (R115). -/
  | setat (n : Fin 128) (k : Fin 8)
  /-- LOCK (R117). -/
  | lock (n : Fin 128) (k : Fin 8)
  /-- UNLOCK (R118). -/
  | unlock (n : Fin 128) (k : Fin 8)
  /-- LOCK_LEASE_END (R119). -/
  | lockLeaseEnd (lock : BitVec 16)
  /-- LOCK_BREAK (R119). -/
  | lockBreak (lock : Fin 1024)
  /-- LOCK_CLEAR (R119). -/
  | lockClear (lock : Fin 1024)
  /-- SENDS (R121). -/
  | sends (n : Fin 128) (k : Fin 8)
  /-- MOVE (R132). -/
  | move (n : Fin 128) (k : Fin 8)
  /-- MOVEC (R131). -/
  | movec (n : Fin 128) (k : Fin 8)
  /-- POST_COMMIT (R142). -/
  | postCommit (n : Fin 128) (k : Fin 8)
  /-- POST_DISCARD (R142). -/
  | postDiscard (n : Fin 128) (k : Fin 8)
  /-- POST_COMPLETE (R142). -/
  | postComplete (n : Fin 128) (k : Fin 8)
  /-- SEAL (R143). -/
  | seal (n : Fin 128) (k : Fin 8)
  /-- SEAL_COMPLETE (R143). -/
  | sealComplete (n : Fin 128) (k : Fin 8)
  /-- DSET_SET (R144). -/
  | dsetSet (n : Fin 128) (k : Fin 8)
  /-- DSET_GET (R144). -/
  | dsetGet (n : Fin 128) (k : Fin 8)
  /-- DESC_FETCH_DONE (R128). -/
  | descFetchDone (n : Fin 128)
  /-- TRANSFER_BURST (R137). -/
  | transferBurst (n : Fin 128)
  /-- TRANSFER_LEAVE_ACTIVE (R136). -/
  | transferLeaveActive (n : Fin 128)
  /-- COMPLETION_OWN_CLEAR (R139). -/
  | completionOwnClear (n : Fin 128)
  /-- FENCE_WRITE (R145). -/
  | fenceWrite (k : Fin 64) (data : Word)
  /-- FENCE_EXPIRE (R146). -/
  | fenceExpire (k : Fin 64)
  /-- FILL (R158). -/
  | fill (n : Fin 128) (k : Fin 8)
  /-- COMPARE (R159). -/
  | compare (n : Fin 128) (k : Fin 8)
  /-- PATCH (R162). -/
  | patch (n : Fin 128) (k : Fin 8)
  /-- EXPAND (R166). -/
  | expand (n : Fin 128) (k : Fin 8)
  /-- REDUCE (R167). -/
  | reduce (n : Fin 128) (k : Fin 8)
  /-- PEDSUB (R169). -/
  | pedsub (n : Fin 128) (k : Fin 8)
  /-- DECISION (R187). -/
  | decision (h : SeamHead) (payload : Word)
  /-- DECISION_INJECT (R185). -/
  | decisionInject (payload : Word)
  /-- HINT (R193). -/
  | hint (h : SeamHead) (payload : Word)
  /-- DECISION_MISSING (R188). -/
  | decisionMissing (entry : Fin 1024)
  /-- ARBITRATION_ROUND (R223). -/
  | arbitrationRound (p : Fin 16) (pick : Nat)
  /-- TRAIN_NEXT_BURST (R218). -/
  | trainNextBurst (p : Fin 16)
  /-- HOLD_LIMIT_OVERRUN (R226). -/
  | holdLimitOverrun (p : Fin 16)
  /-- MESH_READ_RESPONSE (R207). -/
  | meshReadResponse (p : Fin 16) (tag : BitVec 7) (lines : List (Line × Bool)) (err : BitVec 2)
  /-- MESH_WRITE_ACK (R207). -/
  | meshWriteAck (p : Fin 16) (tag : BitVec 7) (err : BitVec 2)
  /-- MESH_TIMEOUT (R211). -/
  | meshTimeout (p : Fin 16) (tag : BitVec 7)
  /-- CREDIT_RETURN (R206). -/
  | creditReturn (p : Fin 16) (data : Bool)
  /-- REQ_RISE (R219). -/
  | reqRise (line : Fin 256)
  /-- REQ_FALL (R217). -/
  | reqFall (line : Fin 256) (late : Bool)
  /-- RL_CFG_WRITE (R215). -/
  | rlCfgWrite (line : Fin 256) (base : Bool) (data : Word)
  /-- ARB_RQ_WRITE (R228). -/
  | arbRqWrite (r : Fin 133) (data : Word)
  /-- MESH_FREEZE (R229). -/
  | meshFreeze (p : Fin 16) (on : Bool)
  /-- IRQ_MESSAGE (R302). -/
  | irqMessage (line : Fin 64)
  /-- IRQ_ACK (R302). -/
  | irqAck (line : Fin 64)
  /-- HELLO (R240). -/
  | hello (h : SeamHead) (lo hi : BitVec 4) (count : BitVec 13)
  /-- HELLO_RESEND (R240). -/
  | helloResend
  /-- TOKEN (R241). -/
  | token (h : SeamHead) (ver : BitVec 4) (count : BitVec 13) (curRoot : BitVec 4) (crv : Bool) (hopDelay acc : BitVec 30)
  /-- PROBE (R241). -/
  | probe (h : SeamHead) (pseq : BitVec 16) (turn : BitVec 30)
  /-- ECHO (R241). -/
  | echo (h : SeamHead) (pseq : BitVec 16) (turn elapsed dwell : BitVec 30)
  /-- PROBE_TIMEOUT (R241). -/
  | probeTimeout (dwell : BitVec 30)
  /-- RING_UP (R242). -/
  | ringUp (h : SeamHead) (ver : BitVec 4) (count : BitVec 13) (lastRoot : BitVec 4) (lrv : Bool) (rtt : BitVec 30) (full : Bool)
  /-- CLAIM (R242). -/
  | claim (h : SeamHead)
  /-- CLAIM_TIMEOUT (R242). -/
  | claimTimeout
  /-- RETRAIN (R243). -/
  | retrain (h : SeamHead) (full : Bool)
  /-- SEAM_RETRAIN_CMD (R243). -/
  | seamRetrainCmd
  /-- SEAM_MEASURE_CMD (R243). -/
  | seamMeasureCmd
  /-- REF_MARKER_LOST (R243). -/
  | refMarkerLost
  /-- MARKER (R245). -/
  | marker (h : SeamHead) (xing : Word) (delay : BitVec 30) (dlat : BitVec 9) (gap olen : BitVec 12) (tau dwell : BitVec 30)
  /-- LINK_HIT (R243). -/
  | linkHit (east : Bool)
  /-- LINK_HIT_TIMEOUT (R243). -/
  | linkHitTimeout (east : Bool)
  /-- LOCK_REQ (R248). -/
  | lockReq (h : SeamHead) (lock : BitVec 8) (t : BitVec 18) (isTry isUnlock : Bool) (lease : BitVec 16)
  /-- LOCK_RSP (R248). -/
  | lockRsp (h : SeamHead) (lock : BitVec 8) (t : BitVec 18) (code : BitVec 3) (leaseEnd : BitVec 24)
  /-- LOCK_REQ_TIMEOUT (R249). -/
  | lockReqTimeout (t : Fin 262144)
  /-- COMMIT (R268). -/
  | commit (h : SeamHead) (orbit : BitVec 52)
  /-- HARVEST (R332). -/
  | harvest (h : SeamHead) (xing : Word)
  /-- RREAD (R252). -/
  | rread (h : SeamHead) (offset : BitVec 26) (rtag : BitVec 8)
  /-- RWRITE (R252). -/
  | rwrite (h : SeamHead) (offset : BitVec 26) (rtag : BitVec 8) (data : Word)
  /-- RRSP (R253). -/
  | rrsp (h : SeamHead) (rtag : BitVec 8) (code : BitVec 2) (data : Word)
  /-- REMOTE_ACCESS_TIMEOUT (R252). -/
  | remoteAccessTimeout (rtag : BitVec 8)
  /-- BBREAD (R254). -/
  | bbread (h : SeamHead) (first : BitVec 10) (num : BitVec 2) (rtag : BitVec 8)
  /-- BBRSP (R254). -/
  | bbrsp (h : SeamHead) (rtag : BitVec 8) (code ent : BitVec 2) (first : BitVec 10) (more : Bool) (data : List Word)
  /-- USER (R250). -/
  | user (h : SeamHead) (payload : Word)
  /-- SEAM_SEND (R253). -/
  | seamSend (data : Word)
  /-- SEAM_RXQ_READ (R253). -/
  | seamRxqRead
  /-- SEAM_ENABLE (R239). -/
  | seamEnable
  /-- SEAM_STOP (R239). -/
  | seamStop
  /-- SEAM_STOP_COMPLETE (R239). -/
  | seamStopComplete
  /-- BYPASS_FORCE_SET (R256). -/
  | bypassForceSet
  /-- BYPASS_FORCE_CLEAR (R256). -/
  | bypassForceClear
  /-- BYPASS_PIN_RISE (R257). -/
  | bypassPinRise
  /-- AO_SUPPLY_FALL (R257). -/
  | aoSupplyFall
  /-- CONFIG_COMMIT (R268). -/
  | configCommit (named : Bool) (orbit : BitVec 52)
  /-- COMMIT_CANCEL (R269). -/
  | commitCancel
  /-- CONFIG_SWAP (R267). -/
  | configSwap
  /-- BOOT_SEAL (R263). -/
  | bootSeal
  /-- LIFECYCLE_CHANGE (R266). -/
  | lifecycleChange (key : BitVec 16) (next : BitVec 2)
  /-- TD_PDREQ_RISE (R280). -/
  | tdPdreqRise (d : Fin 64)
  /-- TD_PDACK_RISE (R280). -/
  | tdPdackRise (d : Fin 64)
  /-- TD_PDREQ_FALL (R280). -/
  | tdPdreqFall (d : Fin 64)
  /-- TD_FORCE (R281). -/
  | tdForce (d : Fin 64)
  /-- BD_PDREQ_RISE (R282). -/
  | bdPdreqRise (b : Fin 130)
  /-- BD_PDACK_RISE (R282). -/
  | bdPdackRise (b : Fin 130)
  /-- BD_PDREQ_FALL (R282). -/
  | bdPdreqFall (b : Fin 130)
  /-- BD_FORCE (R282). -/
  | bdForce (b : Fin 130)
  /-- NPLL_MULT_WRITE (R274). -/
  | npllMultWrite (q : Fin 4) (data : Word)
  /-- NPLL_LOCK (R274). -/
  | npllLock (q : Fin 4)
  /-- NPLL_UNLOCK (R274). -/
  | npllUnlock (q : Fin 4)
  /-- COLD_RESET (R283). -/
  | coldReset (powerOn : Bool)
  /-- WARM_RESET (R285). -/
  | warmReset (src : WarmSource)
  /-- WARM_QUIESCE_END (R285). -/
  | warmQuiesceEnd (timeout : Bool)
  /-- CORE_LOSS_RESET (R283). -/
  | coreLossReset
  /-- SPOOL_WIPE_DONE (R54). -/
  | spoolWipeDone
  /-- BLOCK_READY (R288). -/
  | blockReady
  /-- DEBUG_READ (R289). -/
  | debugRead (addr : BitVec 26)
  /-- DEBUG_WRITE (R289). -/
  | debugWrite (addr : BitVec 26) (data : Word)
  /-- DEBUG_SET_MEN (R289). -/
  | debugSetMen (on : Bool)
  /-- DEBUG_READ_LINE (R290). -/
  | debugReadLine
  /-- DEBUG_WRITE_LINE (R290). -/
  | debugWriteLine
  /-- FAULT_POP (R296). -/
  | faultPop
  /-- BB_EVENT_RECORD (R303). -/
  | bbEventRecord
  /-- BB_FREEZE (R305). -/
  | bbFreeze
  /-- BB_FREEZE_COMPLETE (R305). -/
  | bbFreezeComplete
  /-- BB_ARM (R305). -/
  | bbArm
  /-- BB_SOFT (R304). -/
  | bbSoft (value : Word)
  /-- BB_FLUSH (R307). -/
  | bbFlush
  /-- WEEDER_UNIT (R310). -/
  | weederUnit (mem : Fin 4)
  /-- PED_RESULT (R313). -/
  | pedResult (c : BitVec 16)
  /-- CAL_PED_WRITE (R314). -/
  | calPedWrite
  /-- PHASE_MEAN (R316). -/
  | phaseMean
  /-- ROTATION_POINT (R317). -/
  | rotationPoint
  /-- ROTATION_BATCH (R317). -/
  | rotationBatch
  /-- MONITOR_FRAME_END (R320). -/
  | monitorFrameEnd
  /-- MONITOR_FRAME_ABORT (R321). -/
  | monitorFrameAbort
  /-- SERVICE_ENABLE (R271). -/
  | serviceEnable (svc : Fin 5)
  /-- SERVICE_STOP (R271). -/
  | serviceStop (svc : Fin 5)
  /-- SERVICE_STOP_COMPLETE (R271). -/
  | serviceStopComplete (svc : Fin 5)
  /-- PMC_COUNTER_WRITE (R329). -/
  | pmcCounterWrite (k : Fin 592) (data : Word)
  /-- PMC_CLEAR (R329). -/
  | pmcClear
  /-- HARVEST_NOW (R332). -/
  | harvestNow
  /-- HARVEST_AT (R332). -/
  | harvestAt
  /-- HARVEST_CANCEL (R332). -/
  | harvestCancel
  /-- HARVEST_SNAPSHOT (R331). -/
  | harvestSnapshot
  /-- HARVEST_RECORD_DONE (R334). -/
  | harvestRecordDone
  /-- SAMPLE_ENABLE (R335). -/
  | sampleEnable
  /-- SAMPLE_STOP (R336). -/
  | sampleStop
  /-- SAMPLE_RECORD (R336). -/
  | sampleRecord (n : Fin 128)
  /-- BLOCK_LOCK_GAINED (R243). -/
  | blockLockGained (east : Bool)
  /-- MALFORMED_MESSAGE (R236). -/
  | malformedMessage (h : SeamHead) (kind : Malform)
  /-- TD_FORCE_FALL (R281). -/
  | tdForceFall (d : Fin 64)
  deriving DecidableEq, Repr

end Sys2Proof
end

