-- ==== Sys2Proof/Decode.lean ====
section
/-! DEFINITION. The command that a word of the opcode table spells. No row of spec/opcode_table.json gives bits: the
block's commands are events and register accesses, not words, so no word spells one. The words of the needles' own
instruction set are read by `Machine.WInstr.decode` (Machine/Worryn.lean). -/

namespace Sys2Proof

/-- The command of an instruction word of `nbits` bits: none, since the table gives no row bits.
(log 1, DESIGN CHOICE) -/
def decodeTableWord (_nbits _w : Nat) : Option Instr := none

end Sys2Proof
end

