-- ==== Sys2Proof/Config.lean ====
section
/-! DEFINITION. What an implementation of the block fixes and the manual leaves open: free values, with no body, so that
no proof can rest on one of them. Each is applied to the counter `Chip.free`, which advances at each use. -/

namespace Sys2Proof

/-- The fine tick at a moment that no command states: 02_orbit_timebase.md R27, 14 R304.
(log 2, DESIGN CHOICE; log 78, DESIGN CHOICE) -/
opaque Config.fine : Nat → BitVec 3

/-- The maximum of no sample, and its index: a REDUCE MAX whose first read is refused (07 R167 gives no result).
(log 2, DESIGN CHOICE; log 44, DESIGN CHOICE) -/
opaque Config.emptyMax : Nat → BitVec 32
opaque Config.emptyMaxIndex : Nat → BitVec 24

/-- A number of clock cycles that no command states: latencies and stalls that the performance counters and
the sample records count (16 R326, R336).
(log 2, DESIGN CHOICE; log 47, DESIGN CHOICE; log 60, DESIGN CHOICE) -/
opaque Config.cycles : Nat → Nat

/-- The type and the data blocks with which a node sends on a message that it finds malformed (11 R236): the command names no
content, and no node acts on it.
(log 2, DESIGN CHOICE; log 52, DESIGN CHOICE) -/
opaque Config.strayType : Nat → BitVec 8
opaque Config.strayData : Nat → List (BitVec 64)

/-- The ECC syndrome of a weeder record (15 R312): the manual does not give the code's parity matrix.
(log 2, DESIGN CHOICE; log 66, DESIGN CHOICE) -/
opaque Config.syndrome : Nat → BitVec 8

/-- OFFSET and PHASE of a marker evaluated while DXW_OT_BCLK.MEAS is 0 (11 R245 divides by it).
(log 2, DESIGN CHOICE; log 45, DEDUCED) -/
opaque Config.markerOffset : Nat → BitVec 16
opaque Config.markerPhase : Nat → BitVec 8

/-- Whether a mean that is no whole number is rounded up (15 R316 does not say).
(log 2, DESIGN CHOICE; log 64, DESIGN CHOICE) -/
opaque Config.roundUp : Nat → Bool

/-- The kind that the POWER event of a falling PDACK carries (14 R304 lists none).
(log 2, DESIGN CHOICE; log 114, DESIGN CHOICE) -/
opaque Config.powerKind : Nat → BitVec 3

/-- Whether a CLAIM that comes with the node's own ID and SEQ is its own, come round, or that of another node with the same ID
(11 R242): its header does not tell.
(log 2, DESIGN CHOICE; log 116, DESIGN CHOICE) -/
opaque Config.claimOwn : Nat → Bool

/-- The lag in fine ticks of an SOP beat is a whole number of crossings and this fine tick (15 R315).
(log 2, DESIGN CHOICE) -/
opaque Config.deskewFine : Nat → BitVec 3

end Sys2Proof
end

