-- ==== Sys2Proof/Machine/Bits.lean ====
section
/-! DEFINITION. Bit fields, little-endian bytes and the plain number helpers that every chapter uses. -/

namespace Sys2Proof.Machine

/-- A field of a register: bits hi down to lo, both ends included (00_scope.md, Numbers and units). -/
structure Fld where
  hi : Nat
  lo : Nat
  deriving DecidableEq, Repr

/-- The width of a field in bits. -/
def Fld.width (f : Fld) : Nat := f.hi + 1 - f.lo

/-- The value of a field. -/
def fget (w : Word) (f : Fld) : Nat := w.toNat / 2 ^ f.lo % 2 ^ f.width

/-- A word whose bits in the field are 1. -/
def Fld.mask (f : Fld) : Word := BitVec.ofNat 64 ((2 ^ f.width - 1) * 2 ^ f.lo)

/-- A word with a field replaced; the value is taken modulo the field's width. -/
def fset (w : Word) (f : Fld) (v : Nat) : Word :=
  (w &&& ~~~f.mask) ||| BitVec.ofNat 64 (v % 2 ^ f.width * 2 ^ f.lo)

/-- The value of a one-bit field as a Bool. -/
def fbit (w : Word) (f : Fld) : Bool := fget w f == 1

/-- 1 for true and 0 for false. -/
def b2n (b : Bool) : Nat := if b then 1 else 0

/-- A saturating field: the value plus n, at most the field's greatest value. -/
def fsat (w : Word) (f : Fld) (n : Nat) : Word := fset w f (min (fget w f + n) (2 ^ f.width - 1))

/-- The bits hi down to lo of a natural number. -/
def bits (n hi lo : Nat) : Nat := n / 2 ^ lo % 2 ^ (hi + 1 - lo)

/-- The signed value of the low n bits of x. -/
def signed (n x : Nat) : Int :=
  let v := x % 2 ^ n
  if 2 * v ≥ 2 ^ n ∧ n > 0 then (v : Int) - (2 ^ n : Nat) else v

/-- The n-bit two's complement of an integer. -/
def unsigned (n : Nat) (x : Int) : Nat := (x % (2 ^ n : Nat)).toNat

/-- An integer held within lo and hi. -/
def clamp (lo hi x : Int) : Int := if x < lo then lo else if x > hi then hi else x

/-- Byte k of a word, counted from the least significant (R4). -/
def byteOf (w : Word) (k : Nat) : BitVec 8 := BitVec.ofNat 8 (w.toNat / 2 ^ (8 * k))

/-- A word from its bytes, the least significant first (R4). -/
def wordOfBytes (l : List (BitVec 8)) : Word :=
  BitVec.ofNat 64 (l.foldr (fun b acc => b.toNat + 256 * acc) 0)

/-- Bytes of `new` where the enable bit is 1, of `old` elsewhere (R19). -/
def mergeBytes (old new : Word) (be : Nat) : Word :=
  wordOfBytes ((List.range 8).map fun k => if be / 2 ^ k % 2 = 1 then byteOf new k else byteOf old k)

/-- Rounding up of a quotient. -/
def ceilDiv (a b : Nat) : Nat := (a + b - 1) / b

/-- The 32-bit part j of a 256-bit spool word. -/
def part32 (w : W256) (j : Nat) : W32 := BitVec.ofNat 32 (w.toNat / 2 ^ (32 * j))

/-- The 64-bit lane k of a 256-bit spool word. -/
def lane64 (w : W256) (k : Nat) : Word := BitVec.ofNat 64 (w.toNat / 2 ^ (64 * k))

/-- The 16-bit sample k of a 256-bit spool word (R49). -/
def sample16 (w : W256) (k : Nat) : Nat := w.toNat / 2 ^ (16 * k) % 2 ^ 16

/-- A 256-bit word from numbers of b bits each, the first lowest. -/
def packW256 (b : Nat) (l : List Nat) : W256 :=
  BitVec.ofNat 256 (l.foldr (fun v acc => v % 2 ^ b + 2 ^ b * acc) 0)

end Sys2Proof.Machine
end

