-- ==== Sys2Proof/Machine/Registers.lean ====
section
/-! DEFINITION. The registers of the CSR window: one constructor of `Reg` per register (or array of registers) of
spec/17_register_summary.md, with its offset, its Reset value and its fields with their access types (R6), as the
register tables of the chapters give them. -/

namespace Sys2Proof.Machine

/-- The access types of R6. -/
inductive Acc where
  | rw | ro | w1c | w1s | rc | wo | lb
  deriving DecidableEq, Repr

/-- A register of the CSR window (17_register_summary.md); an index stands where the manual's name has one. -/
inductive Reg where
  | id  -- DXW_ID
  | thCmd  -- DXW_TH_CMD
  | thDoorbell  -- DXW_TH_DOORBELL
  | thStat  -- DXW_TH_STAT
  | thTimer  -- DXW_TH_TIMER
  | tsEcc  -- DXW_TS_ECC
  | tsEccAt  -- DXW_TS_ECC_AT
  | lkCmd  -- DXW_LK_CMD
  | lkStat  -- DXW_LK_STAT
  | xfStat  -- DXW_XF_STAT
  | xfFence (i : Nat)  -- DXW_XF_FENCEk
  | xfFenceSt (i : Nat)  -- DXW_XF_FENCEk_ST
  | lk (i : Nat)  -- DXW_LKn
  | fltCtl  -- DXW_FLT_CTL
  | fltStat  -- DXW_FLT_STAT
  | fltE (i : Nat)  -- DXW_FLT_E0 to E3
  | irqRt (i : Nat)  -- DXW_IRQ_RTs
  | irqPend (i : Nat)  -- DXW_IRQ_PENDk
  | irqLnCfg (i : Nat)  -- DXW_IRQ_LNk_CFG
  | irqLnAddr (i : Nat)  -- DXW_IRQ_LNk_ADDR
  | irqLnStat (i : Nat)  -- DXW_IRQ_LNk_STAT
  | otCtl  -- DXW_OT_CTL
  | otGeom  -- DXW_OT_GEOM
  | otBclk  -- DXW_OT_BCLK
  | otXing  -- DXW_OT_XING
  | otFine  -- DXW_OT_FINE
  | otShadow  -- DXW_OT_SHADOW
  | otLoad  -- DXW_OT_LOAD
  | otAlign  -- DXW_OT_ALIGN
  | otAlignCfg  -- DXW_OT_ALIGN_CFG
  | otStepFrom  -- DXW_OT_STEP_FROM
  | otStat  -- DXW_OT_STAT
  | otSetat  -- DXW_OT_SETAT
  | otWmCfg (i : Nat)  -- DXW_OT_WMk_CFG
  | otWmLvl (i : Nat)  -- DXW_OT_WMk_LVL
  | decCfg  -- DXW_DEC_CFG
  | decInj  -- DXW_DEC_INJ
  | decStat  -- DXW_DEC_STAT
  | decCnt0  -- DXW_DEC_CNT0
  | decCnt1  -- DXW_DEC_CNT1
  | decCnt2  -- DXW_DEC_CNT2
  | decLast  -- DXW_DEC_LAST
  | decTbl (i : Nat)  -- DXW_DEC_TBLk
  | seamCfg  -- DXW_SEAM_CFG
  | seamStat  -- DXW_SEAM_STAT
  | seamRing  -- DXW_SEAM_RING
  | seamHop  -- DXW_SEAM_HOP
  | seamCnt  -- DXW_SEAM_CNT
  | seamTmo  -- DXW_SEAM_TMO
  | seamSendh  -- DXW_SEAM_SENDH
  | seamSendd0  -- DXW_SEAM_SENDD0
  | seamSendd1  -- DXW_SEAM_SENDD1
  | seamRxq  -- DXW_SEAM_RXQ
  | seamByp  -- DXW_SEAM_BYP
  | seal  -- DXW_SEAL
  | commit  -- DXW_COMMIT
  | commitCfg  -- DXW_COMMIT_CFG
  | cfgset  -- DXW_CFGSET
  | commitStat  -- DXW_COMMIT_STAT
  | pdCfg (i : Nat)  -- DXW_PDd_CFG
  | pdWin (i : Nat)  -- DXW_PDd_WIN
  | winBase (i : Nat)  -- DXW_WINw_BASE
  | winLimit (i : Nat)  -- DXW_WINw_LIMIT
  | winAttr (i : Nat)  -- DXW_WINw_ATTR
  | mpCtl (i : Nat)  -- DXW_MPn_CTL
  | mpArb (i : Nat)  -- DXW_MPn_ARB
  | mpCred (i : Nat)  -- DXW_MPn_CRED
  | mpStat (i : Nat)  -- DXW_MPn_STAT
  | mpErrat (i : Nat)  -- DXW_MPn_ERRAT
  | mpCnt (i : Nat)  -- DXW_MPn_CNT
  | mpWait (i : Nat)  -- DXW_MPn_WAIT
  | arbRq (i : Nat)  -- DXW_ARB_RQr
  | rlCfg (i : Nat)  -- DXW_RLn_CFG
  | rlBase (i : Nat)  -- DXW_RLn_BASE
  | rlStat (i : Nat)  -- DXW_RLn_STAT
  | spcStat  -- DXW_SP_STAT
  | spcPerrAt  -- DXW_SP_PERR_AT
  | spcSum (i : Nat)  -- DXW_SP_SUMk
  | ipCtl (i : Nat)  -- DXW_IPn_CTL
  | ipStat (i : Nat)  -- DXW_IPn_STAT
  | ipDrop (i : Nat)  -- DXW_IPn_DROP
  | ipBp (i : Nat)  -- DXW_IPn_BP
  | ipMap (i j : Nat)  -- DXW_IPn_MAPs
  | spCfg (i : Nat)  -- DXW_SPm_CFG
  | spCtl (i : Nat)  -- DXW_SPm_CTL
  | spDeepbase (i : Nat)  -- DXW_SPm_DEEPBASE
  | spDeepcfg (i : Nat)  -- DXW_SPm_DEEPCFG
  | spWm (i : Nat)  -- DXW_SPm_WM
  | spLvl (i : Nat)  -- DXW_SPm_LVL
  | spWp (i : Nat)  -- DXW_SPm_WP
  | spFp (i : Nat)  -- DXW_SPm_FP
  | spHp (i : Nat)  -- DXW_SPm_HP
  | spStat (i : Nat)  -- DXW_SPm_STAT
  | spCnt (i : Nat)  -- DXW_SPm_CNT
  | spLapat (i : Nat)  -- DXW_SPm_LAPAT
  | pwrStat  -- DXW_PWR_STAT
  | rstCtl  -- DXW_RST_CTL
  | clkNpll (i : Nat)  -- DXW_CLK_NPLLk
  | pwrTd  -- DXW_PWR_TD
  | pwrTdack  -- DXW_PWR_TDACK
  | pwrTdwake  -- DXW_PWR_TDWAKE
  | pwrWakecfg  -- DXW_PWR_WAKECFG
  | pwrNdlq (i : Nat)  -- DXW_PWR_NDLQk
  | dbgCtl  -- DXW_DBG_CTL
  | dbgMaddr  -- DXW_DBG_MADDR
  | dbgMcmd  -- DXW_DBG_MCMD
  | dbgMdata (i : Nat)  -- DXW_DBG_MDATAj
  | lc  -- DXW_LC
  | pmcCtl  -- DXW_PMC_CTL
  | pmcOvf (i : Nat)  -- DXW_PMC_OVFk
  | hvCtl  -- DXW_HV_CTL
  | hvAt  -- DXW_HV_AT
  | hvAddr  -- DXW_HV_ADDR
  | hvStat  -- DXW_HV_STAT
  | isCfg  -- DXW_IS_CFG
  | isRing  -- DXW_IS_RING
  | isIdx  -- DXW_IS_IDX
  | isStat  -- DXW_IS_STAT
  | pmcCfg (i : Nat)  -- DXW_PMC_CFGi
  | pmcCnt (i : Nat)  -- DXW_PMC_CNTi
  | pmcSnap (i : Nat)  -- DXW_PMC_SNAPi
  | svcEn  -- DXW_SVC_EN
  | wdCfg  -- DXW_WD_CFG
  | wdRing  -- DXW_WD_RING
  | wdIdx  -- DXW_WD_IDX
  | wdStat  -- DXW_WD_STAT
  | wdEcc  -- DXW_WD_ECC
  | wdPass  -- DXW_WD_PASS
  | calCfg  -- DXW_CAL_CFG
  | calDskcfg  -- DXW_CAL_DSKCFG
  | calEmpty (i : Nat)  -- DXW_CAL_EMPTYi
  | calStat  -- DXW_CAL_STAT
  | calPhase  -- DXW_CAL_PHASE
  | monCfg  -- DXW_MON_CFG
  | monBase  -- DXW_MON_BASE
  | monStat  -- DXW_MON_STAT
  | stkCfg  -- DXW_STK_CFG
  | stkStat  -- DXW_STK_STAT
  | rotCfg  -- DXW_ROT_CFG
  | rotStat  -- DXW_ROT_STAT
  | calDsk (i : Nat)  -- DXW_CAL_DSKn
  | rotAge (i : Nat)  -- DXW_ROT_AGEn
  | svcSp (i : Nat)  -- DXW_SVC_SPm
  | stkFlag (i : Nat)  -- DXW_STK_FLAGp
  | occTot (i : Nat)  -- DXW_OCC_TOTq
  | bbCtl  -- DXW_BB_CTL
  | bbTypeen  -- DXW_BB_TYPEEN
  | bbFrzen  -- DXW_BB_FRZEN
  | bbStat  -- DXW_BB_STAT
  | bbSoft  -- DXW_BB_SOFT
  | bbFlush  -- DXW_BB_FLUSH
  | bbLog (i j : Nat)  -- black-box log window
  | ndlCtl (i : Nat)  -- DXW_NDLn_CTL
  | ndlCfg (i : Nat)  -- DXW_NDLn_CFG
  | ndlStat (i : Nat)  -- DXW_NDLn_STAT
  | ndlSlot (i j : Nat)  -- DXW_NDLn_SLOTk
  | ndlXfStat (i : Nat)  -- DXW_NDLn_XF_STAT
  | ndlXfCnt (i : Nat)  -- DXW_NDLn_XF_CNT
  | ndlSetCtl (i j : Nat)  -- DXW_NDLn_TA_CTL
  | ndlSetDesc (i j : Nat)  -- DXW_NDLn_TA_DESC
  | ndlSetSrc (i j : Nat)  -- DXW_NDLn_TA_SRC
  | ndlSetCnt (i j : Nat)  -- DXW_NDLn_TA_CNT
  | ndlCq (i j : Nat)  -- DXW_NDLn_CQq
  deriving DecidableEq, Repr

namespace Reg

/-- The offset of a register in the CSR window (17_register_summary.md, R337). -/
def offset : Reg → Nat
  | .id => 0x0
  | .thCmd => 0x1000
  | .thDoorbell => 0x1008
  | .thStat => 0x1010
  | .thTimer => 0x1018
  | .tsEcc => 0x1020
  | .tsEccAt => 0x1028
  | .lkCmd => 0x2000
  | .lkStat => 0x2008
  | .xfStat => 0x3000
  | .xfFence i => 0x3100 + i * 0x10
  | .xfFenceSt i => 0x3108 + i * 0x10
  | .lk i => 0x4000 + i * 0x8
  | .fltCtl => 0x6000
  | .fltStat => 0x6008
  | .fltE i => 0x6010 + i * 0x8
  | .irqRt i => 0x8000 + i * 0x8
  | .irqPend i => 0xA000 + i * 0x8
  | .irqLnCfg i => 0xA100 + i * 0x20
  | .irqLnAddr i => 0xA108 + i * 0x20
  | .irqLnStat i => 0xA110 + i * 0x20
  | .otCtl => 0x10000
  | .otGeom => 0x10008
  | .otBclk => 0x10010
  | .otXing => 0x10018
  | .otFine => 0x10020
  | .otShadow => 0x10028
  | .otLoad => 0x10030
  | .otAlign => 0x10038
  | .otAlignCfg => 0x10040
  | .otStepFrom => 0x10048
  | .otStat => 0x10050
  | .otSetat => 0x10058
  | .otWmCfg i => 0x10100 + i * 0x10
  | .otWmLvl i => 0x10108 + i * 0x10
  | .decCfg => 0x10400
  | .decInj => 0x10408
  | .decStat => 0x10410
  | .decCnt0 => 0x10418
  | .decCnt1 => 0x10420
  | .decCnt2 => 0x10428
  | .decLast => 0x10430
  | .decTbl i => 0x12000 + i * 0x8
  | .seamCfg => 0x20000
  | .seamStat => 0x20008
  | .seamRing => 0x20010
  | .seamHop => 0x20018
  | .seamCnt => 0x20020
  | .seamTmo => 0x20028
  | .seamSendh => 0x20030
  | .seamSendd0 => 0x20038
  | .seamSendd1 => 0x20040
  | .seamRxq => 0x20048
  | .seamByp => 0x20050
  | .seal => 0x30000
  | .commit => 0x30010
  | .commitCfg => 0x30018
  | .cfgset => 0x30020
  | .commitStat => 0x30028
  | .pdCfg i => 0x31000 + i * 0x10
  | .pdWin i => 0x31008 + i * 0x10
  | .winBase i => 0x32000 + i * 0x20
  | .winLimit i => 0x32008 + i * 0x20
  | .winAttr i => 0x32010 + i * 0x20
  | .mpCtl i => 0x40000 + i * 0x100
  | .mpArb i => 0x40008 + i * 0x100
  | .mpCred i => 0x40010 + i * 0x100
  | .mpStat i => 0x40018 + i * 0x100
  | .mpErrat i => 0x40020 + i * 0x100
  | .mpCnt i => 0x40028 + i * 0x100
  | .mpWait i => 0x40030 + i * 0x100
  | .arbRq i => 0x42000 + i * 0x8
  | .rlCfg i => 0x44000 + i * 0x20
  | .rlBase i => 0x44008 + i * 0x20
  | .rlStat i => 0x44010 + i * 0x20
  | .spcStat => 0x50008
  | .spcPerrAt => 0x50010
  | .spcSum i => 0x50020 + i * 0x8
  | .ipCtl i => 0x50100 + i * 0x40
  | .ipStat i => 0x50108 + i * 0x40
  | .ipDrop i => 0x50110 + i * 0x40
  | .ipBp i => 0x50118 + i * 0x40
  | .ipMap i j => 0x50800 + i * 0x80 + j * 0x8
  | .spCfg i => 0x54000 + i * 0x80
  | .spCtl i => 0x54008 + i * 0x80
  | .spDeepbase i => 0x54010 + i * 0x80
  | .spDeepcfg i => 0x54018 + i * 0x80
  | .spWm i => 0x54020 + i * 0x80
  | .spLvl i => 0x54028 + i * 0x80
  | .spWp i => 0x54030 + i * 0x80
  | .spFp i => 0x54038 + i * 0x80
  | .spHp i => 0x54040 + i * 0x80
  | .spStat i => 0x54048 + i * 0x80
  | .spCnt i => 0x54050 + i * 0x80
  | .spLapat i => 0x54058 + i * 0x80
  | .pwrStat => 0x60000
  | .rstCtl => 0x60008
  | .clkNpll i => 0x60010 + i * 0x8
  | .pwrTd => 0x60040
  | .pwrTdack => 0x60048
  | .pwrTdwake => 0x60050
  | .pwrWakecfg => 0x60060
  | .pwrNdlq i => 0x60070 + i * 0x8
  | .dbgCtl => 0x60080
  | .dbgMaddr => 0x60088
  | .dbgMcmd => 0x60090
  | .dbgMdata i => 0x600C0 + i * 0x8
  | .lc => 0x60100
  | .pmcCtl => 0x70000
  | .pmcOvf i => 0x70010 + i * 0x8
  | .hvCtl => 0x70100
  | .hvAt => 0x70108
  | .hvAddr => 0x70110
  | .hvStat => 0x70118
  | .isCfg => 0x70200
  | .isRing => 0x70208
  | .isIdx => 0x70210
  | .isStat => 0x70218
  | .pmcCfg i => 0x71000 + i * 0x10
  | .pmcCnt i => 0x71008 + i * 0x10
  | .pmcSnap i => 0x74000 + i * 0x8
  | .svcEn => 0x80000
  | .wdCfg => 0x80008
  | .wdRing => 0x80010
  | .wdIdx => 0x80018
  | .wdStat => 0x80020
  | .wdEcc => 0x80028
  | .wdPass => 0x80030
  | .calCfg => 0x80040
  | .calDskcfg => 0x80048
  | .calEmpty i => 0x80050 + i * 0x8
  | .calStat => 0x80060
  | .calPhase => 0x80068
  | .monCfg => 0x80080
  | .monBase => 0x80088
  | .monStat => 0x80090
  | .stkCfg => 0x800A0
  | .stkStat => 0x800A8
  | .rotCfg => 0x800C0
  | .rotStat => 0x800C8
  | .calDsk i => 0x80100 + i * 0x8
  | .rotAge i => 0x80400 + i * 0x8
  | .svcSp i => 0x80800 + i * 0x8
  | .stkFlag i => 0x81000 + i * 0x8
  | .occTot i => 0x83000 + i * 0x8
  | .bbCtl => 0x87000
  | .bbTypeen => 0x87008
  | .bbFrzen => 0x87010
  | .bbStat => 0x87018
  | .bbSoft => 0x87020
  | .bbFlush => 0x87028
  | .bbLog i j => 0x88000 + i * 0x20 + j * 0x8
  | .ndlCtl i => 0x100000 + i * 0x1000
  | .ndlCfg i => 0x100008 + i * 0x1000
  | .ndlStat i => 0x100010 + i * 0x1000
  | .ndlSlot i j => 0x100040 + i * 0x1000 + j * 0x8
  | .ndlXfStat i => 0x100080 + i * 0x1000
  | .ndlXfCnt i => 0x100088 + i * 0x1000
  | .ndlSetCtl i j => 0x100100 + i * 0x1000 + j * 0x20
  | .ndlSetDesc i j => 0x100108 + i * 0x1000 + j * 0x20
  | .ndlSetSrc i j => 0x100110 + i * 0x1000 + j * 0x20
  | .ndlSetCnt i j => 0x100118 + i * 0x1000 + j * 0x20
  | .ndlCq i j => 0x100200 + i * 0x1000 + j * 0x8

/-- A family of registers: first offset, outer stride and count, inner stride and count, and its registers. -/
abbrev Family : Type := Nat × Nat × Nat × Nat × Nat × (Nat → Nat → Reg)

/-- The families of registers in ascending order of their first offset, part 0. -/
def families0 : List Family :=
  [(0x0, 1, 1, 1, 1, fun _ _ => .id),
   (0x1000, 1, 1, 1, 1, fun _ _ => .thCmd),
   (0x1008, 1, 1, 1, 1, fun _ _ => .thDoorbell),
   (0x1010, 1, 1, 1, 1, fun _ _ => .thStat),
   (0x1018, 1, 1, 1, 1, fun _ _ => .thTimer),
   (0x1020, 1, 1, 1, 1, fun _ _ => .tsEcc),
   (0x1028, 1, 1, 1, 1, fun _ _ => .tsEccAt),
   (0x2000, 1, 1, 1, 1, fun _ _ => .lkCmd),
   (0x2008, 1, 1, 1, 1, fun _ _ => .lkStat),
   (0x3000, 1, 1, 1, 1, fun _ _ => .xfStat),
   (0x3100, 16, 64, 1, 1, fun a _ => .xfFence a),
   (0x3108, 16, 64, 1, 1, fun a _ => .xfFenceSt a),
   (0x4000, 8, 1024, 1, 1, fun a _ => .lk a),
   (0x6000, 1, 1, 1, 1, fun _ _ => .fltCtl),
   (0x6008, 1, 1, 1, 1, fun _ _ => .fltStat),
   (0x6010, 8, 4, 1, 1, fun a _ => .fltE a),
   (0x8000, 8, 1024, 1, 1, fun a _ => .irqRt a),
   (0xA000, 8, 16, 1, 1, fun a _ => .irqPend a),
   (0xA100, 32, 64, 1, 1, fun a _ => .irqLnCfg a),
   (0xA108, 32, 64, 1, 1, fun a _ => .irqLnAddr a),
   (0xA110, 32, 64, 1, 1, fun a _ => .irqLnStat a),
   (0x10000, 1, 1, 1, 1, fun _ _ => .otCtl),
   (0x10008, 1, 1, 1, 1, fun _ _ => .otGeom),
   (0x10010, 1, 1, 1, 1, fun _ _ => .otBclk),
   (0x10018, 1, 1, 1, 1, fun _ _ => .otXing),
   (0x10020, 1, 1, 1, 1, fun _ _ => .otFine),
   (0x10028, 1, 1, 1, 1, fun _ _ => .otShadow),
   (0x10030, 1, 1, 1, 1, fun _ _ => .otLoad),
   (0x10038, 1, 1, 1, 1, fun _ _ => .otAlign),
   (0x10040, 1, 1, 1, 1, fun _ _ => .otAlignCfg)]

/-- The families of registers in ascending order of their first offset, part 1. -/
def families1 : List Family :=
  [(0x10048, 1, 1, 1, 1, fun _ _ => .otStepFrom),
   (0x10050, 1, 1, 1, 1, fun _ _ => .otStat),
   (0x10058, 1, 1, 1, 1, fun _ _ => .otSetat),
   (0x10100, 16, 4, 1, 1, fun a _ => .otWmCfg a),
   (0x10108, 16, 4, 1, 1, fun a _ => .otWmLvl a),
   (0x10400, 1, 1, 1, 1, fun _ _ => .decCfg),
   (0x10408, 1, 1, 1, 1, fun _ _ => .decInj),
   (0x10410, 1, 1, 1, 1, fun _ _ => .decStat),
   (0x10418, 1, 1, 1, 1, fun _ _ => .decCnt0),
   (0x10420, 1, 1, 1, 1, fun _ _ => .decCnt1),
   (0x10428, 1, 1, 1, 1, fun _ _ => .decCnt2),
   (0x10430, 1, 1, 1, 1, fun _ _ => .decLast),
   (0x12000, 8, 1024, 1, 1, fun a _ => .decTbl a),
   (0x20000, 1, 1, 1, 1, fun _ _ => .seamCfg),
   (0x20008, 1, 1, 1, 1, fun _ _ => .seamStat),
   (0x20010, 1, 1, 1, 1, fun _ _ => .seamRing),
   (0x20018, 1, 1, 1, 1, fun _ _ => .seamHop),
   (0x20020, 1, 1, 1, 1, fun _ _ => .seamCnt),
   (0x20028, 1, 1, 1, 1, fun _ _ => .seamTmo),
   (0x20030, 1, 1, 1, 1, fun _ _ => .seamSendh),
   (0x20038, 1, 1, 1, 1, fun _ _ => .seamSendd0),
   (0x20040, 1, 1, 1, 1, fun _ _ => .seamSendd1),
   (0x20048, 1, 1, 1, 1, fun _ _ => .seamRxq),
   (0x20050, 1, 1, 1, 1, fun _ _ => .seamByp),
   (0x30000, 1, 1, 1, 1, fun _ _ => .seal),
   (0x30010, 1, 1, 1, 1, fun _ _ => .commit),
   (0x30018, 1, 1, 1, 1, fun _ _ => .commitCfg),
   (0x30020, 1, 1, 1, 1, fun _ _ => .cfgset),
   (0x30028, 1, 1, 1, 1, fun _ _ => .commitStat),
   (0x31000, 16, 64, 1, 1, fun a _ => .pdCfg a)]

/-- The families of registers in ascending order of their first offset, part 2. -/
def families2 : List Family :=
  [(0x31008, 16, 64, 1, 1, fun a _ => .pdWin a),
   (0x32000, 32, 256, 1, 1, fun a _ => .winBase a),
   (0x32008, 32, 256, 1, 1, fun a _ => .winLimit a),
   (0x32010, 32, 256, 1, 1, fun a _ => .winAttr a),
   (0x40000, 256, 16, 1, 1, fun a _ => .mpCtl a),
   (0x40008, 256, 16, 1, 1, fun a _ => .mpArb a),
   (0x40010, 256, 16, 1, 1, fun a _ => .mpCred a),
   (0x40018, 256, 16, 1, 1, fun a _ => .mpStat a),
   (0x40020, 256, 16, 1, 1, fun a _ => .mpErrat a),
   (0x40028, 256, 16, 1, 1, fun a _ => .mpCnt a),
   (0x40030, 256, 16, 1, 1, fun a _ => .mpWait a),
   (0x42000, 8, 133, 1, 1, fun a _ => .arbRq a),
   (0x44000, 32, 256, 1, 1, fun a _ => .rlCfg a),
   (0x44008, 32, 256, 1, 1, fun a _ => .rlBase a),
   (0x44010, 32, 256, 1, 1, fun a _ => .rlStat a),
   (0x50008, 1, 1, 1, 1, fun _ _ => .spcStat),
   (0x50010, 1, 1, 1, 1, fun _ _ => .spcPerrAt),
   (0x50020, 8, 4, 1, 1, fun a _ => .spcSum a),
   (0x50100, 64, 16, 1, 1, fun a _ => .ipCtl a),
   (0x50108, 64, 16, 1, 1, fun a _ => .ipStat a),
   (0x50110, 64, 16, 1, 1, fun a _ => .ipDrop a),
   (0x50118, 64, 16, 1, 1, fun a _ => .ipBp a),
   (0x50800, 128, 16, 8, 16, fun a b => .ipMap a b),
   (0x54000, 128, 256, 1, 1, fun a _ => .spCfg a),
   (0x54008, 128, 256, 1, 1, fun a _ => .spCtl a),
   (0x54010, 128, 256, 1, 1, fun a _ => .spDeepbase a),
   (0x54018, 128, 256, 1, 1, fun a _ => .spDeepcfg a),
   (0x54020, 128, 256, 1, 1, fun a _ => .spWm a),
   (0x54028, 128, 256, 1, 1, fun a _ => .spLvl a),
   (0x54030, 128, 256, 1, 1, fun a _ => .spWp a)]

/-- The families of registers in ascending order of their first offset, part 3. -/
def families3 : List Family :=
  [(0x54038, 128, 256, 1, 1, fun a _ => .spFp a),
   (0x54040, 128, 256, 1, 1, fun a _ => .spHp a),
   (0x54048, 128, 256, 1, 1, fun a _ => .spStat a),
   (0x54050, 128, 256, 1, 1, fun a _ => .spCnt a),
   (0x54058, 128, 256, 1, 1, fun a _ => .spLapat a),
   (0x60000, 1, 1, 1, 1, fun _ _ => .pwrStat),
   (0x60008, 1, 1, 1, 1, fun _ _ => .rstCtl),
   (0x60010, 8, 4, 1, 1, fun a _ => .clkNpll a),
   (0x60040, 1, 1, 1, 1, fun _ _ => .pwrTd),
   (0x60048, 1, 1, 1, 1, fun _ _ => .pwrTdack),
   (0x60050, 1, 1, 1, 1, fun _ _ => .pwrTdwake),
   (0x60060, 1, 1, 1, 1, fun _ _ => .pwrWakecfg),
   (0x60070, 8, 2, 1, 1, fun a _ => .pwrNdlq a),
   (0x60080, 1, 1, 1, 1, fun _ _ => .dbgCtl),
   (0x60088, 1, 1, 1, 1, fun _ _ => .dbgMaddr),
   (0x60090, 1, 1, 1, 1, fun _ _ => .dbgMcmd),
   (0x600C0, 8, 8, 1, 1, fun a _ => .dbgMdata a),
   (0x60100, 1, 1, 1, 1, fun _ _ => .lc),
   (0x70000, 1, 1, 1, 1, fun _ _ => .pmcCtl),
   (0x70010, 8, 10, 1, 1, fun a _ => .pmcOvf a),
   (0x70100, 1, 1, 1, 1, fun _ _ => .hvCtl),
   (0x70108, 1, 1, 1, 1, fun _ _ => .hvAt),
   (0x70110, 1, 1, 1, 1, fun _ _ => .hvAddr),
   (0x70118, 1, 1, 1, 1, fun _ _ => .hvStat),
   (0x70200, 1, 1, 1, 1, fun _ _ => .isCfg),
   (0x70208, 1, 1, 1, 1, fun _ _ => .isRing),
   (0x70210, 1, 1, 1, 1, fun _ _ => .isIdx),
   (0x70218, 1, 1, 1, 1, fun _ _ => .isStat),
   (0x71000, 16, 592, 1, 1, fun a _ => .pmcCfg a),
   (0x71008, 16, 592, 1, 1, fun a _ => .pmcCnt a)]

/-- The families of registers in ascending order of their first offset, part 4. -/
def families4 : List Family :=
  [(0x74000, 8, 592, 1, 1, fun a _ => .pmcSnap a),
   (0x80000, 1, 1, 1, 1, fun _ _ => .svcEn),
   (0x80008, 1, 1, 1, 1, fun _ _ => .wdCfg),
   (0x80010, 1, 1, 1, 1, fun _ _ => .wdRing),
   (0x80018, 1, 1, 1, 1, fun _ _ => .wdIdx),
   (0x80020, 1, 1, 1, 1, fun _ _ => .wdStat),
   (0x80028, 1, 1, 1, 1, fun _ _ => .wdEcc),
   (0x80030, 1, 1, 1, 1, fun _ _ => .wdPass),
   (0x80040, 1, 1, 1, 1, fun _ _ => .calCfg),
   (0x80048, 1, 1, 1, 1, fun _ _ => .calDskcfg),
   (0x80050, 8, 2, 1, 1, fun a _ => .calEmpty a),
   (0x80060, 1, 1, 1, 1, fun _ _ => .calStat),
   (0x80068, 1, 1, 1, 1, fun _ _ => .calPhase),
   (0x80080, 1, 1, 1, 1, fun _ _ => .monCfg),
   (0x80088, 1, 1, 1, 1, fun _ _ => .monBase),
   (0x80090, 1, 1, 1, 1, fun _ _ => .monStat),
   (0x800A0, 1, 1, 1, 1, fun _ _ => .stkCfg),
   (0x800A8, 1, 1, 1, 1, fun _ _ => .stkStat),
   (0x800C0, 1, 1, 1, 1, fun _ _ => .rotCfg),
   (0x800C8, 1, 1, 1, 1, fun _ _ => .rotStat),
   (0x80100, 8, 16, 1, 1, fun a _ => .calDsk a),
   (0x80400, 8, 128, 1, 1, fun a _ => .rotAge a),
   (0x80800, 8, 256, 1, 1, fun a _ => .svcSp a),
   (0x81000, 8, 1024, 1, 1, fun a _ => .stkFlag a),
   (0x83000, 8, 2048, 1, 1, fun a _ => .occTot a),
   (0x87000, 1, 1, 1, 1, fun _ _ => .bbCtl),
   (0x87008, 1, 1, 1, 1, fun _ _ => .bbTypeen),
   (0x87010, 1, 1, 1, 1, fun _ _ => .bbFrzen),
   (0x87018, 1, 1, 1, 1, fun _ _ => .bbStat),
   (0x87020, 1, 1, 1, 1, fun _ _ => .bbSoft)]

/-- The families of registers in ascending order of their first offset, part 5. -/
def families5 : List Family :=
  [(0x87028, 1, 1, 1, 1, fun _ _ => .bbFlush),
   (0x88000, 32, 1024, 8, 4, fun a b => .bbLog a b),
   (0x100000, 4096, 128, 1, 1, fun a _ => .ndlCtl a),
   (0x100008, 4096, 128, 1, 1, fun a _ => .ndlCfg a),
   (0x100010, 4096, 128, 1, 1, fun a _ => .ndlStat a),
   (0x100040, 4096, 128, 8, 8, fun a b => .ndlSlot a b),
   (0x100080, 4096, 128, 1, 1, fun a _ => .ndlXfStat a),
   (0x100088, 4096, 128, 1, 1, fun a _ => .ndlXfCnt a),
   (0x100100, 4096, 128, 32, 6, fun a b => .ndlSetCtl a b),
   (0x100108, 4096, 128, 32, 6, fun a b => .ndlSetDesc a b),
   (0x100110, 4096, 128, 32, 6, fun a b => .ndlSetSrc a b),
   (0x100118, 4096, 128, 32, 6, fun a b => .ndlSetCnt a b),
   (0x100200, 4096, 128, 8, 8, fun a b => .ndlCq a b)]

/-- The families of registers, in ascending order of their first offset. -/
def families : List Family :=
  families0 ++ families1 ++ families2 ++ families3 ++ families4 ++ families5

/-- The register at an offset, if one family covers it (R337). -/
def find (off : Nat) : List Family → Option Reg
  | [] => none
  | (b, s1, c1, s2, c2, mk) :: rest =>
    let d := off - b
    let r := d % s1
    if b ≤ off ∧ d / s1 < c1 ∧ r % s2 = 0 ∧ r / s2 < c2 ∧ (s2 = 1 → r = 0) then some (mk (d / s1) (r / s2))
    else find off rest

/-- The register at an offset of the CSR window; none where the offset is unassigned (R8, R337). -/
def ofOffset (off : Nat) : Option Reg := find off families

/-- The Reset value of a register: its table's Reset column, field by field (R11); fields shown as reserved are 0.
(log 20, DESIGN CHOICE; log 21, DESIGN CHOICE) -/
def reset : Reg → Word
  | .id => 0xD3A5022132217FFF#64
  | .irqLnCfg _ => 0x4000000000000000#64
  | .otGeom => 0x1FF00010FFF#64
  | .otBclk => 0x960#64
  | .otAlign => 0x8#64
  | .otAlignCfg => 0xFF#64
  | .otWmCfg _ => 0x8000000000080010#64
  | .otWmLvl _ => 0x80000000#64
  | .decCfg => 0x8#64
  | .decTbl _ => 0xC000000000000000#64
  | .seamCfg => 0x8300A00#64
  | .seamTmo => 0x3E803E8#64
  | .seamByp => 0x4000000000000000#64
  | .commitCfg => 0x40#64
  | .mpCtl _ => 0x100#64
  | .mpArb _ => 0x4000400003#64
  | .rlCfg _ => 0xF0000#64
  | .ipStat _ => 0x40#64
  | .ipMap i j => BitVec.ofNat 64 (i * 16 + j)
  | .spCfg i => 0x1F0000170000#64 ||| BitVec.ofNat 64 (i * 24)
  | .spDeepcfg _ => 0x2000#64
  | .spWm _ => 0x3FFFFFF#64
  | .spLvl _ => 0x80000000#64
  | .rstCtl => 0x64#64
  | .clkNpll _ => 0x50#64
  | .isCfg => 0x10F1000#64
  | .wdCfg => 0x10010001000040#64
  | .calCfg => 0x20840000780050#64
  | .calDskcfg => 0x400030#64
  | .calPhase => 0x40000000#64
  | .monCfg => 0x10#64
  | .stkCfg => 0x10#64
  | .rotCfg => 0x400000100000008#64
  | .calDsk _ => 0x4000000000000000#64
  | .svcSp i => BitVec.ofNat 64 (i * 16)
  | .bbTypeen => 0x3FFE#64
  | .bbFrzen => 0x108#64
  | .ndlCfg _ => 0x3E80002#64
  | .ndlStat _ => 0x2#64
  | _ => 0#64

end Reg

/-! The fields, by register. -/

namespace F

namespace Id
abbrev VALUE : Fld := ⟨63, 0⟩
end Id
namespace ThCmd
abbrev OP : Fld := ⟨63, 60⟩
abbrev GCHK : Fld := ⟨48, 48⟩
abbrev GEN : Fld := ⟨47, 32⟩
abbrev T : Fld := ⟨17, 0⟩
end ThCmd
namespace ThDoorbell
abbrev GCHK : Fld := ⟨48, 48⟩
abbrev GEN : Fld := ⟨47, 32⟩
abbrev T : Fld := ⟨17, 0⟩
end ThDoorbell
namespace ThStat
abbrev TS_UE : Fld := ⟨4, 4⟩
abbrev TS_CE : Fld := ⟨3, 3⟩
abbrev REC_BUSY : Fld := ⟨2, 2⟩
abbrev CMD_STATE : Fld := ⟨1, 1⟩
abbrev CMD_STALE : Fld := ⟨0, 0⟩
end ThStat
namespace ThTimer
abbrev TICKS : Fld := ⟨63, 0⟩
end ThTimer
namespace TsEcc
abbrev CE_CNT : Fld := ⟨63, 32⟩
abbrev UE_CNT : Fld := ⟨31, 0⟩
end TsEcc
namespace TsEccAt
abbrev UE : Fld := ⟨63, 63⟩
abbrev T : Fld := ⟨20, 3⟩
abbrev WORD : Fld := ⟨2, 0⟩
end TsEccAt
namespace LkCmd
abbrev OP : Fld := ⟨63, 60⟩
abbrev LOCK : Fld := ⟨9, 0⟩
end LkCmd
namespace LkStat
abbrev GRANT_BROKEN : Fld := ⟨2, 2⟩
abbrev OWNER_LOST : Fld := ⟨1, 1⟩
abbrev EXPIRED : Fld := ⟨0, 0⟩
end LkStat
namespace XfStat
abbrev FENCE_LIVE : Fld := ⟨1, 1⟩
abbrev STALE : Fld := ⟨0, 0⟩
end XfStat
namespace XfFence
abbrev VALID : Fld := ⟨63, 63⟩
abbrev GEN : Fld := ⟨58, 43⟩
abbrev ADDR : Fld := ⟨42, 0⟩
end XfFence
namespace XfFenceSt
abbrev LIVE : Fld := ⟨63, 63⟩
abbrev HITS : Fld := ⟨47, 32⟩
abbrev EXP : Fld := ⟨15, 0⟩
end XfFenceSt
namespace Lk
abbrev STATE : Fld := ⟨63, 62⟩
abbrev LEASE_END : Fld := ⟨55, 32⟩
abbrev WAITING : Fld := ⟨31, 31⟩
abbrev OWNER : Fld := ⟨17, 0⟩
end Lk
namespace FltCtl
abbrev POP : Fld := ⟨0, 0⟩
end FltCtl
namespace FltStat
abbrev OVF : Fld := ⟨63, 32⟩
abbrev QOVF : Fld := ⟨17, 17⟩
abbrev FAULT : Fld := ⟨16, 16⟩
abbrev COUNT : Fld := ⟨8, 0⟩
end FltStat
namespace FltE
abbrev WORD : Fld := ⟨63, 0⟩
end FltE
namespace IrqRt
abbrev EN : Fld := ⟨63, 63⟩
abbrev ASSERT : Fld := ⟨62, 62⟩
abbrev LINE : Fld := ⟨5, 0⟩
end IrqRt
namespace IrqPend
abbrev PEND : Fld := ⟨63, 0⟩
end IrqPend
namespace IrqLnCfg
abbrev MSI : Fld := ⟨63, 63⟩
abbrev ARMED : Fld := ⟨62, 62⟩
abbrev ACK : Fld := ⟨61, 61⟩
abbrev PD : Fld := ⟨53, 48⟩
abbrev DATA : Fld := ⟨31, 0⟩
end IrqLnCfg
namespace IrqLnAddr
abbrev ADDR : Fld := ⟨47, 3⟩
end IrqLnAddr
namespace IrqLnStat
abbrev LEVEL : Fld := ⟨63, 63⟩
abbrev MSI_SENT : Fld := ⟨47, 32⟩
abbrev NSRC : Fld := ⟨26, 16⟩
abbrev MSI_FAIL : Fld := ⟨15, 0⟩
end IrqLnStat
namespace OtCtl
abbrev RESYNC : Fld := ⟨6, 6⟩
abbrev LOAD_GO : Fld := ⟨5, 5⟩
abbrev MODE : Fld := ⟨2, 2⟩
abbrev RUN : Fld := ⟨1, 0⟩
end OtCtl
namespace OtGeom
abbrev DLAT : Fld := ⟨40, 32⟩
abbrev GAP : Fld := ⟨27, 16⟩
abbrev OLEN : Fld := ⟨11, 0⟩
end OtGeom
namespace OtBclk
abbrev MEAS : Fld := ⟨31, 16⟩
abbrev NOM : Fld := ⟨15, 0⟩
end OtBclk
namespace OtXing
abbrev ORBIT : Fld := ⟨63, 12⟩
abbrev SLOT : Fld := ⟨11, 0⟩
end OtXing
namespace OtFine
abbrev FINE : Fld := ⟨34, 32⟩
abbrev XING_LO : Fld := ⟨31, 0⟩
end OtFine
namespace OtShadow
abbrev SHADOW : Fld := ⟨63, 0⟩
end OtShadow
namespace OtLoad
abbrev VALUE : Fld := ⟨63, 0⟩
end OtLoad
namespace OtAlign
abbrev OFFSET : Fld := ⟨63, 48⟩
abbrev PHASE : Fld := ⟨47, 40⟩
abbrev MISSED : Fld := ⟨23, 8⟩
abbrev STATE : Fld := ⟨3, 0⟩
end OtAlign
namespace OtAlignCfg
abbrev AUTO_RESYNC : Fld := ⟨16, 16⟩
abbrev HOLD_ORBITS : Fld := ⟨15, 0⟩
end OtAlignCfg
namespace OtStepFrom
abbrev FROM : Fld := ⟨63, 0⟩
end OtStepFrom
namespace OtStat
abbrev LOAD_IGNORED : Fld := ⟨9, 9⟩
abbrev GEOM_BAD : Fld := ⟨8, 8⟩
abbrev GEOM_LOCKED : Fld := ⟨7, 7⟩
abbrev SETAT_FULL : Fld := ⟨6, 6⟩
abbrev SETAT_LATE : Fld := ⟨5, 5⟩
abbrev WRAP : Fld := ⟨4, 4⟩
abbrev STEP : Fld := ⟨3, 3⟩
abbrev ALIGN_LOST : Fld := ⟨2, 2⟩
abbrev BCLK_OFFNOM : Fld := ⟨1, 1⟩
abbrev BCLK_LOST : Fld := ⟨0, 0⟩
end OtStat
namespace OtSetat
abbrev FULL_CNT : Fld := ⟨63, 48⟩
abbrev LATE_CNT : Fld := ⟨47, 32⟩
abbrev HWM : Fld := ⟨24, 16⟩
abbrev PENDING : Fld := ⟨8, 0⟩
end OtSetat
namespace OtWmCfg
abbrev EN : Fld := ⟨63, 63⟩
abbrev LOW : Fld := ⟨27, 16⟩
abbrev HIGH : Fld := ⟨11, 0⟩
end OtWmCfg
namespace OtWmLvl
abbrev NOTICE : Fld := ⟨32, 32⟩
abbrev ARMED : Fld := ⟨31, 31⟩
abbrev LATE_CNT : Fld := ⟨30, 16⟩
abbrev LEVEL : Fld := ⟨15, 0⟩
end OtWmLvl
namespace DecCfg
abbrev SRC : Fld := ⟨17, 16⟩
abbrev GRACE : Fld := ⟨6, 0⟩
end DecCfg
namespace DecInj
abbrev PAYLOAD : Fld := ⟨63, 0⟩
end DecInj
namespace DecStat
abbrev INJ_OFF : Fld := ⟨6, 6⟩
abbrev FOREIGN : Fld := ⟨5, 5⟩
abbrev EARLY : Fld := ⟨4, 4⟩
abbrev LATE_DROP : Fld := ⟨3, 3⟩
abbrev CONFLICT : Fld := ⟨2, 2⟩
abbrev DUP : Fld := ⟨1, 1⟩
abbrev MISSING : Fld := ⟨0, 0⟩
end DecStat
namespace DecCnt0
abbrev ACC : Fld := ⟨63, 32⟩
abbrev REJ : Fld := ⟨31, 0⟩
end DecCnt0
namespace DecCnt1
abbrev MISSING : Fld := ⟨63, 48⟩
abbrev LATE : Fld := ⟨47, 32⟩
abbrev DROP : Fld := ⟨31, 16⟩
abbrev CONFLICT : Fld := ⟨15, 0⟩
end DecCnt1
namespace DecCnt2
abbrev HINTS : Fld := ⟨63, 32⟩
abbrev HINT_OK : Fld := ⟨31, 0⟩
end DecCnt2
namespace DecLast
abbrev XING : Fld := ⟨63, 40⟩
abbrev ACC : Fld := ⟨39, 39⟩
abbrev ROOT : Fld := ⟨35, 32⟩
abbrev TTYPE : Fld := ⟨31, 24⟩
abbrev EVNO : Fld := ⟨23, 0⟩
end DecLast
namespace DecTbl
abbrev STATE : Fld := ⟨63, 62⟩
abbrev WAITERS : Fld := ⟨61, 61⟩
abbrev XING : Fld := ⟨55, 32⟩
abbrev WORD : Fld := ⟨31, 0⟩
end DecTbl
namespace SeamCfg
abbrev NODE_ID : Fld := ⟨51, 40⟩
abbrev ROOTIDX : Fld := ⟨35, 32⟩
abbrev REF : Fld := ⟨31, 31⟩
abbrev ROOT : Fld := ⟨30, 30⟩
abbrev RRD : Fld := ⟨29, 29⟩
abbrev RWR : Fld := ⟨28, 28⟩
abbrev BBR : Fld := ⟨27, 27⟩
abbrev VERMAX : Fld := ⟨23, 20⟩
abbrev HITMAX : Fld := ⟨15, 8⟩
abbrev RETRAIN : Fld := ⟨4, 4⟩
abbrev MEASURE : Fld := ⟨3, 3⟩
abbrev EN : Fld := ⟨1, 0⟩
end SeamCfg
namespace SeamStat
abbrev RSTATE : Fld := ⟨63, 60⟩
abbrev RXNE : Fld := ⟨12, 12⟩
abbrev CFG_LOCKED : Fld := ⟨11, 11⟩
abbrev DUAL_REF : Fld := ⟨10, 10⟩
abbrev DUP_ID : Fld := ⟨9, 9⟩
abbrev VER_FAIL : Fld := ⟨8, 8⟩
abbrev GEOM_MISMATCH : Fld := ⟨7, 7⟩
abbrev LINK_DOWN : Fld := ⟨6, 6⟩
abbrev LINK_LOST : Fld := ⟨5, 5⟩
abbrev CRC : Fld := ⟨4, 4⟩
abbrev MALFORMED : Fld := ⟨3, 3⟩
abbrev UNREACH : Fld := ⟨2, 2⟩
abbrev RXOVF : Fld := ⟨1, 1⟩
abbrev SEND_REFUSED : Fld := ⟨0, 0⟩
end SeamStat
namespace SeamRing
abbrev VER : Fld := ⟨63, 60⟩
abbrev COUNT : Fld := ⟨59, 47⟩
abbrev ARC_ROOT : Fld := ⟨46, 43⟩
abbrev ARV : Fld := ⟨42, 42⟩
abbrev REF_ID : Fld := ⟨41, 30⟩
abbrev RTT : Fld := ⟨29, 0⟩
end SeamRing
namespace SeamHop
abbrev HOP_IN : Fld := ⟨59, 30⟩
abbrev DELAY : Fld := ⟨29, 0⟩
end SeamHop
namespace SeamCnt
abbrev CRC_ERR : Fld := ⟨63, 48⟩
abbrev MALFORMED : Fld := ⟨47, 32⟩
abbrev UNREACH : Fld := ⟨31, 16⟩
abbrev HITS : Fld := ⟨15, 0⟩
end SeamCnt
namespace SeamTmo
abbrev LKTMO : Fld := ⟨31, 16⟩
abbrev RTMO : Fld := ⟨15, 0⟩
end SeamTmo
namespace SeamSendh
abbrev TYPE : Fld := ⟨55, 48⟩
abbrev BC : Fld := ⟨47, 47⟩
abbrev DEST : Fld := ⟨43, 32⟩
end SeamSendh
namespace SeamSendd0
abbrev DATA : Fld := ⟨63, 0⟩
end SeamSendd0
namespace SeamSendd1
abbrev DATA : Fld := ⟨63, 0⟩
end SeamSendd1
namespace SeamRxq
abbrev WORD : Fld := ⟨63, 0⟩
end SeamRxq
namespace SeamByp
abbrev FORCE : Fld := ⟨63, 63⟩
abbrev ISL : Fld := ⟨62, 62⟩
abbrev PIN : Fld := ⟨61, 61⟩
abbrev SWITCHES : Fld := ⟨15, 0⟩
end SeamByp
namespace Seal
abbrev SEAL : Fld := ⟨63, 63⟩
abbrev VIOL : Fld := ⟨62, 62⟩
abbrev VSRC : Fld := ⟨61, 60⟩
abbrev VOFF : Fld := ⟨57, 32⟩
abbrev VCNT : Fld := ⟨15, 0⟩
end Seal
namespace Commit
abbrev OP : Fld := ⟨63, 62⟩
abbrev AT : Fld := ⟨61, 61⟩
abbrev ORBIT : Fld := ⟨51, 0⟩
end Commit
namespace CommitCfg
abbrev GUARD : Fld := ⟨11, 0⟩
end CommitCfg
namespace Cfgset
abbrev ACTIVE : Fld := ⟨63, 63⟩
abbrev PEND : Fld := ⟨62, 62⟩
abbrev SRC : Fld := ⟨61, 61⟩
abbrev TARGET : Fld := ⟨51, 0⟩
end Cfgset
namespace CommitStat
abbrev SWAPS : Fld := ⟨63, 32⟩
abbrev MERGED : Fld := ⟨31, 16⟩
abbrev CANCEL_LATE : Fld := ⟨3, 3⟩
abbrev REFUSED : Fld := ⟨2, 2⟩
abbrev SLIPPED : Fld := ⟨1, 1⟩
end CommitStat
namespace PdCfg
abbrev SETAT : Fld := ⟨9, 8⟩
abbrev VALID : Fld := ⟨7, 0⟩
end PdCfg
namespace PdWin
abbrev WIN : Fld := ⟨63, 0⟩
end PdWin
namespace WinBase
abbrev ADDR : Fld := ⟨47, 12⟩
end WinBase
namespace WinLimit
abbrev ADDR : Fld := ⟨47, 12⟩
end WinLimit
namespace WinAttr
abbrev EN : Fld := ⟨63, 63⟩
abbrev TDOM : Fld := ⟨21, 16⟩
abbrev HOME : Fld := ⟨11, 8⟩
abbrev S : Fld := ⟨2, 2⟩
abbrev W : Fld := ⟨1, 1⟩
abbrev R : Fld := ⟨0, 0⟩
end WinAttr
namespace MpCtl
abbrev TMO : Fld := ⟨15, 0⟩
end MpCtl
namespace MpArb
abbrev FREEZE : Fld := ⟨63, 63⟩
abbrev HOLD_LIMIT : Fld := ⟨47, 32⟩
abbrev WAIT_LIMIT : Fld := ⟨25, 16⟩
abbrev AGECAP : Fld := ⟨3, 0⟩
end MpArb
namespace MpCred
abbrev WR_OUT : Fld := ⟨62, 56⟩
abbrev RD_OUT : Fld := ⟨54, 48⟩
abbrev RDL_OUT : Fld := ⟨40, 32⟩
abbrev RETIRED : Fld := ⟨31, 24⟩
abbrev WD_HELD : Fld := ⟨22, 16⟩
abbrev RQ_HELD : Fld := ⟨5, 0⟩
end MpCred
namespace MpStat
abbrev DRAINED : Fld := ⟨9, 9⟩
abbrev CROVF : Fld := ⟨8, 8⟩
abbrev UNEXP : Fld := ⟨7, 7⟩
abbrev LATE_RSP : Fld := ⟨6, 6⟩
abbrev TMO : Fld := ⟨5, 5⟩
abbrev FORCED : Fld := ⟨4, 4⟩
abbrev ERR : Fld := ⟨3, 3⟩
abbrev HOLD : Fld := ⟨2, 2⟩
abbrev WDRAW : Fld := ⟨1, 1⟩
abbrev STARVE : Fld := ⟨0, 0⟩
end MpStat
namespace MpErrat
abbrev REQR : Fld := ⟨63, 56⟩
abbrev CODE : Fld := ⟨55, 53⟩
abbrev DIR : Fld := ⟨52, 52⟩
abbrev ADDR : Fld := ⟨47, 6⟩
end MpErrat
namespace MpCnt
abbrev RD : Fld := ⟨63, 32⟩
abbrev WR : Fld := ⟨31, 0⟩
end MpCnt
namespace MpWait
abbrev STARVE_REQ : Fld := ⟨63, 56⟩
abbrev HWM : Fld := ⟨39, 0⟩
end MpWait
namespace ArbRq
abbrev MASK : Fld := ⟨63, 63⟩
abbrev HOLDACT : Fld := ⟨62, 61⟩
abbrev OVR : Fld := ⟨60, 60⟩
abbrev OCLASS : Fld := ⟨59, 58⟩
abbrev HOLD_CNT : Fld := ⟨31, 16⟩
abbrev WDRAW_CNT : Fld := ⟨15, 0⟩
end ArbRq
namespace RlCfg
abbrev EN : Fld := ⟨63, 63⟩
abbrev MAXB : Fld := ⟨19, 16⟩
abbrev SIZE : Fld := ⟨15, 0⟩
end RlCfg
namespace RlBase
abbrev ADDR : Fld := ⟨47, 10⟩
end RlBase
namespace RlStat
abbrev WDRAW : Fld := ⟨63, 48⟩
abbrev EARLY : Fld := ⟨47, 32⟩
abbrev BREAKS : Fld := ⟨31, 16⟩
abbrev CFG_LOCKED : Fld := ⟨3, 3⟩
abbrev REQ_WITHDRAWN : Fld := ⟨2, 2⟩
abbrev REQ : Fld := ⟨0, 0⟩
end RlStat
namespace SpcStat
abbrev PERR_CNT : Fld := ⟨63, 32⟩
abbrev WIPE_DONE : Fld := ⟨2, 2⟩
abbrev MAP_CONFLICT : Fld := ⟨1, 1⟩
abbrev PERR : Fld := ⟨0, 0⟩
end SpcStat
namespace SpcPerrAt
abbrev REG : Fld := ⟨31, 31⟩
abbrev LANES : Fld := ⟨27, 24⟩
abbrev GRANULE : Fld := ⟨20, 8⟩
abbrev WORD : Fld := ⟨4, 0⟩
end SpcPerrAt
namespace SpcSum
abbrev ANY : Fld := ⟨63, 0⟩
end SpcSum
namespace IpCtl
abbrev EN : Fld := ⟨1, 0⟩
end IpCtl
namespace IpStat
abbrev CLK_OK : Fld := ⟨7, 7⟩
abbrev QUAR : Fld := ⟨6, 6⟩
abbrev CLK_LOST : Fld := ⟨5, 5⟩
abbrev POISON_IN : Fld := ⟨4, 4⟩
abbrev UNMAPPED : Fld := ⟨3, 3⟩
abbrev TRUNC : Fld := ⟨2, 2⟩
abbrev PROTO : Fld := ⟨1, 1⟩
abbrev BP_HOL : Fld := ⟨0, 0⟩
end IpStat
namespace IpDrop
abbrev QDROP : Fld := ⟨63, 32⟩
abbrev DROP : Fld := ⟨31, 0⟩
end IpDrop
namespace IpBp
abbrev CYCLES : Fld := ⟨47, 0⟩
end IpBp
namespace IpMap
abbrev VALID : Fld := ⟨63, 63⟩
abbrev SPOOL : Fld := ⟨7, 0⟩
end IpMap
namespace SpCfg
abbrev MODE : Fld := ⟨63, 62⟩
abbrev LAPGUARD : Fld := ⟨47, 40⟩
abbrev COUNT : Fld := ⟨28, 16⟩
abbrev BASE : Fld := ⟨12, 0⟩
end SpCfg
namespace SpCtl
abbrev FORCE : Fld := ⟨2, 2⟩
abbrev EN : Fld := ⟨1, 0⟩
end SpCtl
namespace SpDeepbase
abbrev ADDR : Fld := ⟨47, 10⟩
end SpDeepbase
namespace SpDeepcfg
abbrev LEN : Fld := ⟨51, 32⟩
abbrev PD : Fld := ⟨21, 16⟩
abbrev CLASS : Fld := ⟨13, 12⟩
abbrev NDL : Fld := ⟨6, 0⟩
end SpDeepcfg
namespace SpWm
abbrev LOW : Fld := ⟨57, 32⟩
abbrev HIGH : Fld := ⟨25, 0⟩
end SpWm
namespace SpLvl
abbrev NOTICE : Fld := ⟨32, 32⟩
abbrev ARMED : Fld := ⟨31, 31⟩
abbrev LEVEL : Fld := ⟨25, 0⟩
end SpLvl
namespace SpWp
abbrev POS : Fld := ⟨47, 0⟩
end SpWp
namespace SpFp
abbrev POS : Fld := ⟨47, 0⟩
end SpFp
namespace SpHp
abbrev POS : Fld := ⟨47, 0⟩
end SpHp
namespace SpStat
abbrev CFG_LOCKED : Fld := ⟨6, 6⟩
abbrev REGION_BAD : Fld := ⟨5, 5⟩
abbrev DEEP_ERR : Fld := ⟨4, 4⟩
abbrev HEAD_LAP : Fld := ⟨3, 3⟩
abbrev LAP : Fld := ⟨2, 2⟩
abbrev FULL : Fld := ⟨0, 0⟩
end SpStat
namespace SpCnt
abbrev LAP_CNT : Fld := ⟨63, 48⟩
abbrev DROP : Fld := ⟨47, 16⟩
abbrev MARKS : Fld := ⟨9, 0⟩
end SpCnt
namespace SpLapat
abbrev POS : Fld := ⟨47, 0⟩
end SpLapat
namespace PwrStat
abbrev LASTRST : Fld := ⟨58, 56⟩
abbrev NPLL_UNLOCK : Fld := ⟨3, 3⟩
abbrev CLK_LOCKED : Fld := ⟨2, 2⟩
abbrev CORE_LOST : Fld := ⟨1, 1⟩
abbrev WR_UNDRAINED : Fld := ⟨0, 0⟩
end PwrStat
namespace RstCtl
abbrev KEY : Fld := ⟨63, 48⟩
abbrev WARM : Fld := ⟨16, 16⟩
abbrev QTMO : Fld := ⟨15, 0⟩
end RstCtl
namespace ClkNpll
abbrev LOCK : Fld := ⟨63, 63⟩
abbrev MULT : Fld := ⟨6, 0⟩
end ClkNpll
namespace PwrTd
abbrev DOM : Fld := ⟨63, 0⟩
end PwrTd
namespace PwrTdack
abbrev DOM : Fld := ⟨63, 0⟩
end PwrTdack
namespace PwrTdwake
abbrev DOM : Fld := ⟨63, 0⟩
end PwrTdwake
namespace PwrWakecfg
abbrev USER : Fld := ⟨1, 1⟩
abbrev RETRAIN : Fld := ⟨0, 0⟩
end PwrWakecfg
namespace PwrNdlq
abbrev REQ : Fld := ⟨63, 0⟩
end PwrNdlq
namespace DbgCtl
abbrev MEN : Fld := ⟨63, 63⟩
abbrev FULL : Fld := ⟨62, 62⟩
end DbgCtl
namespace DbgMaddr
abbrev ADDR : Fld := ⟨47, 6⟩
end DbgMaddr
namespace DbgMcmd
abbrev OP : Fld := ⟨63, 62⟩
abbrev BUSY : Fld := ⟨61, 61⟩
abbrev POISON : Fld := ⟨60, 60⟩
abbrev CODE : Fld := ⟨59, 56⟩
abbrev PD : Fld := ⟨53, 48⟩
end DbgMcmd
namespace DbgMdata
abbrev DATA : Fld := ⟨63, 0⟩
end DbgMdata
namespace Lc
abbrev STATE : Fld := ⟨63, 62⟩
abbrev LC_BAD : Fld := ⟨61, 61⟩
abbrev KEY : Fld := ⟨31, 16⟩
abbrev NEXT : Fld := ⟨1, 0⟩
end Lc
namespace PmcCtl
abbrev FREEZE : Fld := ⟨63, 63⟩
abbrev FRZ_OVF : Fld := ⟨62, 62⟩
abbrev CLEAR : Fld := ⟨0, 0⟩
end PmcCtl
namespace PmcOvf
abbrev OVF : Fld := ⟨63, 0⟩
end PmcOvf
namespace HvCtl
abbrev OP : Fld := ⟨63, 62⟩
abbrev PD : Fld := ⟨53, 48⟩
end HvCtl
namespace HvAt
abbrev XING : Fld := ⟨63, 0⟩
end HvAt
namespace HvAddr
abbrev ADDR : Fld := ⟨47, 13⟩
end HvAddr
namespace HvStat
abbrev SEQ : Fld := ⟨63, 32⟩
abbrev PKIND : Fld := ⟨15, 14⟩
abbrev PEND : Fld := ⟨13, 13⟩
abbrev BUSY : Fld := ⟨12, 12⟩
abbrev DONE : Fld := ⟨5, 5⟩
abbrev ERR : Fld := ⟨4, 4⟩
abbrev MISSED : Fld := ⟨3, 3⟩
abbrev REFUSED : Fld := ⟨2, 2⟩
abbrev LATE : Fld := ⟨1, 1⟩
end HvStat
namespace IsCfg
abbrev SEED : Fld := ⟨47, 24⟩
abbrev CLSMASK : Fld := ⟨19, 16⟩
abbrev K : Fld := ⟨12, 8⟩
abbrev EN : Fld := ⟨1, 0⟩
end IsCfg
namespace IsRing
abbrev SIZE : Fld := ⟨59, 56⟩
abbrev PD : Fld := ⟨53, 48⟩
abbrev ADDR : Fld := ⟨47, 5⟩
end IsRing
namespace IsIdx
abbrev RIDX : Fld := ⟨51, 32⟩
abbrev WIDX : Fld := ⟨19, 0⟩
end IsIdx
namespace IsStat
abbrev DROP : Fld := ⟨63, 48⟩
abbrev SKIP : Fld := ⟨47, 32⟩
abbrev CFG_LOCKED : Fld := ⟨2, 2⟩
abbrev RFAIL : Fld := ⟨1, 1⟩
abbrev RFULL : Fld := ⟨0, 0⟩
end IsStat
namespace PmcCfg
abbrev EN : Fld := ⟨63, 63⟩
abbrev OVI : Fld := ⟨62, 62⟩
abbrev QV : Fld := ⟨24, 24⟩
abbrev QSPOOL : Fld := ⟨23, 16⟩
abbrev EVENT : Fld := ⟨9, 0⟩
end PmcCfg
namespace PmcCnt
abbrev OVF : Fld := ⟨63, 63⟩
abbrev LOST_OVF : Fld := ⟨62, 62⟩
abbrev VALUE : Fld := ⟨47, 0⟩
end PmcCnt
namespace PmcSnap
abbrev SNAP : Fld := ⟨63, 0⟩
end PmcSnap
namespace SvcEn
abbrev STK : Fld := ⟨9, 8⟩
abbrev MON : Fld := ⟨7, 6⟩
abbrev ROT : Fld := ⟨5, 4⟩
abbrev CAL : Fld := ⟨3, 2⟩
abbrev WD : Fld := ⟨1, 0⟩
end SvcEn
namespace WdCfg
abbrev SP_INT : Fld := ⟨63, 48⟩
abbrev MAP_INT : Fld := ⟨47, 32⟩
abbrev PM_INT : Fld := ⟨31, 16⟩
abbrev TS_INT : Fld := ⟨15, 0⟩
end WdCfg
namespace WdRing
abbrev REN : Fld := ⟨63, 63⟩
abbrev REC_CE : Fld := ⟨62, 62⟩
abbrev SIZE : Fld := ⟨59, 56⟩
abbrev PD : Fld := ⟨53, 48⟩
abbrev ADDR : Fld := ⟨47, 5⟩
end WdRing
namespace WdIdx
abbrev RIDX : Fld := ⟨51, 32⟩
abbrev WIDX : Fld := ⟨19, 0⟩
end WdIdx
namespace WdStat
abbrev RDROP : Fld := ⟨63, 48⟩
abbrev CFG_LOCKED : Fld := ⟨4, 4⟩
abbrev RFAIL : Fld := ⟨3, 3⟩
abbrev RFULL : Fld := ⟨2, 2⟩
abbrev UE : Fld := ⟨1, 1⟩
abbrev CE : Fld := ⟨0, 0⟩
end WdStat
namespace WdEcc
abbrev MAP_UE : Fld := ⟨63, 48⟩
abbrev MAP_CE : Fld := ⟨47, 32⟩
abbrev PM_UE : Fld := ⟨31, 16⟩
abbrev PM_CE : Fld := ⟨15, 0⟩
end WdEcc
namespace WdPass
abbrev SP : Fld := ⟨63, 48⟩
abbrev MAP : Fld := ⟨47, 32⟩
abbrev PM : Fld := ⟨31, 16⟩
abbrev TS : Fld := ⟨15, 0⟩
end WdPass
namespace CalCfg
abbrev MAXDEV : Fld := ⟨63, 48⟩
abbrev K : Fld := ⟨47, 44⟩
abbrev AVG : Fld := ⟨43, 40⟩
abbrev PH_HIGH : Fld := ⟨31, 16⟩
abbrev PH_LOW : Fld := ⟨15, 0⟩
end CalCfg
namespace CalDskcfg
abbrev HIGH : Fld := ⟨31, 16⟩
abbrev LOW : Fld := ⟨15, 0⟩
end CalDskcfg
namespace CalEmpty
abbrev VB : Fld := ⟨63, 63⟩
abbrev LASTB : Fld := ⟨59, 48⟩
abbrev FIRSTB : Fld := ⟨43, 32⟩
abbrev VA : Fld := ⟨31, 31⟩
abbrev LASTA : Fld := ⟨27, 16⟩
abbrev FIRSTA : Fld := ⟨11, 0⟩
end CalEmpty
namespace CalStat
abbrev PED_REJ : Fld := ⟨63, 48⟩
abbrev PED_WR : Fld := ⟨47, 32⟩
abbrev PHASE : Fld := ⟨2, 2⟩
abbrev DSK : Fld := ⟨1, 1⟩
abbrev REJ : Fld := ⟨0, 0⟩
end CalStat
namespace CalPhase
abbrev NMARK : Fld := ⟨47, 32⟩
abbrev VALID : Fld := ⟨31, 31⟩
abbrev ARMED : Fld := ⟨30, 30⟩
abbrev PS : Fld := ⟨15, 0⟩
end CalPhase
namespace MonCfg
abbrev DELTA : Fld := ⟨63, 48⟩
abbrev PD : Fld := ⟨37, 32⟩
abbrev FRAME : Fld := ⟨15, 0⟩
end MonCfg
namespace MonBase
abbrev ADDR : Fld := ⟨47, 18⟩
end MonBase
namespace MonStat
abbrev SEQ : Fld := ⟨63, 32⟩
abbrev ABORTS : Fld := ⟨31, 16⟩
abbrev BUSY : Fld := ⟨3, 3⟩
abbrev ERR : Fld := ⟨2, 2⟩
abbrev ABORT : Fld := ⟨1, 1⟩
abbrev CFG_LOCKED : Fld := ⟨0, 0⟩
end MonStat
namespace StkCfg
abbrev K : Fld := ⟨7, 0⟩
end StkCfg
namespace StkStat
abbrev COUNT : Fld := ⟨63, 48⟩
abbrev NEW : Fld := ⟨32, 32⟩
abbrev LASTCH : Fld := ⟨15, 0⟩
end StkStat
namespace RotCfg
abbrev ORB : Fld := ⟨63, 48⟩
abbrev STEP : Fld := ⟨38, 32⟩
abbrev INT : Fld := ⟨7, 0⟩
end RotCfg
namespace RotStat
abbrev PASSES : Fld := ⟨63, 48⟩
abbrev SKIPS : Fld := ⟨47, 32⟩
abbrev SKIP : Fld := ⟨1, 1⟩
abbrev ACTIVE : Fld := ⟨0, 0⟩
end RotStat
namespace CalDsk
abbrev NOTICE : Fld := ⟨63, 63⟩
abbrev ARMED : Fld := ⟨62, 62⟩
abbrev MAX : Fld := ⟨47, 32⟩
abbrev MIN : Fld := ⟨31, 16⟩
abbrev LAST : Fld := ⟨15, 0⟩
end CalDsk
namespace RotAge
abbrev US : Fld := ⟨47, 0⟩
end RotAge
namespace SvcSp
abbrev PED : Fld := ⟨63, 63⟩
abbrev OCC : Fld := ⟨62, 62⟩
abbrev STK : Fld := ⟨61, 61⟩
abbrev CSTEP : Fld := ⟨60, 60⟩
abbrev CH0 : Fld := ⟨15, 0⟩
end SvcSp
namespace StkFlag
abbrev FLAG : Fld := ⟨63, 0⟩
end StkFlag
namespace OccTot
abbrev TOT1 : Fld := ⟨63, 32⟩
abbrev TOT0 : Fld := ⟨31, 0⟩
end OccTot
namespace BbCtl
abbrev FREEZE : Fld := ⟨63, 63⟩
abbrev ARM : Fld := ⟨62, 62⟩
abbrev POST : Fld := ⟨41, 32⟩
end BbCtl
namespace BbTypeen
abbrev EN : Fld := ⟨63, 0⟩
end BbTypeen
namespace BbFrzen
abbrev EN : Fld := ⟨63, 0⟩
end BbFrzen
namespace BbStat
abbrev FROZEN : Fld := ⟨63, 63⟩
abbrev FRZ : Fld := ⟨62, 62⟩
abbrev FLUSH_ERR : Fld := ⟨61, 61⟩
abbrev DONE : Fld := ⟨60, 60⟩
abbrev DROP : Fld := ⟨47, 32⟩
abbrev TRIG : Fld := ⟨25, 16⟩
abbrev WIDX : Fld := ⟨9, 0⟩
end BbStat
namespace BbSoft
abbrev VALUE : Fld := ⟨63, 0⟩
end BbSoft
namespace BbFlush
abbrev EN : Fld := ⟨63, 63⟩
abbrev PD : Fld := ⟨53, 48⟩
abbrev ADDR : Fld := ⟨47, 15⟩
end BbFlush
namespace BbLog
abbrev WORD : Fld := ⟨63, 0⟩
end BbLog
namespace NdlCtl
abbrev EN : Fld := ⟨1, 0⟩
end NdlCtl
namespace NdlCfg
abbrev PG_IDLE : Fld := ⟨31, 16⟩
abbrev RSV0 : Fld := ⟨3, 0⟩
end NdlCfg
namespace NdlStat
abbrev RDYQ : Fld := ⟨50, 32⟩
abbrev RES : Fld := ⟨23, 16⟩
abbrev SUSP : Fld := ⟨10, 8⟩
abbrev PWR : Fld := ⟨2, 0⟩
end NdlStat
namespace NdlSlot
abbrev VALID : Fld := ⟨63, 63⟩
abbrev CLASS : Fld := ⟨19, 18⟩
abbrev T : Fld := ⟨17, 0⟩
end NdlSlot
namespace NdlXfStat
abbrev CPL : Fld := ⟨0, 0⟩
end NdlXfStat
namespace NdlXfCnt
abbrev DONE : Fld := ⟨63, 32⟩
abbrev DISC : Fld := ⟨31, 16⟩
abbrev CQ : Fld := ⟨3, 0⟩
end NdlXfCnt
namespace NdlSetCtl
abbrev VALID : Fld := ⟨63, 63⟩
abbrev STATE : Fld := ⟨62, 60⟩
abbrev RES : Fld := ⟨59, 56⟩
abbrev OP : Fld := ⟨55, 48⟩
abbrev SPEC : Fld := ⟨47, 47⟩
abbrev MODE : Fld := ⟨45, 44⟩
abbrev T : Fld := ⟨17, 0⟩
end NdlSetCtl
namespace NdlSetDesc
abbrev KIND : Fld := ⟨63, 61⟩
abbrev GEN : Fld := ⟨58, 43⟩
abbrev ADDR : Fld := ⟨42, 0⟩
end NdlSetDesc
namespace NdlSetSrc
abbrev SPOOL : Fld := ⟨63, 56⟩
abbrev POS : Fld := ⟨47, 0⟩
end NdlSetSrc
namespace NdlSetCnt
abbrev PCNT : Fld := ⟨63, 56⟩
abbrev DWORDS : Fld := ⟨47, 24⟩
abbrev REMAIN : Fld := ⟨23, 0⟩
end NdlSetCnt
namespace NdlCq
abbrev VALID : Fld := ⟨63, 63⟩
abbrev SP : Fld := ⟨62, 62⟩
abbrev IRQ : Fld := ⟨61, 61⟩
abbrev T : Fld := ⟨60, 43⟩
abbrev ADDR : Fld := ⟨42, 0⟩
end NdlCq

end F

/-- The fields of a register with their access types; every other bit is reserved (R6, R8). -/
def Reg.fields : Reg → List (Fld × Acc)
  | .id => [(F.Id.VALUE, .ro)]
  | .thCmd => [(F.ThCmd.OP, .wo), (F.ThCmd.GCHK, .wo), (F.ThCmd.GEN, .wo), (F.ThCmd.T, .wo)]
  | .thDoorbell => [(F.ThDoorbell.GCHK, .wo), (F.ThDoorbell.GEN, .wo), (F.ThDoorbell.T, .wo)]
  | .thStat => [(F.ThStat.TS_UE, .w1c), (F.ThStat.TS_CE, .w1c), (F.ThStat.REC_BUSY, .w1c), (F.ThStat.CMD_STATE, .w1c), (F.ThStat.CMD_STALE, .w1c)]
  | .thTimer => [(F.ThTimer.TICKS, .ro)]
  | .tsEcc => [(F.TsEcc.CE_CNT, .rc), (F.TsEcc.UE_CNT, .rc)]
  | .tsEccAt => [(F.TsEccAt.UE, .ro), (F.TsEccAt.T, .ro), (F.TsEccAt.WORD, .ro)]
  | .lkCmd => [(F.LkCmd.OP, .wo), (F.LkCmd.LOCK, .wo)]
  | .lkStat => [(F.LkStat.GRANT_BROKEN, .w1c), (F.LkStat.OWNER_LOST, .w1c), (F.LkStat.EXPIRED, .w1c)]
  | .xfStat => [(F.XfStat.FENCE_LIVE, .w1c), (F.XfStat.STALE, .w1c)]
  | .xfFence _ => [(F.XfFence.VALID, .rw), (F.XfFence.GEN, .rw), (F.XfFence.ADDR, .rw)]
  | .xfFenceSt _ => [(F.XfFenceSt.LIVE, .ro), (F.XfFenceSt.HITS, .rc), (F.XfFenceSt.EXP, .rw)]
  | .lk _ => [(F.Lk.STATE, .ro), (F.Lk.LEASE_END, .ro), (F.Lk.WAITING, .ro), (F.Lk.OWNER, .ro)]
  | .fltCtl => [(F.FltCtl.POP, .wo)]
  | .fltStat => [(F.FltStat.OVF, .rc), (F.FltStat.QOVF, .w1c), (F.FltStat.FAULT, .w1c), (F.FltStat.COUNT, .ro)]
  | .fltE _ => [(F.FltE.WORD, .ro)]
  | .irqRt _ => [(F.IrqRt.EN, .rw), (F.IrqRt.ASSERT, .ro), (F.IrqRt.LINE, .rw)]
  | .irqPend _ => [(F.IrqPend.PEND, .ro)]
  | .irqLnCfg _ => [(F.IrqLnCfg.MSI, .rw), (F.IrqLnCfg.ARMED, .ro), (F.IrqLnCfg.ACK, .wo), (F.IrqLnCfg.PD, .rw), (F.IrqLnCfg.DATA, .rw)]
  | .irqLnAddr _ => [(F.IrqLnAddr.ADDR, .rw)]
  | .irqLnStat _ => [(F.IrqLnStat.LEVEL, .ro), (F.IrqLnStat.MSI_SENT, .rc), (F.IrqLnStat.NSRC, .ro), (F.IrqLnStat.MSI_FAIL, .rc)]
  | .otCtl => [(F.OtCtl.RESYNC, .wo), (F.OtCtl.LOAD_GO, .wo), (F.OtCtl.MODE, .rw), (F.OtCtl.RUN, .rw)]
  | .otGeom => [(F.OtGeom.DLAT, .rw), (F.OtGeom.GAP, .rw), (F.OtGeom.OLEN, .rw)]
  | .otBclk => [(F.OtBclk.MEAS, .ro), (F.OtBclk.NOM, .rw)]
  | .otXing => [(F.OtXing.ORBIT, .ro), (F.OtXing.SLOT, .ro)]
  | .otFine => [(F.OtFine.FINE, .ro), (F.OtFine.XING_LO, .ro)]
  | .otShadow => [(F.OtShadow.SHADOW, .ro)]
  | .otLoad => [(F.OtLoad.VALUE, .rw)]
  | .otAlign => [(F.OtAlign.OFFSET, .ro), (F.OtAlign.PHASE, .ro), (F.OtAlign.MISSED, .ro), (F.OtAlign.STATE, .ro)]
  | .otAlignCfg => [(F.OtAlignCfg.AUTO_RESYNC, .rw), (F.OtAlignCfg.HOLD_ORBITS, .rw)]
  | .otStepFrom => [(F.OtStepFrom.FROM, .ro)]
  | .otStat => [(F.OtStat.LOAD_IGNORED, .w1c), (F.OtStat.GEOM_BAD, .w1c), (F.OtStat.GEOM_LOCKED, .w1c), (F.OtStat.SETAT_FULL, .w1c), (F.OtStat.SETAT_LATE, .w1c), (F.OtStat.WRAP, .w1c), (F.OtStat.STEP, .w1c), (F.OtStat.ALIGN_LOST, .w1c), (F.OtStat.BCLK_OFFNOM, .w1c), (F.OtStat.BCLK_LOST, .w1c)]
  | .otSetat => [(F.OtSetat.FULL_CNT, .rc), (F.OtSetat.LATE_CNT, .rc), (F.OtSetat.HWM, .rc), (F.OtSetat.PENDING, .ro)]
  | .otWmCfg _ => [(F.OtWmCfg.EN, .rw), (F.OtWmCfg.LOW, .rw), (F.OtWmCfg.HIGH, .rw)]
  | .otWmLvl _ => [(F.OtWmLvl.NOTICE, .w1c), (F.OtWmLvl.ARMED, .ro), (F.OtWmLvl.LATE_CNT, .rc), (F.OtWmLvl.LEVEL, .ro)]
  | .decCfg => [(F.DecCfg.SRC, .rw), (F.DecCfg.GRACE, .rw)]
  | .decInj => [(F.DecInj.PAYLOAD, .wo)]
  | .decStat => [(F.DecStat.INJ_OFF, .w1c), (F.DecStat.FOREIGN, .w1c), (F.DecStat.EARLY, .w1c), (F.DecStat.LATE_DROP, .w1c), (F.DecStat.CONFLICT, .w1c), (F.DecStat.DUP, .w1c), (F.DecStat.MISSING, .w1c)]
  | .decCnt0 => [(F.DecCnt0.ACC, .rc), (F.DecCnt0.REJ, .rc)]
  | .decCnt1 => [(F.DecCnt1.MISSING, .rc), (F.DecCnt1.LATE, .rc), (F.DecCnt1.DROP, .rc), (F.DecCnt1.CONFLICT, .rc)]
  | .decCnt2 => [(F.DecCnt2.HINTS, .rc), (F.DecCnt2.HINT_OK, .rc)]
  | .decLast => [(F.DecLast.XING, .ro), (F.DecLast.ACC, .ro), (F.DecLast.ROOT, .ro), (F.DecLast.TTYPE, .ro), (F.DecLast.EVNO, .ro)]
  | .decTbl _ => [(F.DecTbl.STATE, .ro), (F.DecTbl.WAITERS, .ro), (F.DecTbl.XING, .ro), (F.DecTbl.WORD, .ro)]
  | .seamCfg => [(F.SeamCfg.NODE_ID, .rw), (F.SeamCfg.ROOTIDX, .rw), (F.SeamCfg.REF, .rw), (F.SeamCfg.ROOT, .rw), (F.SeamCfg.RRD, .lb), (F.SeamCfg.RWR, .lb), (F.SeamCfg.BBR, .lb), (F.SeamCfg.VERMAX, .rw), (F.SeamCfg.HITMAX, .rw), (F.SeamCfg.RETRAIN, .wo), (F.SeamCfg.MEASURE, .wo), (F.SeamCfg.EN, .rw)]
  | .seamStat => [(F.SeamStat.RSTATE, .ro), (F.SeamStat.RXNE, .ro), (F.SeamStat.CFG_LOCKED, .w1c), (F.SeamStat.DUAL_REF, .w1c), (F.SeamStat.DUP_ID, .w1c), (F.SeamStat.VER_FAIL, .w1c), (F.SeamStat.GEOM_MISMATCH, .w1c), (F.SeamStat.LINK_DOWN, .w1c), (F.SeamStat.LINK_LOST, .w1c), (F.SeamStat.CRC, .w1c), (F.SeamStat.MALFORMED, .w1c), (F.SeamStat.UNREACH, .w1c), (F.SeamStat.RXOVF, .w1c), (F.SeamStat.SEND_REFUSED, .w1c)]
  | .seamRing => [(F.SeamRing.VER, .ro), (F.SeamRing.COUNT, .ro), (F.SeamRing.ARC_ROOT, .ro), (F.SeamRing.ARV, .ro), (F.SeamRing.REF_ID, .ro), (F.SeamRing.RTT, .ro)]
  | .seamHop => [(F.SeamHop.HOP_IN, .ro), (F.SeamHop.DELAY, .ro)]
  | .seamCnt => [(F.SeamCnt.CRC_ERR, .rc), (F.SeamCnt.MALFORMED, .rc), (F.SeamCnt.UNREACH, .rc), (F.SeamCnt.HITS, .rc)]
  | .seamTmo => [(F.SeamTmo.LKTMO, .rw), (F.SeamTmo.RTMO, .rw)]
  | .seamSendh => [(F.SeamSendh.TYPE, .wo), (F.SeamSendh.BC, .wo), (F.SeamSendh.DEST, .wo)]
  | .seamSendd0 => [(F.SeamSendd0.DATA, .rw)]
  | .seamSendd1 => [(F.SeamSendd1.DATA, .rw)]
  | .seamRxq => [(F.SeamRxq.WORD, .rc)]
  | .seamByp => [(F.SeamByp.FORCE, .rw), (F.SeamByp.ISL, .ro), (F.SeamByp.PIN, .ro), (F.SeamByp.SWITCHES, .rc)]
  | .seal => [(F.Seal.SEAL, .w1s), (F.Seal.VIOL, .w1c), (F.Seal.VSRC, .ro), (F.Seal.VOFF, .ro), (F.Seal.VCNT, .rc)]
  | .commit => [(F.Commit.OP, .wo), (F.Commit.AT, .wo), (F.Commit.ORBIT, .wo)]
  | .commitCfg => [(F.CommitCfg.GUARD, .rw)]
  | .cfgset => [(F.Cfgset.ACTIVE, .ro), (F.Cfgset.PEND, .ro), (F.Cfgset.SRC, .ro), (F.Cfgset.TARGET, .ro)]
  | .commitStat => [(F.CommitStat.SWAPS, .rc), (F.CommitStat.MERGED, .rc), (F.CommitStat.CANCEL_LATE, .w1c), (F.CommitStat.REFUSED, .w1c), (F.CommitStat.SLIPPED, .w1c)]
  | .pdCfg _ => [(F.PdCfg.SETAT, .lb), (F.PdCfg.VALID, .lb)]
  | .pdWin _ => [(F.PdWin.WIN, .lb)]
  | .winBase _ => [(F.WinBase.ADDR, .lb)]
  | .winLimit _ => [(F.WinLimit.ADDR, .lb)]
  | .winAttr _ => [(F.WinAttr.EN, .lb), (F.WinAttr.TDOM, .lb), (F.WinAttr.HOME, .lb), (F.WinAttr.S, .lb), (F.WinAttr.W, .lb), (F.WinAttr.R, .lb)]
  | .mpCtl _ => [(F.MpCtl.TMO, .rw)]
  | .mpArb _ => [(F.MpArb.FREEZE, .rw), (F.MpArb.HOLD_LIMIT, .rw), (F.MpArb.WAIT_LIMIT, .rw), (F.MpArb.AGECAP, .rw)]
  | .mpCred _ => [(F.MpCred.WR_OUT, .ro), (F.MpCred.RD_OUT, .ro), (F.MpCred.RDL_OUT, .ro), (F.MpCred.RETIRED, .ro), (F.MpCred.WD_HELD, .ro), (F.MpCred.RQ_HELD, .ro)]
  | .mpStat _ => [(F.MpStat.DRAINED, .ro), (F.MpStat.CROVF, .w1c), (F.MpStat.UNEXP, .w1c), (F.MpStat.LATE_RSP, .w1c), (F.MpStat.TMO, .w1c), (F.MpStat.FORCED, .w1c), (F.MpStat.ERR, .w1c), (F.MpStat.HOLD, .w1c), (F.MpStat.WDRAW, .w1c), (F.MpStat.STARVE, .w1c)]
  | .mpErrat _ => [(F.MpErrat.REQR, .ro), (F.MpErrat.CODE, .rc), (F.MpErrat.DIR, .ro), (F.MpErrat.ADDR, .ro)]
  | .mpCnt _ => [(F.MpCnt.RD, .rc), (F.MpCnt.WR, .rc)]
  | .mpWait _ => [(F.MpWait.STARVE_REQ, .ro), (F.MpWait.HWM, .rc)]
  | .arbRq _ => [(F.ArbRq.MASK, .rw), (F.ArbRq.HOLDACT, .rw), (F.ArbRq.OVR, .rw), (F.ArbRq.OCLASS, .rw), (F.ArbRq.HOLD_CNT, .rc), (F.ArbRq.WDRAW_CNT, .rc)]
  | .rlCfg _ => [(F.RlCfg.EN, .rw), (F.RlCfg.MAXB, .rw), (F.RlCfg.SIZE, .rw)]
  | .rlBase _ => [(F.RlBase.ADDR, .rw)]
  | .rlStat _ => [(F.RlStat.WDRAW, .rc), (F.RlStat.EARLY, .rc), (F.RlStat.BREAKS, .rc), (F.RlStat.CFG_LOCKED, .w1c), (F.RlStat.REQ_WITHDRAWN, .w1c), (F.RlStat.REQ, .ro)]
  | .spcStat => [(F.SpcStat.PERR_CNT, .rc), (F.SpcStat.WIPE_DONE, .ro), (F.SpcStat.MAP_CONFLICT, .w1c), (F.SpcStat.PERR, .w1c)]
  | .spcPerrAt => [(F.SpcPerrAt.REG, .ro), (F.SpcPerrAt.LANES, .ro), (F.SpcPerrAt.GRANULE, .ro), (F.SpcPerrAt.WORD, .ro)]
  | .spcSum _ => [(F.SpcSum.ANY, .ro)]
  | .ipCtl _ => [(F.IpCtl.EN, .rw)]
  | .ipStat _ => [(F.IpStat.CLK_OK, .ro), (F.IpStat.QUAR, .ro), (F.IpStat.CLK_LOST, .w1c), (F.IpStat.POISON_IN, .w1c), (F.IpStat.UNMAPPED, .w1c), (F.IpStat.TRUNC, .w1c), (F.IpStat.PROTO, .w1c), (F.IpStat.BP_HOL, .w1c)]
  | .ipDrop _ => [(F.IpDrop.QDROP, .rc), (F.IpDrop.DROP, .rc)]
  | .ipBp _ => [(F.IpBp.CYCLES, .rc)]
  | .ipMap _ _ => [(F.IpMap.VALID, .rw), (F.IpMap.SPOOL, .rw)]
  | .spCfg _ => [(F.SpCfg.MODE, .rw), (F.SpCfg.LAPGUARD, .rw), (F.SpCfg.COUNT, .rw), (F.SpCfg.BASE, .rw)]
  | .spCtl _ => [(F.SpCtl.FORCE, .wo), (F.SpCtl.EN, .rw)]
  | .spDeepbase _ => [(F.SpDeepbase.ADDR, .rw)]
  | .spDeepcfg _ => [(F.SpDeepcfg.LEN, .rw), (F.SpDeepcfg.PD, .rw), (F.SpDeepcfg.CLASS, .rw), (F.SpDeepcfg.NDL, .rw)]
  | .spWm _ => [(F.SpWm.LOW, .rw), (F.SpWm.HIGH, .rw)]
  | .spLvl _ => [(F.SpLvl.NOTICE, .w1c), (F.SpLvl.ARMED, .ro), (F.SpLvl.LEVEL, .ro)]
  | .spWp _ => [(F.SpWp.POS, .ro)]
  | .spFp _ => [(F.SpFp.POS, .ro)]
  | .spHp _ => [(F.SpHp.POS, .ro)]
  | .spStat _ => [(F.SpStat.CFG_LOCKED, .w1c), (F.SpStat.REGION_BAD, .w1c), (F.SpStat.DEEP_ERR, .w1c), (F.SpStat.HEAD_LAP, .w1c), (F.SpStat.LAP, .w1c), (F.SpStat.FULL, .ro)]
  | .spCnt _ => [(F.SpCnt.LAP_CNT, .rc), (F.SpCnt.DROP, .rc), (F.SpCnt.MARKS, .ro)]
  | .spLapat _ => [(F.SpLapat.POS, .ro)]
  | .pwrStat => [(F.PwrStat.LASTRST, .ro), (F.PwrStat.NPLL_UNLOCK, .w1c), (F.PwrStat.CLK_LOCKED, .w1c), (F.PwrStat.CORE_LOST, .w1c), (F.PwrStat.WR_UNDRAINED, .w1c)]
  | .rstCtl => [(F.RstCtl.KEY, .wo), (F.RstCtl.WARM, .wo), (F.RstCtl.QTMO, .rw)]
  | .clkNpll _ => [(F.ClkNpll.LOCK, .ro), (F.ClkNpll.MULT, .rw)]
  | .pwrTd => [(F.PwrTd.DOM, .ro)]
  | .pwrTdack => [(F.PwrTdack.DOM, .ro)]
  | .pwrTdwake => [(F.PwrTdwake.DOM, .ro)]
  | .pwrWakecfg => [(F.PwrWakecfg.USER, .rw), (F.PwrWakecfg.RETRAIN, .rw)]
  | .pwrNdlq _ => [(F.PwrNdlq.REQ, .ro)]
  | .dbgCtl => [(F.DbgCtl.MEN, .ro), (F.DbgCtl.FULL, .ro)]
  | .dbgMaddr => [(F.DbgMaddr.ADDR, .rw)]
  | .dbgMcmd => [(F.DbgMcmd.OP, .wo), (F.DbgMcmd.BUSY, .ro), (F.DbgMcmd.POISON, .ro), (F.DbgMcmd.CODE, .ro), (F.DbgMcmd.PD, .rw)]
  | .dbgMdata _ => [(F.DbgMdata.DATA, .rw)]
  | .lc => [(F.Lc.STATE, .ro), (F.Lc.LC_BAD, .w1c), (F.Lc.KEY, .lb), (F.Lc.NEXT, .lb)]
  | .pmcCtl => [(F.PmcCtl.FREEZE, .rw), (F.PmcCtl.FRZ_OVF, .rw), (F.PmcCtl.CLEAR, .wo)]
  | .pmcOvf _ => [(F.PmcOvf.OVF, .ro)]
  | .hvCtl => [(F.HvCtl.OP, .wo), (F.HvCtl.PD, .rw)]
  | .hvAt => [(F.HvAt.XING, .rw)]
  | .hvAddr => [(F.HvAddr.ADDR, .rw)]
  | .hvStat => [(F.HvStat.SEQ, .ro), (F.HvStat.PKIND, .ro), (F.HvStat.PEND, .ro), (F.HvStat.BUSY, .ro), (F.HvStat.DONE, .w1c), (F.HvStat.ERR, .w1c), (F.HvStat.MISSED, .w1c), (F.HvStat.REFUSED, .w1c), (F.HvStat.LATE, .w1c)]
  | .isCfg => [(F.IsCfg.SEED, .rw), (F.IsCfg.CLSMASK, .rw), (F.IsCfg.K, .rw), (F.IsCfg.EN, .rw)]
  | .isRing => [(F.IsRing.SIZE, .rw), (F.IsRing.PD, .rw), (F.IsRing.ADDR, .rw)]
  | .isIdx => [(F.IsIdx.RIDX, .rw), (F.IsIdx.WIDX, .ro)]
  | .isStat => [(F.IsStat.DROP, .rc), (F.IsStat.SKIP, .rc), (F.IsStat.CFG_LOCKED, .w1c), (F.IsStat.RFAIL, .w1c), (F.IsStat.RFULL, .w1c)]
  | .pmcCfg _ => [(F.PmcCfg.EN, .rw), (F.PmcCfg.OVI, .rw), (F.PmcCfg.QV, .rw), (F.PmcCfg.QSPOOL, .rw), (F.PmcCfg.EVENT, .rw)]
  | .pmcCnt _ => [(F.PmcCnt.OVF, .w1c), (F.PmcCnt.LOST_OVF, .w1c), (F.PmcCnt.VALUE, .rw)]
  | .pmcSnap _ => [(F.PmcSnap.SNAP, .ro)]
  | .svcEn => [(F.SvcEn.STK, .rw), (F.SvcEn.MON, .rw), (F.SvcEn.ROT, .rw), (F.SvcEn.CAL, .rw), (F.SvcEn.WD, .rw)]
  | .wdCfg => [(F.WdCfg.SP_INT, .rw), (F.WdCfg.MAP_INT, .rw), (F.WdCfg.PM_INT, .rw), (F.WdCfg.TS_INT, .rw)]
  | .wdRing => [(F.WdRing.REN, .rw), (F.WdRing.REC_CE, .rw), (F.WdRing.SIZE, .rw), (F.WdRing.PD, .rw), (F.WdRing.ADDR, .rw)]
  | .wdIdx => [(F.WdIdx.RIDX, .rw), (F.WdIdx.WIDX, .ro)]
  | .wdStat => [(F.WdStat.RDROP, .rc), (F.WdStat.CFG_LOCKED, .w1c), (F.WdStat.RFAIL, .w1c), (F.WdStat.RFULL, .w1c), (F.WdStat.UE, .w1c), (F.WdStat.CE, .w1c)]
  | .wdEcc => [(F.WdEcc.MAP_UE, .rc), (F.WdEcc.MAP_CE, .rc), (F.WdEcc.PM_UE, .rc), (F.WdEcc.PM_CE, .rc)]
  | .wdPass => [(F.WdPass.SP, .ro), (F.WdPass.MAP, .ro), (F.WdPass.PM, .ro), (F.WdPass.TS, .ro)]
  | .calCfg => [(F.CalCfg.MAXDEV, .rw), (F.CalCfg.K, .rw), (F.CalCfg.AVG, .rw), (F.CalCfg.PH_HIGH, .rw), (F.CalCfg.PH_LOW, .rw)]
  | .calDskcfg => [(F.CalDskcfg.HIGH, .rw), (F.CalDskcfg.LOW, .rw)]
  | .calEmpty _ => [(F.CalEmpty.VB, .rw), (F.CalEmpty.LASTB, .rw), (F.CalEmpty.FIRSTB, .rw), (F.CalEmpty.VA, .rw), (F.CalEmpty.LASTA, .rw), (F.CalEmpty.FIRSTA, .rw)]
  | .calStat => [(F.CalStat.PED_REJ, .rc), (F.CalStat.PED_WR, .rc), (F.CalStat.PHASE, .w1c), (F.CalStat.DSK, .w1c), (F.CalStat.REJ, .w1c)]
  | .calPhase => [(F.CalPhase.NMARK, .ro), (F.CalPhase.VALID, .ro), (F.CalPhase.ARMED, .ro), (F.CalPhase.PS, .ro)]
  | .monCfg => [(F.MonCfg.DELTA, .rw), (F.MonCfg.PD, .rw), (F.MonCfg.FRAME, .rw)]
  | .monBase => [(F.MonBase.ADDR, .rw)]
  | .monStat => [(F.MonStat.SEQ, .ro), (F.MonStat.ABORTS, .rc), (F.MonStat.BUSY, .ro), (F.MonStat.ERR, .w1c), (F.MonStat.ABORT, .w1c), (F.MonStat.CFG_LOCKED, .w1c)]
  | .stkCfg => [(F.StkCfg.K, .rw)]
  | .stkStat => [(F.StkStat.COUNT, .rc), (F.StkStat.NEW, .w1c), (F.StkStat.LASTCH, .ro)]
  | .rotCfg => [(F.RotCfg.ORB, .rw), (F.RotCfg.STEP, .rw), (F.RotCfg.INT, .rw)]
  | .rotStat => [(F.RotStat.PASSES, .rc), (F.RotStat.SKIPS, .rc), (F.RotStat.SKIP, .w1c), (F.RotStat.ACTIVE, .ro)]
  | .calDsk _ => [(F.CalDsk.NOTICE, .w1c), (F.CalDsk.ARMED, .ro), (F.CalDsk.MAX, .rc), (F.CalDsk.MIN, .rc), (F.CalDsk.LAST, .ro)]
  | .rotAge _ => [(F.RotAge.US, .ro)]
  | .svcSp _ => [(F.SvcSp.PED, .rw), (F.SvcSp.OCC, .rw), (F.SvcSp.STK, .rw), (F.SvcSp.CSTEP, .rw), (F.SvcSp.CH0, .rw)]
  | .stkFlag _ => [(F.StkFlag.FLAG, .w1c)]
  | .occTot _ => [(F.OccTot.TOT1, .rc), (F.OccTot.TOT0, .rc)]
  | .bbCtl => [(F.BbCtl.FREEZE, .wo), (F.BbCtl.ARM, .wo), (F.BbCtl.POST, .rw)]
  | .bbTypeen => [(F.BbTypeen.EN, .rw)]
  | .bbFrzen => [(F.BbFrzen.EN, .rw)]
  | .bbStat => [(F.BbStat.FROZEN, .ro), (F.BbStat.FRZ, .w1c), (F.BbStat.FLUSH_ERR, .w1c), (F.BbStat.DONE, .ro), (F.BbStat.DROP, .rc), (F.BbStat.TRIG, .ro), (F.BbStat.WIDX, .ro)]
  | .bbSoft => [(F.BbSoft.VALUE, .wo)]
  | .bbFlush => [(F.BbFlush.EN, .rw), (F.BbFlush.PD, .rw), (F.BbFlush.ADDR, .rw)]
  | .bbLog _ _ => [(F.BbLog.WORD, .ro)]
  | .ndlCtl _ => [(F.NdlCtl.EN, .rw)]
  | .ndlCfg _ => [(F.NdlCfg.PG_IDLE, .rw), (F.NdlCfg.RSV0, .rw)]
  | .ndlStat _ => [(F.NdlStat.RDYQ, .ro), (F.NdlStat.RES, .ro), (F.NdlStat.SUSP, .ro), (F.NdlStat.PWR, .ro)]
  | .ndlSlot _ _ => [(F.NdlSlot.VALID, .ro), (F.NdlSlot.CLASS, .ro), (F.NdlSlot.T, .ro)]
  | .ndlXfStat _ => [(F.NdlXfStat.CPL, .w1c)]
  | .ndlXfCnt _ => [(F.NdlXfCnt.DONE, .rc), (F.NdlXfCnt.DISC, .rc), (F.NdlXfCnt.CQ, .ro)]
  | .ndlSetCtl _ _ => [(F.NdlSetCtl.VALID, .ro), (F.NdlSetCtl.STATE, .ro), (F.NdlSetCtl.RES, .ro), (F.NdlSetCtl.OP, .ro), (F.NdlSetCtl.SPEC, .ro), (F.NdlSetCtl.MODE, .ro), (F.NdlSetCtl.T, .ro)]
  | .ndlSetDesc _ _ => [(F.NdlSetDesc.KIND, .ro), (F.NdlSetDesc.GEN, .ro), (F.NdlSetDesc.ADDR, .ro)]
  | .ndlSetSrc _ _ => [(F.NdlSetSrc.SPOOL, .ro), (F.NdlSetSrc.POS, .ro)]
  | .ndlSetCnt _ _ => [(F.NdlSetCnt.PCNT, .ro), (F.NdlSetCnt.DWORDS, .ro), (F.NdlSetCnt.REMAIN, .ro)]
  | .ndlCq _ _ => [(F.NdlCq.VALID, .ro), (F.NdlCq.SP, .ro), (F.NdlCq.IRQ, .ro), (F.NdlCq.T, .ro), (F.NdlCq.ADDR, .ro)]

end Sys2Proof.Machine
end

