-- ==== Sys2Proof/Machine/Tab.lean ====
section
/-! DEFINITION. A table with a default: a list of key and value pairs, keys strictly rising, no entry equal to the
default. The registers, the memories' marks and the arrays of the block's units are such tables, so that equal
contents are equal data. -/

namespace Sys2Proof.Machine

/-- A sparse table with natural keys. -/
abbrev Tab (α : Type) := List (Nat × α)

namespace Tab

variable {α : Type}

/-- The value at a key, the default where nothing is listed. -/
def get (d : α) : Tab α → Nat → α
  | [], _ => d
  | (k, v) :: t, i => if i = k then v else get d t i

/-- The table without a key. -/
def del : Tab α → Nat → Tab α
  | [], _ => []
  | (k, v) :: t, i => if i = k then del t i else (k, v) :: del t i

/-- The table with a key that it does not hold put at its place. -/
def ins (i : Nat) (v : α) : Tab α → Tab α
  | [] => [(i, v)]
  | (k, w) :: t => if i < k then (i, v) :: (k, w) :: t else (k, w) :: ins i v t

/-- The table with a value put at a key; a value equal to the default is not listed. -/
def put [DecidableEq α] (d : α) (t : Tab α) (i : Nat) (v : α) : Tab α :=
  if v = d then del t i else ins i v (del t i)

/-- The canonical form: keys strictly rising from a bound, no entry equal to the default. -/
def wfFrom [DecidableEq α] (d : α) : Nat → Tab α → Bool
  | _, [] => true
  | b, (k, v) :: t => decide (b ≤ k) && decide (v ≠ d) && wfFrom d (k + 1) t

/-- The canonical form of a table. -/
def wf [DecidableEq α] (d : α) (t : Tab α) : Bool := wfFrom d 0 t

/-- The table with the value at a key changed by a function. -/
def upd [DecidableEq α] (d : α) (t : Tab α) (i : Nat) (f : α → α) : Tab α := put d t i (f (get d t i))

end Tab

end Sys2Proof.Machine
end

