-- ==== Sys2Proof/Machine/Worryn.lean ====
section
/-! DEFINITION. The Worryn instruction set: the instruction a 64-bit word of pattern memory holds (R97), the word of
each instruction, and the reading of a word with every reserved bit, field and value refused (R98). The encodings are
those of 03_spools_and_ingest.md R69, R70, R73, 05_worryn_core.md, 06_transfers_and_descriptors.md R132, R142, R144 and
07_inflight_operations.md R149. -/

namespace Sys2Proof.Machine

/-- The ALU operations with opcodes 0x21 to 0x28 (R106). -/
inductive AluOp where
  | add | sub | and | or | xor | shl | shr | cmpi
  deriving DecidableEq, Repr

/-- The fields that MOVE and the in-flight operations share: bits 55:43 of the word (R132, R149). -/
structure XHead where
  wd : Nat
  ws : Nat
  mode : Nat
  spec : Nat
  rc : Nat
  wc : Nat
  deriving DecidableEq, Repr

/-- A decoded Worryn instruction; every field is the number its bits hold. -/
inductive WInstr where
  | nop
  | jmp (ws mode target : Nat)
  | brcc (cc target : Nat)
  | call (ws mode target : Nat)
  | ret
  | halt
  | yield (ws mode delay : Nat)
  | waitx (ws mode rs imm : Nat)
  | waitd (wd ws mode rs imm : Nat)
  | waits (ws mode spool : Nat)
  | waitr (line tmo : Nat)
  | hdr (isa id : Nat)
  | ldi (wd imm : Nat)
  | alu (op : AluOp) (wd ws mode wt imm : Nat)
  | mark (wd ws mode spool : Nat)
  | rewind (wd ws offset : Nat)
  | release (wd ws : Nat)
  | peek (wd mode spool k j adv : Nat)
  | move (h : XHead) (cnt : Nat)
  | movec (h : XHead) (cnt : Nat)
  | post (wd mode : Nat)
  | seal
  | dset (wd ws mode : Nat)
  | fill (h : XHead) (whole cnt : Nat)
  | compare (h : XHead) (lmask cnt : Nat)
  | patch (wd ws mode spec chain wp : Nat)
  | expand (h : XHead) (em chain val cb cnt : Nat)
  | reduce (h : XHead) (rop sgn tsrc wq lmask cstep cnt : Nat)
  | pedsub (h : XHead) (zs cstep chain ch0 cnt : Nat)
  | cross (wd we mode : Nat)
  | setat (wv ws mode rs off imm : Nat)
  | lock (wd ws mode rs lease lockno : Nat)
  | unlock (wd ws rs lockno : Nat)
  | sends (wd ws type dest : Nat)
  deriving DecidableEq, Repr

namespace WInstr

/-- The opcode of an ALU operation. -/
def aluOpcode : AluOp → Nat
  | .add => 0x21 | .sub => 0x22 | .and => 0x23 | .or => 0x24 | .xor => 0x25 | .shl => 0x26 | .shr => 0x27 | .cmpi => 0x28

/-- Bits 63:48 in their common places (R97). -/
def top (op wd ws mode : Nat) : Nat := op * 2 ^ 56 + wd * 2 ^ 53 + ws * 2 ^ 50 + mode * 2 ^ 48

/-- Bits 63:43 of a transfer or in-flight instruction (R132, R149). -/
def xtop (op : Nat) (h : XHead) : Nat :=
  top op h.wd h.ws h.mode + h.spec * 2 ^ 47 + h.rc * 2 ^ 46 + h.wc * 2 ^ 43

/-- The word of an instruction, as a number, from the encoding tables. -/
def code : WInstr → Nat
  | .nop => 0
  | .jmp ws mode target => top 0x01 0 ws mode + target
  | .brcc cc target => top 0x02 0 0 0 + cc * 2 ^ 32 + target
  | .call ws mode target => top 0x03 0 ws mode + target
  | .ret => top 0x04 0 0 0
  | .halt => top 0x05 0 0 0
  | .yield ws mode delay => top 0x06 0 ws mode + delay
  | .waitx ws mode rs imm => top 0x08 0 ws mode + rs * 2 ^ 47 + imm
  | .waitd wd ws mode rs imm => top 0x09 wd ws mode + rs * 2 ^ 47 + imm
  | .waits ws mode spool => top 0x0A 0 ws mode + spool * 2 ^ 40
  | .waitr line tmo => top 0x0B 0 0 0 + line * 2 ^ 40 + tmo
  | .hdr isa id => top 0x1F 0 0 0 + isa * 2 ^ 52 + id
  | .ldi wd imm => top 0x20 wd 0 0 + imm
  | .alu op wd ws mode wt imm => top (aluOpcode op) wd ws mode + wt * 2 ^ 45 + imm
  | .mark wd ws mode spool => top 0x40 wd ws mode + spool * 2 ^ 40
  | .rewind wd ws offset => top 0x41 wd ws 0 + offset * 2 ^ 24
  | .release wd ws => top 0x42 wd ws 0
  | .peek wd mode spool k j adv => top 0x43 wd 0 mode + spool * 2 ^ 40 + k * 2 ^ 38 + j * 2 ^ 35 + adv * 2 ^ 32
  | .move h cnt => xtop 0x60 h + cnt
  | .movec h cnt => xtop 0x61 h + cnt
  | .post wd mode => top 0x62 wd 0 mode
  | .seal => top 0x63 0 0 0
  | .dset wd ws mode => top 0x64 wd ws mode
  | .fill h whole cnt => xtop 0x80 h + whole * 2 ^ 42 + cnt
  | .compare h lmask cnt => xtop 0x81 h + lmask * 2 ^ 26 + cnt
  | .patch wd ws mode spec chain wp =>
    top 0x82 wd ws mode + spec * 2 ^ 47 + chain * 2 ^ 46 + wp * 2 ^ 43
  | .expand h em chain val cb cnt => xtop 0x83 h + em * 2 ^ 42 + chain * 2 ^ 41 + val * 2 ^ 24 + cb * 2 ^ 8 + cnt
  | .reduce h rop sgn tsrc wq lmask cstep cnt =>
    xtop 0x84 h + rop * 2 ^ 41 + sgn * 2 ^ 40 + tsrc * 2 ^ 39 + wq * 2 ^ 36 + lmask * 2 ^ 20 + cstep * 2 ^ 16 + cnt
  | .pedsub h zs cstep chain ch0 cnt =>
    xtop 0x85 h + zs * 2 ^ 41 + cstep * 2 ^ 40 + chain * 2 ^ 39 + ch0 * 2 ^ 16 + cnt
  | .cross wd we mode => top 0xA0 wd we mode
  | .setat wv ws mode rs off imm => top 0xA1 wv ws mode + rs * 2 ^ 47 + off * 2 ^ 24 + imm
  | .lock wd ws mode rs lease lockno => top 0xA2 wd ws mode + rs * 2 ^ 47 + lease * 2 ^ 16 + lockno
  | .unlock wd ws rs lockno => top 0xA3 wd ws 0 + rs * 2 ^ 47 + lockno
  | .sends wd ws type dest => top 0xA4 wd ws 0 + type * 2 ^ 40 + dest

/-- The 64-bit word of an instruction. -/
def encode (i : WInstr) : Word := BitVec.ofNat 64 i.code

/-- The rules of R132 and R150 on the count operands of a transfer: width n of CNT, RC and wc. -/
def countOk (n : Nat) (h : XHead) (cnt : Nat) : Bool :=
  decide (cnt < 2 ^ n) && decide (h.rc < 2) && decide (h.wc < 8) &&
    (if h.rc = 1 then cnt == 0 else h.wc == 0)

/-- The rules of R132 and R151 on MODE and ws of a source that may be a cursor, registers or host memory. -/
def sourceOk (h : XHead) (cnt : Nat) : Bool :=
  match h.mode with
  | 0 => h.ws == 0
  | 1 => h.ws == 0 && cnt == 0 && h.rc == 0 && h.wc == 0
  | 2 => true
  | _ => false

/-- The widths of the fields that every transfer shares. -/
def headOk (h : XHead) : Bool := decide (h.wd < 8) && decide (h.ws < 8) && decide (h.spec < 2)

/-- The rule of R108 on MODE, RS and ws of a crossing operand. -/
def crossingOk (ws mode rs : Nat) : Bool :=
  decide (mode < 3) && decide (rs < 2) && decide (ws < 8) && (rs == 1 || ws == 0)

/-- The CSR offsets that SETAT may name: the register regions and map memory (R34, R115). -/
def setatOffsetOk (off : Nat) : Bool :=
  decide (off * 8 ≤ 0x3FFFF8) || (decide (0x800000 ≤ off * 8) && decide (off * 8 ≤ 0x8FFFF8))

/-- An instruction whose fields are in range, with no reserved value and no unused field that is not 0 (R98). -/
def ok : WInstr → Bool
  | .nop | .ret | .halt | .seal => true
  | .jmp ws mode target | .call ws mode target =>
    decide (ws < 8) && decide (target < 2 ^ 16) && (match mode with | 0 => ws == 0 | 1 => target == 0 | _ => false)
  | .brcc cc target => decide (cc < 12) && decide (target < 2 ^ 16)
  | .yield ws mode delay =>
    decide (ws < 8) && decide (delay < 2 ^ 24) && (match mode with | 0 => ws == 0 | 1 => delay == 0 | _ => false)
  | .waitx ws mode rs imm => crossingOk ws mode rs && decide (imm < 2 ^ 32)
  | .waitd wd ws mode rs imm => decide (wd < 8) && crossingOk ws mode rs && decide (imm < 2 ^ 32)
  | .waits ws mode spool =>
    decide (ws < 8) && decide (spool < 256) && (match mode with | 0 => true | 1 => ws == 0 | _ => false)
  | .waitr line tmo => decide (line < 256) && decide (tmo < 2 ^ 18)
  | .hdr isa id => decide (isa < 16) && decide (id < 2 ^ 16)
  | .ldi wd imm => decide (wd < 8) && decide (imm < 2 ^ 32)
  | .alu op wd ws mode wt imm =>
    decide (wd < 8) && decide (ws < 8) && decide (wt < 8) && decide (imm < 2 ^ 32) &&
      (op != .cmpi || wd == 0) &&
      (match mode with
       | 0 => imm == 0 | 1 => wt == 0 | 2 => op == .shr && imm == 0 | 3 => op == .shr && wt == 0 | _ => false)
  | .mark wd ws mode spool =>
    decide (wd < 8) && decide (ws < 8) && decide (spool < 256) &&
      (match mode with | 0 => ws == 0 | 1 => true | 2 => true | _ => false)
  | .rewind wd ws offset => decide (wd < 8) && decide (ws < 8) && decide (offset < 2 ^ 16)
  | .release wd ws => decide (wd < 8) && decide (ws < 8)
  | .peek wd mode spool k j adv =>
    decide (wd < 8) && decide (mode < 4) && decide (spool < 256) && decide (k < 4) && decide (j < 8) &&
      decide (adv < 5) && (mode == 0 || (k == 0 && j == 0))
  | .move h cnt | .movec h cnt => headOk h && countOk 24 h cnt && sourceOk h cnt
  | .post wd mode => decide (wd < 8) && decide (mode < 2)
  | .dset wd ws mode =>
    decide (wd < 8) && decide (ws < 8) && (match mode with | 0 => wd == 0 | 1 => ws == 0 | _ => false)
  | .fill h whole cnt =>
    headOk h && countOk 24 h cnt && decide (whole < 2) && decide (h.mode < 2) && (h.mode == 0 || h.ws == 0) &&
      (whole == 0 || (h.rc == 0 && h.wc == 0 && cnt == 0))
  | .compare h lmask cnt =>
    headOk h && countOk 24 h cnt && sourceOk h cnt && h.spec == 0 && decide (0 < lmask) && decide (lmask < 2 ^ 16)
  | .patch wd ws mode spec chain wp =>
    decide (wd < 8) && decide (ws < 8) && decide (wp < 8) && decide (spec < 2) && decide (chain < 2) &&
      (match mode with | 0 => ws == 0 | 2 => true | _ => false)
  | .expand h em chain val cb cnt =>
    headOk h && countOk 8 h cnt && sourceOk h cnt && decide (em < 2) && decide (chain < 2) && decide (val < 2 ^ 16) &&
      decide (cb < 2 ^ 16) && (if em = 0 then cb == 0 else val != 0xFFFF)
  | .reduce h rop sgn tsrc wq lmask cstep cnt =>
    headOk h && countOk 16 h cnt && sourceOk h cnt && decide (rop < 4) && decide (sgn < 2) && decide (tsrc < 2) &&
      decide (wq < 8) && decide (0 < lmask) && decide (lmask < 2 ^ 16) && decide (cstep < 2) &&
      (decide (2 ≤ rop) || h.spec == 0) && (rop == 3 || (wq == 0 && tsrc == 0 && cstep == 0)) &&
      (tsrc == 1 || cstep == 0)
  | .pedsub h zs cstep chain ch0 cnt =>
    headOk h && countOk 16 h cnt && sourceOk h cnt && decide (zs < 3) && decide (cstep < 2) && decide (chain < 2) &&
      decide (ch0 < 2 ^ 16)
  | .cross wd we mode =>
    decide (wd < 8) && decide (we < 8) && (match mode with | 0 => true | 1 => we == 0 | _ => false)
  | .setat wv ws mode rs off imm =>
    decide (wv < 8) && crossingOk ws mode rs && decide (off < 2 ^ 21) && setatOffsetOk off && decide (imm < 2 ^ 24)
  | .lock wd ws mode rs lease lockno =>
    decide (wd < 8) && decide (ws < 8) && decide (mode < 2) && decide (rs < 2) && decide (lease < 2 ^ 16) &&
      decide (lockno < 2 ^ 16) && (if rs = 1 then lockno == 0 else ws == 0)
  | .unlock wd ws rs lockno =>
    decide (wd < 8) && decide (ws < 8) && decide (rs < 2) && decide (lockno < 2 ^ 16) &&
      (if rs = 1 then lockno == 0 else ws == 0)
  | .sends wd ws type dest => decide (wd < 8) && decide (ws < 8) && decide (type < 256) && decide (dest < 2 ^ 12)

/-- The fields of bits 55:43. -/
def headOf (w : Nat) : XHead :=
  { wd := bits w 55 53, ws := bits w 52 50, mode := bits w 49 48, spec := bits w 47 47, rc := bits w 46 46,
    wc := bits w 45 43 }

/-- The fields that the opcode of a word names, read in their places; none where the opcode is not assigned (R97, R98). -/
def fieldsOf (w : Nat) : Option WInstr :=
  let wd := bits w 55 53
  let ws := bits w 52 50
  let mode := bits w 49 48
  let alu (op : AluOp) : Option WInstr := some (.alu op wd ws mode (bits w 47 45) (bits w 31 0))
  match bits w 63 56 with
  | 0x00 => some .nop
  | 0x01 => some (.jmp ws mode (bits w 15 0))
  | 0x02 => some (.brcc (bits w 35 32) (bits w 15 0))
  | 0x03 => some (.call ws mode (bits w 15 0))
  | 0x04 => some .ret
  | 0x05 => some .halt
  | 0x06 => some (.yield ws mode (bits w 23 0))
  | 0x08 => some (.waitx ws mode (bits w 47 47) (bits w 31 0))
  | 0x09 => some (.waitd wd ws mode (bits w 47 47) (bits w 31 0))
  | 0x0A => some (.waits ws mode (bits w 47 40))
  | 0x0B => some (.waitr (bits w 47 40) (bits w 17 0))
  | 0x1F => some (.hdr (bits w 55 52) (bits w 15 0))
  | 0x20 => some (.ldi wd (bits w 31 0))
  | 0x21 => alu .add
  | 0x22 => alu .sub
  | 0x23 => alu .and
  | 0x24 => alu .or
  | 0x25 => alu .xor
  | 0x26 => alu .shl
  | 0x27 => alu .shr
  | 0x28 => alu .cmpi
  | 0x40 => some (.mark wd ws mode (bits w 47 40))
  | 0x41 => some (.rewind wd ws (bits w 39 24))
  | 0x42 => some (.release wd ws)
  | 0x43 => some (.peek wd mode (bits w 47 40) (bits w 39 38) (bits w 37 35) (bits w 34 32))
  | 0x60 => some (.move (headOf w) (bits w 23 0))
  | 0x61 => some (.movec (headOf w) (bits w 23 0))
  | 0x62 => some (.post wd mode)
  | 0x63 => some .seal
  | 0x64 => some (.dset wd ws mode)
  | 0x80 => some (.fill (headOf w) (bits w 42 42) (bits w 23 0))
  | 0x81 => some (.compare (headOf w) (bits w 41 26) (bits w 23 0))
  | 0x82 => some (.patch wd ws mode (bits w 47 47) (bits w 46 46) (bits w 45 43))
  | 0x83 => some (.expand (headOf w) (bits w 42 42) (bits w 41 41) (bits w 39 24) (bits w 23 8) (bits w 7 0))
  | 0x84 => some (.reduce (headOf w) (bits w 42 41) (bits w 40 40) (bits w 39 39) (bits w 38 36) (bits w 35 20)
      (bits w 16 16) (bits w 15 0))
  | 0x85 => some (.pedsub (headOf w) (bits w 42 41) (bits w 40 40) (bits w 39 39) (bits w 31 16) (bits w 15 0))
  | 0xA0 => some (.cross wd ws mode)
  | 0xA1 => some (.setat wd ws mode (bits w 47 47) (bits w 44 24) (bits w 23 0))
  | 0xA2 => some (.lock wd ws mode (bits w 47 47) (bits w 31 16) (bits w 15 0))
  | 0xA3 => some (.unlock wd ws (bits w 47 47) (bits w 15 0))
  | 0xA4 => some (.sends wd ws (bits w 47 40) (bits w 11 0))
  | _ => none

/-- The instruction of a word. A bit shown as "—" that is 1 is found by writing the fields back: the word then differs
from the instruction's own word. None is the case of R98: the thread that reaches the word faults with OPCODE.
(log 6, DEDUCED) -/
def decode (w : Word) : Option WInstr :=
  match fieldsOf w.toNat with
  | some i => if i.ok ∧ i.code = w.toNat then some i else none
  | none => none

end WInstr

end Sys2Proof.Machine
end

