-- ==== Sys2Proof/Machine/State.lean ====
section
/-! DEFINITION. The state of the block as plain data: the commands waiting, the addressed memories, the registers and
tables the seal protects, and everything else the spec gives the block (`Chip`), unit by unit. -/

namespace Sys2Proof.Machine

/-! Threads (04_threads_and_needles.md) -/

/-- The thread states of R82. -/
inductive TState where
  | idle | ready | waiting | running | parked | halted | fault
  deriving DecidableEq, Repr

/-- A command that waits for the boundary of R85. -/
inductive TCmd where
  | halt | kill
  deriving DecidableEq, Repr

/-- A thread's read cursor: HV, HANDLE, CV and CUROFF of its record (R67, R80). -/
structure SavedCursor where
  hv : Bool
  handle : Nat
  cv : Bool
  curoff : Nat
  deriving DecidableEq, Repr

/-- A thread: the fields of its record (R80) and what the block keeps of a wait beside it. `w` holds the work registers.
`retReg` and `lease` are the wd and LEASE operands of the WAITD or LOCK that waits, `target` the whole target crossing of the
XING wait that the timebase judges (R33, R92); `cmd` is the HALT or KILL that waits for the boundary of R85; `sealing` is 1
while a RESUME of a FAULT thread waits for its writes (R84); `undo` is the cursor from before a REWIND that waits for a refill,
which its failure leaves unchanged (R69, R76). -/
structure Thread where
  gen : Nat
  fF : Bool
  fC : Bool
  fN : Bool
  fZ : Bool
  afix : Bool
  aff : Nat
  cls : Nat
  pd : Nat
  st : TState
  pc : Nat
  cv : Bool
  hv : Bool
  bv : Bool
  dptr : Nat
  bxing : Nat
  kind : Nat
  arg : Nat
  curoff : Nat
  handle : Nat
  w : Tab W32
  retReg : Nat
  lease : Nat
  target : Nat
  cmd : Option TCmd
  sealing : Bool
  undo : Option SavedCursor
  deriving DecidableEq, Repr

/-- The record as the memory wipe leaves it: every field 0 (R80, Reset column). -/
def Thread.wiped : Thread :=
  { gen := 0, fF := false, fC := false, fN := false, fZ := false, afix := false, aff := 0, cls := 0, pd := 0,
    st := .idle, pc := 0, cv := false, hv := false, bv := false, dptr := 0, bxing := 0, kind := 0, arg := 0,
    curoff := 0, handle := 0, w := [], retReg := 0, lease := 0, target := 0, cmd := none, sealing := false, undo := none }

/-! Transfers (06_transfers_and_descriptors.md, 07_inflight_operations.md) -/

/-- A descriptor as read: its address and its four 64-bit words (R123). -/
structure Desc where
  addr : Nat
  ctl : Word
  dest : Word
  next : Word
  status : Word
  deriving DecidableEq, Repr

/-- The states of a transfer in a set: the STATE field of _CTL (06, Registers). -/
inductive XStage where
  | fetch | data | close | held
  deriving DecidableEq, Repr

/-- A descriptor that a transfer or a POST writes: the descriptor as fetched, the STATUS word it takes, the writes not
yet acknowledged, whether STATUS has been presented, and whether OWN has been cleared (0 no, 1 issued, 2 arrived). -/
structure DRec where
  desc : Desc
  status : Word
  pend : Nat
  statusSent : Bool
  own : Nat
  deriving DecidableEq, Repr

/-- A 32-byte word with its poison mark. -/
structure PWord where
  data : W256
  poison : Bool
  deriving DecidableEq, Repr

/-- What a burst is for: whom its answer goes to. -/
inductive BurstFor where
  /-- the descriptor read of the active transfer of needle n -/
  | xDesc (n id : Nat)
  /-- line i of the host-memory source, or of the COMPARE reference -/
  | xSrc (n id i : Nat)
  | xRef (n id i : Nat)
  /-- data and STATUS writes of a transfer, into the descriptor at an address -/
  | xData (n id addr : Nat)
  | xStatus (n id addr : Nat)
  /-- the OWN clear of a completion-queue entry -/
  | own (n id addr : Nat)
  /-- the group reads and STATUS writes of a POST or DSET in slot k of needle n -/
  | actDesc (n k : Nat)
  | actStatus (n k addr : Nat)
  /-- the descriptor read of a DESC wait of a thread -/
  | dwait (t : Nat)
  /-- the block of a deep spool that is spilled or refilled, with the spool's enable count (R75, R76) -/
  | spill (m block run : Nat)
  | refill (m block run : Nat)
  /-- the housekeeping units' writes -/
  | weeder | monitor (i : Nat) | sample | flush (i : Nat) | harvest (i : Nat)
  | dbgRead | dbgWrite
  | irq (line : Nat)
  deriving DecidableEq, Repr

/-- One line of write data with byte enables and poison (R204, R209). -/
structure WLine where
  data : Line
  be : BitVec 64
  poison : Bool
  deriving DecidableEq, Repr

/-- The three request kinds of R204. -/
inductive BurstKind where
  | read | ack | posted
  deriving DecidableEq, Repr

/-- A burst: presented, granted, or outstanding. `desc` and `dgen` name the descriptor a write belongs to, with the GEN of a
version 2 descriptor. -/
structure Burst where
  req : Nat
  use : BurstFor
  thr : Nat
  gen : Nat
  pc : Nat
  cls : Nat
  kind : BurstKind
  addr : Nat
  len : Nat
  data : List WLine
  tdom : Nat
  bound : Option Nat
  desc : Nat
  dgen : Option Nat
  wait : Nat
  starved : Bool
  deriving DecidableEq, Repr

/-- The running values of an operation on data in flight (07_inflight_operations.md). `acc` are sums or the maximum,
`recs` the records or bits not yet packed into a word, `recPoison` whether one of them is poisoned. -/
structure OpAcc where
  acc : List Int
  best : Option (Int × Nat)
  firstDiff : Option Nat
  hits : Nat
  recs : List Nat
  recPoison : Bool
  tainted : Bool
  deriving DecidableEq, Repr

/-- No value accumulated. -/
def OpAcc.empty : OpAcc :=
  { acc := [], best := none, firstDiff := none, hits := 0, recs := [], recPoison := false, tainted := false }

/-- A transfer in a set or a suspended-transfer register. The operands are those read at issue (R150). -/
structure Xfer where
  id : Nat
  t : Nat
  slot : Nat
  instr : WInstr
  pc : Nat
  cls : Nat
  pd : Nat
  gen : Nat
  stage : XStage
  /-- the stage to return to from HELD -/
  back : XStage
  res : Nat
  /-- words to read (rows for PATCH from the cursor) -/
  n : Nat
  /-- the host-memory source address, or 0 -/
  a : Nat
  /-- the register source word, the FILL pattern repeated, or 0 -/
  reg : W256
  /-- wp, w(p+1) of PATCH; wq of REDUCE -/
  opA : Nat
  opB : Nat
  /-- the configuration set that was active when the transfer entered the active set (R156) -/
  set : Nat
  /-- source words read so far -/
  read : Nat
  /-- source lines received or asked for, by line index, with the line and its poison mark when it has come -/
  lines : List (Nat × Option (Line × Bool))
  /-- reference lines of COMPARE, likewise -/
  refs : List (Nat × Option (Line × Bool))
  /-- the address of the descriptor to fetch next; none where no descriptor is to be fetched -/
  fetch : Option Nat
  /-- a descriptor read is presented or outstanding -/
  fetching : Bool
  /-- the group found so far, while the search of R129 runs -/
  search : Option (List DRec)
  /-- the descriptors of the staged group before this transfer (R130, R133) -/
  glen : Nat
  cur : Option DRec
  /-- words placed into the current descriptor, and its poisoned words -/
  dwords : Nat
  pcnt : Nat
  /-- output words not yet placed -/
  out : List PWord
  /-- placed words not yet in a burst: address and word -/
  forming : List (Nat × PWord)
  /-- output words written by the transfer -/
  total : Nat
  closed : List DRec
  acc : OpAcc
  srcDone : Bool
  /-- bursts formed and not yet presented, oldest first -/
  queue : List Burst
  /-- the entries of the 16 lanes with CSTEP 0: pedestal, threshold and whether either is uncorrectable (R156) -/
  entries : List (Nat × Nat × Bool)
  /-- a PATCH that runs last to first (R164) -/
  reverse : Bool
  deriving DecidableEq, Repr

/-- The staged group that a needle keeps for a resident thread (R129): its descriptors and the fill point. -/
structure Grp where
  descs : List DRec
  fill : Nat
  deriving DecidableEq, Repr

/-- What a thread's POST, DSET or ring-lock instruction still waits for. -/
inductive ActKind where
  | commit | discard | dset | lockTry | lockUnlock
  deriving DecidableEq, Repr

/-- An instruction of a resident thread that has issued and whose result is pending (R88, R102). -/
structure Act where
  kind : ActKind
  wd : Nat
  pc : Nat
  /-- the group found so far, and the descriptor to read next; none once the group is known -/
  descs : List DRec
  fetch : Option Nat
  fetching : Bool
  /-- a fence has been set for a descriptor found: the search begins again (R145) -/
  redo : Bool
  /-- COMMIT and DISCARD: the fences have been checked and STATUS writes may go -/
  go : Bool
  /-- an operand: the new DPTR of DSET, the lock number of a ring lock -/
  arg : Nat
  deriving DecidableEq, Repr

/-- A fence beside its registers (R145, R146): the counter at its latest write of VALID = 1, and whether its expiry waits for
LIVE to fall. -/
structure FenceSt where
  since : Option Nat
  due : Bool
  deriving DecidableEq, Repr

/-- A fence that has not been written. -/
def FenceSt.none : FenceSt := { since := Option.none, due := false }

/-- A completion-queue entry (R139): the transfer's descriptors in chain order. -/
structure CqEntry where
  id : Nat
  t : Nat
  slot : Nat
  pc : Nat
  cls : Nat
  pd : Nat
  gen : Nat
  spec : Bool
  post : Bool
  descs : List DRec
  stopped : Bool
  deriving DecidableEq, Repr

/-- A resident slot (R88). `live` is the thread's copy in the slot; `pend` is what the instructions that have issued may still have to write (R102, R122): a work register, or none for
the flags F and Z; `sealing` is the address of a SEAL that has not completed (R143); `base` is the first descriptor that no transfer of this stay in the slot has closed; `dead` is 1
when the thread has faulted and the slot waits for its completion-queue entries (R293); `rot` is what rotation adds to AFF
at the write-back (R317). -/
structure Slot where
  t : Nat
  fetching : Bool
  live : Thread
  pend : List (Option Nat)
  sealing : Option Nat
  dead : Bool
  rot : Nat
  base : Option Nat
  grp : Option Grp
  act : Option Act
  deriving DecidableEq, Repr

/-- A needle (04, R88 to R96). `queues` are the ready queues, class 0 first; `ib` the pattern-memory lines in the
instruction buffer, the most recently used first; `descIn` the descriptor reads that have returned, with the reader's
slot (none for the active transfer), address, line and poison mark; `lfsr`, `follow` and `ncyc` serve sampling (R335). `gaps`
holds, for a slot whose thread has taken a branch, the least and the most needle cycles that may still pass before it is able
to issue again, as of the last issue; `sure` the slots that were able for certain after that issue, but for such cycles (R88). -/
structure Needle where
  slots : Tab (Option Slot)
  queues : List (List Nat)
  ib : List Nat
  lastSlot : Nat
  gaps : Tab (Nat × Nat)
  sure : List Nat
  active : Option Xfer
  shadow : Option Xfer
  susp : Tab (Option Xfer)
  cq : List CqEntry
  descIn : List (Option Nat × Nat × Line × Bool)
  lfsr : Nat
  follow : Option (List Nat)
  ncyc : Nat
  deriving DecidableEq, Repr

/-- A needle after reset: every slot free, every queue empty.
(log 21, DESIGN CHOICE) -/
def Needle.idle : Needle :=
  { slots := [], queues := [[], [], [], []], ib := [], lastSlot := 7, gaps := [], sure := [], active := none, shadow := none,
    susp := [], cq := [], descIn := [], lfsr := 0, follow := none, ncyc := 0 }

/-! Ingest and spools (03_spools_and_ingest.md) -/

/-- A word in a port's crossing FIFO: bound for a spool by the map at its packet's SOP (R52, R55); the spool number 256
stands for none, once the spool has become OFF.
(log 84, DESIGN CHOICE) -/
structure FWord where
  spool : Nat
  stream : Nat
  sop : Bool
  eop : Bool
  tag : Nat
  poison : Bool
  data : W256
  deriving DecidableEq, Repr

/-- An ingest port: the packet that is open (its stream and the spool it goes to, none while its beats are dropped),
whether the rest of a packet is being dropped after quarantine (R54), whether a stop waits for the packet boundary
(R341), and the crossing FIFO, oldest word first. -/
structure Ingest where
  pkt : Option (Nat × Option Nat)
  dropRest : Bool
  stopping : Bool
  fifo : List FWord
  deriving DecidableEq, Repr

/-- A port with no packet open and an empty FIFO. -/
def Ingest.empty : Ingest := { pkt := none, dropRest := false, stopping := false, fifo := [] }

/-- The states of a mark-queue entry (R64). -/
inductive MarkState where
  | held | released | lapped
  deriving DecidableEq, Repr

/-- A mark-queue entry. -/
structure MarkEnt where
  slot : Nat
  pos : Nat
  st : MarkState
  deriving DecidableEq, Repr

/-- A refill granule in use: which of the two it is, the block it is for, the thread it serves, whether the block is on
chip (R76). -/
structure Refill where
  g : Nat
  block : Nat
  owner : Nat
  ready : Bool
  deriving DecidableEq, Repr

/-- A word in a spool's tail or head register (R58): its position, the granule that holds the position, the data, and the
lanes that disagree with their parity (R61). -/
structure RegWord where
  pos : Nat
  g : Nat
  data : W256
  lanes : Nat
  deriving DecidableEq, Repr

/-- A spool beside its registers: the tail register, newest word first, and the head register (R58), the mark queue in
position order, the EPOCH of each queue slot (R64), the newest position ever marked since enable (R65), the packet index,
newest first, as tag and start (R63), and for deep mode the blocks complete but not presented, the blocks presented and
not acknowledged, the answers that have come, the refill granules, the blocks that wait for one (with the thread), the
threads in a REFILL wait with their blocks, whether a spill has failed since enable (R75, R76), and the number of times
the spool has become RUNNING or OFF, which tells the answers of an earlier run apart.
(log 83, DESIGN CHOICE) -/
structure Spool where
  tail : List RegWord
  head : List RegWord
  q : List MarkEnt
  epochs : Tab Nat
  newest : Option Nat
  index : List (Nat × Nat)
  unspilled : List Nat
  spilling : List Nat
  spillIn : List (Nat × Bool)
  refills : List Refill
  refillIn : List (Nat × List (Line × Bool) × Bool)
  wants : List (Nat × Nat)
  waits : List (Nat × Nat)
  deepBad : Bool
  run : Nat
  deriving DecidableEq, Repr

/-- A spool with nothing in it.
(log 21, DESIGN CHOICE) -/
def Spool.empty : Spool :=
  { tail := [], head := [], q := [], epochs := [], newest := none, index := [], unspilled := [], spilling := [],
    spillIn := [], refills := [], refillIn := [], wants := [], waits := [], deepBad := false, run := 0 }

/-! The orbit timebase (02_orbit_timebase.md) -/

/-- A pending SETAT entry (R34). -/
structure SetatEntry where
  target : Nat
  off : Nat
  value : Word
  deriving DecidableEq, Repr

/-- The work a beam-clock edge leaves to be done, in the order of the rules (R35, R119, R178, R188, R330).
(log 13, DEDUCED) -/
inductive EdgeTask where
  | swap | setat (e : SetatEntry) | wake (t target : Nat) | lease (lock at_ : Nat) | missing (pos : Nat) | fence (k : Nat)
  | harvest | rotation | monitor
  deriving DecidableEq, Repr

/-- The timebase beside its registers. `freeLoad` is a load waiting for the next edge in FREE (R48); `opening` that the next
advancing edge opens the decision entries afresh (R186); `ringLoad` the value that training gives the next edge in ACQUIRE (R245, R246); `resync` and
`resyncMarker` an armed resync and whether a marker has been received since (R45); `missedOver` that a further orbit start
has passed without a marker after MISSED reached 0xFFFF (R43); `commitPast` that the pending commit's target orbit lies past
the last orbit before the wrap, with TARGET its low 52 bits (12 R268); `agenda` the work of the latest edge still to be
done. -/
structure Timebase where
  present : Bool
  setat : List SetatEntry
  freeLoad : Option Nat
  ringLoad : Option Nat
  resync : Bool
  resyncMarker : Bool
  missedOver : Bool
  commitPast : Bool
  opening : Bool
  agenda : List EdgeTask
  deriving DecidableEq, Repr

/-! Locks (05_worryn_core.md R116) -/

/-- The states of a lock. -/
inductive LockState where
  | free | held | broken
  deriving DecidableEq, Repr

/-- A lock: a local one, or a ring lock in the reference's lock unit. The owner is node × 2^18 + thread for a ring lock
(R248). `waiters` are the waiting owners with their leases (ring locks only; the waiters of a local lock are threads). -/
structure Lock where
  st : LockState
  owner : Nat
  leaseEnd : Nat
  waiters : List (Nat × Nat × Nat)
  deriving DecidableEq, Repr

/-- A FREE lock.
(log 2, DESIGN CHOICE) -/
def Lock.free : Lock := { st := .free, owner := 0, leaseEnd := 0, waiters := [] }

/-! Mesh ports (10_mesh_ports_and_arbitration.md) -/

/-- A granted burst that is bound to a request line and has not had its first beat taken as sent (R216, R217), with its
tag.
(log 55, DEDUCED) -/
structure Train where
  burst : Burst
  tag : Nat
  waitBefore : Nat
  deriving DecidableEq, Repr

/-- A mesh port beside its registers: the requests waiting, the reads and acknowledged writes outstanding by tag with the
answer lines so far, the reads among them whose failure has been reported (R210), the retired tags with their domain and
whether they were retired by force (R211, R212), the rotation pointer, the granted bound burst, the holder of a train with
the line it is for and its transfer, the last burst sent, the line whose LASTn it drives (R214), whether an interrupt message
was the last beat sent, so that the next break point belongs to a round (R230), and the acknowledged writes that a warm
reset left behind undrained (13 R286). -/
structure Port where
  waiting : List Burst
  outst : List (Nat × Burst × List (Line × Bool))
  failing : List Nat
  retired : List (Nat × Nat × Bool)
  ptr : Nat
  granted : Option Train
  holder : Option (Nat × Nat × Nat)
  last : Option (Nat × Burst)
  lastLine : Option Nat
  msgTurn : Bool
  undrained : List (Nat × Burst)
  deriving DecidableEq, Repr

/-- A port with nothing waiting or outstanding.
(log 21, DESIGN CHOICE) -/
def Port.idle : Port :=
  { waiting := [], outst := [], failing := [], retired := [], ptr := 132, granted := none, holder := none, last := none,
    lastLine := none, msgTurn := false, undrained := [] }

/-! Readout (09_readout_and_speculation.md) -/

/-- The states of a decision-record entry (R186 to R191). -/
inductive DecState where
  | unused | opened | known | missing
  deriving DecidableEq, Repr

/-- An entry of the decision record: its state, the crossing it is for, and the decision word of R189. -/
structure DecEntry where
  st : DecState
  x : Nat
  word : Nat
  deriving DecidableEq, Repr

/-- An UNUSED entry. -/
def DecEntry.unused : DecEntry := { st := .unused, x := 0, word := 0 }

/-! The Seam ring (11_seam_ring.md) -/

/-- Who queued a message of the node's own (R121, R253). -/
inductive MsgFrom where
  | thread (t : Nat) | port | node
  deriving DecidableEq, Repr

/-- A Seam message: type, header fields and data blocks. -/
structure SMsg where
  ty : Nat
  h : SeamHead
  data : List Word
  orig : MsgFrom
  deriving DecidableEq, Repr

/-- The token holder's measurement (R241): the token's fields, the PROBEs answered, the PROBE in flight, the repeats of
it, and the least of the differences measured. -/
structure TokenState where
  ver : Nat
  count : Nat
  curRoot : Nat
  crv : Bool
  acc : Nat
  done : Nat
  pseq : Nat
  repeats : Nat
  best : Option Nat
  deriving DecidableEq, Repr

/-- A ring-lock request of one of the node's threads that has had no LOCK_RSP (R248); `lapsed` is 1 once it has been given up
(R249, R256). -/
structure LockAsk where
  t : Nat
  lock : Nat
  seq : Nat
  isTry : Bool
  isUnlock : Bool
  lapsed : Bool
  deriving DecidableEq, Repr

/-- The Seam node beside its registers: block lock per side and the hits in progress, the messages to forward and those of
its own to send, the last message launched on each lane, the receive queue, whether the node acts as the reference (R240),
the training state with the SEQ of the node's CLAIM while it is out (R242), the ring locks (R248), the requests outstanding,
the ring locks its threads hold, the reference's markers that have not returned (R243), the island's copies (R254), and the
next SEQ. -/
structure Seam where
  lockE : Bool
  lockW : Bool
  hitE : Bool
  hitW : Bool
  fwd : List SMsg
  tx : List SMsg
  west : List SMsg
  laneE : Option SMsg
  laneW : Option SMsg
  rxq : List Word
  demoted : Bool
  helloOut : Bool
  full : Bool
  token : Option TokenState
  claimOut : Option Nat
  ringLocks : Tab Lock
  asks : List LockAsk
  held : List (Nat × Nat)
  remotes : List (Nat × Nat × Nat)
  markersOut : Nat
  islNode : Nat
  islVer : Nat
  islBusy : List SMsg
  seq : Nat
  probeSeq : Nat
  deriving DecidableEq, Repr

/-- The node after reset: untrained, every queue empty. -/
def Seam.idle : Seam :=
  { lockE := false, lockW := false, hitE := false, hitW := false, fwd := [], tx := [], west := [], laneE := none,
    laneW := none, rxq := [], demoted := false, helloOut := false, full := true,
    token := none, claimOut := none, ringLocks := [], asks := [], held := [], remotes := [],
    markersOut := 0, islNode := 0, islVer := 0, islBusy := [], seq := 0, probeSeq := 0 }

/-! Power, clocks and reset (13_power_clocks_startup.md) -/

/-- What the block as a whole is doing: held in cold reset, starting up (wipe or logic reset before READY), running,
in the quiesce of a warm reset, with CORE in retention, or with CORE forced off. -/
inductive Phase where
  | starting | running | quiesce | retention | coreOff
  deriving DecidableEq, Repr

/-- The power state beside the registers: the phase, what the start-up still has to do, what a quiesce is for, the
request and force lines per target domain and block domain, the acknowledge lines of the block domains, the needles that
wait to wake, for a place or for their PLL (R274, R277), those whose clock a loss of lock has stopped (R274), the debug data register's ADDR as shifted in and its last answer
(R289), the moment's pending CORE wake (R282), and the lifecycle state that the wipe in progress ends in, where a change is what
began it (12 R266). -/
structure Power where
  phase : Phase
  wiping : Bool
  spoolWiped : Bool
  cause : Nat
  forRetention : Bool
  tdReq : Tab Bool
  tdForce : Tab Bool
  tdAck : Tab Bool
  bdReq : Tab Bool
  bdForce : Tab Bool
  bdAck : Tab Bool
  wakeQ : List Nat
  clkLost : List Nat
  coreWake : Bool
  newLc : Option Nat
  dbgAddr : Nat
  dbgData : Word
  dbgResp : Nat
  run : Tab Nat
  deriving DecidableEq, Repr

/-- The power state at the rise of DXW_CRST_N (R288, time 0). -/
def Power.start : Power :=
  { phase := .starting, wiping := true, spoolWiped := false, cause := 0, forRetention := false, tdReq := [],
    tdForce := [], tdAck := [], bdReq := [], bdForce := [], bdAck := [], wakeQ := [], clkLost := [], coreWake := false,
    newLc := none, dbgAddr := 0, dbgData := 0#64, dbgResp := 1, run := [] }

/-! Faults and the black box (14_faults_and_black_box.md) -/

/-- An event on its way to the black-box log (R303, R304). -/
structure BbEvent where
  ty : Nat
  xing : Word
  fine : Nat
  p0 : Word
  p1 : Word
  deriving DecidableEq, Repr

/-- The black box beside its registers: the log (word j of entry e at 4 e + j), the input FIFO, whether events have been
dropped since the last entry, the entries left to record after a trigger, whether a copy to host memory is due (R307), the
copy in progress (the bursts not yet acknowledged), and the number of copies begun. -/
structure BlackBox where
  log : Tab Word
  fifo : List BbEvent
  loss : Bool
  postLeft : Option Nat
  owed : Bool
  flush : Option Nat
  copies : Nat
  deriving DecidableEq, Repr

/-- The log as the wipe leaves it. -/
def BlackBox.empty : BlackBox :=
  { log := [], fifo := [], loss := false, postLeft := none, owed := false, flush := none, copies := 0 }

/-- An entry of the fault queue: its four words (R296). -/
structure FaultEntry where
  e0 : Word
  e1 : Word
  e2 : Word
  e3 : Word
  deriving DecidableEq, Repr

/-! Background services and performance (15_background_services.md, 16_performance_monitoring.md) -/

/-- A channel of the stuck-channel detector (R322); `flagged` holds from a flag until SAME returns to 0. -/
structure StkChan where
  spool : Nat
  sig : Nat
  prev : Nat
  same : Nat
  poisoned : Bool
  flagged : Bool
  deriving DecidableEq, Repr

/-- The packet that the tap of a spool is in: its crossing tag and the words of it seen (R309). -/
structure TapState where
  tag : Nat
  words : Nat
  deriving DecidableEq, Repr

/-- A monitor frame being pushed (R320): its snapshot, orbit and span, the changed tiles, the step of R320 it is in, the
number of its first write, and whether a write has failed. -/
structure Frame where
  snap : Tab Nat
  orbit : Nat
  orbits : Nat
  tiles : List Nat
  stage : Nat
  first : Nat
  failed : Bool
  deriving DecidableEq, Repr

/-- The services beside their registers: the weeder's next unit per memory and its record count; pedestal sums and counts,
pending results and the next channel; the phase sum and the AVG that its first residual found; the tap per spool; which
deskew registers have been set since they were read; rotation's next thread; occupancy counters, shown values, the frame,
the frame end that is next, in orbits after the last snapshot, the aborted snapshot with its span, the orbits that have passed
since the last snapshot or since MON became RUNNING, the orbit of the last gap start among them, the frames aborted since MON
was enabled, and the writes not yet acknowledged, by number, with their cells; the frame before, with the number of its last write, while that write is not acknowledged though a new frame has begun; the stuck-channel signatures. -/
structure Services where
  wdNext : Tab Nat
  wdSeq : Nat
  pedSum : Tab (Nat × Nat × Nat)
  pedPend : Tab (Option Nat)
  pedNext : Nat
  phSum : Int
  phAvg : Nat
  tap : Tab (Option TapState)
  dskSeen : Tab Bool
  rotNext : Option Nat
  occ : Tab Nat
  shown : Tab Nat
  frame : Option Frame
  frameEnd : Option Nat
  carry : Option (Tab Nat × Nat)
  monRun : Nat
  monGap : Option Nat
  aborts : Nat
  monId : Nat
  monOut : List (Nat × List (Nat × Nat))
  prevFrame : Option (Nat × Frame)
  stk : Tab (Option StkChan)
  deriving DecidableEq, Repr

/-- Services with nothing gathered. -/
def Services.idle : Services :=
  { wdNext := [], wdSeq := 0, pedSum := [], pedPend := [], pedNext := 0, phSum := 0, phAvg := 0, tap := [], dskSeen := [],
    rotNext := none, occ := [], shown := [], frame := none, frameEnd := none, carry := none, monRun := 0,
    monGap := none, aborts := 0, monId := 0, monOut := [], prevFrame := none, stk := [] }

/-- A harvest record being written (R334): the step, the bursts of the step not yet acknowledged, whether a write has
failed, and the header words. -/
structure Record where
  stage : Nat
  pend : Nat
  failed : Bool
  h0 : Word
  h1 : Word
  h2 : Word
  deriving DecidableEq, Repr

/-- The harvester and the sampler: the target of the pending harvest, the record being written, header word 0 of the record
before, and the queue of sample records (R332 to R336). -/
structure Harvester where
  target : Option Nat
  record : Option Record
  prev : Word
  samples : List (List Word)
  deriving DecidableEq, Repr

/-- A harvester with nothing pending. -/
def Harvester.idle : Harvester :=
  { target := none, record := none, prev := 0#64, samples := [] }

/-! The block -/

/-- Everything of the block but its addressed memories and what the seal protects. `free` is the model's own counter: the
open values of Config are applied to it. `xid` numbers the transfers. -/
structure Chip where
  regs : Tab Word
  /-- reads of DESC waits that have returned: thread, address, line and poison mark (R94) -/
  dwaitIn : List (Nat × Nat × Line × Bool)
  free : Nat
  xid : Nat
  pwr : Power
  cpRsp : List (Word × Nat)
  tb : Timebase
  ingest : Tab Ingest
  spools : Tab Spool
  lanes : Tab Nat
  eccCe : Tab Bool
  eccUe : Tab Bool
  threads : Tab Thread
  needles : Tab Needle
  ports : Tab Port
  backlog : List (Nat × Burst)
  reqn : Tab Bool
  locks : Tab Lock
  fences : Tab FenceSt
  dec : Tab DecEntry
  seam : Seam
  bb : BlackBox
  faults : List FaultEntry
  faultSeq : Nat
  svc : Services
  hv : Harvester
  deriving DecidableEq, Repr

/-- The registers that the seal protects, held in the always-on island (R263): DXW_SEAL, DXW_LC, the domain and window
tables, and the LB bits of DXW_SEAM_CFG. -/
structure Prot where
  regs : Tab Word
  deriving DecidableEq, Repr

/-- The machine. `mem` holds pattern, map and spool memory, keyed by CSR offset (R21); `pending` the commands waiting. -/
structure State where
  pending : List Instr
  mem : List Host.Cell
  prot : Prot
  chip : Chip
  deriving DecidableEq, Repr

/-- The reasons a run could stop with. -/
inductive Fault where
  /-- Raised by no command: every error of the block is a state of it (a status bit, a response code, a thread in FAULT).
  Safe. -/
  | noSuchFault
  deriving DecidableEq, Repr

/-- The reasons a command could be refused for. -/
inductive Refusal where
  /-- A command with no meaning yet; raised by its arm in Dispatch only. Safe. -/
  | notModelled (mnemonic : String)
  deriving DecidableEq, Repr

/-- The timebase at cold reset: the beam clock counts as lost (R23). -/
def Timebase.reset : Timebase :=
  { present := false, setat := [], freeLoad := none, ringLoad := none, resync := false,
    resyncMarker := false, missedOver := false, commitPast := false, opening := true, agenda := [] }

/-- The chip at cold reset: every register at its Reset value, every unit idle.
(log 21, DESIGN CHOICE) -/
def Chip.reset : Chip :=
  { regs := [], dwaitIn := [], free := 0, xid := 0, pwr := Power.start, cpRsp := [], tb := Timebase.reset, ingest := [],
    spools := [], lanes := [], eccCe := [], eccUe := [], threads := [], needles := [], ports := [], backlog := [], reqn := [],
    locks := [], fences := [], dec := [], seam := Seam.idle, bb := BlackBox.empty, faults := [], faultSeq := 0,
    svc := Services.idle, hv := Harvester.idle }

/-- The machine at the rise of DXW_CRST_N after power-on (R283, R288): no command waits, the memories are as the wipe
leaves them, every register is at its Reset value, and the start-up has begun.
(log 19, DESIGN CHOICE) -/
def State.reset : State := { pending := [], mem := [], prot := { regs := [] }, chip := Chip.reset }

end Sys2Proof.Machine
end

