-- ==== Sys2Proof/Machine/Ops.lean ====
section
/-! DEFINITION. The named operations over registers, memories, counters, the crossing counter, the protection tables and
the black box that every family of commands uses. The block has no exception entry: an error is a register's status, a
response code, or a thread in FAULT (`ThreadOps`). -/

namespace Sys2Proof.Machine

/-- What a command reads and does not change: the memories and the sealed tables. -/
structure Env where
  mem : List Host.Cell
  prot : Prot

/-- The environment of a state. -/
def State.env (s : State) : Env := { mem := s.mem, prot := s.prot }

/-- The effect of a command that changes neither the memories nor the sealed tables. -/
def State.chipStep (s : State) (f : Env → Chip → Chip) : Host.Outcome State Fault Refusal :=
  .next { s with chip := f s.env s.chip }

/-- Whether CORE has power (13 R275): without it its logic does nothing, and in retention its memories stand. -/
def coreUp (c : Chip) : Bool := c.pwr.phase != .retention && c.pwr.phase != .coreOff

/-- The effect of a command of the CORE domain, which needs CORE's power (13 R275). -/
def State.coreStep (s : State) (f : Env → Chip → Chip) : Host.Outcome State Fault Refusal :=
  s.chipStep fun e c => if coreUp c then f e c else c

/-- Response codes of the control port (R17). -/
def rspOk : Nat := 0
def rspNrdy : Nat := 1
def rspErr : Nat := 2
def rspDenied : Nat := 3

namespace Chip

/-! Registers -/

/-- The value a register holds. -/
def rd (c : Chip) (r : Reg) : Word := Tab.get r.reset c.regs r.offset

/-- The chip with a register holding a value. -/
def wr (c : Chip) (r : Reg) (w : Word) : Chip := { c with regs := Tab.put r.reset c.regs r.offset w }

/-- The value of a field. -/
def fld (c : Chip) (r : Reg) (f : Fld) : Nat := fget (c.rd r) f

/-- A one-bit field. -/
def bit (c : Chip) (r : Reg) (f : Fld) : Bool := fbit (c.rd r) f

/-- The chip with a field set. -/
def setF (c : Chip) (r : Reg) (f : Fld) (v : Nat) : Chip := c.wr r (fset (c.rd r) f v)

/-- The chip with a status bit set by the hardware (R6, R7). -/
def flag (c : Chip) (r : Reg) (f : Fld) : Chip := c.setF r f 1

/-- The chip with a saturating count advanced. -/
def tally (c : Chip) (r : Reg) (f : Fld) (n : Nat) : Chip := c.wr r (fsat (c.rd r) f n)

/-- A free value's index, and the chip with the counter advanced.
(log 2, DESIGN CHOICE) -/
def spend (c : Chip) : Chip := { c with free := c.free + 1 }

/-! Performance counters (16 R324 to R330) -/

/-- Add n to a counter that counts event ev; a wrap sets OVF, and FREEZE under R330.
(log 61, DEDUCED) -/
def bump (c : Chip) (ev n : Nat) (q : Option Nat) (i : Nat) : Chip :=
  let cfg := c.rd (.pmcCfg i)
  let qual : Bool := if fbit cfg F.PmcCfg.QV then q == some (fget cfg F.PmcCfg.QSPOOL) else true
  if fbit cfg F.PmcCfg.EN ∧ fget cfg F.PmcCfg.EVENT = ev ∧ ev ≠ 0 ∧ qual then
    let v := c.fld (.pmcCnt i) F.PmcCnt.VALUE + n
    let c := c.setF (.pmcCnt i) F.PmcCnt.VALUE v
    if v ≥ 2 ^ 48 then
      let c := c.flag (.pmcCnt i) F.PmcCnt.OVF
      if fbit cfg F.PmcCfg.OVI ∧ c.bit .pmcCtl F.PmcCtl.FRZ_OVF then c.flag .pmcCtl F.PmcCtl.FREEZE else c
    else c
  else c

/-- Count an event on counters lo to lo + k - 1, unless the counters are frozen (R325). -/
def countOn (c : Chip) (lo k ev n : Nat) (q : Option Nat) : Chip :=
  if c.bit .pmcCtl F.PmcCtl.FREEZE then c
  else (List.range k).foldl (fun c j => c.bump ev n q (lo + j)) c

/-- Events of one cycle on counters lo to lo + k - 1, counted together: a wrap that sets FREEZE does not keep the others from
counting (R330).
(log 61, DEDUCED) -/
def countCycle (c : Chip) (lo k : Nat) (evs : List (Nat × Nat)) (q : Option Nat := none) : Chip :=
  if c.bit .pmcCtl F.PmcCtl.FREEZE then c
  else evs.foldl (fun c x => (List.range k).foldl (fun c j => c.bump x.1 x.2 q (lo + j)) c) c

/-- Whether a needle's clock runs: a needle whose clock is stopped or gated counts nothing (R325). -/
def ndlCounts (c : Chip) (nd : Nat) : Bool := c.fld (.ndlStat nd) F.NdlStat.PWR == 0
/-- Count an event of needle n (R325). -/
def cntNeedle (c : Chip) (nd ev n : Nat) : Chip := if c.ndlCounts nd then c.countOn (4 * nd) 4 ev n none else c
/-- Count an event of mesh port p. -/
def cntMesh (c : Chip) (p ev n : Nat) : Chip := c.countOn (512 + 2 * p) 2 ev n none
/-- Count an event of ingest port p. -/
def cntIngest (c : Chip) (p ev n : Nat) : Chip := c.countOn (544 + 2 * p) 2 ev n none
/-- Count an event of the spool controller on spool m (R327). -/
def cntSpool (c : Chip) (m ev n : Nat) : Chip := c.countOn 576 8 ev n (some m)
/-- Events of one store cycle on spool m, counted together (R327, R330). -/
def spoolCycle (c : Chip) (m : Nat) (evs : List (Nat × Nat)) : Chip := c.countCycle 576 8 evs (some m)
/-- The same event, once at every mesh port of a list, in one mesh cycle (R330). -/
def meshCycle (c : Chip) (ps : List Nat) (ev : Nat) : Chip :=
  if c.bit .pmcCtl F.PmcCtl.FREEZE then c
  else ps.foldl (fun c p => (List.range 2).foldl (fun c j => c.bump ev 1 none (512 + 2 * p + j)) c) c
/-- Whether the Seam counters count: not while SEAM is off (R325). -/
def seamCounts (c : Chip) : Bool := !Tab.get false c.pwr.bdReq 128 && !Tab.get false c.pwr.bdForce 128
/-- Count an event of Seam (R325). -/
def cntSeam (c : Chip) (ev n : Nat) : Chip := if c.seamCounts then c.countOn 584 4 ev n none else c
/-- Events of one cycle of Seam, counted together (R325, R330). -/
def seamCycle (c : Chip) (evs : List (Nat × Nat)) : Chip := if c.seamCounts then c.countCycle 584 4 evs else c
/-- Count an event of the thread store. -/
def cntStore (c : Chip) (ev n : Nat) : Chip := c.countOn 588 4 ev n none

/-! Answers of the control port (01 R17, R18) -/

/-- A response joins the queue of the control port, which holds the latest 8 (R17, R18).
(log 28, DESIGN CHOICE; log 29, DEDUCED) -/
def respond (c : Chip) (w : Word) (code : Nat) : Chip :=
  let q := c.cpRsp ++ [(w, code)]
  { c with cpRsp := q.drop (q.length - 8) }

/-! The crossing counter (02 R24 to R26) -/

/-- The crossing counter. -/
def ctr (c : Chip) : Nat := (c.rd .otXing).toNat
/-- The orbit length L in slots. -/
def olen (c : Chip) : Nat := c.fld .otGeom F.OtGeom.OLEN + 1
/-- The gap length G in slots. -/
def gap (c : Chip) : Nat := c.fld .otGeom F.OtGeom.GAP
/-- The decision latency D in crossings. -/
def dlat (c : Chip) : Nat := c.fld .otGeom F.OtGeom.DLAT + 1
/-- Whether the timebase is in a state whose counter counts edges (R43). -/
def counting (c : Chip) : Bool :=
  let st := c.fld .otAlign F.OtAlign.STATE
  st == 1 || (decide (3 ≤ st) && decide (st ≤ 7))

end Chip

/-- The distance in crossings from b to a (R26). -/
def dist (l : Nat) (a b : Nat) : Int :=
  ((a / 4096 : Nat) - (b / 4096 : Nat) : Int) * l + ((a % 4096 : Nat) - (b % 4096 : Nat) : Int)

/-- The crossing n crossings after x (R26). It is not reduced: a target past the last crossing is reached at the wrap, where
every pending target fires (R28).
(log 18, DEDUCED) -/
def advance (l : Nat) (x n : Nat) : Nat :=
  let s := x % 4096 + n
  (x / 4096 + s / l) * 4096 + s % l

/-- The crossing k crossings before x, 0 where there is none (R45). -/
def retreat (l : Nat) (x k : Nat) : Nat :=
  let a := x / 4096 * l + x % 4096
  let b := a - k
  b / l * 4096 + b % l

/-- The gap-start crossing of orbit o (R31). -/
def Chip.gapStart (c : Chip) (o : Nat) : Nat := o * 4096 + (c.olen - c.gap)

/-! Memories (01 R21): pattern, map and spool memory in one list of bytes; an unlisted byte reads 0. -/

/-- The 64-bit little-endian word at an offset.
(log 19, DESIGN CHOICE) -/
def memWord (m : List Host.Cell) (a : Nat) : Word :=
  wordOfBytes ((List.range 8).map fun k => Tab.get 0#8 m (a + k))

/-- The memory with one byte written; a byte of 0 is not listed.
(log 19, DESIGN CHOICE) -/
def memPut (m : List Host.Cell) (a : Nat) (b : BitVec 8) : List Host.Cell := Tab.put 0#8 m a b

/-- The memory with a 64-bit word written, little-endian (R4). -/
def memPutWord (m : List Host.Cell) (a : Nat) (w : Word) : List Host.Cell :=
  (List.range 8).foldl (fun m k => memPut m (a + k) (byteOf w k)) m

/-- The memory with several words written from an offset up. -/
def memPutWords (m : List Host.Cell) (a : Nat) : List Word → List Host.Cell
  | [] => m
  | w :: ws => memPutWords (memPutWord m a w) (a + 8) ws

/-- The canonical form of the memory list: addresses strictly rising, no entry 0. -/
def memWf (m : List Host.Cell) : Bool := Tab.wf 0#8 m

/-- The offset of the instruction at PC p (R21). -/
def patternAt (p : Nat) : Nat := 0x400000 + p % 65536 * 8
/-- The offset of a byte of a configuration set (R21). -/
def mapAt (set off : Nat) : Nat := 0x800000 + set * 0x80000 + off
/-- The bits of a map word that are not reserved, by its offset (R8, R173, R174): CMAP entries hold bits 7:6, TILE entries
bits 63 and 47:0. -/
def mapBits (off : Nat) : Word :=
  let o := (off - 0x800000) % 0x80000
  if 0x60000 ≤ o ∧ o < 0x70000 then 0xC0C0C0C0C0C0C0C0#64
  else if 0x70000 ≤ o ∧ o < 0x78000 then 0x8000FFFFFFFFFFFF#64
  else 0xFFFFFFFFFFFFFFFF#64
/-- The offset of word w of granule g of spool memory (R62). -/
def spoolAt (g w : Nat) : Nat := 0x2000000 + g * 0x400 + w * 32

/-- A 16-bit table entry of a configuration set, and whether its word is uncorrectable (R156, R176). -/
def mapEntry16 (e : Env) (c : Chip) (set off : Nat) : Nat × Bool :=
  let a := mapAt set (off / 8 * 8)
  ((memWord e.mem a).toNat / 2 ^ (8 * (off % 8)) % 2 ^ 16, Tab.get false c.eccUe a)

/-- The spool word at word w of granule g. -/
def spoolWord (m : List Host.Cell) (g w : Nat) : W256 :=
  packW256 64 ((List.range 4).map fun k => (memWord m (spoolAt g w + 8 * k)).toNat)

/-! The sealed registers (12 R258 to R263) -/

/-- The value of a register the seal protects. -/
def Prot.rd (p : Prot) (r : Reg) : Word := Tab.get r.reset p.regs r.offset
/-- The tables with such a register holding a value. -/
def Prot.wr (p : Prot) (r : Reg) (w : Word) : Prot := { regs := Tab.put r.reset p.regs r.offset w }

/-- What an access needs of a window (R259). -/
inductive Need where
  | read | ackWrite | postedWrite
  deriving DecidableEq, Repr

/-- The answer of the protection check: the window that carries the access, or the window that decided against it
(none where no window of the domain holds the address). -/
inductive Checked where
  | ok (w : Nat)
  | fail (w : Option Nat)
  deriving DecidableEq, Repr

/-- Whether window w takes part in checks and holds an address (R259). -/
def Prot.holds (p : Prot) (w a : Nat) : Bool :=
  let lo := fget (p.rd (.winBase w)) F.WinBase.ADDR
  let hi := fget (p.rd (.winLimit w)) F.WinLimit.ADDR
  fbit (p.rd (.winAttr w)) F.WinAttr.EN && decide (lo ≤ hi) && decide (lo * 4096 ≤ a) && decide (a ≤ hi * 4096 + 0xFFF)

/-- Whether window w grants what an access needs (R259). -/
def Prot.grants (p : Prot) (w : Nat) (need : Need) : Bool :=
  let t := p.rd (.winAttr w)
  match need with
  | .read => fbit t F.WinAttr.R
  | .ackWrite => fbit t F.WinAttr.W && fbit t F.WinAttr.S
  | .postedWrite => fbit t F.WinAttr.W

/-- The check over the list positions of a domain (R260): the first window that holds the address decides. -/
def Prot.checkFrom (p : Prot) (d a n : Nat) (need : Need) : List Nat → Checked
  | [] => .fail none
  | k :: ks =>
    let w := fget (p.rd (.pdWin d)) ⟨8 * k + 7, 8 * k⟩
    if fget (p.rd (.pdCfg d)) F.PdCfg.VALID / 2 ^ k % 2 = 1 ∧ p.holds w a then
      if p.holds w (a + n - 1) ∧ p.grants w need then .ok w else .fail (some w)
    else p.checkFrom d a n need ks

/-- The protection check of an access of n bytes at address a in domain d (R260). -/
def Prot.check (p : Prot) (d a n : Nat) (need : Need) : Checked := p.checkFrom d a n need (List.range 8)

/-- The home port of a window (R16). -/
def Prot.home (p : Prot) (w : Nat) : Nat := fget (p.rd (.winAttr w)) F.WinAttr.HOME
/-- The mesh target domain of a window (R212). -/
def Prot.tdom (p : Prot) (w : Nat) : Nat := fget (p.rd (.winAttr w)) F.WinAttr.TDOM

namespace Chip

/-- Whether a mesh target domain is treated as under PDREQ (R280, R281). -/
def tdDown (c : Chip) (d : Nat) : Bool := Tab.get false c.pwr.tdReq d || Tab.get false c.pwr.tdForce d

/-! The black box (14 R303) -/

/-- Whether the island hears an event of a type: without CORE it hears only what it sees itself, POWER and the link hits of
its own path, which change no RSTATE (R303). -/
def islandHears (c : Chip) (ty : Nat) (p0 : Word) : Bool :=
  coreUp c || ty == 0x09 || (ty == 0x07 && p0 == 0#64)

/-- An event sent to the black box: an enabled type enters the island's FIFO of 32, a full FIFO drops it and counts, and
nothing is taken while FROZEN. FREEZE (0x0E) is always taken (R305).
(log 78, DESIGN CHOICE) -/
def bbEvent (c : Chip) (ty : Nat) (p0 p1 : Word) : Chip :=
  if c.bit .bbStat F.BbStat.FROZEN ∨ ¬ c.islandHears ty p0 then c
  else if ty ≠ 0x0E ∧ ¬(1 ≤ ty ∧ ty ≤ 13 ∧ (c.rd .bbTypeen).toNat / 2 ^ ty % 2 = 1) then c
  else if c.bb.fifo.length ≥ 32 then
    { c.tally .bbStat F.BbStat.DROP 1 with bb := { c.bb with loss := true } }
  else
    let ev : BbEvent := { ty := ty, xing := c.rd .otXing, fine := (Config.fine c.free).toNat, p0 := p0, p1 := p1 }
    { c.spend with bb := { c.bb with fifo := c.bb.fifo ++ [ev] } }

/-! Watermarks (02 R39) -/

end Chip

/-- One update of a watermark: whether the notice rises and the arming bit after it (R39). -/
def watermark (level high low : Int) (armed : Bool) : Bool × Bool :=
  let notice := decide (level > high) && armed
  let armed := if notice then false else armed
  (notice, if level < min low high then true else armed)

/-- The four-state enable of R271. -/
inductive En where
  | off | running | stopping | restart
  deriving DecidableEq, Repr

/-- The encoding of the four states. -/
def En.code : En → Nat
  | .off => 0 | .running => 1 | .stopping => 2 | .restart => 3

/-- The state of an encoding. -/
def En.dec : Nat → En
  | 0 => .off | 1 => .running | 2 => .stopping | _ => .restart

/-- A write of a value to a four-state enable (R271): `start` says whether the start checks pass, `idle` whether the
function has nothing to finish. -/
def En.write (s : En) (v : Nat) (start idle : Bool) : En :=
  match s, v with
  | .off, 1 => if start then .running else .off
  | .running, 0 => if idle then .off else .stopping
  | .stopping, 1 => .restart
  | .restart, 0 => .stopping
  | s, _ => s

/-- The completion of a stop (R271). -/
def En.complete (s : En) (start : Bool) : En :=
  match s with
  | .restart => if start then .running else .off
  | .stopping => .off
  | s => s

/-- The four-state enable in a field. -/
def Chip.en (c : Chip) (r : Reg) (f : Fld) : En := En.dec (c.fld r f)

/-- Keep the elements of a list that pass a test, and those that do not. -/
def splitBy {α : Type} (p : α → Bool) (l : List α) : List α × List α := (l.filter p, l.filter fun a => !p a)

end Sys2Proof.Machine
end

