-- ==== Sys2Proof/Machine/Operands.lean ====
section
/-! DEFINITION. Operand formation: work registers, the second ALU operand, crossing operands (05 R108), host addresses
(06 R132), lock numbers (05 R116) and counts (07 R150). -/

namespace Sys2Proof.Machine

namespace Thread

/-- Work register i; the eight are numbered modulo 8 (R101). -/
def reg (t : Thread) (i : Nat) : W32 := Tab.get 0#32 t.w (i % 8)

/-- The thread with a work register written. -/
def setReg (t : Thread) (i : Nat) (v : W32) : Thread := { t with w := Tab.put 0#32 t.w (i % 8) v }

/-- A 64-bit value from ws (bits 31:0) and w((s + 1) mod 8) (bits 63:32): SETAT, SENDS, FILL (R115, R121, R158). -/
def pair (t : Thread) (i : Nat) : Word := BitVec.ofNat 64 ((t.reg i).toNat + 2 ^ 32 * (t.reg (i + 1)).toNat)

/-- A 48-bit address from ws and bits 15:0 of w((s + 1) mod 8) (R132, R144). -/
def address (t : Thread) (i : Nat) : Nat := (t.reg i).toNat + 2 ^ 32 * ((t.reg (i + 1)).toNat % 2 ^ 16)

/-- Whether the address registers are aligned: bits 4:0 of ws and bits 31:16 of the next register are 0 (R132, R144). -/
def addressOk (t : Thread) (i : Nat) : Bool :=
  (t.reg i).toNat % 32 == 0 && (t.reg (i + 1)).toNat / 2 ^ 16 == 0

/-- One source word from the work registers: wk gives bits 32k + 31 : 32k (R132). -/
def regWord (t : Thread) : W256 := packW256 32 ((List.range 8).map fun k => (t.reg k).toNat)

end Thread

/-- The second ALU operand and whether SHR shifts arithmetically (R106). -/
def aluB (t : Thread) (mode wt imm : Nat) : W32 :=
  if mode % 2 = 0 then t.reg wt else BitVec.ofNat 32 imm

/-- A crossing operand (R108): n is the needle's view of the counter and l the orbit length; none where the formation is
relative to a bound crossing and the thread has none. -/
def crossingOperand (t : Thread) (l n ws mode rs imm : Nat) : Option Nat :=
  let v := if rs = 1 then ((t.reg ws).toNat + imm) % 2 ^ 32 else imm
  let o := n / 4096
  match mode with
  | 0 =>
    let d : Int := signed 20 (unsigned 20 ((v / 4096 : Nat) - (o : Int)))
    if (o : Int) + d < 0 then some 0 else some (((o + d).toNat % 2 ^ 52) * 4096 + v % 4096)
  | 1 => some (advance l n v)
  | _ =>
    if t.bv then
      let x := t.bxing
      let ob : Int := (o : Int) - unsigned 12 ((o : Int) - (x / 4096 : Nat))
      let ob := if ob = o ∧ x % 4096 > n % 4096 then ob - 4096 else ob
      if ob < 0 then some 0 else some (advance l (ob.toNat * 4096 + x % 4096) v)
    else none

/-- The lock number of LOCK and UNLOCK (R116). -/
def lockNumber (t : Thread) (ws rs lockno : Nat) : Nat := if rs = 1 then (t.reg ws).toNat % 2 ^ 16 else lockno

/-- The count N of a transfer (R132, R150): `width` bits of CNT or of wc, plus 1. -/
def countOperand (t : Thread) (width rc wc cnt : Nat) : Nat :=
  if rc = 1 then (t.reg wc).toNat % 2 ^ width + 1 else cnt + 1

/-- Whether an XING wait's ARG is reached at counter n (R92). -/
def xingReached (arg n : Nat) : Bool :=
  let d := unsigned 16 ((arg / 4096 : Nat) - (n / 4096 : Int))
  decide (d ≥ 2 ^ 15) || (d == 0 && decide (n % 4096 ≥ arg % 4096))

/-- The whole target of an XING wait that is not reached at counter n: less than 2^15 orbits ahead (R92, R110). -/
def xingTarget (arg n : Nat) : Nat :=
  (n / 4096 + unsigned 16 ((arg / 4096 : Nat) - (n / 4096 : Int))) * 4096 + arg % 4096

/-- Whether a deadline kept on w bits is reached by the timer (R113 with 19 bits, R340 with 28 bits). -/
def deadlineReached (w deadline timer : Nat) : Bool :=
  let d := unsigned w ((deadline : Int) - timer)
  d == 0 || decide (d ≥ 2 ^ (w - 1))

/-- The target orbit rule of R110: a WAITX target 2^15 orbits or more ahead is refused. -/
def waitxTooFar (t n : Nat) : Bool := decide (t / 4096 ≥ n / 4096 + 2 ^ 15)

end Sys2Proof.Machine
end

