-- ==== Sys2Proof/Machine/Flags.lean ====
section
/-! DEFINITION. Every flag computation: the ALU's (05 R107), the report of success or failure (05 R102, R109), BRcc's
conditions (05 R104), and the flags of a transfer's result (06 R134, 07 R154). -/

namespace Sys2Proof.Machine

/-- The result of an ALU operation and its flags Z, N and C; no C where the operation leaves it unchanged (R107). -/
structure AluOut where
  res : W32
  z : Bool
  n : Bool
  c : Option Bool

/-- The shift results of R107: the last bit shifted out, none for a count of 0. -/
def aluOut (op : AluOp) (arith : Bool) (a b : W32) : AluOut :=
  let plain (r : W32) (c : Option Bool) : AluOut := { res := r, z := r == 0#32, n := r.msb, c := c }
  match op with
  | .add => plain (a + b) (some (decide (a.toNat + b.toNat ≥ 2 ^ 32)))
  | .sub | .cmpi => { res := a - b, z := a == b, n := BitVec.slt a b, c := some (BitVec.ult a b) }
  | .and => plain (a &&& b) none
  | .or => plain (a ||| b) none
  | .xor => plain (a ^^^ b) none
  | .shl =>
    let s := b.toNat % 32
    plain (a <<< s) (if s = 0 then none else some (a.getLsbD (32 - s)))
  | .shr =>
    let s := b.toNat % 32
    let r := if arith then a.sshiftRight s else a >>> s
    plain r (if s = 0 then none else some (a.getLsbD (s - 1)))

/-- The thread with the ALU's flags; F is unchanged (R102). -/
def Thread.aluFlags (t : Thread) (o : AluOut) : Thread :=
  { t with fZ := o.z, fN := o.n, fC := o.c.getD t.fC }

/-- The thread with F set to a failure and Z to its inverse; N and C unchanged (R69, R102, R109, R134). -/
def Thread.report (t : Thread) (failed : Bool) : Thread := { t with fF := failed, fZ := !failed }

/-- Whether the condition CC of BRcc holds (R104); C to F are refused at decode. -/
def condition (cc : Nat) (t : Thread) : Bool :=
  match cc with
  | 0x0 => t.fZ
  | 0x1 => !t.fZ
  | 0x2 => t.fC
  | 0x3 => !t.fC
  | 0x4 => t.fN
  | 0x5 => !t.fN
  | 0x6 => t.fF
  | 0x7 => !t.fF
  | 0x8 => t.fC || t.fZ
  | 0x9 => !t.fC && !t.fZ
  | 0xA => t.fN || t.fZ
  | 0xB => !t.fN && !t.fZ
  | _ => false

end Sys2Proof.Machine
end

