-- ==== Sys2Proof/Machine/ThreadOps.lean ====
section
/-! DEFINITION. The shared operations over threads, needles and locks: where a thread's current copy stands, becoming
READY and its placement (04 R90, R95), leaving a slot, the fault of a thread with its queue entry (14 R291 to R296), and
the locks (05 R116 to R120, 11 R248, R249). -/

namespace Sys2Proof.Machine

/-- The wait kinds of R92. -/
def kNone : Nat := 0
def kXing : Nat := 1
def kDec : Nat := 2
def kSpool : Nat := 3
def kDesc : Nat := 4
def kLock : Nat := 5
def kReq : Nat := 6
def kTimer : Nat := 7
def kRefill : Nat := 8
def kPark : Nat := 13
def kFault : Nat := 14

/-- The park reasons of R92. -/
def parkTarget : Nat := 1
def parkNeedle : Nat := 2

/-- The fault causes of R291. -/
def cOpcode : Nat := 1
def cIsaver : Nat := 2
def cEcc : Nat := 3
def cProt : Nat := 4
def cDesc : Nat := 5
def cStale : Nat := 6
def cMesh : Nat := 7
def cForcedPd : Nat := 8
def cReset : Nat := 9

/-- The number of threads (R13). -/
def numThreads : Nat := 262144

namespace Chip

/-! Access -/

/-- A thread's record in the store, with the scheduler's STATE (R81). -/
def thr (c : Chip) (t : Nat) : Thread := Tab.get Thread.wiped c.threads t
/-- The chip with a record in the store. -/
def setThr (c : Chip) (t : Nat) (th : Thread) : Chip := { c with threads := Tab.put Thread.wiped c.threads t th }
/-- The chip with the STATE of a thread. -/
def setSt (c : Chip) (t : Nat) (st : TState) : Chip := c.setThr t { c.thr t with st := st }
/-- A needle. -/
def ndl (c : Chip) (n : Nat) : Needle := Tab.get Needle.idle c.needles n
/-- The chip with a needle. -/
def setNdl (c : Chip) (n : Nat) (nd : Needle) : Chip := { c with needles := Tab.put Needle.idle c.needles n nd }
/-- The thread in a resident slot. -/
def slot (c : Chip) (n k : Nat) : Option Slot := Tab.get none (c.ndl n).slots k
/-- The chip with a resident slot. -/
def setSlot (c : Chip) (n k : Nat) (s : Option Slot) : Chip :=
  c.setNdl n { c.ndl n with slots := Tab.put none (c.ndl n).slots k s }
/-- The chip with the live copy of a slot changed. -/
def mapLive (c : Chip) (n k : Nat) (f : Thread → Thread) : Chip :=
  match c.slot n k with
  | some s => c.setSlot n k (some { s with live := f s.live })
  | none => c
/-- The live copy in a slot. -/
def live (c : Chip) (n k : Nat) : Thread := ((c.slot n k).map (·.live)).getD Thread.wiped

/-- The slot that a thread holds, by needle and slot number. A slot that a faulted thread has left but for its writes (R293)
is not held by it. -/
def findSlot (c : Chip) (t : Nat) : Option (Nat × Nat) :=
  c.needles.findSome? fun p => p.2.slots.findSome? fun q =>
    match q.2 with
    | some s => if s.t = t ∧ s.dead = false then some (p.1, q.1) else none
    | none => none

/-- Whether a slot still waits for the writes of a faulted thread (R140, R293). -/
def deadSlot (c : Chip) (t : Nat) : Bool :=
  c.needles.any fun p => p.2.slots.any fun q => q.2.any fun s => s.t == t && s.dead

/-- The current copy of a thread: in its slot, or in the store. -/
def copyOf (c : Chip) (t : Nat) : Thread :=
  match c.findSlot t with
  | some (n, k) => c.live n k
  | none => c.thr t

/-- The needle that holds a suspended transfer of a thread (R93).
(log 75, DEDUCED) -/
def suspendedOn (c : Chip) (t : Nat) : Option Nat :=
  c.needles.findSome? fun p => if p.2.susp.any (fun q => q.2.any fun x => x.t == t) then some p.1 else none

/-- The lines of a needle's ready queues. -/
def queueOf (nd : Needle) (k : Nat) : List Nat := (nd.queues[k]?).getD []

/-- The threads in a needle's ready queues. -/
def rdyq (nd : Needle) : Nat := (nd.queues.map List.length).foldl (· + ·) 0

/-! Needle clocks (04 R96, 13 R274, R277) -/

/-- The power state of a needle: 0 running, 1 stopped, 2 gated, 3 waking. -/
def npwr (c : Chip) (n : Nat) : Nat := c.fld (.ndlStat n) F.NdlStat.PWR
/-- Whether the PLL of a needle is locked (R274). -/
def pllLocked (c : Chip) (n : Nat) : Bool := c.bit (.clkNpll (n / 32)) F.ClkNpll.LOCK
/-- Whether block domain b is requested or forced down (R282). -/
def bdDown (c : Chip) (b : Nat) : Bool := Tab.get false c.pwr.bdReq b || Tab.get false c.pwr.bdForce b
/-- Whether a needle fills slots: EN RUNNING and no power-down request (R95, R282). -/
def needleOn (c : Chip) (n : Nat) : Bool := c.en (.ndlCtl n) F.NdlCtl.EN == .running && !c.bdDown n
/-- What a needle's own logic does, which its clock drives (R96, 13 R274). -/
def whenClocked (c : Chip) (n : Nat) (f : Chip → Chip) : Chip := if c.npwr n = 0 then f c else c
/-- The needles waking now (R277). -/
def wakingNow (c : Chip) : Nat := ((List.range 128).filter fun n => c.npwr n == 3).length

/-- A needle waits no more to wake. -/
def unqueueWake (c : Chip) (n : Nat) : Chip :=
  { c with pwr := { c.pwr with wakeQ := c.pwr.wakeQ.filter fun m => m ≠ n } }

/-- A needle that waits to wake, if it can: a stopped clock restarts, a gated needle takes a place of the eight (R96, R277),
but not while its PDREQ is held (R282). It waits on while its PLL is not locked (R274). -/
def startWake (c : Chip) (n : Nat) : Chip :=
  if ¬ c.pllLocked n then c
  else match c.npwr n with
    | 1 => ((c.unqueueWake n).setF (.ndlStat n) F.NdlStat.PWR 0).cntNeedle n 0x01B 1
    | 2 => if c.wakingNow < 8 ∧ ¬ c.bdDown n then (c.unqueueWake n).setF (.ndlStat n) F.NdlStat.PWR 3 else c
    | _ => c.unqueueWake n

/-- The needles that wait to wake, in request order (R277). -/
def startWakes (c : Chip) : Chip := c.pwr.wakeQ.foldl startWake c

/-- A needle whose clock is wanted waits to wake behind the earlier requests (R277); while its PDREQ is held a gated one stays
gated (R282). -/
def wantClock (c : Chip) (n : Nat) : Chip :=
  if c.npwr n ≠ 1 ∧ (c.npwr n ≠ 2 ∨ c.bdDown n) then c
  else
    let q := c.pwr.wakeQ
    let c : Chip := if q.contains n then c else { c with pwr := { c.pwr with wakeQ := q ++ [n] } }
    c.startWakes

/-! Becoming READY (04 R90, R95) -/

/-- The chip with a thread at the tail of its class's ready queue on a needle, READY. -/
def enqueue (c : Chip) (t n : Nat) : Chip :=
  let c := (c.setSt t .ready).cntStore 0x133 1
  let nd := c.ndl n
  let c := c.setNdl n { nd with queues := nd.queues.set (c.thr t).cls (queueOf nd (c.thr t).cls ++ [t]) }
  c.wantClock n

/-- The next needle after n, modulo 128, that fills slots (R95). -/
def nextNeedle (c : Chip) (n : Nat) : Option Nat :=
  ((List.range 128).map fun i => (n + i) % 128).find? c.needleOn

/-- Whether a needle takes up a thread with a suspended transfer of its own: it fills slots, or its PDREQ is held and waits for
the transfer to end (R93, 13 R282).
(log 89, DESIGN CHOICE) -/
def takesBack (c : Chip) (n : Nat) : Bool :=
  c.needleOn n || (Tab.get false c.pwr.bdReq n && !Tab.get false c.pwr.bdForce n)

/-- A thread becomes READY and is placed under R95; one with a suspended transfer stays on its needle (R93), and is parked
for that needle while it does not take the thread up, whatever AFIX is.
(log 89, DESIGN CHOICE) -/
def makeReady (c : Chip) (t : Nat) : Chip :=
  let th := c.thr t
  let park (c : Chip) (n : Nat) : Chip :=
    c.setThr t { c.thr t with st := .parked, kind := kPark, arg := parkNeedle * 2 ^ 24 + n }
  match c.suspendedOn t with
  | some n => if c.takesBack n then c.enqueue t n else park c n
  | none =>
    if c.needleOn th.aff then c.enqueue t th.aff
    else if th.afix then park c th.aff
    else match c.nextNeedle th.aff with
      | some n => (c.setThr t { th with aff := n }).enqueue t n
      | none => park c th.aff

/-- A waiting thread's condition is met: KIND becomes NONE, the result is written and the thread becomes READY. The fields are
written in the stored record, and the ECC marks of its words stand as they are.
(log 9, DEDUCED; log 109, DESIGN CHOICE) -/
def wake (c : Chip) (t : Nat) (f : Thread → Thread) : Chip :=
  (c.setThr t { f (c.thr t) with kind := kNone, arg := 0 }).makeReady t

/-- The threads in STATE WAITING with a wait kind and an argument that passes a test, in ascending number. -/
def waiters (c : Chip) (kind : Nat) (p : Nat → Bool) : List Nat :=
  (c.threads.filter fun q => q.2.st == .waiting && q.2.kind == kind && p q.2.arg).map (·.1)

/-! Memory errors (04 R87, 05 R99, 08 R176, 15 R311) -/

/-- An ECC error found by any reader is counted and flagged; `mem` is 0 thread store, 1 pattern memory, 2 map memory. A
corrected word loses its mark, an uncorrectable one keeps it; it is recorded in the black box (R297).
(log 68, DEDUCED) -/
def noteEcc (c : Chip) (mem : Nat) (ue : Bool) (off : Nat) : Chip :=
  let c := match mem, ue with
    | 0, true => (c.tally .tsEcc F.TsEcc.UE_CNT 1).flag .thStat F.ThStat.TS_UE
    | 0, false => (c.tally .tsEcc F.TsEcc.CE_CNT 1).flag .thStat F.ThStat.TS_CE
    | 1, true => c.tally .wdEcc F.WdEcc.PM_UE 1
    | 1, false => c.tally .wdEcc F.WdEcc.PM_CE 1
    | _, true => c.tally .wdEcc F.WdEcc.MAP_UE 1
    | _, false => c.tally .wdEcc F.WdEcc.MAP_CE 1
  let c := if mem = 0 then
      c.wr .tsEccAt (BitVec.ofNat 64 (b2n ue * 2 ^ 63 + (off - 0x1000000) / 64 * 8 + off / 8 % 8))
    else c
  if ue then (c.flag .wdStat F.WdStat.UE).bbEvent 0x03 (BitVec.ofNat 64 mem) (BitVec.ofNat 64 off)
  else { c with eccCe := Tab.put false c.eccCe off false }.flag .wdStat F.WdStat.CE

/-- A reader meets a word: its marks are judged; the answer says whether it is uncorrectable.
(log 68, DEDUCED) -/
def readEcc (c : Chip) (mem off : Nat) : Chip × Bool :=
  if Tab.get false c.eccUe off then (c.noteEcc mem true off, true)
  else if Tab.get false c.eccCe off then (c.noteEcc mem false off, false)
  else (c, false)

/-- A reader meets words of a memory, each once.
(log 68, DEDUCED) -/
def readWords (c : Chip) (mem : Nat) (l : List Nat) : Chip := l.eraseDups.foldl (fun c a => (c.readEcc mem a).1) c

/-- The marks of a word that is written whole are gone.
(log 68, DEDUCED) -/
def clearEcc (c : Chip) (off : Nat) : Chip :=
  { c with eccCe := Tab.put false c.eccCe off false, eccUe := Tab.put false c.eccUe off false }

/-- The offset of word k of the record of thread t (R21, R80). -/
def recordAt (t k : Nat) : Nat := 0x1000000 + t * 64 + k * 8

/-- A record is written back whole: its words carry fresh check bits (R311). -/
def freshRecord (c : Chip) (t : Nat) : Chip := (List.range 8).foldl (fun c k => c.clearEcc (recordAt t k)) c

/-! Leaving a slot (04 R81, R90) -/

/-- The record that a slot writes back: the live copy, with rotation's change of AFF where AFIX is 0 (R317). -/
def writeBack (s : Slot) : Thread :=
  if s.live.afix then s.live else { s.live with aff := (s.live.aff + s.rot) % 128 }

/-- Whether needle n still follows a sampled instruction of thread t (R336): the transfer it started is in a set or
suspended, or the thread's slot holds what it waits for. -/
def following (nd : Needle) (t : Nat) : Bool :=
  match nd.follow with
  | some (_ :: w1 :: _ :: x :: _) =>
    let mine (y : Xfer) : Bool := y.id + 1 == x
    w1 % 2 ^ 18 == t && ((nd.active.any mine || nd.shadow.any mine || nd.susp.any fun q => q.2.any mine) ||
      nd.slots.any fun q => q.2.any fun s => s.t == t &&
        (s.act.any (fun a => a.pc == w1 / 2 ^ 32 % 2 ^ 16) || s.sealing == some (w1 / 2 ^ 32 % 2 ^ 16)))
  | _ => false

/-- A thread whose sampled instruction is still followed leaves its slot, or faults (R336): bit 2 LEFT, bit 3 FAULTED. -/
def followMark (c : Chip) (n t : Nat) (flt : Bool) : Chip :=
  let nd := c.ndl n
  match nd.follow with
  | some [w0, w1, f, x] =>
    if following nd t then c.setNdl n { nd with follow := some [w0, w1, b2n (flt || f / 8 % 2 == 1) * 8 + 4 + f % 2, x] } else c
  | _ => c

/-- The thread in a slot leaves it with its record changed by f and written back; the slot is free. A thread whose fetch is
still in flight leaves without a write-back: the fetch is given up, and what the slot changed is changed in the store.
(log 113, DESIGN CHOICE) -/
def leave (c : Chip) (n k : Nat) (f : Thread → Thread) : Chip :=
  match c.slot n k with
  | some s =>
    let c := ((c.followMark n s.t false).setSlot n k none).setThr s.t (f (writeBack s))
    if s.fetching then c else (c.freshRecord s.t).cntStore 0x131 1
  | none => c

/-! Seam messages of the node's own (11 R238) -/

/-- This node's ID. -/
def nodeId (c : Chip) : Nat := c.fld .seamCfg F.SeamCfg.NODE_ID
/-- Whether the node acts as the reference (R240).
(log 46, DEDUCED) -/
def isRef (c : Chip) : Bool := c.bit .seamCfg F.SeamCfg.REF && !c.seam.demoted
/-- The ring state RSTATE (R239). -/
def rstate (c : Chip) : Nat := c.fld .seamStat F.SeamStat.RSTATE
/-- Whether the node is in service. -/
def inService (c : Chip) : Bool := c.rstate == 5

/-- Queue a message of the node's own, with the next SEQ where none is given. A node in STOPPING sends nothing new (R239).
(log 46, DEDUCED) -/
def sendMsg (c : Chip) (orig : MsgFrom) (ty dest : Nat) (bc : Bool) (root : Nat) (seq : Option Nat) (data : List Word) : Chip :=
  let s := c.seam
  let q := seq.getD s.seq
  let h : SeamHead :=
    { src := BitVec.ofNat 12 c.nodeId, dest := BitVec.ofNat 12 dest, bc := bc, root := BitVec.ofNat 4 root,
      seq := BitVec.ofNat 7 q }
  let m : SMsg := { ty := ty, h := h, data := data, orig := orig }
  if c.rstate = 7 then c
  else { c with seam := { s with tx := s.tx ++ [m], seq := if seq = none then (s.seq + 1) % 128 else s.seq } }

/-- The node ID of the reference (R242). -/
def refId (c : Chip) : Nat := c.fld .seamRing F.SeamRing.REF_ID

/-- Send a LOCK_REQ to the reference (R248).
(log 49, DESIGN CHOICE) -/
def sendLockReq (c : Chip) (lock t : Nat) (isTry isUnlock : Bool) (lease : Nat) : Chip :=
  c.sendMsg .node 0x20 c.refId false 0 none
    [BitVec.ofNat 64 (lock % 256 + t * 2 ^ 8 + b2n isTry * 2 ^ 26 + b2n isUnlock * 2 ^ 27 + lease * 2 ^ 28)]

/-- A request to the reference is outstanding: LOCK_RSP is matched with it by thread, lock and SEQ (R248). -/
def noteAsk (c : Chip) (a : LockAsk) : Chip :=
  let same (b : LockAsk) : Bool := b.t == a.t && b.lock == a.lock && b.seq == a.seq
  { c with seam := { c.seam with asks := c.seam.asks.filter (fun b => !same b) ++ [a] } }

/-! Locks (05 R116 to R120) -/

/-- Whether a number names a local lock. -/
def isLocal (l : Nat) : Bool := decide (l < 1024)
/-- Whether a number names a ring lock. -/
def isRing (l : Nat) : Bool := decide (0x8000 ≤ l ∧ l ≤ 0x80FF)

/-- The state of a lock: local, or a ring lock in the reference's lock unit. -/
def lockAt (c : Chip) (l : Nat) : Lock :=
  if isLocal l then Tab.get Lock.free c.locks l else Tab.get Lock.free c.seam.ringLocks (l % 256)
/-- The chip with a lock's state. -/
def setLock (c : Chip) (l : Nat) (v : Lock) : Chip :=
  if isLocal l then { c with locks := Tab.put Lock.free c.locks l v }
  else { c with seam := { c.seam with ringLocks := Tab.put Lock.free c.seam.ringLocks (l % 256) v } }

/-- The owner number of a thread of this node for a lock: the thread, or node × 2^18 + thread (R248). -/
def ownerOf (c : Chip) (l t : Nat) : Nat := if isLocal l then t else c.nodeId * numThreads + t

/-- The waiting owners of a lock with their leases and sequence numbers, in ascending order. A thread of this node counts
while it waits for this lock (R120). -/
def lockWaiters (c : Chip) (l : Nat) : List (Nat × Nat × Nat) :=
  if isLocal l then (c.waiters kLock (· == l)).map fun t => (t, (c.thr t).lease, 0)
  else (c.lockAt l).waiters.filter fun w =>
    let th := c.thr (w.1 % numThreads)
    w.1 / numThreads ≠ c.nodeId || (th.st == .waiting && th.kind == kLock && th.arg == l)

/-- A thread of this node waits for no ring lock in the reference's lock unit any more. -/
def dropRingWaits (c : Chip) (t : Nat) : Chip :=
  let o := c.nodeId * numThreads + t
  let thin (p : Nat × Lock) : Nat × Lock := (p.1, { p.2 with waiters := p.2.waiters.filter fun w => w.1 ≠ o })
  { c with seam := { c.seam with ringLocks := (c.seam.ringLocks.map thin).filter fun p => p.2 ≠ Lock.free } }

/-- The waiter that a lock is granted to: the lowest above the last owner, wrapping (R120). -/
def nextWaiter (ws : List (Nat × Nat × Nat)) (last : Nat) : Option (Nat × Nat × Nat) :=
  let least (l : List (Nat × Nat × Nat)) : Option (Nat × Nat × Nat) :=
    l.foldl (fun acc w => match acc with | none => some w | some a => if w.1 < a.1 then some w else some a) none
  match least (ws.filter fun w => last < w.1) with
  | some w => some w
  | none => least ws

/-- The result of a LOCK or UNLOCK that waited reaches its thread: wd, F and Z, and the thread becomes READY (R117). -/
def lockResult (c : Chip) (t code : Nat) : Chip :=
  c.wake t fun th => (th.setReg th.retReg (BitVec.ofNat 32 code)).report (code ≠ 0)

/-- A lock that has become FREE or BROKEN goes at once to one waiter (R120). `last` is the last owner. GRANT_BROKEN rises where
the lock is held: for a ring lock, at the reference.
(log 90, DESIGN CHOICE) -/
def lockGrant (c : Chip) (l last : Nat) : Chip :=
  match nextWaiter (c.lockWaiters l) last with
  | none => c
  | some (o, lease, seq) =>
    let v := c.lockAt l
    let code := if v.st = .broken then 1 else 0
    let le := advance c.olen c.ctr (lease + 1)
    let c := c.setLock l { v with st := .held, owner := o, leaseEnd := le, waiters := v.waiters.filter fun w => w.1 ≠ o }
    let c := if code = 1 then c.flag .lkStat F.LkStat.GRANT_BROKEN else c
    if isLocal l then c.lockResult o code
    else if o / numThreads = c.nodeId then c.lockResult (o % numThreads) code
    else c.sendMsg .node 0x21 (o / numThreads) false 0 (some seq)
      [BitVec.ofNat 64 (l % 256 + o % numThreads * 2 ^ 8 + code * 2 ^ 26 + le % 2 ^ 24 * 2 ^ 29)]

/-- A HELD lock becomes BROKEN; `expired` says whether its lease ran out or its owner was lost (R119, R120). -/
def lockBreak (c : Chip) (l : Nat) (expired : Bool) : Chip :=
  let v := c.lockAt l
  if v.st = .held then
    let c := c.setLock l { v with st := .broken, leaseEnd := 0 }
    let c := c.flag .lkStat (if expired then F.LkStat.EXPIRED else F.LkStat.OWNER_LOST)
    c.lockGrant l v.owner
  else c

/-- Every lock that a thread of this node owns becomes BROKEN: local ones and, on the reference, ring ones at once; for a
ring lock held elsewhere the node sends an UNLOCK (R119, R249), marked by TRY so that the reference breaks the lock.
(log 49, DESIGN CHOICE) -/
def breakLocks (c : Chip) (t : Nat) : Chip :=
  let own := (c.locks.filter fun p => p.2.st == .held && p.2.owner == t).map (·.1)
  let c := own.foldl (fun c l => c.lockBreak l false) c
  let ring := (c.seam.ringLocks.filter fun p => p.2.st == .held && p.2.owner == c.nodeId * numThreads + t).map (·.1)
  let c := ring.foldl (fun c l => c.lockBreak (0x8000 + l) false) c
  let away := c.seam.held.filter fun p => p.2 == t
  let c := if c.inService then away.foldl (fun c p => c.sendLockReq p.1 t true true 0) c else c
  { c with seam := { c.seam with held := c.seam.held.filter fun p => p.2 ≠ t } }

/-! Faults (14 R291 to R296) -/

/-- What a fault reports beside its thread (R291, R296). -/
structure FaultInfo where
  cause : Nat
  ndl : Nat
  pc : Nat
  av : Bool
  dir : Bool
  addr : Nat
  detail : Nat
  dv : Bool
  daddr : Nat

/-- The fault of an instruction with no address. -/
def FaultInfo.plain (cause ndl pc detail : Nat) : FaultInfo :=
  { cause := cause, ndl := ndl, pc := pc, av := false, dir := false, addr := 0, detail := detail, dv := false, daddr := 0 }

/-- The four words of a fault entry (R296). -/
def faultWords (c : Chip) (t gen seq : Nat) (i : FaultInfo) : FaultEntry :=
  { e0 := BitVec.ofNat 64 (i.cause * 2 ^ 56 + b2n i.av * 2 ^ 55 + b2n i.dir * 2 ^ 54 + b2n i.dv * 2 ^ 53 + i.ndl * 2 ^ 46 +
      i.pc * 2 ^ 18 + t),
    e1 := BitVec.ofNat 64 (gen * 2 ^ 48 + i.addr % 2 ^ 48),
    e2 := BitVec.ofNat 64 (i.detail * 2 ^ 48 + i.daddr % 2 ^ 48),
    e3 := BitVec.ofNat 64 (c.ctr % 2 ^ 24 * 2 ^ 40 + seq) }

/-- A fault's entry joins the queue of 256, or is dropped and counted; it goes to the black box, but for RESET (R296). -/
def queueFault (c : Chip) (t gen : Nat) (i : FaultInfo) : Chip :=
  let seq := (c.faultSeq + 1) % 2 ^ 32
  let w := faultWords c t gen seq i
  let c := { c with faultSeq := seq }.flag .fltStat F.FltStat.FAULT
  let c :=
    if c.faults.length ≥ 256 then (c.tally .fltStat F.FltStat.OVF 1).flag .fltStat F.FltStat.QOVF
    else { c with faults := c.faults ++ [w] }
  if i.cause = cReset then c else c.bbEvent 0x01 w.e0 w.e1

/-- The record of a thread in FAULT (R292). A HALT or KILL that waits is kept, to be judged after the fault (R294). -/
def faulted (th : Thread) (i : FaultInfo) : Thread :=
  { th with st := .fault, kind := kFault, arg := i.cause + i.ndl * 2 ^ 8, sealing := false, undo := none }

/-- A thread leaves every ready queue. -/
def unqueue (c : Chip) (t : Nat) : Chip :=
  { c with needles := c.needles.map fun q => (q.1, { q.2 with queues := q.2.queues.map fun l => l.filter (· ≠ t) }) }

/-- Whether a burst belongs to a transfer, a POST, SEAL or DSET of a thread. -/
def threadUse : BurstFor → Bool
  | .xDesc .. | .xSrc .. | .xRef .. | .xData .. | .xStatus .. | .own .. | .actDesc .. | .actStatus .. => true
  | _ => false

/-- Whether an acknowledged write of a thread that passes a test has left or is to leave and has not been answered. -/
def writesOf (c : Chip) (p : Burst → Bool) : Bool :=
  let mine (b : Burst) : Bool := threadUse b.use && b.kind == .ack && p b
  c.ports.any (fun q => q.2.outst.any (fun o => mine o.2.1) || q.2.waiting.any mine || (q.2.granted.any fun g => mine g.burst) ||
      q.2.undrained.any fun o => mine o.2)
    || c.backlog.any fun x => mine x.2

/-- Whether a write of a thread has left or is to leave and has not been answered (R84, R143). -/
def writesOut (c : Chip) (t : Nat) : Bool := c.writesOf fun b => b.thr == t

/-- Whether an act is a ring lock's, whose result is still to come (R248). -/
def isLockAct : ActKind → Bool
  | .lockTry | .lockUnlock => true
  | _ => false

/-- Whether a needle's completion queue holds an entry of a thread. -/
def hasCq (nd : Needle) (t : Nat) : Bool := nd.cq.any fun e => e.t == t

/-- Whether a slot of needle n must still be held for the thread that faulted in it: its completion-queue entries, its
unacknowledged writes (R140, R293), and the result of an instruction that it issued before (R292). -/
def slotOwed (c : Chip) (n : Nat) (s : Slot) : Bool :=
  (c.ndl n).cq.any (fun e => e.t == s.t && e.gen == s.live.gen) || s.act.isSome ||
    c.writesOf fun b => b.thr == s.t && b.gen == s.live.gen

/-- A thread in slot k of needle n faults: the entry, the record, its locks; it leaves the slot once its completion-queue
entries and its writes have emptied (R140, R292, R293). A thread already in FAULT keeps its first cause and gets a further
entry (R294). -/
def faultSlot (c : Chip) (n k : Nat) (i : FaultInfo) : Chip :=
  match c.slot n k with
  | none => c
  | some s =>
    let c := ((c.followMark n s.t true).queueFault s.t s.live.gen i).cntNeedle n 0x029 1
    if s.dead then c
    else
      let rec' := faulted (writeBack s) i
      let c := ((c.setThr s.t rec').freshRecord s.t).cntStore 0x131 1
      let d : Slot := { s with dead := true, grp := none, sealing := none }
      let c := c.setSlot n k (if c.slotOwed n d then some d else none)
      c.breakLocks s.t

/-- A thread outside any slot faults (a DESC wait's read, a suspended transfer's end). -/
def faultStored (c : Chip) (t : Nat) (i : FaultInfo) : Chip :=
  let th := c.thr t
  let c := (c.queueFault t th.gen i).cntNeedle i.ndl 0x029 1
  if th.st = .fault then c
  else ((c.unqueue t).setThr t (faulted th i)).breakLocks t

/-- A dead slot whose thread's completion-queue entries and writes have emptied is free (R293). -/
def reapSlot (c : Chip) (n k : Nat) : Chip :=
  match c.slot n k with
  | some s => if s.dead ∧ ¬ c.slotOwed n s then c.setSlot n k none else c
  | none => c

/-- Every dead slot of a needle, judged. -/
def reap (c : Chip) (n : Nat) : Chip := (List.range 8).foldl (fun c k => c.reapSlot n k) c

/-- What the result of a pending instruction writes (R102, R142, R144): none is the flags F and Z. -/
def pendingRes (a : Act) : List (Option Nat) := if a.kind = .dset then [none] else [some a.wd, none]

/-- The result that a slot's instruction was pending for lands: in the slot's copy, or in the record of a thread that has
faulted since, whose slot may then be free (R292). -/
def landResult (c : Chip) (n k : Nat) (f : Thread → Thread) : Chip :=
  match c.slot n k with
  | none => c
  | some s =>
    if s.dead then
      let th := c.thr s.t
      let c := if th.gen = s.live.gen then c.setThr s.t (f th) else c
      (c.setSlot n k (some { s with act := none })).reap n
    else
      let left := s.pend.filter fun r => !s.act.any fun a => (pendingRes a).contains r
      c.setSlot n k (some { s with act := none, pend := left, live := f s.live })

end Chip

end Sys2Proof.Machine
end

