-- ==== Sys2Proof/Machine/Timebase.lean ====
section
/-! DEFINITION. The orbit timebase (02_orbit_timebase.md): alignment states, running and stopping, geometry, loads and
resyncs, the SETAT schedule, crossing watermarks, and the beam clock; with the decision record (09, R186 to R192) and the
pending commit (12, R267 to R270), which its edges and its geometry move. The edge itself is in Edge.lean. -/

namespace Sys2Proof.Machine.Chip

/-! The alignment state (R43) -/

/-- DXW_OT_ALIGN.STATE. -/
def alignSt (c : Chip) : Nat := c.fld .otAlign F.OtAlign.STATE
/-- Ring mode. -/
def ringMode (c : Chip) : Bool := c.bit .otCtl F.OtCtl.MODE
/-- RUN of the timebase. -/
def runEn (c : Chip) : En := c.en .otCtl F.OtCtl.RUN

/-- A resync becomes armed (R45). It waits for a marker received at or after the arming; an arming while one is armed changes
nothing.
(log 104, DESIGN CHOICE) -/
def armResync (c : Chip) : Chip :=
  if c.tb.resync then c else { c with tb := { c.tb with resync := true, resyncMarker := false } }

/-- The partial mean of the phase residuals is discarded (15 R316). -/
def phaseDrop (c : Chip) : Chip := { c with svc := { c.svc with phSum := 0 } }.setF .calPhase F.CalPhase.NMARK 0

/-- The state moves; each entry into DRIFT, MISALIGNED or LOST sets ALIGN_LOST, into NOCLK BCLK_LOST, each is an ALIGN
event, and AUTO_RESYNC arms a resync at each entry into MISALIGNED (R43, R45, R304).
(log 16, DEDUCED) -/
def setAlign (c : Chip) (st : Nat) : Chip :=
  let old := c.alignSt
  let c := c.setF .otAlign F.OtAlign.STATE st
  let c := if old = st ∨ st = 3 then c else c.phaseDrop
  if old = st then c
  else if st = 5 ∨ st = 6 ∨ st = 7 then
    let c := c.flag .otStat F.OtStat.ALIGN_LOST
    let c := c.bbEvent 0x06 (c.rd .otAlign) 0#64
    if st = 6 ∧ c.bit .otAlignCfg F.OtAlignCfg.AUTO_RESYNC then c.armResync else c
  else if st = 8 then
    let c := c.flag .otStat F.OtStat.BCLK_LOST
    c.bbEvent 0x06 (c.rd .otAlign) 0#64
  else c

/-- The state of a timebase whose RUN has just become RUNNING (R43). -/
def startedAlign (c : Chip) : Chip :=
  let c := { c with tb := { c.tb with opening := true } }
  if ¬ c.tb.present then c else c.setAlign (if c.ringMode then 2 else 1)

/-- The loads that wait for the next edge are dropped: the state in which they were given is left (R42, R48).
(log 86, DEDUCED) -/
def dropLoads (c : Chip) : Chip := { c with tb := { c.tb with freeLoad := none, ringLoad := none } }

/-- The state of a timebase whose RUN has just become OFF. -/
def stoppedAlign (c : Chip) : Chip := if c.tb.present then c.dropLoads.setAlign 0 else c.dropLoads

/-! Decisions (09 R186 to R192) -/

/-- The position of a crossing in the decision record (R186). -/
def decPos (c : Chip) (x : Nat) : Nat := (x / 4096 * c.olen + x % 4096) % 1024
/-- The entry at a crossing's position. -/
def decAt (c : Chip) (x : Nat) : DecEntry := Tab.get DecEntry.unused c.dec (c.decPos x)
/-- Whether an entry carries the tag of x. -/
def carries (e : DecEntry) (x : Nat) : Bool := e.st != .unused && e.x % 2 ^ 24 == x % 2 ^ 24
/-- The chip with an entry replaced. -/
def setDec (c : Chip) (x : Nat) (e : DecEntry) : Chip := { c with dec := Tab.put DecEntry.unused c.dec (c.decPos x) e }

/-- The threads that wait on the tag of x become READY with a decision word (R190). -/
def decWake (c : Chip) (x word : Nat) (missing : Bool) : Chip :=
  (c.waiters kDec (· == x % 2 ^ 24)).foldl (fun c t =>
    c.wake t fun th => (th.setReg th.retReg (BitVec.ofNat 32 word)).report missing) c

/-- The word of a crossing outside the kept window: MISSING with EXP (R190). -/
def wordExp : Nat := 0x90000000

/-- The entry of x is opened, unless it carries the tag of x already or x is no crossing (R186).
(log 18, DEDUCED) -/
def openDec (c : Chip) (x : Nat) : Chip :=
  let e := c.decAt x
  if carries e x ∨ 2 ^ 64 ≤ x then c
  else
    let c := if e.st = .unused then c else c.decWake e.x wordExp true
    c.setDec x { st := .opened, x := x, word := 0 }

/-- GRACE. -/
def grace (c : Chip) : Nat := c.fld .decCfg F.DecCfg.GRACE

/-- An entry is declared MISSING: the count, the flag, the event and the waiters (R188). HINT and HACC stay. -/
def declareMissing (c : Chip) (e : DecEntry) : Chip :=
  let word := 0x80000000 + e.word % 2 ^ 28 / 2 ^ 26 * 2 ^ 26
  let c := c.setDec e.x { e with st := .missing, word := word }
  let c := (c.tally .decCnt1 F.DecCnt1.MISSING 1).flag .decStat F.DecStat.MISSING
  let c := c.bbEvent 0x05 (BitVec.ofNat 64 e.x) 0#64
  c.decWake e.x word true

/-- Whether an entry is past its declaration point at counter n (R188); at a wrap every OPEN entry is. -/
def missingDue (c : Chip) (n : Nat) (wrapped : Bool) (e : DecEntry) : Bool :=
  e.st == .opened && (wrapped || decide (dist c.olen n e.x ≥ c.dlat + c.grace + 1))

/-- The kept window at the counter: −16 ≤ dist(n, x) ≤ 1,007 (R186). -/
def inWindow (c : Chip) (x : Nat) : Bool :=
  let d := dist c.olen c.ctr x
  decide (-16 ≤ d) && decide (d ≤ 1007)

/-- Every entry becomes UNUSED and the threads waiting on entries become READY as outside the window (R192). -/
def clearDec (c : Chip) : Chip :=
  let olds := c.dec
  olds.foldl (fun c p => c.decWake p.2.x wordExp true) { c with dec := [] }

/-- The crossing with given bits 23:0 that lies nearest the counter (R187); there is none past orbit 2^52 − 1.
(log 18, DEDUCED) -/
def nearestX (c : Chip) (x24 : Nat) : Nat :=
  let n := c.ctr
  let near := ((n / 4096 : Nat) : Int) + signed 12 (unsigned 12 ((x24 / 4096 : Nat) - ((n / 4096 : Nat) : Int)))
  let cand := ([near, near - 4096, near + 4096].filter fun o => decide (0 ≤ o) && decide (o < 2 ^ 52)).map fun o => o.toNat * 4096 + x24 % 4096
  (cand.foldl (fun (best : Option Nat) x => match best with
    | none => some x
    | some y => if (dist c.olen n x).natAbs < (dist c.olen n y).natAbs then some x else some y) none).getD x24

/-! The pending commit (12 R267 to R270) -/

/-- Whether a commit is pending. -/
def commitPending (c : Chip) : Bool := c.bit .cfgset F.Cfgset.PEND
/-- The target orbit of the pending commit. -/
def commitOrbit (c : Chip) : Nat := c.fld .cfgset F.Cfgset.TARGET + b2n c.tb.commitPast * 2 ^ 52
/-- The gap start of the pending target (R268). A target past the last orbit is reached at the wrap (R28).
(log 81, DEDUCED) -/
def commitAt (c : Chip) : Nat := c.gapStart c.commitOrbit

/-- The first orbit from o whose gap start lies at least GUARD crossings after the counter (R268). The distance grows by
L ≥ 16 with each orbit, so 4096 tries pass every guard from an orbit at or after the counter's.
(log 81, DEDUCED) -/
def commitTarget (c : Chip) (guard : Nat) : Nat → Nat → Nat
  | 0, o => o
  | k + 1, o => if dist c.olen (c.gapStart o) c.ctr < guard then c.commitTarget guard k (o + 1) else o

/-- A commit is judged and becomes pending, is merged, or is refused (R268, R269). `named` is the orbit it names; a named
orbit before the counter's own is passed over at once.
(log 81, DEDUCED) -/
def commitAccept (c : Chip) (ring : Bool) (named : Option Nat) : Chip :=
  let here := c.ctr / 4096
  let start := match named with | none => here | some o => max o here
  let target := c.commitTarget (c.fld .commitCfg F.CommitCfg.GUARD) 4096 start
  let slipped := match named with | none => false | some o => decide (target ≠ o)
  let slip (c : Chip) : Chip := if slipped then c.flag .commitStat F.CommitStat.SLIPPED else c
  if c.commitPending then
    if target = c.commitOrbit then slip (c.tally .commitStat F.CommitStat.MERGED 1)
    else c.flag .commitStat F.CommitStat.REFUSED
  else
    let c := c.setF .cfgset F.Cfgset.PEND 1
    let c := c.setF .cfgset F.Cfgset.SRC (b2n ring)
    let c : Chip := { c with tb := { c.tb with commitPast := decide (2 ^ 52 ≤ target) } }
    slip (c.setF .cfgset F.Cfgset.TARGET target)

/-- CANCEL of a pending commit (R269). -/
def commitCancel (c : Chip) : Chip :=
  if c.commitPending then
    if dist c.olen c.commitAt c.ctr ≥ c.fld .commitCfg F.CommitCfg.GUARD then
      { c.setF .cfgset F.Cfgset.PEND 0 with tb := { c.tb with agenda := c.tb.agenda.erase .swap } }
    else c.flag .commitStat F.CommitStat.CANCEL_LATE
  else c

/-- The swap of the configuration sets (R267): no data moves. -/
def swapSets (c : Chip) : Chip :=
  let act := 1 - c.fld .cfgset F.Cfgset.ACTIVE
  let c := c.setF .cfgset F.Cfgset.ACTIVE act
  let c := c.setF .cfgset F.Cfgset.PEND 0
  let c := c.tally .commitStat F.CommitStat.SWAPS 1
  c.bbEvent 0x0A (BitVec.ofNat 64 (c.fld .cfgset F.Cfgset.TARGET)) (BitVec.ofNat 64 act)

/-- The set that is active now. -/
def activeSet (c : Chip) : Nat := c.fld .cfgset F.Cfgset.ACTIVE

/-! Running and geometry (R29, R30) -/

/-- A write to RUN (R29, R271). A stop has nothing to finish in ACQUIRE and in NOCLK. -/
def runWrite (c : Chip) (v : Nat) : Chip :=
  let old := c.runEn
  let new := old.write v true (c.alignSt == 2 || c.alignSt == 8)
  if new = old then c
  else
    let c := c.setF .otCtl F.OtCtl.RUN new.code
    if old = .off ∧ new = .running then c.startedAlign
    else if new = .off then c.stoppedAlign
    else c

/-- A write to MODE, judged against RUN before the same write changes it (R29). -/
def modeWrite (c : Chip) (mode : Nat) : Chip :=
  if c.fld .otCtl F.OtCtl.MODE = mode then c
  else if c.runEn = .off then c.setF .otCtl F.OtCtl.MODE mode
  else c.flag .otStat F.OtStat.GEOM_LOCKED

/-- RESYNC (R45): arms in ring mode only. -/
def resyncWrite (c : Chip) : Chip := if c.ringMode then c.armResync else c

/-- LOAD_GO (R48).
(log 11, DEDUCED) -/
def loadGo (c : Chip) : Chip :=
  let v := c.rd .otLoad
  let st := c.alignSt
  if v.toNat % 4096 ≥ c.olen ∨ (st ≠ 0 ∧ st ≠ 1) then c.flag .otStat F.OtStat.LOAD_IGNORED
  else if st = 0 then
    let c := { c with tb := { c.tb with opening := true } }
    (c.wr .otStepFrom (c.rd .otXing)).wr .otXing v
  else { c with tb := { c.tb with freeLoad := some v.toNat } }

/-- A write of DXW_OT_CTL: MODE, then RUN (R29), then LOAD_GO, then RESYNC.
(log 72, DEDUCED) -/
def otCtlWrite (c : Chip) (w : Word) : Chip :=
  let c := (c.modeWrite (fget w F.OtCtl.MODE)).runWrite (fget w F.OtCtl.RUN)
  let c := if fbit w F.OtCtl.LOAD_GO then c.loadGo else c
  if fbit w F.OtCtl.RESYNC then c.resyncWrite else c

/-- A write of DXW_OT_GEOM (R30), with what a change of L does to the decision record (R192) and a change of L or G to a
pending commit (R270). A write of bad values while RUN is not OFF sets GEOM_LOCKED alone.
(log 106, DESIGN CHOICE) -/
def otGeomWrite (c : Chip) (w : Word) : Chip :=
  let olen := fget w F.OtGeom.OLEN
  let gap := fget w F.OtGeom.GAP
  if c.runEn ≠ .off then c.flag .otStat F.OtStat.GEOM_LOCKED
  else if olen < 15 ∨ gap = 0 ∨ gap > olen then c.flag .otStat F.OtStat.GEOM_BAD
  else
    let oldL := c.fld .otGeom F.OtGeom.OLEN
    let oldG := c.fld .otGeom F.OtGeom.GAP
    let c := c.setF .otGeom F.OtGeom.OLEN olen
    let c := c.setF .otGeom F.OtGeom.GAP gap
    let c := c.setF .otGeom F.OtGeom.DLAT (fget w F.OtGeom.DLAT)
    let c := if oldL = olen then c else c.clearDec
    if (oldL ≠ olen ∨ oldG ≠ gap) ∧ c.commitPending ∧ c.commitAt ≤ c.ctr then c.flag .commitStat F.CommitStat.SLIPPED
    else c

/-! The SETAT schedule (R34) -/

/-- Whether a target crossing is reached at the counter (R25). -/
def reached (c : Chip) (t : Nat) : Bool := decide (t ≤ c.ctr)

/-- A SETAT reaches the schedule: the schedule with the entry and false, or the counted refusal and true (R34). HWM rises at
an acceptance; its clear by a read stands until then, whatever is pending (R6, R38).
(log 87, DESIGN CHOICE) -/
def setatAccept (c : Chip) (target off : Nat) (v : Word) : Chip × Bool :=
  if c.reached target then
    ((c.tally .otSetat F.OtSetat.LATE_CNT 1).flag .otStat F.OtStat.SETAT_LATE, true)
  else if c.tb.setat.length ≥ 256 then
    ((c.tally .otSetat F.OtSetat.FULL_CNT 1).flag .otStat F.OtStat.SETAT_FULL, true)
  else
    let c := { c with tb := { c.tb with setat := c.tb.setat ++ [{ target := target, off := off, value := v }] } }
    let n := c.tb.setat.length
    (if n > c.fld .otSetat F.OtSetat.HWM then c.setF .otSetat F.OtSetat.HWM n else c, false)

/-- An entry among entries in the order in which an edge applies them: by target, then by acceptance (R35). -/
def setatInsert (e : SetatEntry) : List SetatEntry → List SetatEntry
  | [] => [e]
  | x :: xs => if e.target < x.target then e :: x :: xs else x :: setatInsert e xs

/-- The entries an edge to n applies, in order; all of them at a wrap (R28, R35). -/
def setatDue (l : List SetatEntry) (n : Nat) (all : Bool) : List SetatEntry :=
  (l.filter fun e => all || decide (e.target ≤ n)).foldl (fun acc e => setatInsert e acc) []

/-! Waits on the crossing (R35, R40) -/

/-- A thread in a WAITX wait wakes: the wait completes and binds it (R40, R110). -/
def xingWake (c : Chip) (t : Nat) : Chip :=
  c.wake t fun th => { th with bv := true, bxing := th.arg % 2 ^ 24 }.report false

/-! Crossing watermarks (R40, R41) -/

/-- A post of a thread is measured (R40, R41). -/
def measurePost (c : Chip) (th : Thread) : Chip :=
  let k := th.cls
  if ¬ th.bv ∨ ¬ c.bit (.otWmCfg k) F.OtWmCfg.EN then c
  else
    let n := c.ctr
    let od := signed 12 (unsigned 12 ((n / 4096 : Nat) - ((th.bxing / 4096 : Nat) : Int)))
    let lag : Int := od * c.olen + ((n % 4096 : Nat) - ((th.bxing % 4096 : Nat) : Int))
    let high := c.fld (.otWmCfg k) F.OtWmCfg.HIGH
    let r := watermark lag high (c.fld (.otWmCfg k) F.OtWmCfg.LOW) (c.bit (.otWmLvl k) F.OtWmLvl.ARMED)
    let c := c.setF (.otWmLvl k) F.OtWmLvl.LEVEL (unsigned 16 (clamp (-32768) 32767 lag))
    let c := if lag > high then c.tally (.otWmLvl k) F.OtWmLvl.LATE_CNT 1 else c
    let c := c.setF (.otWmLvl k) F.OtWmLvl.ARMED (b2n r.2)
    if r.1 then
      let c := c.flag (.otWmLvl k) F.OtWmLvl.NOTICE
      c.bbEvent 0x0C (BitVec.ofNat 64 k) (c.rd (.otWmLvl k))
    else c

/-! The beam clock (R23) -/

/-- The beam clock is declared lost (R23, R43).
(log 14, DEDUCED) -/
def bclkLost (c : Chip) : Chip :=
  if ¬ c.tb.present then c
  else
    let c := { c with tb := { c.tb with present := false } }
    let c := c.setF .otBclk F.OtBclk.MEAS 0
    let c := c.setAlign 8
    if c.runEn = .stopping then (c.setF .otCtl F.OtCtl.RUN 0).dropLoads
    else if c.runEn = .restart then (c.setF .otCtl F.OtCtl.RUN 1).dropLoads
    else c

/-- The beam clock counts as present (R23, R43). In ring mode the state is HOLDOVER, at the reference too, which no marker then
moves.
(log 107, DEDUCED) -/
def bclkPresent (c : Chip) : Chip :=
  if c.tb.present then c
  else
    let c := { c with tb := { c.tb with present := true, opening := true } }
    c.setAlign (if c.runEn = .off then 0 else if c.ringMode then 4 else 1)

/-- A measured period (R23). -/
def bclkMeasure (c : Chip) (period : Nat) : Chip :=
  if ¬ c.tb.present then c
  else
    let nom := c.fld .otBclk F.OtBclk.NOM
    let c := c.setF .otBclk F.OtBclk.MEAS period
    if (period - nom) * 100 > nom ∨ (nom - period) * 100 > nom then c.flag .otStat F.OtStat.BCLK_OFFNOM else c

/-- An orbit start of a node in ring mode without a marker (R43): LOCKED, DRIFT and MISALIGNED go to HOLDOVER. The rules on
markers do not apply to the reference (11 R246).
(log 17, DEDUCED; log 88, DEDUCED) -/
def markerMissed (c : Chip) : Chip :=
  let st := c.alignSt
  if st < 3 ∨ st > 7 ∨ c.isRef then c
  else
    let atTop := c.fld .otAlign F.OtAlign.MISSED = 0xFFFF
    let c : Chip := { c with tb := { c.tb with missedOver := atTop } }
    let c := c.tally .otAlign F.OtAlign.MISSED 1
    if st = 3 ∨ st = 5 ∨ st = 6 then c.setAlign 4 else c

/-- HOLD_ORBITS orbits without a marker (R43).
(log 17, DEDUCED) -/
def holdoverExpire (c : Chip) : Chip :=
  if c.alignSt = 4 ∧
      c.fld .otAlign F.OtAlign.MISSED + b2n c.tb.missedOver ≥ c.fld .otAlignCfg F.OtAlignCfg.HOLD_ORBITS + 1 then
    c.setAlign 7
  else c

end Sys2Proof.Machine.Chip

namespace Sys2Proof.Machine

/-- The island's judgement alone: without CORE's power nothing else judges the beam clock (R23, 13 R275). -/
def setPresent (c : Chip) (v : Bool) : Chip :=
  let tb := { c.tb with present := v }
  { c with tb := tb }

/-- BCLK_LOST (R23). -/
def execBclkLost (s : State) : Host.Outcome State Fault Refusal :=
  s.chipStep fun _ c => if coreUp c then c.bclkLost else setPresent c false
/-- BCLK_PRESENT (R23). -/
def execBclkPresent (s : State) : Host.Outcome State Fault Refusal :=
  s.chipStep fun _ c => if coreUp c then c.bclkPresent else setPresent c true
/-- BCLK_MEASURE (R23). -/
def execBclkMeasure (period : BitVec 16) (s : State) : Host.Outcome State Fault Refusal :=
  s.chipStep fun _ c => if coreUp c then c.bclkMeasure period.toNat else c

/-- A command of the control port takes effect only while the block reports READY (R12).
(log 4, DESIGN CHOICE; log 5, DESIGN CHOICE) -/
def whenReady (c : Chip) (f : Chip → Chip) : Chip := if c.pwr.phase = .running then f c else c
/-- The mesh interface acts while the block runs and in the quiesce of a warm reset (R284, R285).
(log 4, DESIGN CHOICE; log 24, DEDUCED) -/
def whenLive (c : Chip) (f : Chip → Chip) : Chip := if c.pwr.phase = .running ∨ c.pwr.phase = .quiesce then f c else c

/-- TIMEBASE_RUN (R29). -/
def execTimebaseRun (s : State) : Host.Outcome State Fault Refusal := s.chipStep fun _ c => whenReady c (·.runWrite 1)
/-- TIMEBASE_STOP (R29). -/
def execTimebaseStop (s : State) : Host.Outcome State Fault Refusal := s.chipStep fun _ c => whenReady c (·.runWrite 0)
/-- TIMEBASE_MODE_WRITE (R29). -/
def execTimebaseModeWrite (mode : Fin 2) (s : State) : Host.Outcome State Fault Refusal :=
  s.chipStep fun _ c => whenReady c (·.modeWrite mode.val)
/-- OT_GEOM_WRITE (R30). -/
def execOtGeomWrite (data : Word) (s : State) : Host.Outcome State Fault Refusal :=
  s.chipStep fun _ c => whenReady c (·.otGeomWrite data)
/-- RESYNC_ARM (R45). -/
def execResyncArm (s : State) : Host.Outcome State Fault Refusal := s.chipStep fun _ c => whenReady c (·.resyncWrite)
/-- LOAD_GO (R48). -/
def execLoadGo (s : State) : Host.Outcome State Fault Refusal := s.chipStep fun _ c => whenReady c (·.loadGo)
/-- MARKER_MISSED (R43). -/
def execMarkerMissed (s : State) : Host.Outcome State Fault Refusal :=
  s.chipStep fun _ c => if c.ringMode ∧ coreUp c then c.markerMissed else c
/-- HOLDOVER_EXPIRE (R43). -/
def execHoldoverExpire (s : State) : Host.Outcome State Fault Refusal :=
  s.chipStep fun _ c => if coreUp c then c.holdoverExpire else c

/-- CONFIG_COMMIT (R268): a local commit, naming an orbit or not. -/
def execConfigCommit (named : Bool) (orbit : BitVec 52) (s : State) : Host.Outcome State Fault Refusal :=
  s.chipStep fun _ c => whenReady c (·.commitAccept false (if named then some orbit.toNat else none))
/-- COMMIT_CANCEL (R269). -/
def execCommitCancel (s : State) : Host.Outcome State Fault Refusal := s.chipStep fun _ c => whenReady c (·.commitCancel)

end Sys2Proof.Machine
end

