-- ==== Sys2Proof/Machine/Readout.lean ====
section
/-! DEFINITION. The decision unit (09_readout_and_speculation.md R185 to R193): decisions and hints from Seam, injected
decisions, and entries declared missing. -/

namespace Sys2Proof.Machine.Chip

/-- The decision word of R189 for a recorded decision: HINT and HACC of the entry are kept. -/
def decWord (e : DecEntry) (acc late : Bool) (ttype root evno : Nat) : Nat :=
  (if acc then 0x40000000 else 0) + b2n late * 2 ^ 29 + e.word % 2 ^ 28 / 2 ^ 26 * 2 ^ 26 + ttype % 256 * 2 ^ 16 +
    root % 16 * 2 ^ 12 + evno % 2 ^ 12

/-- A decision for an entry that is OPEN is recorded (R187, R193), and its waiters wake (R190).
(log 74, DEDUCED) -/
def decRecord (c : Chip) (x payload root : Nat) (late : Bool) : Chip :=
  let e := c.decAt x
  let acc : Bool := payload / 2 ^ 39 % 2 == 1
  let word := decWord e acc late (payload / 2 ^ 24) root payload
  let hinted : Bool := e.word / 2 ^ 27 % 2 == 1 && (e.word / 2 ^ 26 % 2 == 1) == acc
  let c := c.setDec x { e with st := .known, word := word }
  let c := if acc then c.tally .decCnt0 F.DecCnt0.ACC 1 else c.tally .decCnt0 F.DecCnt0.REJ 1
  let c := if late then c.tally .decCnt1 F.DecCnt1.LATE 1 else c
  let c := if hinted then c.tally .decCnt2 F.DecCnt2.HINT_OK 1 else c
  let c := c.wr .decLast (BitVec.ofNat 64 (payload / 2 ^ 39 * 2 ^ 39 + root % 16 * 2 ^ 32 + payload % 2 ^ 32))
  c.decWake x word false

/-- The arrival of a decision payload from a root, judged row by row (R187). -/
def decArrive (c : Chip) (payload root : Nat) : Chip :=
  let x := c.nearestX (payload / 2 ^ 40 % 2 ^ 24)
  let acc : Bool := payload / 2 ^ 39 % 2 == 1
  let d := dist c.olen c.ctr x
  let e := c.decAt x
  let mine := carries e x
  let dlat : Int := c.dlat
  let last : Int := c.dlat + c.grace
  if d < -16 then (c.tally .decCnt1 F.DecCnt1.DROP 1).flag .decStat F.DecStat.EARLY
  else if mine ∧ e.st = .known then
    let c := c.tally .decCnt1 F.DecCnt1.CONFLICT 1
    let same : Bool := (e.word / 2 ^ 30 % 4 == 1) == acc
    if same then c.flag .decStat F.DecStat.DUP else c.flag .decStat F.DecStat.CONFLICT
  else if ¬ mine ∧ d ≤ last then (c.openDec x).decRecord x payload root (decide (dlat < d))
  else if mine ∧ e.st = .opened ∧ d ≤ last then c.decRecord x payload root (decide (dlat < d))
  else (c.tally .decCnt1 F.DecCnt1.DROP 1).flag .decStat F.DecStat.LATE_DROP

/-- The arrival of a hint payload from the arc's root (R193). -/
def hintArrive (c : Chip) (payload : Nat) : Chip :=
  let c := c.tally .decCnt2 F.DecCnt2.HINTS 1
  let x := c.nearestX (payload / 2 ^ 40 % 2 ^ 24)
  let e := c.decAt x
  if carries e x ∧ e.st = .opened ∧ c.inWindow x then
    c.setDec x { e with word := e.word % 2 ^ 26 + 2 ^ 27 + payload / 2 ^ 39 % 2 * 2 ^ 26 }
  else c

/-- The sources that SRC selects (R185). -/
def decSrc (c : Chip) : Nat := c.fld .decCfg F.DecCfg.SRC

/-- A decision or hint from Seam: only from the root that feeds the node's arc (R185).
(log 74, DEDUCED) -/
def decFromSeam (c : Chip) (hint : Bool) (root payload : Nat) : Chip :=
  if c.decSrc = 1 then c
  else if ¬ (c.bit .seamRing F.SeamRing.ARV ∧ c.fld .seamRing F.SeamRing.ARC_ROOT = root) then
    (c.tally .decCnt1 F.DecCnt1.DROP 1).flag .decStat F.DecStat.FOREIGN
  else if hint then c.hintArrive payload
  else c.decArrive payload root

/-- A write of DXW_DEC_INJ (R185). -/
def decInject (c : Chip) (payload : Nat) : Chip :=
  if c.decSrc = 0 then c.flag .decStat F.DecStat.INJ_OFF else c.decArrive payload 0

/-- What a read of DXW_DEC_TBLk gives (09, Registers). -/
def decTblWord (c : Chip) (k : Nat) : Word :=
  let e := Tab.get DecEntry.unused c.dec k
  match e.st with
  | .unused => 0xC000000000000000#64
  | st =>
    let code := match st with | .opened => 0 | .known => 1 | .missing => 2 | .unused => 3
    let waits := b2n ((c.waiters kDec (· == e.x % 2 ^ 24)) != [])
    BitVec.ofNat 64 (code * 2 ^ 62 + waits * 2 ^ 61 + e.x % 2 ^ 24 * 2 ^ 32 + e.word % 2 ^ 32)

/-- Every entry that is past its declaration point is declared MISSING (R188). -/
def declareAll (c : Chip) (n : Nat) (wrapped : Bool) : Chip :=
  (c.dec.filter fun p => c.missingDue n wrapped p.2).foldl (fun c p => c.declareMissing p.2) c

end Sys2Proof.Machine.Chip

namespace Sys2Proof.Machine

/-- DECISION_INJECT (R185). -/
def execDecisionInject (payload : Word) (s : State) : Host.Outcome State Fault Refusal :=
  s.chipStep fun _ c => whenReady c (·.decInject payload.toNat)

end Sys2Proof.Machine
end

