-- ==== Sys2Proof/Machine/Ports.lean ====
section
/-! DEFINITION. The mesh ports and their arbiters (10_mesh_ports_and_arbitration.md): presenting a burst, binding to
request lines, eligibility, the round, sending, and the record of a failure. What an answer means to its requester is in
Mesh.lean. -/

namespace Sys2Proof.Machine.Chip

/-- A mesh port. -/
def port (c : Chip) (p : Nat) : Port := Tab.get Port.idle c.ports p
/-- The chip with a port. -/
def setPort (c : Chip) (p : Nat) (q : Port) : Chip := { c with ports := Tab.put Port.idle c.ports p q }
/-- The level of REQn. -/
def reqLevel (c : Chip) (n : Nat) : Bool := Tab.get false c.reqn n

/-- Whether line n binds bursts at an address (R215). -/
def inLine (c : Chip) (n a : Nat) : Bool :=
  let base := c.fld (.rlBase n) F.RlBase.ADDR * 1024
  c.bit (.rlCfg n) F.RlCfg.EN && decide (base ≤ a) && decide (a < base + (c.fld (.rlCfg n) F.RlCfg.SIZE + 1) * 1024)

/-- The line that binds a write burst: the lowest-numbered whose range holds its first line (R215).
(log 41, DEDUCED) -/
def bindLine (c : Chip) (a : Nat) : Option Nat := (List.range 256).find? fun n => c.inLine n a

/-- The class of a requester's request (R220). -/
def reqClass (c : Chip) (b : Burst) : Nat :=
  if c.bit (.arbRq b.req) F.ArbRq.OVR then c.fld (.arbRq b.req) F.ArbRq.OCLASS else b.cls

/-- Whether a burst was bound when its transfer formed it (R215): the data and STATUS writes of a transfer. Any other is
formed as it is presented. -/
def formedBound : BurstFor → Bool
  | .xData .. | .xStatus .. => true
  | _ => false

/-- The line that binds a burst as it is presented: the one fixed when it was formed, or now (R215); a read has none.
(log 41, DEDUCED) -/
def boundOf (c : Chip) (b : Burst) : Option Nat :=
  if b.kind = .read then none else if formedBound b.use then b.bound else c.bindLine b.addr

/-- Whether a requester has a request waiting or granted at a port: it presents at most one (R220). -/
def hasRequest (q : Port) (r : Nat) : Bool := q.waiting.any (fun x => x.req == r) || q.granted.any fun g => g.burst.req == r

/-- A burst is presented at its home port, or waits behind the requester's earlier ones there (R220).
(log 80, DESIGN CHOICE) -/
def present (c : Chip) (p : Nat) (b : Burst) : Chip :=
  let b := { b with bound := c.boundOf b, wait := 0, starved := false }
  let q := c.port p
  if hasRequest q b.req ∨ c.backlog.any (fun x => x.1 == p && x.2.req == b.req) then
    { c with backlog := c.backlog ++ [(p, b)] }
  else c.setPort p { q with waiting := q.waiting ++ [b] }

/-- What a burst needs of its window (R259). -/
def needOf : BurstKind → Need
  | .read => .read
  | .ack => .ackWrite
  | .posted => .postedWrite

/-- A burst checked in a domain and presented on the home port of its window, or not issued (R16, R260). -/
def issue (e : Env) (c : Chip) (pd : Nat) (b : Burst) : Chip × Checked :=
  let r := e.prot.check pd b.addr (64 * b.len) (needOf b.kind)
  match r with
  | .ok w => (c.present (e.prot.home w) { b with tdom := e.prot.tdom w }, r)
  | .fail _ => (c, r)

/-- A burst of a unit that is no thread. -/
def unitBurst (req : Nat) (use : BurstFor) (cls : Nat) (kind : BurstKind) (addr : Nat) (len : Nat) (data : List WLine) : Burst :=
  { req := req, use := use, thr := 0, gen := 0, pc := 0, cls := cls, kind := kind, addr := addr, len := len, data := data,
    tdom := 0, bound := none, desc := 0, dgen := none, wait := 0, starved := false }

/-- Whether a burst is a deep spool's. -/
def isSpill : BurstFor → Bool
  | .spill .. | .refill .. => true
  | _ => false
/-- Whether a burst is the completion queue's. -/
def isOwn : BurstFor → Bool
  | .own .. => true
  | _ => false

/-- Whether a burst reads a descriptor or writes for one, which its `desc` names. -/
def namesDesc : BurstFor → Bool
  | .xDesc .. | .xData .. | .xStatus .. | .own .. | .actDesc .. | .actStatus .. | .dwait _ => true
  | _ => false

/-- The transfer that a burst belongs to. -/
def xferOf : BurstFor → Option Nat
  | .xData _ id _ | .xStatus _ id _ => some id
  | _ => none

/-- The oldest burst at a port of the transfer that a train belongs to: it waits there, or behind another request of its
requester. -/
def trainBurst (c : Chip) (p : Nat) (h : Nat × Nat × Nat) : Option Burst :=
  let mine (b : Burst) : Bool := b.req == h.1 && xferOf b.use == some h.2.2
  ((c.port p).waiting.find? mine).or ((c.backlog.find? fun x => x.1 == p && mine x.2).map (·.2))

/-- The further burst of a train that is assembled, if the port is held for one (R218). -/
def nextOfTrain (c : Chip) (p : Nat) : Option Burst :=
  (c.port p).holder.bind fun h => (c.trainBurst p h).filter fun b => b.bound == some h.2.1

/-- The next of a requester's bursts at a port is presented: the next of its train while it holds the port (R218), a spill or
refill after each burst of the needle's own, else the completion queue's, then the others in order (R220).
(log 80, DESIGN CHOICE) -/
def pull (c : Chip) (p r : Nat) (after : BurstFor) : Chip :=
  let q := c.port p
  let mine := c.backlog.filter fun x => x.1 == p && x.2.req == r
  let train := (c.nextOfTrain p).bind fun b => mine.find? fun x => x.2 == b
  let spill := if isSpill after then none else mine.find? fun x => isSpill x.2.use
  let own := mine.find? fun x => isOwn x.2.use
  let other := mine.find? fun x => !isSpill x.2.use
  match if hasRequest q r then none else (((train.or spill).or own).or other).or mine.head? with
  | none => c
  | some x =>
    let c := { c with backlog := c.backlog.erase x }
    c.setPort p { q with waiting := q.waiting ++ [x.2] }

/-- The bursts that pass a test and have been presented and not sent: waiting or granted, oldest first at each port. -/
def heldBursts (c : Chip) (p : Burst → Bool) : List Burst :=
  (c.ports.flatMap fun q => (q.2.granted.toList.map (·.burst) ++ q.2.waiting).filter p) ++ (c.backlog.map (·.2)).filter p

/-- A needle withdraws a granted burst before its first beat (R227). -/
def noteWithdraw (c : Chip) (p : Nat) (b : Burst) : Chip :=
  let c := c.tally (.arbRq b.req) F.ArbRq.WDRAW_CNT 1
  ((c.flag (.mpStat p) F.MpStat.WDRAW).cntMesh p 0x087 1).pull p b.req b.use

/-- The granted bursts that pass a test are withdrawn before their first beats (R227). -/
def withdrawGranted (c : Chip) (t : Burst → Bool) : Chip :=
  c.ports.foldl (fun c q => match q.2.granted with
    | some g => if t g.burst then
        (c.setPort q.1 { c.port q.1 with granted := none, holder := none }).noteWithdraw q.1 g.burst
      else c
    | none => c) c

/-! Eligibility (R206, R207, R221) -/

/-- The tags that may be given to a request of a kind.
(log 54, DESIGN CHOICE) -/
def freeTags (q : Port) (k : BurstKind) : List Nat :=
  let all := match k with
    | .read => List.range 64
    | .ack => (List.range 64).map (· + 64)
    | .posted => [0]
  if k = .posted then all
  else all.filter fun t => !(q.outst.any fun o => o.1 == t) && !(q.retired.any fun o => o.1 == t) &&
    !(q.undrained.any fun o => o.1 == t)

/-- The lines of the reads outstanding (R207). -/
def readLines (q : Port) : Nat := (q.outst.filter fun o => o.1 < 64).foldl (fun n o => n + o.2.1.len) 0

/-- Request and write-data credits held. -/
def rqHeld (c : Chip) (p : Nat) : Nat := c.fld (.mpCred p) F.MpCred.RQ_HELD
def wdHeld (c : Chip) (p : Nat) : Nat := c.fld (.mpCred p) F.MpCred.WD_HELD

/-- The kinds a request needs and the port lacks: 0 a read tag with buffer room, 1 a write tag, 2 a request credit, 3
write-data credits (R223). -/
def lacking (c : Chip) (p : Nat) (b : Burst) : List Nat :=
  let q := c.port p
  let tags := freeTags q b.kind == []
  (if b.kind = .read ∧ (tags ∨ readLines q + b.len > 256) then [0] else []) ++
  (if b.kind = .ack ∧ tags then [1] else []) ++
  (if c.rqHeld p = 0 then [2] else []) ++
  (if b.kind ≠ .read ∧ c.wdHeld p < b.len then [3] else [])

/-- The kinds a request needs at all. -/
def needsKinds (b : Burst) : List Nat :=
  match b.kind with
  | .read => [0, 2]
  | .ack => [1, 2, 3]
  | .posted => [2, 3]

/-- Whether the debug requester is present (R220, R289): its MEN is set. -/
def dbgPresent (c : Chip) : Bool := c.bit .dbgCtl F.DbgCtl.MEN

/-- Whether a requester takes part in rounds (R221, R220). -/
def unmasked (c : Chip) (b : Burst) : Bool :=
  !c.bit (.arbRq b.req) F.ArbRq.MASK && (b.req != 132 || c.dbgPresent)

/-- What eligibility asks beside credits and tags: no FREEZE, REQn for a bound burst, the domain not under PDREQ. -/
def openTo (c : Chip) (p : Nat) (b : Burst) : Bool :=
  !c.bit (.mpArb p) F.MpArb.FREEZE && !c.tdDown b.tdom &&
    (match b.bound with | some n => c.reqLevel n | none => true)

/-- A request that may win now, given the kinds that forced requests reserve (R221, R223). -/
def eligible (c : Chip) (p : Nat) (blocked : List Nat) (b : Burst) : Bool :=
  c.unmasked b && c.openTo p b && c.lacking p b == [] && !(needsKinds b).any blocked.contains

/-! The round (R223) -/

/-- The place of a requester in the rotation order after ptr. -/
def rotKey (ptr r : Nat) : Nat := (r + 133 - (ptr + 1) % 133) % 133

/-- The level of a request. -/
def arbLevel (c : Chip) (p : Nat) (b : Burst) : Nat :=
  4 * c.reqClass b - min b.wait (c.fld (.mpArb p) F.MpArb.AGECAP)

/-- The element of a list with the least key; the first of equals. -/
def leastBy (key : Burst → Nat) (l : List Burst) : Option Burst :=
  l.foldl (fun acc b => match acc with
    | none => some b
    | some a => if key b < key a then some b else acc) none

/-- The forced requests in their order: greatest wait, ties in rotation order. The waits are at most 1,023. -/
def forcedOrder (c : Chip) (p ptr : Nat) (l : List Burst) : List Burst :=
  let f := l.filter fun b => decide (c.reqClass b ≤ 2) && decide (c.fld (.mpArb p) F.MpArb.WAIT_LIMIT ≤ b.wait)
  let key (b : Burst) : Nat := (1023 - b.wait) * 256 + rotKey ptr b.req
  f.mergeSort fun a b => key a ≤ key b

/-- The walk over the forced requests: the winner, or the kinds reserved. -/
def forcedPick (c : Chip) (p : Nat) : List Nat → List Burst → Option Burst × List Nat
  | blocked, [] => (none, blocked)
  | blocked, b :: bs =>
    if c.eligible p blocked b then (some b, blocked)
    else if c.openTo p b ∧ c.lacking p b ≠ [] then c.forcedPick p (blocked ++ c.lacking p b) bs
    else c.forcedPick p blocked bs

/-- The request that the round grants, and whether it won by force (R223). -/
def arbPick (c : Chip) (p : Nat) : Option (Burst × Bool) :=
  let q := c.port p
  let cand := q.waiting.filter c.unmasked
  match c.forcedPick p [] (c.forcedOrder p q.ptr cand) with
  | (some b, _) => some (b, true)
  | (none, blocked) =>
    (leastBy (fun b => c.arbLevel p b * 256 + rotKey q.ptr b.req) (cand.filter (c.eligible p blocked))).map (·, false)

/-- The waits after a round that `w` won, with STARVE for a class 3 request that reaches WAIT_LIMIT (R223, R224). -/
def ageWaiting (c : Chip) (p : Nat) (w : Burst) : Chip :=
  let lim := c.fld (.mpArb p) F.MpArb.WAIT_LIMIT
  let q := c.port p
  let r := q.waiting.foldl (fun (acc : List Burst × Option Nat) b =>
    if b.req = w.req ∨ ¬ c.unmasked b then (acc.1 ++ [b], acc.2)
    else
      let b := { b with wait := min (b.wait + 1) 1023 }
      if c.reqClass b = 3 ∧ b.wait ≥ lim ∧ ¬ b.starved then (acc.1 ++ [{ b with starved := true }], some b.req)
      else (acc.1 ++ [b], acc.2)) ([], none)
  let c := c.setPort p { q with waiting := r.1 }
  match r.2 with
  | some n => (c.flag (.mpStat p) F.MpStat.STARVE).setF (.mpWait p) F.MpWait.STARVE_REQ n
  | none => c

/-- The greatest wait at a grant, per class (DXW_MPn_WAIT.HWM).
(log 53, DEDUCED) -/
def noteWait (c : Chip) (p k w : Nat) : Chip :=
  let f : Fld := ⟨10 * k + 9, 10 * k⟩
  if w > c.fld (.mpWait p) f then c.setF (.mpWait p) f w else c

/-! Sending (R205 to R207) -/

/-- The request beat and data beats of a burst leave on a port with a tag. -/
def sendBurst (c : Chip) (p tag : Nat) (b : Burst) : Chip :=
  let c := c.setF (.mpCred p) F.MpCred.RQ_HELD (c.rqHeld p - 1)
  let c := if b.kind = .read then c else c.setF (.mpCred p) F.MpCred.WD_HELD (c.wdHeld p - b.len)
  let bound : List (Nat × Nat) := if b.bound.isSome then [(0x08C, 1)] else []
  let c := if b.kind = .read
    then (c.tally (.mpCnt p) F.MpCnt.RD 1).countCycle (512 + 2 * p) 2 [(0x081, 1), (0x083, b.len)]
    else (c.tally (.mpCnt p) F.MpCnt.WR 1).countCycle (512 + 2 * p) 2 ([(0x082, 1), (0x084, b.len)] ++ bound)
  let q := c.port p
  c.setPort p { q with
    outst := if b.kind = .posted then q.outst else q.outst ++ [(tag, b, [])]
    last := some (tag, b) }

/-! Failures (R210) -/

/-- A failed burst is recorded: ERRAT for the first, the status bit and the event; FAILS counts with the other events of its cycle.
`code` is
DXW_MPn_ERRAT.CODE: 1 target, 2 decode, 3 forced power-down, 4 timeout. -/
def meshFail (c : Chip) (p code : Nat) (b : Burst) (addr : Nat) : Chip :=
  let word := BitVec.ofNat 64 (b.req % 256 * 2 ^ 56 + code * 2 ^ 53 + b2n (b.kind != .read) * 2 ^ 52 + addr / 64 * 64 % 2 ^ 48)
  let c := if c.fld (.mpErrat p) F.MpErrat.CODE = 0 then c.wr (.mpErrat p) word else c
  let c := if code = 3 then c.flag (.mpStat p) F.MpStat.FORCED
    else if code = 4 then c.flag (.mpStat p) F.MpStat.TMO else c.flag (.mpStat p) F.MpStat.ERR
  c.bbEvent 0x02 word (BitVec.ofNat 64 p)

/-- A credit pulse (R206). -/
def creditReturn (c : Chip) (p : Nat) (data : Bool) : Chip :=
  if data then
    if c.wdHeld p ≥ 64 then c.flag (.mpStat p) F.MpStat.CROVF else c.setF (.mpCred p) F.MpCred.WD_HELD (c.wdHeld p + 1)
  else if c.rqHeld p ≥ 32 then c.flag (.mpStat p) F.MpStat.CROVF
  else c.setF (.mpCred p) F.MpCred.RQ_HELD (c.rqHeld p + 1)

/-- Whether a port is drained (R229). -/
def drained (c : Chip) (p : Nat) : Bool :=
  let q := c.port p
  c.bit (.mpArb p) F.MpArb.FREEZE && q.outst == [] && q.granted == none

/-- What a read of DXW_MPn_CRED gives. -/
def mpCredWord (c : Chip) (p : Nat) : Word :=
  let q := c.port p
  let w := c.rd (.mpCred p)
  let w := fset w F.MpCred.WR_OUT (q.outst.filter fun o => o.1 ≥ 64).length
  let w := fset w F.MpCred.RD_OUT (q.outst.filter fun o => o.1 < 64).length
  let w := fset w F.MpCred.RDL_OUT (readLines q)
  fset w F.MpCred.RETIRED q.retired.length

/-! Request lines (R215 to R219) -/

/-- The threads of REQ waits on a line end their waits; F says whether a burst was accepted (R113, R219). -/
def endReqWaits (c : Chip) (n : Nat) (failed : Bool) : Chip :=
  (c.waiters kReq (fun a => a % 256 == n)).foldl (fun c t => c.wake t fun th => th.report failed) c

/-- A write of DXW_RLn_CFG or DXW_RLn_BASE (R215): SIZE, MAXB and BASE only while EN is 0; any other write to them is
discarded and sets CFG_LOCKED, whatever value it carries.
(log 39, DEDUCED) -/
def rlWrite (c : Chip) (n : Nat) (base : Bool) (w : Word) : Chip :=
  let en := c.bit (.rlCfg n) F.RlCfg.EN
  if base then
    if en then c.flag (.rlStat n) F.RlStat.CFG_LOCKED
    else c.setF (.rlBase n) F.RlBase.ADDR (fget w F.RlBase.ADDR)
  else
    let c := if en then c.flag (.rlStat n) F.RlStat.CFG_LOCKED
      else (c.setF (.rlCfg n) F.RlCfg.MAXB (fget w F.RlCfg.MAXB)).setF (.rlCfg n) F.RlCfg.SIZE (fget w F.RlCfg.SIZE)
    let c := c.setF (.rlCfg n) F.RlCfg.EN (fget w F.RlCfg.EN)
    if en ∧ ¬ fbit w F.RlCfg.EN then c.endReqWaits n true else c

/-- A write of DXW_ARB_RQr (R226, R228): a change of class starts the waits of the requester's requests again. -/
def arbRqWrite (c : Chip) (r : Nat) (w : Word) : Chip :=
  let old := c.rd (.arbRq r)
  let c := c.setF (.arbRq r) F.ArbRq.MASK (fget w F.ArbRq.MASK)
  let c := if fget w F.ArbRq.HOLDACT = 3 then c else c.setF (.arbRq r) F.ArbRq.HOLDACT (fget w F.ArbRq.HOLDACT)
  let c := c.setF (.arbRq r) F.ArbRq.OVR (fget w F.ArbRq.OVR)
  let c := c.setF (.arbRq r) F.ArbRq.OCLASS (fget w F.ArbRq.OCLASS)
  let changes (b : Burst) : Bool :=
    let was := if fbit old F.ArbRq.OVR then fget old F.ArbRq.OCLASS else b.cls
    b.req == r && was != c.reqClass b
  { c with ports := c.ports.map fun q =>
      (q.1, { q.2 with waiting := q.2.waiting.map fun b => if changes b then { b with wait := 0 } else b }) }

/-- FREEZE of a port (R229): a train is revoked, without an overrun. -/
def freezeWrite (c : Chip) (p : Nat) (on : Bool) : Chip :=
  let c := c.setF (.mpArb p) F.MpArb.FREEZE (b2n on)
  if on ∧ (c.port p).holder.isSome then c.setPort p { c.port p with holder := none } else c

/-- The most lines that a burst whose first line lies at an address may hold (R137, R215). -/
def lineCap (c : Chip) (a : Nat) : Nat :=
  match c.bindLine a with
  | some n => c.fld (.rlCfg n) F.RlCfg.MAXB + 1
  | none => 16

end Sys2Proof.Machine.Chip

namespace Sys2Proof.Machine

/-- CREDIT_RETURN (R206): without READY a credit pulse is ignored (R284). -/
def execCreditReturn (p : Fin 16) (data : Bool) (s : State) : Host.Outcome State Fault Refusal :=
  s.chipStep fun _ c => whenReady c (·.creditReturn p data)
/-- RL_CFG_WRITE (R215). -/
def execRlCfgWrite (line : Fin 256) (base : Bool) (data : Word) (s : State) : Host.Outcome State Fault Refusal :=
  s.chipStep fun _ c => whenReady c (·.rlWrite line base data)
/-- ARB_RQ_WRITE (R228). -/
def execArbRqWrite (r : Fin 133) (data : Word) (s : State) : Host.Outcome State Fault Refusal :=
  s.chipStep fun _ c => whenReady c (·.arbRqWrite r data)
/-- MESH_FREEZE (R229). -/
def execMeshFreeze (p : Fin 16) (on : Bool) (s : State) : Host.Outcome State Fault Refusal :=
  s.chipStep fun _ c => whenReady c (·.freezeWrite p on)

end Sys2Proof.Machine
end

