-- ==== Sys2Proof/Machine/Spools.lean ====
section
/-! DEFINITION. Spools (03_spools_and_ingest.md R58 to R79): geometry, writing and reading words, the mark queue, packet
notices, deep mode, enabling and stopping. -/

namespace Sys2Proof.Machine

/-- The signed difference of two 48-bit positions (R58). -/
def posDiff (a b : Nat) : Int := signed 48 (unsigned 48 ((a : Int) - b))

/-- The read cursor of a thread. -/
def Thread.cursor (th : Thread) : SavedCursor := { hv := th.hv, handle := th.handle, cv := th.cv, curoff := th.curoff }

/-- A REWIND that has waited for a refill has its result (R71, R76): a failure leaves the thread's cursor as it was before the
REWIND (R69).
(log 36, DEDUCED) -/
def Thread.endRewind (th : Thread) (code : Nat) : Thread :=
  let th : Thread := match (if code = 0 then none else th.undo) with
    | some u => { th with hv := u.hv, handle := u.handle, cv := u.cv, curoff := u.curoff }
    | none => th
  { (th.setReg th.retReg (BitVec.ofNat 32 code)).report (code ≠ 0) with undo := none }

/-- The answer to a request for one word (R67); `deeperr` and `stall` are a deep spool's (R76). -/
inductive SpRead where
  | nocursor | lapped | nodata | deeperr | stall
  | data (w : PWord)
  deriving DecidableEq, Repr

namespace Chip

/-! Registers of a spool -/

/-- A spool. -/
def spool (c : Chip) (m : Nat) : Spool := Tab.get Spool.empty c.spools m
/-- The chip with a spool. -/
def setSpool (c : Chip) (m : Nat) (s : Spool) : Chip := { c with spools := Tab.put Spool.empty c.spools m s }
/-- EN of a spool. -/
def spEn (c : Chip) (m : Nat) : En := c.en (.spCtl m) F.SpCtl.EN
/-- The mode: 0 held, 1 lapping, 2 deep. -/
def spMode (c : Chip) (m : Nat) : Nat := c.fld (.spCfg m) F.SpCfg.MODE
/-- COUNT as encoded. -/
def spCount (c : Chip) (m : Nat) : Nat := c.fld (.spCfg m) F.SpCfg.COUNT
/-- BASE. -/
def spBase (c : Chip) (m : Nat) : Nat := c.fld (.spCfg m) F.SpCfg.BASE
/-- The lap guard in words: LAPGUARD + 1 (R66). -/
def spGuard (c : Chip) (m : Nat) : Nat := c.fld (.spCfg m) F.SpCfg.LAPGUARD + 1
/-- LEN as encoded. -/
def spLen (c : Chip) (m : Nat) : Nat := c.fld (.spDeepcfg m) F.SpDeepcfg.LEN
/-- The positions (R58). -/
def wp (c : Chip) (m : Nat) : Nat := c.fld (.spWp m) F.SpWp.POS
def fp (c : Chip) (m : Nat) : Nat := c.fld (.spFp m) F.SpFp.POS
def hp (c : Chip) (m : Nat) : Nat := c.fld (.spHp m) F.SpHp.POS
/-- The capacity C in words (R58). -/
def spCap (c : Chip) (m : Nat) : Nat := if c.spMode m = 2 then (c.spLen m + 1) * 32 else (c.spCount m + 1) * 32
/-- The level WP − FP (R58). -/
def spLevel (c : Chip) (m : Nat) : Nat := unsigned 48 ((c.wp m : Int) - c.fp m)
/-- At capacity (R66, R79). -/
def spFull (c : Chip) (m : Nat) : Bool := c.spMode m != 1 && decide (c.spCap m ≤ c.spLevel m)
/-- Whether the guard has overtaken a position in lapping mode (R66, R67). -/
def overtaken (c : Chip) (m p : Nat) : Bool :=
  c.spMode m == 1 && decide (posDiff (c.wp m) p > (c.spCap m : Int) - c.spGuard m)

/-- The level watermark is updated (R79, R39). -/
def spWatermark (c : Chip) (m : Nat) : Chip :=
  let r := watermark (c.spLevel m) (c.fld (.spWm m) F.SpWm.HIGH) (c.fld (.spWm m) F.SpWm.LOW) (c.bit (.spLvl m) F.SpLvl.ARMED)
  let c := c.setF (.spLvl m) F.SpLvl.ARMED (b2n r.2)
  if r.1 then c.flag (.spLvl m) F.SpLvl.NOTICE else c

/-! Places (R58, R75) -/

/-- The near-window granules of a deep spool: COUNT − 1 of its COUNT + 1.
(log 36, DEDUCED) -/
def nearCount (c : Chip) (m : Nat) : Nat := c.spCount m - 1

/-- Whether a deep spool's block is still in the near window: its granule has not been taken by a later block. -/
def nearHas (c : Chip) (m b : Nat) : Bool := decide (posDiff (c.wp m) ((b + c.nearCount m) * 32) ≤ 0)

/-- The granule that holds position p on chip (R58, R75, R76); none where p lies in host memory.
(log 36, DEDUCED) -/
def granuleOf (c : Chip) (m p : Nat) : Option Nat :=
  let b := p / 32
  if c.spMode m = 2 then
    if c.nearHas m b then some (c.spBase m + b % c.nearCount m)
    else ((c.spool m).refills.find? fun r => r.block == b && r.ready).map fun r => c.spBase m + c.nearCount m + r.g
  else some (c.spBase m + b % (c.spCount m + 1))

/-- The lanes of a spool-memory word that disagree with their parity (R61). -/
def lanesAt (c : Chip) (g w : Nat) : Nat := Tab.get 0 c.lanes (g * 32 + w)
/-- The chip with the lanes of a word. -/
def setLanes (c : Chip) (g w l : Nat) : Chip := { c with lanes := Tab.put 0 c.lanes (g * 32 + w) l }

/-- A read found lanes l of a word in error: 1 to 3 lanes are a memory error, counted and recorded (R61, R297, R311).
`place` are bits 31, 20:8 and 4:0 of DXW_SP_PERR_AT, `at_` the word's offset.
(log 68, DEDUCED) -/
def noteLanes (c : Chip) (l place at_ : Nat) : Chip :=
  if l = 0 ∨ l = 15 then c
  else
    let c := (c.tally .spcStat F.SpcStat.PERR_CNT 1).flag .spcStat F.SpcStat.PERR
    let c := (c.wr .spcPerrAt (BitVec.ofNat 64 (l * 2 ^ 24 + place))).flag .wdStat F.WdStat.UE
    c.bbEvent 0x03 3#64 (BitVec.ofNat 64 at_)

/-- A word of the middle is read: its lanes are checked (R61). -/
def noteParity (c : Chip) (g w : Nat) : Chip := c.noteLanes (c.lanesAt g w) (g * 2 ^ 8 + w) (spoolAt g w)

/-- A word in the tail or head register of spool m is read: its lanes are checked (R61), REG is 1 and GRANULE the spool
number. -/
def noteReg (c : Chip) (m : Nat) (r : RegWord) : Chip :=
  c.noteLanes r.lanes (2 ^ 31 + m * 2 ^ 8 + r.pos % 32) (spoolAt r.g (r.pos % 32))

/-- The word of a register as a reader receives it. -/
def regRead (c : Chip) (m : Nat) (r : RegWord) : Chip × PWord := (c.noteReg m r, { data := r.data, poison := r.lanes != 0 })

/-- The word at a position that is on chip, with its poison tag, from the tail register or the middle; the read is
checked (R58, R61). -/
def fetchWord (e : Env) (c : Chip) (m p : Nat) : Chip × PWord :=
  match (c.spool m).tail.find? fun r => r.pos == p with
  | some r => c.regRead m r
  | none => match c.granuleOf m p with
    | some g => (c.noteParity g (p % 32), { data := spoolWord e.mem g (p % 32), poison := c.lanesAt g (p % 32) != 0 })
    | none => (c, { data := 0#256, poison := true })

/-- The word at a position as the head register takes it, with the lanes it carries (R58): what the head register holds
already, else the tail register's or the middle's word; none where the position is not on chip or not written.
(log 83, DESIGN CHOICE) -/
def headWord (e : Env) (c : Chip) (m p : Nat) : Option RegWord :=
  let s := c.spool m
  if posDiff p (c.wp m) ≥ 0 then none
  else match (s.head ++ s.tail).find? fun r => r.pos == p with
    | some r => some r
    | none => (c.granuleOf m p).map fun g =>
      { pos := p, g := g, data := spoolWord e.mem g (p % 32), lanes := c.lanesAt g (p % 32) }

/-- The head register is filled: it holds those of the words at HP to HP + 3 that are on chip (R58, R74). -/
def fillHead (e : Env) (c : Chip) (m : Nat) : Chip :=
  let ws := (List.range 4).filterMap fun k => c.headWord e m ((c.hp m + k) % 2 ^ 48)
  c.setSpool m { c.spool m with head := ws }

/-- A word of spool memory is written through the window: no register holds an older copy of it (R62).
(log 83, DESIGN CHOICE) -/
def dropCopies (c : Chip) (g w : Nat) : Chip :=
  let keep (r : RegWord) : Bool := r.g != g || r.pos % 32 != w
  (c.spools.map (·.1)).foldl (fun c m =>
    c.setSpool m { c.spool m with tail := (c.spool m).tail.filter keep, head := (c.spool m).head.filter keep }) c

/-! The mark queue (R64 to R66, R70 to R72) -/

/-- The EPOCH of a queue slot. -/
def epochOf (s : Spool) (k : Nat) : Nat := Tab.get 0 s.epochs k

/-- Entries leave the queue: each slot's EPOCH advances modulo 128 (R64). -/
def dropMarks (s : Spool) (p : MarkEnt → Bool) : Spool :=
  (s.q.filter p).foldl (fun s x => { s with epochs := Tab.put 0 s.epochs x.slot ((epochOf s x.slot + 1) % 128) })
    { s with q := s.q.filter fun x => !p x }

/-- The handle of a queue entry (R64). -/
def handleOf (m : Nat) (s : Spool) (k : Nat) : Nat := m * 2 ^ 16 + epochOf s k * 2 ^ 9 + k

/-- The entry that a current handle names (R64): bits 31:24 are 0.
(log 34, DEDUCED) -/
def markOf (c : Chip) (h : Nat) : Option MarkEnt :=
  let s := c.spool (h / 2 ^ 16 % 256)
  if h < 2 ^ 24 ∧ epochOf s (h % 512) = h / 2 ^ 9 % 128 then s.q.find? fun x => x.slot == h % 512 else none

/-- The chip with the state of the entry that a handle names. -/
def setMark (c : Chip) (h : Nat) (st : MarkState) : Chip :=
  let m := h / 2 ^ 16 % 256
  let s := c.spool m
  c.setSpool m { s with q := s.q.map fun x => if x.slot = h % 512 then { x with st := st } else x }

/-- FP is recomputed (R65) and the level watermark updated. In lapping mode FP takes the furthest of the candidates that lie
between it and WP: positions wrap at 2^48, and FP never moves back (R58). -/
def recomputeFp (c : Chip) (m : Nat) : Chip :=
  let s := c.spool m
  let base : Nat := match s.q.find? fun x => x.st == .held with
    | some x => x.pos
    | none => s.newest.getD (if c.spMode m = 1 then c.fp m else 0)
  let ahead (p : Int) : Nat :=
    let d := unsigned 48 (p - c.fp m)
    if d ≤ unsigned 48 ((c.wp m : Int) - c.fp m) then d else 0
  let f : Nat :=
    if c.spMode m = 1 then unsigned 48 (c.fp m + (max (ahead (Int.ofNat base)) (ahead ((c.wp m : Int) - c.spCap m)) : Nat)) else base
  let c := c.setF (.spFp m) F.SpFp.POS f
  let c := c.setSpool m (dropMarks (c.spool m) fun x => x.st != .held && decide (posDiff x.pos f < 0))
  c.spWatermark m

/-- An entry is LAPPED: recorded and noticed (R66). Its LAP event counts with the others of the store cycle (16 R330). -/
def lapMark (c : Chip) (m : Nat) (x : MarkEnt) : Chip :=
  let s := c.spool m
  let c := c.setSpool m { s with q := s.q.map fun y => if y.slot = x.slot then { y with st := .lapped } else y }
  let c := (c.tally (.spCnt m) F.SpCnt.LAP_CNT 1).setF (.spLapat m) F.SpLapat.POS x.pos
  let c := c.flag (.spStat m) F.SpStat.LAP
  c.bbEvent 0x04 (BitVec.ofNat 64 m) (BitVec.ofNat 64 x.pos)

/-- The entries that lap invalidation meets (R66). -/
def lapDue (c : Chip) (m : Nat) : List MarkEnt :=
  if c.spMode m = 1 then (c.spool m).q.filter fun x => x.st == .held && c.overtaken m x.pos else []

/-- Lap invalidation at a write, with the WORDS_IN event of the write, which falls on the same store cycle (R66, R68, 16 R330). -/
def lapInvalidate (c : Chip) (m : Nat) : Chip :=
  let l := c.lapDue m
  l.foldl (fun c x => c.lapMark m x) (c.spoolCycle m ((0x0E0, 1) :: l.map fun _ => (0x0E6, 1)))

/-! Packet notices (R63) -/

/-- Whether a SPOOL wait's position lies before an end position: ARG holds bits 19:0 of it, and an end position lies after it
where it is less than 2^19 words ahead (R92, R112).
(log 122, DESIGN CHOICE) -/
def spoolWaitMet (arg wp : Nat) : Bool :=
  let d := unsigned 20 ((wp : Int) - (arg % 2 ^ 20 : Nat))
  decide (0 < d) && decide (d < 2 ^ 19)

/-- A packet notice with end position WP wakes the threads that wait for it, in ascending number. -/
def packetNotice (c : Chip) (m : Nat) : Chip :=
  let w := c.wp m
  (c.waiters kSpool (fun a => a / 2 ^ 20 == m && spoolWaitMet a w)).foldl (fun c t => c.wake t fun th => th.report false) c

/-- The indexed packet that holds a position (R63): its crossing tag. -/
def packetAt (c : Chip) (m p : Nat) : Option Nat :=
  if posDiff p (c.wp m) < 0 then ((c.spool m).index.find? fun x => decide (posDiff x.2 p ≤ 0)).map (·.1) else none

/-! Writing a word (R58, R65, R66, R68) -/

/-- Whether the spool can take a word now: held and deep below capacity, and in deep mode with a near granule free. -/
def canTake (c : Chip) (m : Nat) : Bool :=
  if c.spFull m then false
  else if c.spMode m = 2 ∧ c.wp m % 32 = 0 then
    let s := c.spool m
    let g := c.wp m / 32 % c.nearCount m
    !(s.unspilled ++ s.spilling).any fun b => b % c.nearCount m == g
  else true

/-- The place that the next word takes. -/
def writePlace (c : Chip) (m : Nat) : Nat × Nat :=
  let b := c.wp m / 32
  (if c.spMode m = 2 then c.spBase m + b % c.nearCount m else c.spBase m + b % (c.spCount m + 1), c.wp m % 32)

/-- A word enters the tail register, and the spool's steps of R68 follow. The tail register writes the data into the
middle, at `writePlace`, in the same step and holds its latest four words.
(log 83, DESIGN CHOICE) -/
def takeWord (c : Chip) (m : Nat) (w : FWord) : Chip :=
  let pl := c.writePlace m
  let p := c.wp m
  let c := c.setLanes pl.1 pl.2 (if w.poison then 15 else 0)
  let c := c.setF (.spWp m) F.SpWp.POS (p + 1)
  let s := c.spool m
  let r : RegWord := { pos := p, g := pl.1, data := w.data, lanes := if w.poison then 15 else 0 }
  let s := { s with tail := (r :: s.tail).take 4 }
  let s := if w.sop then { s with index := ((w.tag, p) :: s.index).take 64 } else s
  let s := if c.spMode m = 2 ∧ (p + 1) % 32 = 0 then { s with unspilled := s.unspilled ++ [p / 32] } else s
  let c := (c.setSpool m s).lapInvalidate m
  let c := c.recomputeFp m
  if w.eop then c.packetNotice m else c

/-! Reading (R67, R71, R76) -/

/-- The spool of a thread's handle. -/
def spoolOfHandle (th : Thread) : Nat := th.handle / 2 ^ 16 % 256

/-- Whether a deep spool's position lies in host memory. -/
def hostResident (c : Chip) (m p : Nat) : Bool := c.spMode m == 2 && !c.nearHas m (p / 32)

/-- The position of a thread's cursor; none where the handle is not current or its entry RELEASED. -/
def cursorPos (c : Chip) (th : Thread) : Option Nat :=
  if th.hv ∧ th.cv then
    match c.markOf th.handle with
    | some x => if x.st = .released then none else some ((x.pos + th.curoff) % 2 ^ 48)
    | none => none
  else none

/-- One cursor read (R67, R76): the answer, and what the spool records of it. The cursor advances with the caller. It counts
once, with the answer: a read that waits for a refill counts when the refill has come, and one that finds no cursor counts for
the spool that HANDLE names (16 R326).
(log 142, DESIGN CHOICE) -/
def cursorRead (e : Env) (c : Chip) (th : Thread) : Chip × SpRead :=
  let m := spoolOfHandle th
  let read := c.spoolCycle m [(0x0E2, 1)]
  if c.spEn m = .off then (read, .nocursor)
  else match c.cursorPos th, c.markOf th.handle with
  | some p, some x =>
    if x.st = .lapped then (read, .lapped)
    else if posDiff p (c.wp m) ≥ 0 then (read, .nodata)
    else if c.overtaken m p then (((c.spoolCycle m [(0x0E2, 1), (0x0E6, 1)]).lapMark m x).recomputeFp m, .lapped)
    else if c.hostResident m p ∧ (c.spool m).deepBad then (read, .deeperr)
    else if (c.granuleOf m p).isNone then (c, .stall)
    else
      let r := read.fetchWord e m p
      (r.1, .data r.2)
  | _, _ => (read, .nocursor)

/-- One head read at HP + k (R67), from the head register: a read that returns lapped sets HP to WP and HEAD_LAP.
(log 83, DESIGN CHOICE) -/
def headRead (e : Env) (c : Chip) (m k : Nat) : Chip × SpRead :=
  let p := (c.hp m + k) % 2 ^ 48
  let c := c.cntSpool m 0x0E1 1
  if posDiff p (c.wp m) ≥ 0 then (c, .nodata)
  else if c.overtaken m p ∨ posDiff p (c.fp m) < 0 ∨ (c.granuleOf m p).isNone then
    ((c.setF (.spHp m) F.SpHp.POS (c.wp m)).flag (.spStat m) F.SpStat.HEAD_LAP, .lapped)
  else
    let c := c.fillHead e m
    match (c.spool m).head.find? fun r => r.pos == p with
    | some r =>
      let x := c.regRead m r
      (x.1, .data x.2)
    | none => (c, .nodata)

/-! Deep mode (R75, R76) -/

/-- The host-memory address of a block. -/
def blockAddr (c : Chip) (m b : Nat) : Nat :=
  c.fld (.spDeepbase m) F.SpDeepbase.ADDR * 1024 + b % (c.spLen m + 1) * 0x400

/-- A burst of a deep spool, for the requester of its needle (R75). -/
def deepBurst (c : Chip) (m b : Nat) (use : BurstFor) (kind : BurstKind) (data : List WLine) : Burst :=
  unitBurst (c.fld (.spDeepcfg m) F.SpDeepcfg.NDL) use (c.fld (.spDeepcfg m) F.SpDeepcfg.CLASS) kind (c.blockAddr m b) 16 data

/-- The domain of spill and refill. -/
def deepPd (c : Chip) (m : Nat) : Nat := c.fld (.spDeepcfg m) F.SpDeepcfg.PD

/-- A refill of a block for a thread begins in a free refill granule, or waits for one (R76). A read that fails the check
is treated as a mesh error: its words come poisoned, and no burst of it is issued or counted (R75, 16 R326). -/
def startRefill (e : Env) (c : Chip) (m b t : Nat) : Chip :=
  let s := c.spool m
  if s.refills.any fun r => r.block == b then c
  else match [0, 1].find? fun g => !s.refills.any fun r => r.g == g with
  | none => if s.wants.contains (b, t) then c else c.setSpool m { s with wants := s.wants ++ [(b, t)] }
  | some g =>
    let c := c.setSpool m { s with refills := s.refills ++ [{ g := g, block := b, owner := t, ready := false }],
                                   wants := s.wants.filter fun x => x ≠ (b, t) }
    let r := c.issue e (c.deepPd m) (c.deepBurst m b (.refill m b s.run) .read [])
    match r.2 with
    | .ok _ => r.1.cntSpool m 0x0E8 1
    | .fail _ =>
      let s := r.1.spool m
      r.1.setSpool m { s with refillIn := s.refillIn ++ [(b, [], true)] }

/-- The block of a thread's cursor on spool m. -/
def cursorBlock (c : Chip) (m t : Nat) : Option Nat :=
  let th := c.copyOf t
  if spoolOfHandle th = m then (c.cursorPos th).map (· / 32) else none

/-- Whether a thread still needs a block of a spool: its cursor is in the block or in the block before it, or it is in a
REFILL wait for the block (R76).
(log 36, DEDUCED) -/
def needsBlock (c : Chip) (m b t : Nat) : Bool :=
  ((c.cursorBlock m t).any fun x => x == b || x + 1 == b) || (c.spool m).waits.contains (t, b)

/-- The refill granules that no reader needs any more are free, and the blocks that wait take them, first come first
served (R76).
(log 36, DEDUCED) -/
def sweepRefills (e : Env) (c : Chip) (m : Nat) : Chip :=
  let s := c.spool m
  let c := c.setSpool m { s with refills := s.refills.filter fun r => !r.ready || c.needsBlock m r.block r.owner }
  let ws := (c.spool m).wants.filter fun x => c.needsBlock m x.1 x.2
  let c := c.setSpool m { c.spool m with wants := ws }
  ws.foldl (fun c x => c.startRefill e m x.1 x.2) c

/-- The lines of a block as it lies on chip: two words a line, poisoned where either word is (R75). -/
def blockLines (e : Env) (c : Chip) (m b : Nat) : Chip × List WLine :=
  let r := (List.range 32).foldl (fun (acc : Chip × List PWord) k =>
    let x := acc.1.fetchWord e m (b * 32 + k)
    (x.1, acc.2 ++ [x.2])) (c, [])
  (r.1, (List.range 16).map fun i =>
    let a := r.2.getD (2 * i) { data := 0#256, poison := false }
    let z := r.2.getD (2 * i + 1) { data := 0#256, poison := false }
    { data := z.data ++ a.data, be := BitVec.allOnes 64, poison := a.poison || z.poison })

/-- A spill or a refill has failed: DEEP_ERR, and after a spill every host-resident read is refused (R76). -/
def deepError (c : Chip) (m : Nat) (spill : Bool) : Chip :=
  let c := c.flag (.spStat m) F.SpStat.DEEP_ERR
  if spill then c.setSpool m { c.spool m with deepBad := true } else c

/-- The oldest complete block is presented as one acknowledged burst (R75). -/
def deepSpill (e : Env) (c : Chip) (m : Nat) : Chip :=
  let s := c.spool m
  match s.unspilled with
  | [] => c
  | b :: rest =>
    let c := c.setSpool m { s with unspilled := rest, spilling := s.spilling ++ [b] }
    let l := c.blockLines e m b
    let c := l.1
    let r := c.issue e (c.deepPd m) (c.deepBurst m b (.spill m b s.run) .ack l.2)
    match r.2 with
    | .ok _ => r.1.cntSpool m 0x0E7 1
    | .fail _ => r.1.setSpool m { r.1.spool m with spillIn := (r.1.spool m).spillIn ++ [(b, true)] }

/-- The answer to a spill frees the block's granule, or sets DEEP_ERR (R76). -/
def deepSpillAck (c : Chip) (m : Nat) : Chip :=
  let s := c.spool m
  match s.spillIn with
  | [] => c
  | (b, bad) :: rest =>
    let c := c.setSpool m { s with spillIn := rest, spilling := s.spilling.filter (· ≠ b) }
    if bad then c.deepError m true else c

/-! Enabling and stopping (R59, R77) -/

/-- Whether the regions of two spools share a granule. -/
def overlap (c : Chip) (a b : Nat) : Bool :=
  decide (c.spBase a ≤ c.spBase b + c.spCount b) && decide (c.spBase b ≤ c.spBase a + c.spCount a)

/-- The conditions of R59. -/
def regionOk (c : Chip) (m : Nat) : Bool :=
  decide (c.spBase m + c.spCount m + 1 ≤ 6144) &&
    !((List.range 256).any fun k => k != m && c.spEn k != .off && c.overlap m k) &&
    (c.spMode m != 1 || decide (c.spGuard m < c.spCap m)) &&
    (c.spMode m != 2 || (decide (4 ≤ c.spCount m + 1) && decide (c.spCount m ≤ c.spLen m)))

/-- The block that a thread in a REFILL wait waits for; none where it waits no more. -/
def setRefillWait (c : Chip) (m t : Nat) (b : Option Nat) : Chip :=
  let ws := (c.spool m).waits.filter fun x => x.1 != t
  c.setSpool m { c.spool m with waits := ws ++ b.toList.map fun b => (t, b) }

/-- The threads in a REFILL wait on a spool, with the blocks they wait for, in ascending number (R76). -/
def refillWaiters (c : Chip) (m : Nat) : List (Nat × Nat) :=
  (c.waiters kRefill (· == m)).filterMap fun t => (c.spool m).waits.find? fun x => x.1 == t

/-- A spool becomes OFF (R52, R77): the open packets bound for it have no spool any more, nor have their words in a FIFO; a
REWIND that still waits for a refill returns DISABLED; no answer of this run counts any more.
(log 84, DESIGN CHOICE; log 85, DESIGN CHOICE) -/
def spOff (c : Chip) (m : Nat) : Chip :=
  let unbind (i : Ingest) : Ingest :=
    { i with pkt := i.pkt.map fun p => (p.1, p.2.filter (· != m)),
             fifo := i.fifo.map fun w => if w.spool = m then { w with spool := 256 } else w }
  let ws := c.refillWaiters m
  let c : Chip := { c with ingest := c.ingest.map fun q => (q.1, unbind q.2) }
  let c := c.setSpool m { c.spool m with refills := [], refillIn := [], wants := [], waits := [], run := (c.spool m).run + 1 }
  ws.foldl (fun c x => c.wake x.1 (·.endRewind 6)) c

/-- The spool as it becomes RUNNING (R77): positions 0, nothing indexed or marked, every EPOCH advanced. An answer of the
run before that has not been taken and is an error still sets DEEP_ERR (R76). A slot whose entry is still queued advances its
EPOCH once, for the enable.
(log 85, DESIGN CHOICE; log 118, DESIGN CHOICE) -/
def spStart (c : Chip) (m : Nat) : Chip :=
  let s := c.spool m
  let epochs := (List.range 512).filterMap fun k =>
    let v := (epochOf s k + 1) % 128
    if v = 0 then none else some (k, v)
  let c := if s.spillIn.any (·.2) then c.flag (.spStat m) F.SpStat.DEEP_ERR else c
  let c := c.setSpool m { Spool.empty with epochs := epochs, run := s.run + 1 }
  let c := ((c.setF (.spWp m) F.SpWp.POS 0).setF (.spFp m) F.SpFp.POS 0).setF (.spHp m) F.SpHp.POS 0
  c.spWatermark m

/-- EN of a spool moves to a new state, with the start of R77 when it becomes RUNNING from OFF; a failed start check sets
REGION_BAD (R59, R271). -/
def spMove (c : Chip) (m : Nat) (new : En) (started refused : Bool) : Chip :=
  let c := if refused then c.flag (.spStat m) F.SpStat.REGION_BAD else c
  let c := c.setF (.spCtl m) F.SpCtl.EN new.code
  if started then c.spStart m else c

/-- Whether a transfer instruction's source is the thread's read cursor (R132, R151, R162). -/
def usesCursor : WInstr → Bool
  | .move h _ | .movec h _ | .compare h _ _ | .expand h _ _ _ _ _ | .reduce h _ _ _ _ _ _ _ | .pedsub h _ _ _ _ _ => h.mode == 0
  | .patch _ _ mode _ _ _ => mode == 0
  | _ => false

/-- Whether a transfer in an active set reads the spool by cursor. -/
def beingRead (c : Chip) (m : Nat) : Bool :=
  c.needles.any fun p => match p.2.active with
    | some x => x.stage == .data && usesCursor x.instr && spoolOfHandle (c.copyOf x.t) == m && !x.srcDone
    | none => false

/-- Nothing to finish: no entry HELD, no read in progress and no REWIND waiting for a refill (R77). -/
def spIdle (c : Chip) (m : Nat) : Bool :=
  !((c.spool m).q.any fun x => x.st == .held) && !c.beingRead m && c.refillWaiters m == []

/-- A write to EN of a spool. -/
def spEnWrite (c : Chip) (m v : Nat) : Chip :=
  let old := c.spEn m
  let ok := c.regionOk m
  let new := old.write v ok (c.spIdle m)
  let c := c.spMove m new (old = .off ∧ new = .running) (decide (old = .off) && v == 1 && !ok)
  if old ≠ .off ∧ new = .off then c.spOff m else c

/-- A stop completes (R77, R271); `force` abandons every HELD entry. -/
def spComplete (c : Chip) (m : Nat) (force : Bool) : Chip :=
  let old := c.spEn m
  let c := if force then c.setSpool m (dropMarks (c.spool m) fun _ => true) else c
  let c := (c.setF (.spCtl m) F.SpCtl.EN 0).spOff m
  let ok := c.regionOk m
  if old = .restart then c.spMove m (old.complete ok) ok (!ok) else c

/-- A write of 1 to FORCE (R77). -/
def spForce (c : Chip) (m : Nat) : Chip :=
  if c.spEn m = .stopping ∨ c.spEn m = .restart then c.spComplete m true else c

/-- A write of DXW_SPm_CTL: EN first, then FORCE as the write leaves EN.
(log 72, DEDUCED) -/
def spCtlWrite (c : Chip) (m : Nat) (w : Word) : Chip :=
  let c := c.spEnWrite m (fget w F.SpCtl.EN)
  if fbit w F.SpCtl.FORCE then c.spForce m else c

/-- A write of DXW_SPm_CFG, DEEPBASE or DEEPCFG (R78); MODE 0b11 is not accepted (R10). -/
def spCfgWrite (c : Chip) (m : Nat) (which : SpoolCfg) (w : Word) : Chip :=
  if c.spEn m ≠ .off then c.flag (.spStat m) F.SpStat.CFG_LOCKED
  else match which with
  | .cfg =>
    let c := if fget w F.SpCfg.MODE = 3 then c else c.setF (.spCfg m) F.SpCfg.MODE (fget w F.SpCfg.MODE)
    let c := c.setF (.spCfg m) F.SpCfg.LAPGUARD (fget w F.SpCfg.LAPGUARD)
    let c := c.setF (.spCfg m) F.SpCfg.COUNT (fget w F.SpCfg.COUNT)
    c.setF (.spCfg m) F.SpCfg.BASE (fget w F.SpCfg.BASE)
  | .deepBase => c.setF (.spDeepbase m) F.SpDeepbase.ADDR (fget w F.SpDeepbase.ADDR)
  | .deepCfg =>
    let c := c.setF (.spDeepcfg m) F.SpDeepcfg.LEN (fget w F.SpDeepcfg.LEN)
    let c := c.setF (.spDeepcfg m) F.SpDeepcfg.PD (fget w F.SpDeepcfg.PD)
    let c := c.setF (.spDeepcfg m) F.SpDeepcfg.CLASS (fget w F.SpDeepcfg.CLASS)
    c.setF (.spDeepcfg m) F.SpDeepcfg.NDL (fget w F.SpDeepcfg.NDL)

/-- What a read of DXW_SP_SUMk gives: the spools with a status or notice bit set. -/
def spSumWord (c : Chip) (k : Nat) : Word :=
  BitVec.ofNat 64 ((List.range 64).foldl (fun n j =>
    let m := 64 * k + j
    let any := decide (fget (c.rd (.spStat m)) ⟨6, 2⟩ ≠ 0) || c.bit (.spLvl m) F.SpLvl.NOTICE
    n + b2n any * 2 ^ j) 0)

end Chip

/-- SPOOL_CFG_WRITE (R78). -/
def execSpoolCfgWrite (m : Fin 256) (which : SpoolCfg) (data : Word) (s : State) : Host.Outcome State Fault Refusal :=
  s.chipStep fun _ c => whenReady c (·.spCfgWrite m which data)
/-- SPOOL_ENABLE (R77). -/
def execSpoolEnable (m : Fin 256) (s : State) : Host.Outcome State Fault Refusal :=
  s.chipStep fun _ c => whenReady c (·.spEnWrite m 1)
/-- SPOOL_STOP (R77). -/
def execSpoolStop (m : Fin 256) (s : State) : Host.Outcome State Fault Refusal :=
  s.chipStep fun _ c => whenReady c (·.spEnWrite m 0)
/-- SPOOL_FORCE (R77): a write of FORCE with EN as it stands. -/
def execSpoolForce (m : Fin 256) (s : State) : Host.Outcome State Fault Refusal :=
  s.chipStep fun _ c => whenReady c (·.spForce m)
/-- SPOOL_STOP_COMPLETE (R77). -/
def execSpoolStopComplete (m : Fin 256) (s : State) : Host.Outcome State Fault Refusal :=
  s.coreStep fun _ c =>
    if (c.spEn m = .stopping ∨ c.spEn m = .restart) ∧ c.spIdle m then c.spComplete m false else c
/-- DEEP_SPILL (R75). -/
def execDeepSpill (m : Fin 256) (s : State) : Host.Outcome State Fault Refusal := s.coreStep fun e c => c.deepSpill e m
/-- DEEP_SPILL_ACK (R76). -/
def execDeepSpillAck (m : Fin 256) (s : State) : Host.Outcome State Fault Refusal := s.coreStep fun _ c => c.deepSpillAck m

/-- The lines of a refill in a granule: their words as 64-bit words of memory. -/
def refillWords (lines : List (Line × Bool)) : List Word :=
  (List.range 16).flatMap fun i =>
    let l := (lines.getD i (0#512, true)).1
    (List.range 8).map fun k => BitVec.ofNat 64 (l.toNat / 2 ^ (64 * k))

/-- DEEP_REFILL_DONE (R76): the oldest answer lands in its granule; the waiting threads whose cursor it serves become
READY; the next block ahead is refilled. An error delivers the words poisoned. -/
def execDeepRefillDone (m : Fin 256) (s : State) : Host.Outcome State Fault Refusal :=
  let c := s.chip
  let sp := c.spool m
  match if coreUp c then sp.refillIn else [] with
  | [] => .next s
  | (b, lines, bad) :: rest =>
    match sp.refills.find? fun r => r.block == b && !r.ready with
    | none => .next { s with chip := c.setSpool m { sp with refillIn := rest } }
    | some r =>
      let g := c.spBase m + c.nearCount m + r.g
      let mem := if bad then s.mem else memPutWords s.mem (spoolAt g 0) (refillWords lines)
      let e : Env := { mem := mem, prot := s.prot }
      let c := c.setSpool m { sp with refillIn := rest, refills := sp.refills.map fun x =>
        if x = r then { x with ready := true } else x }
      let c := (List.range 32).foldl (fun c k =>
        c.setLanes g k (if bad ∨ (lines.getD (k / 2) (0#512, true)).2 then 15 else 0)) c
      let c := if bad then c.deepError m false else c
      let ws := (c.refillWaiters m).filter fun x => x.2 == b
      let c := c.setSpool m { c.spool m with waits := (c.spool m).waits.filter fun x => x.2 != b }
      let c := ws.foldl (fun c x => c.wake x.1 (·.endRewind 0)) c
      let ahead := (b + 1) * 32
      let c := if posDiff ahead (c.wp m) < 0 ∧ c.hostResident m ahead ∧ (c.cursorBlock m r.owner).isSome
        then c.startRefill e m (b + 1) r.owner else c
      .next { s with mem := mem, chip := c.sweepRefills e m }

end Sys2Proof.Machine
end

