-- ==== Sys2Proof/Machine/Ingest.lean ====
section
/-! DEFINITION. The ingest ports (03_spools_and_ingest.md R49 to R57, R341): packets, quarantine, the crossing FIFO, stops
and lost clocks. The word's step from the FIFO into its spool is in Services.lean, beside the taps that watch it. -/

namespace Sys2Proof.Machine.Chip

/-- An ingest port beside its registers. -/
def ip (c : Chip) (n : Nat) : Ingest := Tab.get Ingest.empty c.ingest n
/-- The chip with an ingest port. -/
def setIp (c : Chip) (n : Nat) (i : Ingest) : Chip := { c with ingest := Tab.put Ingest.empty c.ingest n i }
/-- EN of a port. -/
def ipEn (c : Chip) (n : Nat) : En := c.en (.ipCtl n) F.IpCtl.EN
/-- In quarantine (R54). -/
def quar (c : Chip) (n : Nat) : Bool := c.bit (.ipStat n) F.IpStat.QUAR

/-- A beat dropped in quarantine, or after it as the rest of a packet (R54). -/
def qdrop (c : Chip) (n : Nat) : Chip := c.tally (.ipDrop n) F.IpDrop.QDROP 1
/-- A beat dropped outside quarantine (R51, R52). -/
def ipdrop (c : Chip) (n : Nat) : Chip := c.tally (.ipDrop n) F.IpDrop.DROP 1

/-- The open packet is closed as if its previous beat had carried EOP (R51, R57): the last word in the FIFO takes the EOP,
or, where it has reached the spool already, the spool raises the notice (R63). -/
def truncate (c : Chip) (n : Nat) : Chip :=
  let i := c.ip n
  match i.pkt with
  | none => c
  | some (_, target) =>
    let c := c.flag (.ipStat n) F.IpStat.TRUNC
    match i.fifo.getLast? with
    | some w =>
      if w.eop then
        let c := c.setIp n { i with pkt := none }
        match target with
        | some m => c.packetNotice m
        | none => c
      else c.setIp n { i with pkt := none, fifo := i.fifo.dropLast ++ [{ w with eop := true }] }
    | none =>
      let c := c.setIp n { i with pkt := none }
      match target with
      | some m => c.packetNotice m
      | none => c

/-- A stop takes effect (R341): the port is in quarantine; the words in its FIFO still go to their spools. -/
def stopEffect (c : Chip) (n : Nat) : Chip :=
  let i := c.ip n
  (c.setIp n { i with stopping := false }).setF (.ipStat n) F.IpStat.QUAR 1

/-- A stop completes (R341, R56, R271): the FIFO pointers are reset. -/
def ipComplete (c : Chip) (n : Nat) : Chip :=
  let c := c.setIp n { c.ip n with fifo := [], stopping := false }
  c.setF (.ipCtl n) F.IpCtl.EN ((c.ipEn n).complete true).code

/-- Where a packet that opens now goes: the mapped spool that is not OFF (R52). -/
def mapTarget (c : Chip) (n stream : Nat) : Option Nat :=
  let m := c.fld (.ipMap n stream) F.IpMap.SPOOL
  if c.bit (.ipMap n stream) F.IpMap.VALID ∧ c.spEn m ≠ .off then some m else none

/-- Whether the oldest word of the FIFO waits for a spool at capacity (R53). -/
def headBlocked (c : Chip) (n : Nat) : Bool :=
  match (c.ip n).fifo.head? with
  | some w => decide (w.spool < 256) && (c.spEn w.spool == .running) && c.spFull w.spool
  | none => false

/-- BP_HOL while READY is 0 and the oldest word waits for a spool at capacity (R53); in quarantine READY is 1 (R54). What can
raise the condition, or clear the bit under it, judges it: a beat, a word that stays in the FIFO, the end of quarantine, a tick
and a write of the register. -/
def holCheck (c : Chip) (n : Nat) : Chip :=
  if ¬ c.quar n ∧ (c.ip n).fifo.length ≥ 16 ∧ c.headBlocked n then c.flag (.ipStat n) F.IpStat.BP_HOL else c

/-- POISON_IN for an accepted beat with IPn_POISON = 1 (R61), kept or dropped, but for the beats of R54.
(log 37, DESIGN CHOICE) -/
def poisonIn (c : Chip) (n : Nat) (poison : Bool) : Chip := if poison then c.flag (.ipStat n) F.IpStat.POISON_IN else c

/-- A beat outside the protocol is dropped (R51). -/
def protoDrop (c : Chip) (n : Nat) (poison : Bool) : Chip :=
  ((c.ipdrop n).flag (.ipStat n) F.IpStat.PROTO).poisonIn n poison

/-- A beat of an open packet enters the FIFO, or is dropped where the packet has no spool (R52, R61).
(log 37, DESIGN CHOICE) -/
def ipWord (c : Chip) (n stream : Nat) (target : Option Nat) (sop eop : Bool) (tag : Nat) (poison : Bool) (data : W256) : Chip :=
  let i := c.ip n
  let target := target.filter fun m => c.spEn m != .off
  let pkt := if eop then none else some (stream, target)
  match target with
  | none => (((c.setIp n { i with pkt := pkt }).ipdrop n).flag (.ipStat n) F.IpStat.UNMAPPED).poisonIn n poison
  | some m =>
    let w : FWord := { spool := m, stream := stream, sop := sop, eop := eop, tag := tag, poison := poison, data := data }
    let c := (c.setIp n { i with pkt := pkt, fifo := i.fifo ++ [w] }).holCheck n
    c.poisonIn n poison

/-- A beat that the port takes, before it is placed: a stop that waits for the packet boundary finds it here, and a SOP closes
the packet that is open (R51, R341). -/
def beatBoundary (c : Chip) (n : Nat) (sop : Bool) : Chip :=
  let i := c.ip n
  if sop ∧ i.pkt.isSome ∧ ¬ c.quar n then
    let c := c.truncate n
    if i.stopping then c.stopEffect n else c
  else c

/-- Where a beat that the port takes goes: into the FIFO, or dropped in or outside quarantine (R51, R52, R54). -/
def placeBeat (c : Chip) (n stream : Nat) (sop eop : Bool) (xtag : Nat) (poison : Bool) (data : W256) : Chip :=
  let i := c.ip n
  if c.quar n then (c.setIp n { i with dropRest := !eop }).qdrop n
  else if sop then
    (c.setIp n { i with dropRest := false }).ipWord n stream (c.mapTarget n stream) true eop xtag poison data
  else if i.dropRest then (c.setIp n { i with dropRest := !eop }).qdrop n
  else match i.pkt with
  | none => c.protoDrop n poison
  | some (s, target) =>
    if s ≠ stream then c.protoDrop n poison
    else c.ipWord n stream target false eop 0 poison data

/-- The counter event of a drop: of placing a beat at port n, which `placeBeat` drops in quarantine (0x0C5), outside it
(0x0C4), or not at all (16 R326). -/
def beatDrop (c : Chip) (n stream : Nat) (sop : Bool) : List (Nat × Nat) :=
  let i := c.ip n
  let taken (target : Option Nat) : List (Nat × Nat) :=
    if (target.filter fun m => c.spEn m != .off).isSome then [] else [(0x0C4, 1)]
  if c.quar n then [(0x0C5, 1)]
  else if sop then taken (c.mapTarget n stream)
  else if i.dropRest then [(0x0C5, 1)]
  else match i.pkt with
  | none => [(0x0C4, 1)]
  | some (s, target) => if s ≠ stream then [(0x0C4, 1)] else taken target

/-- A beat at an ingest port (R50 to R54): taken, dropped, or held back by a full FIFO; its events count together (16 R330).
(log 37, DESIGN CHOICE) -/
def ingestBeat (c : Chip) (n stream : Nat) (sop eop : Bool) (xtag : Nat) (poison : Bool) (data : W256) : Chip :=
  let i := c.ip n
  let c := if i.stopping ∧ i.pkt.isNone then c.stopEffect n else c
  let i := c.ip n
  if ¬ c.quar n ∧ i.fifo.length ≥ 16 then
    ((c.tally (.ipBp n) F.IpBp.CYCLES 1).cntIngest n 0x0C3 1).holCheck n
  else
    let c := c.beatBoundary n sop
    let evs : List (Nat × Nat) :=
      ([(0x0C1, 1), (0x0C2, b2n sop), (0x0C6, b2n poison)].filter fun x => x.2 != 0) ++ c.beatDrop n stream sop
    (c.countCycle (544 + 2 * n) 2 evs).placeBeat n stream sop eop xtag poison data

/-- A release tick (R54): the lowest-numbered port in quarantine whose EN is RUNNING and whose clock runs leaves it. -/
def releaseTick (c : Chip) : Chip :=
  if ¬ c.bit .spcStat F.SpcStat.WIPE_DONE ∨ c.pwr.phase = .quiesce then c
  else match (List.range 16).find? fun n => c.quar n && c.ipEn n == .running && c.bit (.ipStat n) F.IpStat.CLK_OK with
  | none => c
  | some n => ((c.setIp n { c.ip n with pkt := none }).setF (.ipStat n) F.IpStat.QUAR 0).holCheck n

/-- A port's clock has run 64 cycles (R54, R57): the FIFO pointers are reset and CLK_OK rises. A word that still waits for a
spool at capacity is dropped with them, uncounted.
(log 99, DESIGN CHOICE) -/
def ingestClkOk (c : Chip) (n : Nat) : Chip :=
  if c.bit (.ipStat n) F.IpStat.CLK_OK then c
  else (c.setIp n { c.ip n with fifo := [] }).flag (.ipStat n) F.IpStat.CLK_OK

/-- A port's clock is declared lost (R57). A stop written before takes effect as the open packet is closed; it completes
when the FIFO has emptied (R341). -/
def ingestClkLost (c : Chip) (n : Nat) : Chip :=
  if ¬ c.bit (.ipStat n) F.IpStat.CLK_OK then c
  else
    let c := (c.setF (.ipStat n) F.IpStat.CLK_OK 0).flag (.ipStat n) F.IpStat.CLK_LOST
    let wasOpen := (c.ip n).pkt.isSome
    let c := c.truncate n
    let c := c.setIp n { c.ip n with dropRest := wasOpen || (c.ip n).dropRest, stopping := false }
    c.setF (.ipStat n) F.IpStat.QUAR 1

/-- A write to EN of a port (R54, R341, R57). -/
def ipEnWrite (c : Chip) (n v : Nat) : Chip :=
  let old := c.ipEn n
  let i := c.ip n
  let atOnce := i.pkt.isNone || c.quar n
  let lost := !c.bit (.ipStat n) F.IpStat.CLK_OK
  let new := old.write v true (lost || (atOnce && i.fifo == []))
  let c := c.setF (.ipCtl n) F.IpCtl.EN new.code
  if old = .running ∧ v = 0 then
    if atOnce ∨ lost then c.stopEffect n else c.setIp n { i with stopping := true }
  else c

/-- The stop's effect at a packet boundary (R341). -/
def ingestStopEffect (c : Chip) (n : Nat) : Chip :=
  if (c.ip n).stopping ∧ (c.ip n).pkt.isNone then c.stopEffect n else c

/-- The completion of a stop whose FIFO has emptied (R341). -/
def ingestStopComplete (c : Chip) (n : Nat) : Chip :=
  let i := c.ip n
  if (c.ipEn n = .stopping ∨ c.ipEn n = .restart) ∧ ¬ i.stopping ∧ c.quar n ∧ i.fifo = [] then c.ipComplete n else c

/-- A write of a map entry (R52): a second VALID entry for a spool is refused. -/
def ipMapWrite (c : Chip) (n s : Nat) (w : Word) : Chip :=
  let m := fget w F.IpMap.SPOOL
  let clash := fbit w F.IpMap.VALID && (List.range 16).any fun p => (List.range 16).any fun t =>
    (p != n || t != s) && c.bit (.ipMap p t) F.IpMap.VALID && c.fld (.ipMap p t) F.IpMap.SPOOL == m
  if clash then c.flag .spcStat F.SpcStat.MAP_CONFLICT
  else (c.setF (.ipMap n s) F.IpMap.VALID (fget w F.IpMap.VALID)).setF (.ipMap n s) F.IpMap.SPOOL m

end Sys2Proof.Machine.Chip

namespace Sys2Proof.Machine

/-- INGEST_BEAT (R51). -/
def execIngestBeat (port stream : Fin 16) (sop eop : Bool) (xtag : BitVec 24) (poison : Bool) (data : W256) (s : State) :
    Host.Outcome State Fault Refusal :=
  s.coreStep fun _ c => c.ingestBeat port stream sop eop xtag.toNat poison data
/-- QUARANTINE_RELEASE_TICK (R54). -/
def execQuarantineReleaseTick (s : State) : Host.Outcome State Fault Refusal := s.coreStep fun _ c => c.releaseTick
/-- INGEST_CLK_OK (R54). -/
def execIngestClkOk (port : Fin 16) (s : State) : Host.Outcome State Fault Refusal :=
  s.coreStep fun _ c => c.ingestClkOk port
/-- INGEST_CLK_LOST (R57). -/
def execIngestClkLost (port : Fin 16) (s : State) : Host.Outcome State Fault Refusal :=
  s.coreStep fun _ c => c.ingestClkLost port
/-- INGEST_ENABLE (R54). -/
def execIngestEnable (port : Fin 16) (s : State) : Host.Outcome State Fault Refusal :=
  s.chipStep fun _ c => whenReady c (·.ipEnWrite port 1)
/-- INGEST_STOP (R341). -/
def execIngestStop (port : Fin 16) (s : State) : Host.Outcome State Fault Refusal :=
  s.chipStep fun _ c => whenReady c (·.ipEnWrite port 0)
/-- INGEST_STOP_EFFECT (R341). -/
def execIngestStopEffect (port : Fin 16) (s : State) : Host.Outcome State Fault Refusal :=
  s.coreStep fun _ c => c.ingestStopEffect port
/-- INGEST_STOP_COMPLETE (R341). -/
def execIngestStopComplete (port : Fin 16) (s : State) : Host.Outcome State Fault Refusal :=
  s.coreStep fun _ c => c.ingestStopComplete port
/-- INGEST_MAP_WRITE (R52). -/
def execIngestMapWrite (port stream : Fin 16) (data : Word) (s : State) : Host.Outcome State Fault Refusal :=
  s.chipStep fun _ c => whenReady c (·.ipMapWrite port stream data)

end Sys2Proof.Machine
end

