-- ==== Sys2Proof/Machine/Threads.lean ====
section
/-! DEFINITION. Threads and needles (04_threads_and_needles.md): the record's words, the waits as their sources judge them,
the commands of DXW_TH_CMD, fetches and line fills, needle enables, and needle clocks (R80 to R96, R340, 13 R277). -/

namespace Sys2Proof.Machine

/-! The record (R80) -/

/-- The encoding of STATE (R82). -/
def TState.code : TState → Nat
  | .idle => 0 | .ready => 1 | .waiting => 2 | .running => 3 | .parked => 4 | .halted => 5 | .fault => 6

/-- Word k of a record. -/
def Thread.word (t : Thread) (k : Nat) : Word :=
  BitVec.ofNat 64 (match k with
    | 0 => t.gen * 2 ^ 40 + b2n t.fF * 2 ^ 39 + b2n t.fC * 2 ^ 38 + b2n t.fN * 2 ^ 37 + b2n t.fZ * 2 ^ 36 + b2n t.afix * 2 ^ 35 +
        t.aff * 2 ^ 28 + t.cls * 2 ^ 26 + t.pd * 2 ^ 20 + t.st.code * 2 ^ 16 + t.pc
    | 1 => b2n t.cv * 2 ^ 45 + b2n t.hv * 2 ^ 44 + b2n t.bv * 2 ^ 43 + t.dptr
    | 2 => t.bxing * 2 ^ 32 + t.kind * 2 ^ 28 + t.arg
    | 3 => t.curoff * 2 ^ 24 + t.handle
    | _ => (t.reg (2 * (k - 4) + 1)).toNat * 2 ^ 32 + (t.reg (2 * (k - 4))).toNat)

/-- Whether R92 lists a KIND: 9 to 12 and 15 never appear. -/
def kindListed (k : Nat) : Bool := decide (k ≤ 8) || k == kPark || k == kFault

/-- The record with word k written: spare bits, STATE and GEN are ignored (R80, R81), and a KIND that R92 does not list leaves
the field unchanged (R10). A write of the cursor or of the wait is what stands: a REWIND that goes on to wait and fails restores
nothing after it.
(log 141, DESIGN CHOICE) -/
def Thread.setWord (t : Thread) (k : Nat) (w : Word) : Thread :=
  let n := w.toNat
  match k with
  | 0 => { t with fF := bits n 39 39 == 1, fC := bits n 38 38 == 1, fN := bits n 37 37 == 1, fZ := bits n 36 36 == 1,
                  afix := bits n 35 35 == 1, aff := bits n 34 28, cls := bits n 27 26, pd := bits n 25 20, pc := bits n 15 0 }
  | 1 => { t with cv := bits n 45 45 == 1, hv := bits n 44 44 == 1, bv := bits n 43 43 == 1, dptr := bits n 42 0, undo := none }
  | 2 => { t with bxing := bits n 55 32, kind := if kindListed (bits n 31 28) then bits n 31 28 else t.kind, arg := bits n 27 0,
                  undo := none }
  | 3 => { t with curoff := bits n 49 24, handle := bits n 23 0, undo := none }
  | _ => (t.setReg (2 * (k - 4)) (BitVec.ofNat 32 n)).setReg (2 * (k - 4) + 1) (BitVec.ofNat 32 (n / 2 ^ 32))

/-- The half line at an address. -/
def halfOf (l : Line) (addr : Nat) : W256 := if addr / 32 % 2 = 0 then l.setWidth 256 else (l >>> 256).setWidth 256

/-- The descriptor at an address, out of its line (R123). -/
def Desc.ofLine (addr : Nat) (l : Line) : Desc :=
  let h := halfOf l addr
  { addr := addr, ctl := lane64 h 0, dest := lane64 h 1, next := lane64 h 2, status := lane64 h 3 }

/-- The OWN bit of a CTL word. -/
def Desc.own (d : Desc) : Bool := d.ctl.msb

namespace Chip

/-- The bursts that pass a test and have not been granted are withdrawn from every port. -/
def dropBursts (c : Chip) (p : Burst → Bool) : Chip :=
  let c : Chip := { c with backlog := c.backlog.filter fun x => !p x.2 }
  let gone : List (Nat × Burst) := c.ports.flatMap fun q => (List.filter p q.2.waiting).map fun b => (q.1, b)
  let thin (q : Nat × Port) : Nat × Port := (q.1, { q.2 with waiting := q.2.waiting.filter fun b => !p b })
  let c : Chip := { c with ports := List.map thin c.ports }
  gone.foldl (fun c x => c.pull x.1 x.2.req x.2.use) c

/-! Locks, as a LOCK instruction meets them (05 R117, R118) -/

/-- A lock is asked for by an owner with a lease at the counter of now: the new state and the code (R117). -/
def lockTake (c : Chip) (l owner lease : Nat) : Chip × Nat :=
  let v := c.lockAt l
  let fin := advance c.olen c.ctr (lease + 1)
  match v.st with
  | .free => (c.setLock l { v with st := .held, owner := owner, leaseEnd := fin }, 0)
  | .held => if v.owner = owner then (c.setLock l { v with leaseEnd := fin }, 0) else (c, 2)
  | .broken => ((c.setLock l { v with st := .held, owner := owner, leaseEnd := fin }).flag .lkStat F.LkStat.GRANT_BROKEN, 1)

/-- An UNLOCK by an owner (R118): the lock is granted on at once to a waiter (R120). -/
def lockFree (c : Chip) (l owner : Nat) : Chip × Nat :=
  let v := c.lockAt l
  if v.owner = owner ∧ v.st = .held then
    ((c.setLock l { v with st := .free, owner := 0, leaseEnd := 0 }).lockGrant l owner, 0)
  else if v.owner = owner ∧ v.st = .broken then (c, 1)
  else (c, 3)

/-- A wait-mode LOCK is registered with its lock (R117, R248, R249). -/
def lockRegister (c : Chip) (t : Nat) : Chip :=
  let l := (c.thr t).arg
  if isRing l ∧ ¬ c.inService then c.lockResult t 5
  else if isRing l ∧ ¬ c.isRef then
    let ask : LockAsk := { t := t, lock := l, seq := c.seam.seq, isTry := false, isUnlock := false, lapsed := false }
    (c.noteAsk ask).sendLockReq l t false false (c.thr t).lease
  else if isLocal l ∨ isRing l then
    let o := c.ownerOf l t
    let r := c.lockTake l o (c.thr t).lease
    if r.2 = 2 then
      if isRing l then
        let v := r.1.lockAt l
        r.1.setLock l { v with waiters := (v.waiters.filter fun w => w.1 ≠ o) ++ [(o, (c.thr t).lease, 0)] }
      else r.1
    else r.1.lockResult t r.2
  else c.lockResult t 4

/-! Waits as their sources judge them at registration (R84, R92, R109) -/

/-- The decision of a crossing as R190 judges it: the word and whether it sets F; none while it is OPEN. -/
def decJudge (c : Chip) (x : Nat) : Option (Nat × Bool) :=
  let e := c.decAt x
  if ¬ c.inWindow x ∨ ¬ carries e x then some (wordExp, true)
  else match e.st with
  | .known => some (e.word, false)
  | .missing => some (e.word, true)
  | _ => none

/-- DXW_TH_TIMER. -/
def timer (c : Chip) : Nat := (c.rd .thTimer).toNat

/-- The fault of a read or write that fails the protection check (R260, R291): `acc` is bits 2:0 of DETAIL. -/
def protFault (n pc : Nat) (write : Bool) (addr acc : Nat) (win : Option Nat) (desc : Option Nat) : FaultInfo :=
  { cause := cProt, ndl := n, pc := pc, av := true, dir := write, addr := addr, detail := win.getD 255 * 256 + acc,
    dv := desc.isSome, daddr := desc.getD 0 }

/-- The read of a DESC wait (R94): carried by the requester of the needle that ARG names, in the thread's CLASS and PD. It is
presented at once, while a needle that cannot wake stays as it is (R274, R282).
(log 110, DESIGN CHOICE) -/
def dwaitRead (e : Env) (c : Chip) (t : Nat) : Chip :=
  let th := c.thr t
  let n := th.arg % 128
  let a := th.dptr * 32
  let b : Burst := { unitBurst n (.dwait t) th.cls .read (a / 64 * 64) 1 [] with thr := t, gen := th.gen, pc := th.pc, desc := a }
  let c := (c.wantClock n).cntNeedle n 0x023 1
  match e.prot.check th.pd a 32 .read with
  | .ok w => c.present (e.prot.home w) { b with tdom := e.prot.tdom w }
  | .fail w => c.faultStored t (protFault n th.pc false a 0 w (some a))

/-- Whether the reason of a kept park still holds (R84, R93, R95). -/
def parkHolds (c : Chip) (th : Thread) (t : Nat) : Bool :=
  if th.arg / 2 ^ 24 = parkTarget then (c.suspendedOn t).isSome && c.tdDown (th.arg % 2 ^ 24)
  else match c.suspendedOn t with
    | some n => !c.takesBack n
    | none => if th.afix then !c.needleOn (th.arg % 2 ^ 24 % 128) else (c.nextNeedle 0).isNone

/-- A thread whose record holds a wait becomes WAITING, and its source judges the wait (R84, R109). A DEC or LOCK wait that
software wrote into the record answers in the wd, and with the LEASE, that the thread's last such wait left: 0 where none did.
(log 133, DESIGN CHOICE) -/
def registerWait (e : Env) (c : Chip) (t : Nat) : Chip :=
  let c := c.setSt t .waiting
  let th := c.thr t
  let a := th.arg
  if th.kind = kXing then
    if xingReached a c.ctr then c.xingWake t else c.setThr t { th with target := xingTarget a c.ctr }
  else if th.kind = kDec then
    match c.decJudge (c.nearestX (a % 2 ^ 24)) with
    | some (w, f) => c.wake t fun th => (th.setReg th.retReg (BitVec.ofNat 32 w)).report f
    | none => c
  else if th.kind = kSpool then
    if spoolWaitMet a (c.wp (a / 2 ^ 20 % 256)) then c.wake t fun th => th.report false else c
  else if th.kind = kDesc then c.dwaitRead e t
  else if th.kind = kLock then c.lockRegister t
  else if th.kind = kReq then
    let line := a % 256
    if ¬ c.bit (.rlCfg line) F.RlCfg.EN then c.wake t fun th => th.report true
    else if c.reqLevel line then c.wake t fun th => th.report false
    else if a / 256 % 2 = 1 ∧ deadlineReached 19 (a / 512) c.timer then c.wake t fun th => th.report true
    else c
  else if th.kind = kTimer then if deadlineReached 28 a c.timer then c.wake t id else c
  else if th.kind = kRefill then
    let m := a % 256
    if c.spEn m = .off then c.wake t (·.endRewind 6)
    else match c.cursorPos th with
    | some p =>
      if c.hostResident m p ∧ (c.spool m).deepBad then c.wake t (·.endRewind 8)
      else if (c.granuleOf m p).isNone then (c.setRefillWait m t (some (p / 32))).startRefill e m (p / 32) t
      else c.wake t (·.endRewind 0)
    | none => c.wake t (·.endRewind 2)
  else c.wake t id

/-! Commands (R83 to R85) -/

/-- RELEASE of a handle (R72): the result code. -/
def releaseMark (c : Chip) (h : Nat) : Chip × Nat :=
  let m := h / 2 ^ 16 % 256
  let c := c.cntSpool m 0x0E5 1
  if c.spEn m = .off then (c, 6)
  else match c.markOf h with
  | some x => if x.st = .released then (c, 2) else ((c.setMark h .released).recomputeFp m, 0)
  | none => (c, 2)

/-- A suspended transfer of a thread is discarded: no further write of it leaves (R93). -/
def dropSuspended (c : Chip) (t : Nat) : Chip :=
  match c.suspendedOn t with
  | none => c
  | some n =>
    let nd := c.ndl n
    let c := c.setNdl n { nd with susp := nd.susp.filter fun q => !q.2.any fun x => x.t == t }
    c.dropBursts fun b => threadUse b.use && b.thr == t

/-- KILL of a thread that holds no slot (R83): the mark is released, and CV keeps its value until START clears it.
(log 119, DESIGN CHOICE) -/
def killNow (e : Env) (c : Chip) (t : Nat) : Chip :=
  let th := c.thr t
  let c := if th.kind = kRefill then c.setRefillWait (th.arg % 256) t none else c
  let c := if th.hv then (c.releaseMark th.handle).1.sweepRefills e (spoolOfHandle th) else c
  let c := (((c.unqueue t).dropSuspended t).dropRingWaits t)
  let c := c.setThr t { c.thr t with st := .idle, kind := kNone, arg := 0, gen := (th.gen + 1) % 2 ^ 16, cmd := none,
                                      sealing := false, undo := none }
  c.breakLocks t

/-- HALT of a thread that holds no slot: the wait or park is kept (R82).
(log 9, DEDUCED) -/
def haltNow (c : Chip) (t : Nat) : Chip := (c.unqueue t).setSt t .halted

/-- A pending result of the thread in a slot (R85, R140): completion-queue entries or an instruction not
completed, a SEAL among them. -/
def busySlot (c : Chip) (n k : Nat) : Bool :=
  match c.slot n k with
  | none => false
  | some s =>
    let nd := c.ndl n
    hasCq nd s.t || s.act.isSome || s.sealing.isSome || nd.active.any (fun x => x.t == s.t && x.slot == k) ||
      nd.shadow.any (fun x => x.t == s.t)

/-- A resident thread at its boundary obeys its HALT or KILL, or leaves a needle that is stopping (R85, R95).
(log 77, DEDUCED) -/
def boundary (e : Env) (c : Chip) (n k : Nat) : Chip :=
  match c.slot n k with
  | none => c
  | some s =>
    if c.busySlot n k ∨ s.dead then c
    else match s.live.cmd with
    | some .halt => c.leave n k fun th => { th with st := .halted, cmd := none }
    | some .kill => (c.leave n k id).killNow e s.t
    | none => if c.needleOn n then c else (c.leave n k id).makeReady s.t

/-- A HALT or KILL for a RUNNING thread waits for the boundary of R85. Of a HALT and a KILL that both wait the KILL prevails, and a
HALT behind it is taken without CMD_STATE.
(log 131, DESIGN CHOICE) -/
def setCmd (c : Chip) (t : Nat) (k : TCmd) : Chip :=
  match c.findSlot t with
  | some (n, j) => c.mapLive n j fun th => { th with cmd := some (if th.cmd = some .kill then .kill else k) }
  | none => c

/-- Whether the GEN check refuses a command (R83). -/
def staleGen (c : Chip) (t : Nat) (gchk : Bool) (gen : Nat) : Bool := gchk && gen != (c.copyOf t).gen

/-- A HALT or KILL that was waiting when its thread faulted is judged after the fault (R85, R294): KILL succeeds, HALT is
refused.
(log 77, DEDUCED) -/
def faultCmd (e : Env) (c : Chip) (t : Nat) : Chip :=
  let th := c.thr t
  if th.st ≠ .fault then c
  else match th.cmd with
  | none => c
  | some .halt => (c.setThr t { th with cmd := none }).flag .thStat F.ThStat.CMD_STATE
  | some .kill => c.killNow e t

/-- START (R83). -/
def threadStart (c : Chip) (t : Nat) : Chip :=
  let th := c.thr t
  if th.st ≠ .idle then c.flag .thStat F.ThStat.CMD_STATE
  else
    (c.setThr t { th with fF := false, fC := false, fN := false, fZ := false, bv := false, hv := false, cv := false,
                           kind := kNone, arg := 0 }).makeReady t

/-- HALT (R83). -/
def threadHalt (e : Env) (c : Chip) (t : Nat) : Chip :=
  match (c.thr t).st with
  | .idle | .fault => c.flag .thStat F.ThStat.CMD_STATE
  | .halted => c
  | .running => match c.findSlot t with
    | some (n, k) => (c.setCmd t .halt).boundary e n k
    | none => c
  | _ => c.haltNow t

/-- Whether every write that a FAULT thread issued has arrived or failed (R84, R140). -/
def sealed (c : Chip) (t : Nat) : Bool := !c.writesOut t && !c.deadSlot t

/-- A FAULT thread whose seal is complete becomes READY (R84).
(log 9, DEDUCED) -/
def resumeSealed (c : Chip) (t : Nat) : Chip :=
  if (c.thr t).st = .fault ∧ (c.thr t).sealing ∧ c.sealed t then
    (c.setThr t { c.thr t with sealing := false, kind := kNone, arg := 0 }).makeReady t
  else c

/-- RESUME (R83, R84). -/
def threadResume (e : Env) (c : Chip) (t : Nat) : Chip :=
  let th := c.thr t
  match th.st with
  | .halted =>
    if th.kind = kNone then c.makeReady t
    else if th.kind = kPark then
      if c.parkHolds th t then c.setSt t .parked else (c.setThr t { th with kind := kNone, arg := 0 }).makeReady t
    else c.registerWait e t
  | .fault => (c.setThr t { th with sealing := true }).resumeSealed t
  | _ => c.flag .thStat F.ThStat.CMD_STATE

/-- KILL (R83). -/
def threadKill (e : Env) (c : Chip) (t : Nat) : Chip :=
  match (c.thr t).st with
  | .idle => c
  | .running => match c.findSlot t with
    | some (n, k) => (c.setCmd t .kill).boundary e n k
    | none => c
  | _ => c.killNow e t

/-- A command of DXW_TH_CMD with its GEN check (R83): 1 START, 2 HALT, 3 RESUME, 4 KILL. -/
def thCmd (e : Env) (c : Chip) (op t : Nat) (gchk : Bool) (gen : Nat) : Chip :=
  let c := c.faultCmd e t
  if op = 0 ∨ op > 4 then c
  else if c.staleGen t gchk gen then c.flag .thStat F.ThStat.CMD_STALE
  else match op with
  | 1 => c.threadStart t
  | 2 => c.threadHalt e t
  | 3 => c.threadResume e t
  | _ => c.threadKill e t

/-- A doorbell (R94). -/
def doorbell (e : Env) (c : Chip) (t : Nat) (gchk : Bool) (gen : Nat) : Chip :=
  let c := c.faultCmd e t
  if c.staleGen t gchk gen then c.flag .thStat F.ThStat.CMD_STALE
  else if (c.thr t).st = .waiting ∧ (c.thr t).kind = kDesc then c.dwaitRead e t
  else c

/-- A DESC wait's read has returned (R94, R128).
(log 10, DEDUCED) -/
def dwaitDone (c : Chip) (t : Nat) : Chip :=
  match c.dwaitIn.find? fun x => x.1 == t with
  | none => c
  | some x =>
    let c := { c with dwaitIn := c.dwaitIn.erase x }
    let th := c.thr t
    if th.st = .waiting ∧ th.kind = kDesc ∧ th.dptr * 32 = x.2.1 then
      if x.2.2.2 then
        c.faultStored t { FaultInfo.plain cDesc (th.arg % 128) th.pc 1 with dv := true, daddr := x.2.1 }
      else if (Desc.ofLine x.2.1 x.2.2.1).own then c.wake t id
      else c
    else c

/-- A write through the record window (R19, R81, R87): whether it completes with ERR. The state of the thread is judged
before the word; a write of fewer than 8 bytes, none included, reads the word first.
(log 82, DEDUCED; log 91, DESIGN CHOICE) -/
def recordWrite (c : Chip) (t k be : Nat) (w : Word) : Chip × Bool :=
  let th := c.thr t
  if ¬ (th.st = .idle ∨ th.st = .halted ∨ th.st = .fault) then (c.flag .thStat F.ThStat.REC_BUSY, false)
  else
    let r := if be % 256 = 255 then (c, false) else c.readEcc 0 (recordAt t k)
    if r.2 ∨ be % 256 = 0 then r
    else ((r.1.setThr t (th.setWord k (mergeBytes (th.word k) w be))).clearEcc (recordAt t k), false)

/-! Fetches and the instruction buffer (R87, R89, R90) -/

/-- The slots in use by classes 1 to 3, resident or fetching (R90). -/
def bulkSlots (c : Chip) (n : Nat) : Nat := ((c.ndl n).slots.filter fun q => q.2.any fun s => s.live.cls != 0).length

/-- The class whose head thread is fetched next (R90). -/
def fetchClass (c : Chip) (n : Nat) : Option Nat :=
  (List.range 4).find? fun k =>
    queueOf (c.ndl n) k != [] && (k == 0 || decide (c.bulkSlots n + c.fld (.ndlCfg n) F.NdlCfg.RSV0 < 8))

/-- The fetches in flight. -/
def fetches (c : Chip) (n : Nat) : Nat := ((c.ndl n).slots.filter fun q => q.2.any fun s => s.fetching).length

/-- The lowest free slot.
(log 7, DESIGN CHOICE) -/
def freeSlot (c : Chip) (n : Nat) : Option Nat := (List.range 8).find? fun k => (c.slot n k).isNone

/-- A needle starts fetching a thread into a free slot (R90): the thread is RUNNING from here. The queues of a needle held by
PDREQ hold only threads whose suspended transfers it must still finish (13 R282).
(log 7, DESIGN CHOICE) -/
def fetchStart (c : Chip) (n : Nat) : Chip :=
  if c.pwr.phase ≠ .running ∨ ¬ c.takesBack n ∨ ¬ c.pllLocked n ∨ c.npwr n ≠ 0 ∨ c.fetches n ≥ 4 then c
  else match c.freeSlot n, c.fetchClass n with
  | some k, some q =>
    match queueOf (c.ndl n) q with
    | [] => c
    | t :: rest =>
      let nd := c.ndl n
      let c := c.setNdl n { nd with
        queues := nd.queues.set q rest, gaps := Tab.put (0, 0) nd.gaps k (0, 0), sure := nd.sure.filter (· ≠ k) }
      let c := c.setSt t .running
      let s : Slot := { t := t, fetching := true, live := c.thr t, pend := [], sealing := none, dead := false,
                        rot := 0, base := none, grp := none, act := none }
      ((c.setSlot n k (some s)).cntNeedle n 0x01A 1).cntStore 0x130 1
  | _, _ => c

/-- The slot of a needle where a thread is resident. -/
def residentAt (nd : Needle) (t : Nat) : Option Nat :=
  nd.slots.findSome? fun q => if q.2.any fun s => s.t == t && !s.fetching && !s.dead then some q.1 else none

/-- The SPEC bit of a transfer instruction (R131). -/
def isSpec : WInstr → Bool
  | .move h _ | .movec h _ | .fill h _ _ | .compare h _ _ | .expand h _ _ _ _ _ | .reduce h _ _ _ _ _ _ _
  | .pedsub h _ _ _ _ _ => h.spec == 1
  | .patch _ _ _ spec _ _ => spec == 1
  | _ => false

/-- The pattern-memory line of a PC. -/
def lineOf (pc : Nat) : Nat := pc % 65536 / 8

/-- A line of the instruction buffer is used: it is the most recently used of its set (R89). -/
def ibTouch (ib : List Nat) (l : Nat) : List Nat := if ib.contains l then l :: ib.filter (· ≠ l) else ib

/-- A line enters the instruction buffer: 2 ways, 32 sets, least recently used out (R89). -/
def ibInsert (ib : List Nat) (l : Nat) : List Nat :=
  let same := ib.filter fun x => x % 32 == l % 32 && x != l
  let out := same.drop 1
  l :: (ib.filter fun x => x != l && !out.contains x)

/-- A line fill for the thread in a slot (R89, R99): single-bit errors are corrected.
(log 69, DEDUCED) -/
def ibFill (c : Chip) (n k : Nat) : Chip :=
  match c.slot n k with
  | none => c
  | some s =>
    let l := lineOf s.live.pc
    if s.fetching ∨ s.dead ∨ (c.ndl n).ib.contains l ∨ c.npwr n ≠ 0 then c
    else
      let c := (List.range 8).foldl (fun c j =>
        let off := patternAt (l * 8 + j)
        if Tab.get false c.eccCe off then c.noteEcc 1 false off else c) c
      (c.setNdl n { c.ndl n with ib := ibInsert (c.ndl n).ib l }).cntNeedle n 0x019 1

/-! Timed waits (R113, R340) -/

/-- A TIMER wait's deadline (R340).
(log 10, DEDUCED) -/
def timerExpire (c : Chip) (t : Nat) : Chip :=
  let th := c.thr t
  if th.st = .waiting ∧ th.kind = kTimer ∧ deadlineReached 28 th.arg c.timer then c.wake t id else c

/-- A WAITR deadline (R113). -/
def waitrTimeout (c : Chip) (t : Nat) : Chip :=
  let th := c.thr t
  if th.st = .waiting ∧ th.kind = kReq ∧ th.arg / 256 % 2 = 1 ∧ deadlineReached 19 (th.arg / 512) c.timer then
    c.wake t fun th => th.report true
  else c

/-! Needle enable, clock and power (R95, R96, R277) -/

/-- The threads that a needle's becoming RUNNING frees from PARK (R95), in ascending number.
(log 130, DESIGN CHOICE) -/
def unparkNeedle (c : Chip) (n : Nat) : Chip :=
  let ts := (c.threads.filter fun q => q.2.st == .parked && q.2.kind == kPark && q.2.arg / 2 ^ 24 == parkNeedle &&
    (!q.2.afix || q.2.arg % 2 ^ 24 == n)).map (·.1)
  ts.foldl (fun c t => (c.setThr t { c.thr t with kind := kNone, arg := 0 }).makeReady t) c

/-- The threads PARKED for a needle that holds their suspended transfers are placed again (13 R282), in ascending number.
(log 89, DESIGN CHOICE; log 130, DESIGN CHOICE) -/
def unparkHeld (c : Chip) (n : Nat) : Chip :=
  let ts := (c.threads.filter fun q => q.2.st == .parked && q.2.kind == kPark && q.2.arg / 2 ^ 24 == parkNeedle &&
    c.suspendedOn q.1 == some n).map (·.1)
  ts.foldl (fun c t => (c.setThr t { c.thr t with kind := kNone, arg := 0 }).makeReady t) c

/-- The threads in a needle's queues are placed again, class 0 first (R95). -/
def requeue (c : Chip) (n : Nat) : Chip :=
  let nd := c.ndl n
  let ts := nd.queues.flatten
  let c := c.setNdl n { nd with queues := [[], [], [], []] }
  ts.foldl (fun c t => c.makeReady t) c

/-- A needle that no longer fills slots: the queues are placed again and the threads at their boundary leave (R95).
(log 77, DEDUCED) -/
def evict (e : Env) (c : Chip) (n : Nat) : Chip :=
  let c := c.requeue n
  (List.range 8).foldl (fun c k => c.boundary e n k) c

/-- Whether every slot of a needle is empty. -/
def slotsEmpty (c : Chip) (n : Nat) : Bool := (List.range 8).all fun k => (c.slot n k).isNone

/-- A write to DXW_NDLn_CTL.EN (R95, R271). -/
def ndlEnWrite (e : Env) (c : Chip) (n v : Nat) : Chip :=
  let old := c.en (.ndlCtl n) F.NdlCtl.EN
  let new := old.write v true (c.slotsEmpty n)
  let c := c.setF (.ndlCtl n) F.NdlCtl.EN new.code
  if old = .off ∧ new = .running then (if c.needleOn n then c.unparkNeedle n else c)
  else if old = .running ∧ new ≠ .running then c.evict e n
  else c

/-- A needle's stop completes when every slot is empty (R95). -/
def ndlComplete (c : Chip) (n : Nat) : Chip :=
  let old := c.en (.ndlCtl n) F.NdlCtl.EN
  if (old = .stopping ∨ old = .restart) ∧ c.slotsEmpty n then
    let c := c.setF (.ndlCtl n) F.NdlCtl.EN (old.complete true).code
    if old = .restart ∧ c.needleOn n then c.unparkNeedle n else c
  else c

/-- Whether a needle may stop its clock (R96). -/
def ndlIdle (c : Chip) (n : Nat) : Bool :=
  c.slotsEmpty n && (c.ndl n).active.isNone && (c.ndl n).shadow.isNone && rdyq (c.ndl n) == 0

/-- The clock stops after 64 idle cycles (R96). -/
def ndlClockStop (c : Chip) (n : Nat) : Chip :=
  if c.npwr n = 0 ∧ c.ndlIdle n then c.setF (.ndlStat n) F.NdlStat.PWR 1 else c

/-- The suspended transfers that a needle holds. -/
def suspCount (nd : Needle) : Nat := (nd.susp.filter fun q => q.2.isSome).length

/-- A stopped needle that holds nothing is gated after PG_IDLE µs, which empties its instruction buffer (R96, 13 R278). -/
def ndlGate (c : Chip) (n : Nat) : Chip :=
  if c.npwr n = 1 ∧ c.ndlIdle n ∧ c.fld (.ndlCfg n) F.NdlCfg.PG_IDLE ≠ 0 ∧ suspCount (c.ndl n) = 0 then
    (c.setNdl n { c.ndl n with ib := [] }).setF (.ndlStat n) F.NdlStat.PWR 2
  else c

/-- A wake completes, and the needle that has waited longest begins its own (R277). Without a locked PLL it does not complete
(R274). -/
def ndlWakeDone (c : Chip) (n : Nat) : Chip :=
  if c.npwr n ≠ 3 ∨ ¬ c.pllLocked n then c
  else ((c.setF (.ndlStat n) F.NdlStat.PWR 0).cntNeedle n 0x01C 1).startWakes

end Chip

/-- THREAD_START (R83). -/
def execThreadStart (t : Fin 262144) (gchk : Bool) (gen : BitVec 16) (s : State) : Host.Outcome State Fault Refusal :=
  s.chipStep fun e c => whenReady c (·.thCmd e 1 t gchk gen.toNat)
/-- THREAD_HALT (R83). -/
def execThreadHalt (t : Fin 262144) (gchk : Bool) (gen : BitVec 16) (s : State) : Host.Outcome State Fault Refusal :=
  s.chipStep fun e c => whenReady c (·.thCmd e 2 t gchk gen.toNat)
/-- THREAD_RESUME (R84). -/
def execThreadResume (t : Fin 262144) (gchk : Bool) (gen : BitVec 16) (s : State) : Host.Outcome State Fault Refusal :=
  s.chipStep fun e c => whenReady c (·.thCmd e 3 t gchk gen.toNat)
/-- THREAD_KILL (R83). -/
def execThreadKill (t : Fin 262144) (gchk : Bool) (gen : BitVec 16) (s : State) : Host.Outcome State Fault Refusal :=
  s.chipStep fun e c => whenReady c (·.thCmd e 4 t gchk gen.toNat)
/-- THREAD_CMD_BOUNDARY (R85). -/
def execThreadCmdBoundary (t : Fin 262144) (s : State) : Host.Outcome State Fault Refusal :=
  s.coreStep fun e c => match c.findSlot t with
    | some (n, k) => c.boundary e n k
    | none => c.faultCmd e t
/-- RESUME_SEAL_COMPLETE (R84). -/
def execResumeSealComplete (t : Fin 262144) (s : State) : Host.Outcome State Fault Refusal :=
  s.coreStep fun _ c => c.resumeSealed t
/-- THREAD_RECORD_WRITE (R81). -/
def execThreadRecordWrite (t : Fin 262144) (word : Fin 8) (be : BitVec 8) (data : Word) (s : State) :
    Host.Outcome State Fault Refusal :=
  s.chipStep fun _ c => whenReady c fun c => (c.recordWrite t word be.toNat data).1
/-- THREAD_DOORBELL (R94). -/
def execThreadDoorbell (t : Fin 262144) (gchk : Bool) (gen : BitVec 16) (s : State) : Host.Outcome State Fault Refusal :=
  s.chipStep fun e c => whenReady c (·.doorbell e t gchk gen.toNat)
/-- DESC_WAIT_READ_DONE (R94). -/
def execDescWaitReadDone (t : Fin 262144) (s : State) : Host.Outcome State Fault Refusal :=
  s.coreStep fun _ c => c.dwaitDone t
/-- THREAD_FETCH_START (R90). -/
def execThreadFetchStart (n : Fin 128) (s : State) : Host.Outcome State Fault Refusal := s.chipStep fun _ c => c.fetchStart n
/-- IB_LINE_FILL (R89). -/
def execIbLineFill (n : Fin 128) (k : Fin 8) (s : State) : Host.Outcome State Fault Refusal :=
  s.coreStep fun _ c => c.ibFill n k
/-- TIMER_WAIT_EXPIRE (R340). -/
def execTimerWaitExpire (t : Fin 262144) (s : State) : Host.Outcome State Fault Refusal :=
  s.coreStep fun _ c => c.timerExpire t
/-- WAITR_TIMEOUT (R113). -/
def execWaitrTimeout (t : Fin 262144) (s : State) : Host.Outcome State Fault Refusal := s.coreStep fun _ c => c.waitrTimeout t
/-- NEEDLE_ENABLE (R95). -/
def execNeedleEnable (n : Fin 128) (s : State) : Host.Outcome State Fault Refusal :=
  s.chipStep fun e c => whenReady c (·.ndlEnWrite e n 1)
/-- NEEDLE_STOP (R95). -/
def execNeedleStop (n : Fin 128) (s : State) : Host.Outcome State Fault Refusal :=
  s.chipStep fun e c => whenReady c (·.ndlEnWrite e n 0)
/-- NEEDLE_STOP_COMPLETE (R95). -/
def execNeedleStopComplete (n : Fin 128) (s : State) : Host.Outcome State Fault Refusal :=
  s.coreStep fun _ c => c.ndlComplete n
/-- NEEDLE_CLOCK_STOP (R96). -/
def execNeedleClockStop (n : Fin 128) (s : State) : Host.Outcome State Fault Refusal := s.coreStep fun _ c => c.ndlClockStop n
/-- NEEDLE_POWER_GATE (R96). -/
def execNeedlePowerGate (n : Fin 128) (s : State) : Host.Outcome State Fault Refusal := s.coreStep fun _ c => c.ndlGate n
/-- NEEDLE_WAKE_DONE (R277). -/
def execNeedleWakeDone (n : Fin 128) (s : State) : Host.Outcome State Fault Refusal := s.coreStep fun _ c => c.ndlWakeDone n

end Sys2Proof.Machine
end

