-- ==== Sys2Proof/Machine/Issue.lean ====
section
/-! DEFINITION. The issue of an instruction by a needle (04 R88, R94, 05 R98 to R100): which threads are able to issue, which of
them is chosen, what every issue does, and the fault of an instruction. A command of the Worryn instruction set acts only
where the named slot is the one that issues and the word at its PC is that instruction. -/

namespace Sys2Proof.Machine

/-- A transfer or in-flight instruction (R94). -/
def isXfer : WInstr → Bool
  | .move .. | .movec .. | .fill .. | .compare .. | .patch .. | .expand .. | .reduce .. | .pedsub .. => true
  | _ => false

/-- The instructions that wait until the thread's completion-queue entries have emptied (R140). -/
def needsDrained : WInstr → Bool
  | .waitx .. | .waitd .. | .waits .. | .waitr .. | .yield .. | .halt | .post .. | .seal => true
  | .lock _ _ mode _ _ _ => mode == 0
  | _ => false

/-- What an instruction writes after a latency (R74, R122, R144): work registers, and none for the flags F and Z. -/
def lateResults : WInstr → List (Option Nat)
  | .cross wd we mode => if mode = 0 then [some wd, some we] else [some wd, none]
  | .setat .. => [none]
  | .lock wd .. | .unlock wd .. | .sends wd .. | .mark wd .. | .rewind wd .. | .release wd .. | .peek wd .. => [some wd, none]
  | .dset wd _ mode => if mode = 0 then [none] else [some wd, some ((wd + 1) % 8), none]
  | _ => []

/-- Work register i and the one after it, where a pair is read or written. -/
def regPair (i : Nat) : List Nat := [i, (i + 1) % 8]

/-- The work registers of a transfer (R132, R134, R151): its source, its count and its result, `two` where that is a pair. -/
def xferRegs (h : XHead) (two : Bool) : List Nat :=
  (match h.mode with | 1 => List.range 8 | 2 => regPair h.ws | _ => []) ++ (if h.rc = 1 then [h.wc] else []) ++
    if two then regPair h.wd else [h.wd]

/-- The work registers that an instruction reads or writes (R69, R104, R106, R108, R112, R114 to R121, R132, R144, R149). -/
def regsOf : WInstr → List Nat
  | .nop | .brcc .. | .halt | .waitr .. | .hdr .. | .seal => []
  | .jmp ws mode _ | .yield ws mode _ => if mode = 1 then [ws] else []
  | .call ws mode _ => 7 :: if mode = 1 then [ws] else []
  | .ret => [7]
  | .waitx ws _ rs _ => if rs = 1 then [ws] else []
  | .waitd wd ws _ rs _ => wd :: if rs = 1 then [ws] else []
  | .waits ws mode _ => if mode = 0 then [ws] else []
  | .ldi wd _ | .peek wd .. | .post wd _ => [wd]
  | .alu op wd ws mode wt _ => ws :: (if mode % 2 = 0 then [wt] else []) ++ if op = .cmpi then [] else [wd]
  | .mark wd ws mode _ => wd :: if mode = 0 then [] else [ws]
  | .rewind wd ws _ | .release wd ws => [wd, ws]
  | .move h _ | .movec h _ => xferRegs h false
  | .dset wd ws mode => if mode = 0 then regPair ws else regPair wd
  | .fill h _ _ => (if h.mode = 0 then regPair h.ws else []) ++ (if h.rc = 1 then [h.wc] else []) ++ [h.wd]
  | .compare h _ _ | .expand h .. | .pedsub h .. => xferRegs h true
  | .patch wd ws mode _ _ wp => (if mode = 2 then regPair ws else []) ++ regPair wp ++ [wd]
  | .reduce h rop _ _ wq _ _ _ => wq :: xferRegs h (decide (rop < 2))
  | .cross wd we mode => if mode = 0 then [wd, we] else [wd]
  | .setat wv ws _ rs _ _ => regPair wv ++ if rs = 1 then [ws] else []
  | .lock wd ws _ rs _ _ | .unlock wd ws rs _ => wd :: if rs = 1 then [ws] else []
  | .sends wd ws _ _ => wd :: regPair ws

/-- Whether an instruction reads or writes F or Z (R102, R104). -/
def usesFlags : WInstr → Bool
  | .nop | .hdr .. | .jmp .. | .call .. | .ret | .ldi .. | .halt | .yield .. | .seal => false
  | .brcc cc _ => !(decide (2 ≤ cc) && decide (cc ≤ 5))
  | .cross _ _ mode => mode != 0
  | _ => true

/-- Whether an instruction reads or writes something: a work register, or none for the flags F and Z. -/
def touches (i : WInstr) : Option Nat → Bool
  | some r => (regsOf i).contains r
  | none => usesFlags i

/-- What a thread's instructions may still have to write once i has issued: what i needs has landed, and what i writes late
is to come (R102). -/
def nextPend (l : List (Option Nat)) (i : WInstr) : List (Option Nat) := (l.filter fun r => !touches i r) ++ lateResults i

/-- What a needle reads at a PC (R97 to R99). -/
inductive Fetched where
  | instr (i : WInstr)
  | illegal
  | bad
  deriving DecidableEq, Repr

/-- The word at a PC: an instruction, one that R98 refuses, or one with an uncorrectable error.
(log 6, DEDUCED) -/
def fetched (e : Env) (c : Chip) (pc : Nat) : Fetched :=
  if Tab.get false c.eccUe (patternAt pc) then .bad
  else match WInstr.decode (memWord e.mem (patternAt pc)) with
  | some i => .instr i
  | none => .illegal

namespace Chip

/-- Whether a YIELD keeps its slot (R91, R105): no delay, and no thread that would take the slot. -/
def yieldStays (c : Chip) (n k ws mode delay : Nat) : Bool :=
  (if mode = 0 then delay else ((c.live n k).reg ws).toNat % 2 ^ 24) == 0 &&
    match (c.setSlot n k none).fetchClass n with
    | some q => decide ((c.live n k).cls < q)
    | none => true

/-- Whether an instruction may issue while its thread's results `l` are pending (R88, R102): it reads and writes none of
them. HALT waits for every result (R105), and so does a YIELD that would leave its slot.
(log 92, DESIGN CHOICE) -/
def sparesResult (c : Chip) (n k : Nat) (l : List (Option Nat)) (i : WInstr) : Bool :=
  l.isEmpty || ((l.all fun r => !touches i r) &&
    match i with
    | .halt => false
    | .yield ws mode delay => c.yieldStays n k ws mode delay
    | _ => true)

/-- Whether a REWIND may leave its slot: the spool it names is deep (R71, R140).
(log 31, DEDUCED) -/
def mayLeave (c : Chip) (th : Thread) : WInstr → Bool
  | .rewind _ ws _ => c.spMode ((th.reg ws).toNat / 2 ^ 16 % 256) == 2
  | i => needsDrained i

/-- Whether a needle may issue at all (R88, R95, R96, R274). -/
def ndlIssues (c : Chip) (n : Nat) : Bool :=
  c.pwr.phase == .running && c.npwr n == 0 && c.pllLocked n && c.needleOn n

/-- Whether the thread in a slot is able to issue the word at its PC (R88, R93, R94, R140), but for the cycles of a branch or
of a result that lands after a fixed latency. Until a SEAL completes the thread issues nothing (R143). A thread whose HALT or
KILL waits for a pending result goes on issuing what the result does not hold (R85).
(log 75, DEDUCED; log 92, DESIGN CHOICE; log 120, DESIGN CHOICE) -/
def ableSlot (e : Env) (c : Chip) (n k : Nat) : Bool :=
  match c.slot n k with
  | none => false
  | some s =>
    let nd := c.ndl n
    let mine (x : Option Xfer) : Bool := x.any fun x => x.t == s.t
    !s.fetching && !s.dead && s.sealing.isNone && !mine nd.active && !mine nd.shadow && (c.suspendedOn s.t).isNone &&
      nd.ib.contains (lineOf s.live.pc) && (s.live.cmd.isNone || c.busySlot n k) &&
      match fetched e c s.live.pc with
      | .instr i =>
        (s.act.all fun a => c.sparesResult n k (pendingRes a) i) && (!c.mayLeave s.live i || !hasCq nd s.t) &&
          (!isXfer i || nd.active.isNone || nd.shadow.isNone)
      | _ => true

/-- Whether that thread is able for certain, but for the cycles of a branch: its next instruction needs nothing that may still be
to land. -/
def surelyAble (e : Env) (c : Chip) (n k : Nat) : Bool :=
  c.ableSlot e n k && (c.slot n k).any fun s =>
    match fetched e c s.live.pc with
    | .instr i => c.sparesResult n k s.pend i
    | _ => true

/-- The least and the most needle cycles that may pass, after the last issue of needle n, before the thread in slot k is past its
branch (R88). -/
def gapOf (c : Chip) (n k : Nat) : Nat × Nat := Tab.get (0, 0) (c.ndl n).gaps k

/-- The place of a slot in the round robin that starts after the slot that issued last. -/
def slotKey (last k : Nat) : Nat := (k + 8 - (last + 1) % 8) % 8

/-- Whether the thread in slot j goes before the one in slot k where both may issue: the lower CLASS, then the round robin. -/
def goesBefore (c : Chip) (n j k : Nat) : Bool :=
  let last := (c.ndl n).lastSlot
  let cls (j : Nat) : Nat := (c.live n j).cls
  decide (cls j < cls k) || (cls j == cls k && decide (slotKey last j < slotKey last k))

/-- Whether the thread in slot k is the one that issues (R88). It issues once it is past its branch, in the first needle cycle
that this allows: no thread that is certain to be able by then goes before it, and none was certain to be able since the last
issue and past its own branch in an earlier cycle, in which it would have issued.
(log 6, DEDUCED) -/
def issues (e : Env) (c : Chip) (n k : Nat) : Bool :=
  let w := (c.gapOf n k).1
  c.ndlIssues n && c.ableSlot e n k &&
    (List.range 8).all fun j =>
      let m := (c.gapOf n j).2
      !(c.surelyAble e n j && ((c.goesBefore n j k && decide (m ≤ w)) || ((c.ndl n).sure.contains j && decide (m < w))))

/-- The cycles that an issue from slot k lets pass: those that the thread had to wait for its own branch and that of the issue at
least; at most those after which a slot that was able for certain would have issued instead of it.
(log 6, DEDUCED) -/
def passCycles (e : Env) (c : Chip) (n k : Nat) : Chip :=
  let nd := c.ndl n
  let least := (c.gapOf n k).1 + 1
  let ends := (nd.sure.filter (c.surelyAble e n)).map fun j => (c.gapOf n j).2 + 1
  let most : Option Nat := ends.foldl (fun m v => some (match m with | some u => min u v | none => v)) none
  let on (g : Nat × Nat) : Nat × Nat := (match most with | some u => g.1 - u | none => 0, g.2 - least)
  c.setNdl n { nd with gaps := (List.range 8).foldl (fun t j =>
    Tab.put (0, 0) t j (if j = k then (0, 0) else on (Tab.get (0, 0) nd.gaps j))) [] }

/-- After an issue the needle holds which slots are able for certain, but for their branches.
(log 6, DEDUCED) -/
def noteSure (e : Env) (c : Chip) (n : Nat) : Chip :=
  c.setNdl n { c.ndl n with sure := (List.range 8).filter (c.surelyAble e n) }

/-- The next value of a needle's LFSR: polynomial x^24 + x^23 + x^22 + x^17 + 1 (R335).
(log 62, PRESUMED) -/
def lfsrNext (v : Nat) : Nat :=
  let fb := (v / 2 ^ 23 + v / 2 ^ 22 + v / 2 ^ 21 + v / 2 ^ 16) % 2
  (2 * v + fb) % 2 ^ 24

/-- The sampling tag of an issue (R335): words 0 and 1 of the record, its flags, and the transfer to follow. -/
def sampleTag (c : Chip) (n : Nat) (t pc op : Nat) (th : Thread) : Chip :=
  if c.en .isCfg F.IsCfg.EN ≠ .running then c
  else
    let nd := c.ndl n
    let v := lfsrNext nd.lfsr
    let tagged := decide (v % 2 ^ c.fld .isCfg F.IsCfg.K = 0) && decide (c.fld .isCfg F.IsCfg.CLSMASK / 2 ^ th.cls % 2 = 1)
    if tagged then
      if nd.follow.isSome then (c.setNdl n { nd with lfsr := v }).tally .isStat F.IsStat.SKIP 1
      else
        let w0 := c.ctr % 2 ^ 24 * 2 ^ 40 + nd.ncyc % 2 ^ 32
        let w1 := op * 2 ^ 56 + n * 2 ^ 48 + pc * 2 ^ 32 + th.cls * 2 ^ 18 + t
        c.setNdl n { nd with lfsr := v, follow := some [w0, w1] }
    else c.setNdl n { nd with lfsr := v }

/-- What a tagged issue left behind it (R336): bit 3 FAULTED, bit 2 LEFT, bit 0 a transfer in the shadow set, and the transfer that
the instruction started, by its number plus 1. -/
def sampleMark (c : Chip) (n t : Nat) : Chip :=
  let nd := c.ndl n
  match nd.follow with
  | some [w0, w1] =>
    let left := (residentAt nd t).isNone
    let flt := left && (c.thr t).st == .fault
    let mine (x : Xfer) : Bool := x.t == t
    let x := (nd.active.toList ++ nd.shadow.toList).find? mine
    let f := b2n flt * 8 + b2n left * 4 + b2n (nd.shadow.any mine)
    c.setNdl n { nd with follow := some [w0, w1, f, match x with | some x => x.id + 1 | none => 0] }
  | _ => c

/-- What every issue does: the cycles that pass with it, the counts, the slot that issued last, the use of the line, the sampling
tag, the results that may be to come, and the advance of PC (R88, R89, R100). -/
def issued (e : Env) (c : Chip) (n k op : Nat) (i : Option WInstr) : Chip :=
  match c.slot n k with
  | none => c
  | some s =>
    let c := (c.passCycles e n k).countCycle (4 * n) 4 [(0x011, 1), (0x012 + s.live.cls, 1)]
    let c := c.sampleTag n s.t s.live.pc op s.live
    let c := c.setNdl n { c.ndl n with lastSlot := k, ib := ibTouch (c.ndl n).ib (lineOf s.live.pc) }
    let pend := match i with | some i => nextPend s.pend i | none => s.pend
    c.setSlot n k (some { s with pend := pend, live := { s.live with pc := (s.live.pc + 1) % 2 ^ 16 } })

/-- The instruction that issued faults: PC keeps its address and nothing else changes (R98). -/
def faultIssue (c : Chip) (n k : Nat) (i : FaultInfo) : Chip :=
  (c.mapLive n k fun th => { th with pc := i.pc }).faultSlot n k i

/-- The address of the instruction that issued from a slot whose PC has advanced. -/
def issuePc (c : Chip) (n k : Nat) : Nat := ((c.live n k).pc + 2 ^ 16 - 1) % 2 ^ 16

/-- A thread leaves its slot for a wait and is registered with its source (R92, R109). -/
def leaveWait (e : Env) (c : Chip) (n k kind arg : Nat) (f : Thread → Thread) : Chip :=
  match c.slot n k with
  | none => c
  | some s => (c.leave n k fun th => { f th with kind := kind, arg := arg, st := .waiting }).registerWait e s.t

/-- The result code of an instruction that reports it: wd, F and Z. -/
def resultCode (c : Chip) (n k wd code : Nat) : Chip :=
  c.mapLive n k fun th => (th.setReg wd (BitVec.ofNat 32 code)).report (code ≠ 0)

/-- The flags of an instruction that reports success or failure. -/
def resultFlag (c : Chip) (n k : Nat) (failed : Bool) : Chip := c.mapLive n k fun th => th.report failed

/-- A branch that is taken (R88, R104): the thread is unable to issue in the 2 cycles after it. -/
def branch (c : Chip) (n k target : Nat) : Chip :=
  let c := c.setNdl n { c.ndl n with gaps := Tab.put (0, 0) (c.ndl n).gaps k (2, 2) }
  c.mapLive n k fun th => { th with pc := target % 2 ^ 16 }

/-- What follows every issue, whose thread was t: the rest of its sampling tag, and the slots that are able for certain. -/
def afterIssue (e : Env) (c : Chip) (n t : Nat) : Chip := (c.sampleMark n t).noteSure e n

end Chip

/-- The issue of one instruction from slot k of needle n: `f` is the meaning of the instruction the command names, none for
every other instruction. The command changes nothing where the slot does not issue, or holds another instruction.
(log 5, DESIGN CHOICE; log 6, DEDUCED) -/
def State.issue (s : State) (n k : Nat) (f : Env → Chip → WInstr → Option Chip) : Host.Outcome State Fault Refusal :=
  s.chipStep fun e c =>
    if c.issues e n k then
      match fetched e c (c.live n k).pc with
      | .instr i =>
        match f e (c.issued e n k (i.code / 2 ^ 56) (some i)) i with
        | some d => d.afterIssue e n (((c.slot n k).map (·.t)).getD 0)
        | none => c
      | _ => c
    else c

end Sys2Proof.Machine
end

