-- ==== Sys2Proof/Machine/Program.lean ====
section
/-! DEFINITION. The control and ALU instructions of the Worryn set (05 R98 to R107). -/

namespace Sys2Proof.Machine

namespace Chip

/-- YIELD without a delay (R91): the thread leaves where a thread of equal or lower class number would take its slot.
The limit of 4 fetches in flight does not count here: a slot that is free is refilled once a fetch ends. Other free slots of
the needle do not count either: the thread's own slot is judged as if it were the only one.
(log 93, DESIGN CHOICE) -/
def yieldNow (c : Chip) (n k : Nat) : Chip :=
  match c.slot n k with
  | none => c
  | some s =>
    match (c.setSlot n k none).fetchClass n with
    | some q => if q ≤ s.live.cls then (c.leave n k id).makeReady s.t else c
    | none => c

/-- YIELD (R105). -/
def doYield (e : Env) (c : Chip) (n k ws mode delay : Nat) : Chip :=
  let d := if mode = 0 then delay else ((c.live n k).reg ws).toNat % 2 ^ 24
  if d = 0 then c.yieldNow n k else c.leaveWait e n k kTimer ((c.timer + d) % 2 ^ 28) id

/-- HALT (R105). -/
def doHalt (c : Chip) (n k : Nat) : Chip :=
  c.leave n k fun th => { th with st := .halted, kind := kNone, arg := 0, cmd := none }

/-- HDR (R103): ISA 1 and 2 execute as NOP. -/
def doHdr (c : Chip) (n k isa : Nat) : Chip :=
  if isa = 1 ∨ isa = 2 then c else c.faultIssue n k (FaultInfo.plain cIsaver n (c.issuePc n k) 0)

/-- The target of JMP and CALL (R104). -/
def jumpTarget (th : Thread) (ws mode target : Nat) : Nat := if mode = 0 then target else (th.reg ws).toNat % 2 ^ 16

/-- An ALU instruction (R106, R107): CMPI writes flags only. -/
def doAlu (c : Chip) (n k : Nat) (op : AluOp) (wd ws mode wt imm : Nat) : Chip :=
  c.mapLive n k fun th =>
    let o := aluOut op (decide (2 ≤ mode)) (th.reg ws) (aluB th mode wt imm)
    (if op = .cmpi then th else th.setReg wd o.res).aluFlags o

/-- A word that cannot run (R98, R99): OPCODE, or ECC with bit 15 of DETAIL for pattern memory. An uncorrectable instruction
is counted each time a thread reaches it, and not at the line fill.
(log 94, DESIGN CHOICE) -/
def doIllegal (e : Env) (c : Chip) (n k : Nat) : Chip :=
  if c.issues e n k then
    let pc := (c.live n k).pc
    match fetched e c pc with
    | .instr _ => c
    | .illegal => ((c.issued e n k ((memWord e.mem (patternAt pc)).toNat / 2 ^ 56) none).faultIssue n k
        (FaultInfo.plain cOpcode n pc 0)).afterIssue e n (((c.slot n k).map (·.t)).getD 0)
    | .bad => (((c.passCycles e n k).noteEcc 1 true (patternAt pc)).faultIssue n k
        (FaultInfo.plain cEcc n pc (2 ^ 15))).noteSure e n
  else c

/-- The ALU meaning of one operation, none for every other instruction. -/
def aluIf (op : AluOp) (n k : Nat) (_ : Env) (c : Chip) : WInstr → Option Chip
  | .alu o wd ws mode wt imm => if o = op then some (c.doAlu n k op wd ws mode wt imm) else none
  | _ => none

end Chip

/-- NOP (R122). -/
def execNop (n : Fin 128) (k : Fin 8) (s : State) : Host.Outcome State Fault Refusal :=
  s.issue n k fun _ c i => match i with
    | .nop => some c
    | _ => none
/-- JMP (R104). -/
def execJmp (n : Fin 128) (k : Fin 8) (s : State) : Host.Outcome State Fault Refusal :=
  s.issue n k fun _ c i => match i with
    | .jmp ws mode target => some (c.branch n k (Chip.jumpTarget (c.live n k) ws mode target))
    | _ => none
/-- BRCC (R104). -/
def execBrcc (n : Fin 128) (k : Fin 8) (s : State) : Host.Outcome State Fault Refusal :=
  s.issue n k fun _ c i => match i with
    | .brcc cc target => some (if condition cc (c.live n k) then c.branch n k target else c)
    | _ => none
/-- CALL (R104): w7 receives PC + 1. -/
def execCall (n : Fin 128) (k : Fin 8) (s : State) : Host.Outcome State Fault Refusal :=
  s.issue n k fun _ c i => match i with
    | .call ws mode target =>
      let t := Chip.jumpTarget (c.live n k) ws mode target
      some ((c.mapLive n k fun th => th.setReg 7 (BitVec.ofNat 32 th.pc)).branch n k t)
    | _ => none
/-- RET (R104). -/
def execRet (n : Fin 128) (k : Fin 8) (s : State) : Host.Outcome State Fault Refusal :=
  s.issue n k fun _ c i => match i with
    | .ret => some (c.branch n k (((c.live n k).reg 7).toNat % 2 ^ 16))
    | _ => none
/-- HALT (R105). -/
def execHalt (n : Fin 128) (k : Fin 8) (s : State) : Host.Outcome State Fault Refusal :=
  s.issue n k fun _ c i => match i with
    | .halt => some (c.doHalt n k)
    | _ => none
/-- YIELD (R91, R105). -/
def execYield (n : Fin 128) (k : Fin 8) (s : State) : Host.Outcome State Fault Refusal :=
  s.issue n k fun e c i => match i with
    | .yield ws mode delay => some (c.doYield e n k ws mode delay)
    | _ => none
/-- HDR (R103). -/
def execHdr (n : Fin 128) (k : Fin 8) (s : State) : Host.Outcome State Fault Refusal :=
  s.issue n k fun _ c i => match i with
    | .hdr isa _ => some (c.doHdr n k isa)
    | _ => none
/-- ILLEGAL_INSTRUCTION (R98, R99). -/
def execIllegalInstruction (n : Fin 128) (k : Fin 8) (s : State) : Host.Outcome State Fault Refusal :=
  s.chipStep fun e c => c.doIllegal e n k
/-- LDI (R106). -/
def execLdi (n : Fin 128) (k : Fin 8) (s : State) : Host.Outcome State Fault Refusal :=
  s.issue n k fun _ c i => match i with
    | .ldi wd imm => some (c.mapLive n k fun th => th.setReg wd (BitVec.ofNat 32 imm))
    | _ => none
/-- ADD (R107). -/
def execAdd (n : Fin 128) (k : Fin 8) (s : State) : Host.Outcome State Fault Refusal := s.issue n k (Chip.aluIf .add n k)
/-- SUB (R107). -/
def execSub (n : Fin 128) (k : Fin 8) (s : State) : Host.Outcome State Fault Refusal := s.issue n k (Chip.aluIf .sub n k)
/-- AND (R107). -/
def execAnd (n : Fin 128) (k : Fin 8) (s : State) : Host.Outcome State Fault Refusal := s.issue n k (Chip.aluIf .and n k)
/-- OR (R107). -/
def execOr (n : Fin 128) (k : Fin 8) (s : State) : Host.Outcome State Fault Refusal := s.issue n k (Chip.aluIf .or n k)
/-- XOR (R107). -/
def execXor (n : Fin 128) (k : Fin 8) (s : State) : Host.Outcome State Fault Refusal := s.issue n k (Chip.aluIf .xor n k)
/-- SHL (R107). -/
def execShl (n : Fin 128) (k : Fin 8) (s : State) : Host.Outcome State Fault Refusal := s.issue n k (Chip.aluIf .shl n k)
/-- SHR (R107). -/
def execShr (n : Fin 128) (k : Fin 8) (s : State) : Host.Outcome State Fault Refusal := s.issue n k (Chip.aluIf .shr n k)
/-- CMPI (R107). -/
def execCmpi (n : Fin 128) (k : Fin 8) (s : State) : Host.Outcome State Fault Refusal := s.issue n k (Chip.aluIf .cmpi n k)

end Sys2Proof.Machine
end

