-- ==== Sys2Proof/Machine/Waits.lean ====
section
/-! DEFINITION. The wait, crossing, lock and Seam instructions of the Worryn set (05 R108 to R121) and the commands on local
locks. -/

namespace Sys2Proof.Machine

namespace Chip

/-- WAITX (R110). -/
def doWaitx (e : Env) (c : Chip) (n k ws mode rs imm : Nat) : Chip :=
  match crossingOperand (c.live n k) c.olen c.ctr ws mode rs imm with
  | none => c.resultFlag n k true
  | some t =>
    if waitxTooFar t c.ctr then c.resultFlag n k true
    else if c.reached t then c.mapLive n k fun th => { th with bv := true, bxing := t % 2 ^ 24 }.report false
    else c.leaveWait e n k kXing (t % 2 ^ 28) id

/-- WAITD (R111, R190). -/
def doWaitd (e : Env) (c : Chip) (n k wd ws mode rs imm : Nat) : Chip :=
  match crossingOperand (c.live n k) c.olen c.ctr ws mode rs imm with
  | none => c.resultFlag n k true
  | some t =>
    match c.decJudge t with
    | some (w, f) => c.mapLive n k fun th => (th.setReg wd (BitVec.ofNat 32 w)).report f
    | none => c.leaveWait e n k kDec (t % 2 ^ 24) fun th => { th with retReg := wd }

/-- The position that a WAITS names (R112): bits 31:0 from ws, nearest WP; the distance from WP as a signed number. -/
def waitsPos (c : Chip) (th : Thread) (m ws : Nat) : Nat × Int :=
  let d := signed 32 (unsigned 32 (((th.reg ws).toNat : Int) - c.wp m))
  (unsigned 48 ((c.wp m : Int) + d), d)

/-- WAITS (R112, R63). -/
def doWaits (e : Env) (c : Chip) (n k ws mode m : Nat) : Chip :=
  if c.spEn m = .off then c.resultFlag n k true
  else if mode = 1 then c.leaveWait e n k kSpool (m * 2 ^ 20 + c.wp m % 2 ^ 20) id
  else
    let p := c.waitsPos (c.live n k) m ws
    if p.2.natAbs ≥ 2 ^ 19 then c.resultFlag n k true
    else if p.2 < 0 then c.resultFlag n k false
    else c.leaveWait e n k kSpool (m * 2 ^ 20 + p.1 % 2 ^ 20) id

/-- WAITR (R113). -/
def doWaitr (e : Env) (c : Chip) (n k line tmo : Nat) : Chip :=
  if ¬ c.bit (.rlCfg line) F.RlCfg.EN then c.resultFlag n k true
  else c.leaveWait e n k kReq (line + (if tmo = 0 then 0 else 2 ^ 8) + (c.timer + tmo) % 2 ^ 19 * 2 ^ 9) id

/-- CROSS (R114). -/
def doCross (c : Chip) (n k wd we mode : Nat) : Chip :=
  c.mapLive n k fun th =>
    if mode = 0 then (th.setReg we (BitVec.ofNat 32 (c.ctr / 2 ^ 32))).setReg wd (BitVec.ofNat 32 c.ctr)
    else (th.setReg wd (BitVec.ofNat 32 th.bxing)).report (!th.bv)

/-- Whether a domain may SETAT to an offset (R262).
(log 30, DEDUCED) -/
def setatAllowed (p : Prot) (d off : Nat) : Bool :=
  let map := decide (0x800000 ≤ off) && decide (off ≤ 0x8FFFF8)
  match fget (p.rd (.pdCfg d)) F.PdCfg.SETAT with
  | 1 => map
  | 2 => map || (decide (off ≤ 0x3FFFF8) && off / 0x10000 != 3 && off / 0x10000 != 6)
  | _ => false

/-- SETAT (R115, R34, R262).
(log 30, DEDUCED) -/
def doSetat (e : Env) (c : Chip) (n k wv ws mode rs off imm : Nat) : Chip :=
  let th := c.live n k
  if ¬ setatAllowed e.prot th.pd (off * 8) then
    c.faultIssue n k (FaultInfo.plain cProt n (c.issuePc n k) (0xFF00 + 5))
  else match crossingOperand th c.olen c.ctr ws mode rs imm with
  | none => c.resultFlag n k true
  | some t =>
    let r := c.setatAccept t (off * 8) (th.pair wv)
    r.1.resultFlag n k r.2

/-- LOCK or UNLOCK of a ring lock away from the reference: the request is sent, and the result is pending until LOCK_RSP
(R248). -/
def askRing (c : Chip) (n k wd lock lease : Nat) (isUnlock : Bool) : Chip :=
  match c.slot n k with
  | none => c
  | some s =>
    let act : Act := { kind := if isUnlock then .lockUnlock else .lockTry, wd := wd, pc := c.issuePc n k, descs := [],
                       fetch := none, fetching := false, redo := false, go := false, arg := lock }
    let c := c.setSlot n k (some { s with act := some act })
    let ask : LockAsk := { t := s.t, lock := lock, seq := c.seam.seq, isTry := !isUnlock, isUnlock := isUnlock, lapsed := false }
    (c.noteAsk ask).sendLockReq lock s.t (!isUnlock) isUnlock lease

/-- LOCK (R117). -/
def doLock (e : Env) (c : Chip) (n k wd ws mode rs lease lockno : Nat) : Chip :=
  let th := c.live n k
  let l := lockNumber th ws rs lockno
  let t := ((c.slot n k).map (·.t)).getD 0
  if ¬ isLocal l ∧ ¬ isRing l then c.resultCode n k wd 4
  else if isRing l ∧ ¬ c.inService then c.resultCode n k wd 5
  else if mode = 0 then c.leaveWait e n k kLock l fun th => { th with retReg := wd, lease := lease }
  else if isRing l ∧ ¬ c.isRef then c.askRing n k wd l lease false
  else
    let r := c.lockTake l (c.ownerOf l t) lease
    r.1.resultCode n k wd r.2

/-- UNLOCK (R118). -/
def doUnlock (c : Chip) (n k wd ws rs lockno : Nat) : Chip :=
  let th := c.live n k
  let l := lockNumber th ws rs lockno
  let t := ((c.slot n k).map (·.t)).getD 0
  if ¬ isLocal l ∧ ¬ isRing l then c.resultCode n k wd 4
  else if isRing l ∧ ¬ c.inService then c.resultCode n k wd 5
  else if isRing l ∧ ¬ c.isRef then c.askRing n k wd l 0 true
  else
    let r := c.lockFree l (c.ownerOf l t)
    r.1.resultCode n k wd r.2

/-- Whether the node is a root (R239, R251). -/
def isRoot (c : Chip) : Bool := c.bit .seamCfg F.SeamCfg.ROOT

/-- Whether a thread queued a message. -/
def fromThread : MsgFrom → Bool
  | .thread _ => true
  | _ => false

/-- The result code of SENDS (R121, R251): the first that applies in the order BADTYPE, NORING, VERSION, QFULL. -/
def sendsCode (c : Chip) (type : Nat) : Nat :=
  let root := type = 0x11 ∨ type = 0x12
  if ¬ (type = 0x50 ∨ type = 0x30 ∨ type = 0x31 ∨ (root ∧ c.isRoot)) then 3
  else if ¬ c.inService then 2
  else if type = 0x12 ∧ c.fld .seamRing F.SeamRing.VER < 3 then 4
  else if (c.seam.tx.filter fun m => fromThread m.orig).length ≥ 32 then 1
  else 0

/-- SENDS (R121): a DEST equal to the node's own ID sends a broadcast (R251); DECISION and HINT are broadcast into the arc
of the root (R235).
(log 76, DEDUCED) -/
def doSends (c : Chip) (n k wd ws type dest : Nat) : Chip :=
  let code := c.sendsCode type
  let c := if code = 0 then
      let root := type = 0x11 ∨ type = 0x12
      c.sendMsg (.thread (((c.slot n k).map (·.t)).getD 0)) type dest (decide (dest = c.nodeId ∨ root))
        (if root then c.fld .seamCfg F.SeamCfg.ROOTIDX else 0) none [(c.live n k).pair ws]
    else c
  c.resultCode n k wd code

/-- BREAK of DXW_LK_CMD (R119). -/
def lkBreak (c : Chip) (l : Nat) : Chip := c.lockBreak l false

/-- CLEAR of DXW_LK_CMD: a BROKEN lock with no waiter becomes FREE. -/
def lkClear (c : Chip) (l : Nat) : Chip :=
  if (c.lockAt l).st = .broken ∧ c.lockWaiters l = [] then c.setLock l Lock.free else c

end Chip

/-- WAITX (R110). -/
def execWaitx (n : Fin 128) (k : Fin 8) (s : State) : Host.Outcome State Fault Refusal :=
  s.issue n k fun e c i => match i with
    | .waitx ws mode rs imm => some (c.doWaitx e n k ws mode rs imm)
    | _ => none
/-- WAITD (R111). -/
def execWaitd (n : Fin 128) (k : Fin 8) (s : State) : Host.Outcome State Fault Refusal :=
  s.issue n k fun e c i => match i with
    | .waitd wd ws mode rs imm => some (c.doWaitd e n k wd ws mode rs imm)
    | _ => none
/-- WAITS (R112). -/
def execWaits (n : Fin 128) (k : Fin 8) (s : State) : Host.Outcome State Fault Refusal :=
  s.issue n k fun e c i => match i with
    | .waits ws mode spool => some (c.doWaits e n k ws mode spool)
    | _ => none
/-- WAITR (R113). -/
def execWaitr (n : Fin 128) (k : Fin 8) (s : State) : Host.Outcome State Fault Refusal :=
  s.issue n k fun e c i => match i with
    | .waitr line tmo => some (c.doWaitr e n k line tmo)
    | _ => none
/-- CROSS (R114). -/
def execCross (n : Fin 128) (k : Fin 8) (s : State) : Host.Outcome State Fault Refusal :=
  s.issue n k fun _ c i => match i with
    | .cross wd we mode => some (c.doCross n k wd we mode)
    | _ => none
/-- SETAT (R115). -/
def execSetat (n : Fin 128) (k : Fin 8) (s : State) : Host.Outcome State Fault Refusal :=
  s.issue n k fun e c i => match i with
    | .setat wv ws mode rs off imm => some (c.doSetat e n k wv ws mode rs off imm)
    | _ => none
/-- LOCK (R117). -/
def execLock (n : Fin 128) (k : Fin 8) (s : State) : Host.Outcome State Fault Refusal :=
  s.issue n k fun e c i => match i with
    | .lock wd ws mode rs lease lockno => some (c.doLock e n k wd ws mode rs lease lockno)
    | _ => none
/-- UNLOCK (R118). -/
def execUnlock (n : Fin 128) (k : Fin 8) (s : State) : Host.Outcome State Fault Refusal :=
  s.issue n k fun _ c i => match i with
    | .unlock wd ws rs lockno => some (c.doUnlock n k wd ws rs lockno)
    | _ => none
/-- SENDS (R121). -/
def execSends (n : Fin 128) (k : Fin 8) (s : State) : Host.Outcome State Fault Refusal :=
  s.issue n k fun _ c i => match i with
    | .sends wd ws type dest => some (c.doSends n k wd ws type dest)
    | _ => none
/-- LOCK_BREAK (R119). -/
def execLockBreak (lock : Fin 1024) (s : State) : Host.Outcome State Fault Refusal :=
  s.chipStep fun _ c => whenReady c (·.lkBreak lock)
/-- LOCK_CLEAR (R119). -/
def execLockClear (lock : Fin 1024) (s : State) : Host.Outcome State Fault Refusal :=
  s.chipStep fun _ c => whenReady c (·.lkClear lock)

end Sys2Proof.Machine
end

