-- ==== Sys2Proof/Machine/Cursor.lean ====
section
/-! DEFINITION. The spool instructions of the Worryn set: MARK, REWIND, RELEASE and PEEK (03 R69 to R73). -/

namespace Sys2Proof.Machine

namespace Chip

/-- The position that a MARK names (R70); none where no packet or position matches. -/
def markPos (c : Chip) (th : Thread) (m ws mode : Nat) : Option Nat :=
  match mode with
  | 0 => some (c.wp m)
  | 1 => ((c.spool m).index.find? fun x => x.1 == (th.reg ws).toNat % 2 ^ 24).map (·.2)
  | _ =>
    let f := c.fp m
    let p := (f + unsigned 32 (((th.reg ws).toNat : Int) - f)) % 2 ^ 48
    if posDiff p (c.wp m) ≤ 0 then some p else none

/-- The queue slots that hold no entry.
(log 8, DESIGN CHOICE) -/
def freeMarks (s : Spool) : List Nat := (List.range 512).filter fun k => !s.q.any fun x => x.slot == k

/-- MARK (R70): the first failure in the order DISABLED, NOTFOUND, ORDER, FULL. The queue slot of a new entry is the
pick-th free one: the manual names none.
(log 8, DESIGN CHOICE; log 32, DEDUCED; log 33, DEDUCED) -/
def doMark (c : Chip) (n k pick wd ws mode m : Nat) : Chip :=
  let th := c.live n k
  let c := c.cntSpool m 0x0E3 1
  let s := c.spool m
  let fail (code : Nat) : Chip := c.mapLive n k fun th => (th.setReg wd (BitVec.ofNat 32 (0x80000000 + code))).report true
  if c.spEn m ≠ .running then fail 6
  else match c.markPos th m ws mode with
  | none => fail 3
  | some p =>
    if s.newest.any fun q => decide (posDiff p q < 0) then fail 5
    else
      let free := freeMarks s
      match free[pick % free.length]? with
      | none => fail 4
      | some j =>
        let x : MarkEnt := { slot := j, pos := p, st := .held }
        let h := handleOf m s j
        let c := c.setSpool m { s with q := s.q ++ [x], newest := some p }
        let c := c.mapLive n k fun th =>
          ({ th with hv := true, handle := h, cv := false }.setReg wd (BitVec.ofNat 32 h)).report false
        c.recomputeFp m

/-- Whether a REWIND finds its entry overtaken by the guard (R67, R71). -/
def rewindLaps (c : Chip) (h : Nat) : Bool :=
  let m := h / 2 ^ 16 % 256
  c.spEn m != .off && (c.markOf h).any fun x => x.st == .held && c.overtaken m x.pos

/-- REWIND (R71, R76). One that waits for a refill sets the cursor that it waits for; the record keeps beside it the cursor that
its failure leaves (R69).
(log 32, DEDUCED; log 34, DEDUCED; log 36, DEDUCED) -/
def doRewind (e : Env) (c : Chip) (n k wd ws off : Nat) : Chip :=
  let h := ((c.live n k).reg ws).toNat
  let m := h / 2 ^ 16 % 256
  let laps := c.rewindLaps h
  let c := c.spoolCycle m ((0x0E4, 1) :: if laps then [(0x0E6, 1)] else [])
  if c.spEn m = .off then c.resultCode n k wd 6
  else match c.markOf h with
  | none => c.resultCode n k wd 2
  | some x =>
    if x.st = .released then c.resultCode n k wd 2
    else if x.st = .lapped then c.resultCode n k wd 1
    else if laps then ((c.lapMark m x).recomputeFp m).resultCode n k wd 1
    else
      let p := (x.pos + off) % 2 ^ 48
      let set (th : Thread) : Thread := { th with hv := true, handle := h % 2 ^ 24, cv := true, curoff := off }
      if posDiff p (c.wp m) > 0 then c.resultCode n k wd 7
      else if posDiff p (c.wp m) < 0 ∧ c.hostResident m p then
        if (c.spool m).deepBad then c.resultCode n k wd 8
        else if (c.granuleOf m p).isSome then ((c.mapLive n k set).resultCode n k wd 0).sweepRefills e m
        else
          c.leaveWait e n k kRefill m fun th => { set th with retReg := wd, undo := some th.cursor }
      else ((c.mapLive n k set).resultCode n k wd 0).sweepRefills e m

/-- RELEASE (R72): the cursor that came from the handle is no longer valid.
(log 32, DEDUCED) -/
def doRelease (e : Env) (c : Chip) (n k wd ws : Nat) : Chip :=
  let h := ((c.live n k).reg ws).toNat
  let r := c.releaseMark h
  let c := r.1.mapLive n k fun th => if r.2 = 0 ∧ th.handle = h then { th with cv := false } else th
  (c.resultCode n k wd r.2).sweepRefills e (h / 2 ^ 16 % 256)

/-- HP advances by ADV words, not beyond WP (R73). -/
def stepHp (c : Chip) (m adv : Nat) : Chip :=
  let p := (c.hp m + adv) % 2 ^ 48
  c.setF (.spHp m) F.SpHp.POS (if posDiff p (c.wp m) > 0 then c.wp m else p)

/-- PEEK (R73). A spool that is OFF returns DISABLED in wd.
(log 35, DEDUCED) -/
def doPeek (e : Env) (c : Chip) (n k wd mode m kk j adv : Nat) : Chip :=
  if c.spEn m = .off then c.resultCode n k wd 6
  else
    let ans (c : Chip) (v : Nat) (failed : Bool) : Chip :=
      let c := c.mapLive n k fun th => (th.setReg wd (BitVec.ofNat 32 v)).report failed
      if failed then c else c.stepHp m adv
    match mode with
    | 0 =>
      let r := c.headRead e m kk
      match r.2 with
      | .data w => ans r.1 (part32 w.data j).toNat w.poison
      | _ => ans r.1 0 true
    | 1 => ans c (min (unsigned 48 ((c.wp m : Int) - c.hp m)) 0xFFFFFFFF) false
    | 2 => match c.packetAt m (c.hp m) with
      | some tag => ans c tag false
      | none => ans c 0 true
    | _ => ans c (c.hp m) false

end Chip

/-- MARK (R70). -/
def execMark (n : Fin 128) (k : Fin 8) (pick : Nat) (s : State) : Host.Outcome State Fault Refusal :=
  s.issue n k fun _ c i => match i with
    | .mark wd ws mode spool => some (c.doMark n k pick wd ws mode spool)
    | _ => none
/-- REWIND (R71). -/
def execRewind (n : Fin 128) (k : Fin 8) (s : State) : Host.Outcome State Fault Refusal :=
  s.issue n k fun e c i => match i with
    | .rewind wd ws offset => some (c.doRewind e n k wd ws offset)
    | _ => none
/-- RELEASE (R72). -/
def execRelease (n : Fin 128) (k : Fin 8) (s : State) : Host.Outcome State Fault Refusal :=
  s.issue n k fun e c i => match i with
    | .release wd ws => some (c.doRelease e n k wd ws)
    | _ => none
/-- PEEK (R73). -/
def execPeek (n : Fin 128) (k : Fin 8) (s : State) : Host.Outcome State Fault Refusal :=
  s.issue n k fun e c i => match i with
    | .peek wd mode spool kk j adv => some (c.doPeek e n k wd mode spool kk j adv)
    | _ => none

end Sys2Proof.Machine
end

