-- ==== Sys2Proof/Machine/InFlight.lean ====
section
/-! DEFINITION. Descriptors and data in flight: the fields of a descriptor (06 R123, R124), its checks and geometry (R127,
R128), and what each operation makes of its source words (07_inflight_operations.md). -/

namespace Sys2Proof.Machine

/-! Descriptors (06 R123 to R128) -/

namespace Desc

/-- VER, KIND, GEN and LEN (as encoded) of CTL. -/
def ver (d : Desc) : Nat := fget d.ctl ⟨62, 59⟩
def kind (d : Desc) : Nat := fget d.ctl ⟨58, 56⟩
def gen (d : Desc) : Nat := fget d.ctl ⟨55, 40⟩
def len (d : Desc) : Nat := fget d.ctl ⟨23, 0⟩
/-- ABORT_POISON and SPEC_OK; a version 1 descriptor has neither (R124). -/
def abortPoison (d : Desc) : Bool := d.ver == 2 && fbit d.ctl ⟨36, 36⟩
def specOk (d : Desc) : Bool := d.ver == 2 && fbit d.ctl ⟨35, 35⟩
/-- LAST, SEAL_POST and IRQ. -/
def last (d : Desc) : Bool := fbit d.ctl ⟨34, 34⟩
def sealPost (d : Desc) : Bool := fbit d.ctl ⟨33, 33⟩
def irq (d : Desc) : Bool := fbit d.ctl ⟨32, 32⟩
/-- PITCH, DEST, ROWS (as encoded), NEXT and CODE. -/
def pitch (d : Desc) : Nat := fget d.dest ⟨63, 48⟩
def base (d : Desc) : Nat := fget d.dest ⟨47, 0⟩
def rows (d : Desc) : Nat := fget d.next ⟨63, 48⟩
def nextAddr (d : Desc) : Nat := fget d.next ⟨47, 0⟩
def code (d : Desc) : Nat := fget d.status ⟨63, 56⟩

/-- Staged: OWN = 1 and bit 7 of CODE set (R126, R129). -/
def staged (d : Desc) : Bool := d.own && decide (128 ≤ d.code)

/-- GEN as fences and registers see it: none for a version 1 descriptor (R124). -/
def fenceGen (d : Desc) : Option Nat := if d.ver = 2 then some d.gen else none

/-- The row width of a KIND 1 descriptor in words (R127). -/
def rowWidth (d : Desc) : Nat := (d.len + 1) / (d.rows + 1)

/-- The address of output word i (R127, R152). -/
def outAddr (d : Desc) (i : Nat) : Nat :=
  if d.kind = 1 then d.base + i / d.rowWidth * d.pitch * 32 + i % d.rowWidth * 32 else d.base + i * 32

/-- The bytes from the lowest to past the highest address written (R128, R155). -/
def span (d : Desc) : Nat :=
  if d.kind = 1 then d.rows * d.pitch * 32 + d.rowWidth * 32 else (d.len + 1) * 32

/-- The KIND 1 geometry check (R127). -/
def geometryOk (d : Desc) : Bool :=
  if d.kind = 1 then (d.len + 1) % (d.rows + 1) == 0 && decide (d.rowWidth ≤ d.pitch)
  else d.pitch == 0 && d.rows == 0

/-- Malformed, for an instruction that accepts the given kinds (R128 check 3). -/
def malformed (d : Desc) (kinds : List Nat) : Bool :=
  !(d.ver == 1 || d.ver == 2) || !kinds.contains d.kind ||
    (d.ver == 2 && (fget d.ctl ⟨39, 37⟩ != 0 || fget d.ctl ⟨31, 24⟩ != 0)) ||
    d.base % 32 != 0 || d.nextAddr % 32 != 0 || !d.geometryOk

end Desc

/-- A STATUS word (R123, R131). -/
def statusWord (code pcnt words xing : Nat) : Word :=
  BitVec.ofNat 64 (code * 2 ^ 56 + min pcnt 255 * 2 ^ 48 + words % 2 ^ 24 * 2 ^ 24 + xing % 2 ^ 24)

/-! Transfer instructions (06 R132, 07 R149 to R153) -/

/-- The head fields of a transfer instruction; PATCH has wd, ws, MODE and SPEC only. -/
def headFields : WInstr → XHead
  | .move h _ | .movec h _ | .fill h _ _ | .compare h _ _ | .expand h _ _ _ _ _ | .reduce h _ _ _ _ _ _ _
  | .pedsub h _ _ _ _ _ => h
  | .patch wd ws mode spec _ _ => { wd := wd, ws := ws, mode := mode, spec := spec, rc := 0, wc := 0 }
  | _ => { wd := 0, ws := 0, mode := 0, spec := 0, rc := 0, wc := 0 }

/-- REDUCE with ROP SUM or MAX, which uses no descriptor (R153). -/
def noDesc : WInstr → Bool
  | .reduce _ rop _ _ _ _ _ _ => decide (rop < 2)
  | _ => false

/-- The kinds an instruction accepts (R127, R152). -/
def kindsOf : WInstr → List Nat
  | .fill .. => [2]
  | .compare .. => [3]
  | .expand .. => [4]
  | .reduce .. => [5]
  | .pedsub _ zs _ _ _ _ => if zs = 2 then [0] else [0, 1]
  | _ => [0, 1]

/-- Whether a transfer goes on at NEXT (R131, R152). -/
def chains : WInstr → Bool
  | .movec .. => true
  | .patch _ _ _ _ chain _ | .expand _ _ chain _ _ _ | .pedsub _ _ _ chain _ _ => chain == 1
  | _ => false

/-- Whether the source is host memory (R132, R151). -/
def hostSource : WInstr → Bool
  | .fill .. => false
  | i => (headFields i).mode == 2

/-- The count N, from the thread at issue (R132, R150); FILL with WHOLE and PATCH take it elsewhere. -/
def countOf (th : Thread) : WInstr → Nat
  | .move h cnt | .movec h cnt | .fill h _ cnt | .compare h _ cnt => countOperand th 24 h.rc h.wc cnt
  | .expand h _ _ _ _ cnt => countOperand th 8 h.rc h.wc cnt
  | .reduce h _ _ _ _ _ _ cnt | .pedsub h _ _ _ _ cnt => countOperand th 16 h.rc h.wc cnt
  | _ => 0

/-! PATCH (07 R157, R162 to R165) -/

/-- The shape operands of a PATCH, with CW and RW decoded. -/
structure Shape where
  sf : Nat
  c0 : Nat
  cw : Nat
  rw : Nat
  spitch : Nat
  pad : Nat

/-- The shape in wp and the register after it. -/
def Shape.of (wp wq : Nat) : Shape :=
  { sf := bits wp 31 30, c0 := bits wp 29 24, cw := bits wp 23 12 + 1, rw := bits wp 11 0 + 1,
    spitch := bits wq 31 16, pad := bits wq 15 0 }

namespace Shape

/-- Bits per sample and samples per word (R157). -/
def b (p : Shape) : Nat := match p.sf with | 0 => 16 | 1 => 32 | _ => 8
def spw (p : Shape) : Nat := 256 / p.b
/-- Source words and output words per row. -/
def sw (p : Shape) : Nat := ceilDiv (p.c0 + p.cw) p.spw
def w (p : Shape) : Nat := ceilDiv p.cw p.spw

/-- The shape rules of R162. -/
def ok (p : Shape) (host : Bool) : Bool :=
  decide (p.sf < 3) && decide (p.c0 < p.spw) &&
    (if host then decide (p.sw ≤ p.spitch) else decide (p.c0 + p.cw ≤ p.spw) && p.spitch == 0)

/-- Sample k of a row's source words. -/
def sample (p : Shape) (ws : List PWord) (k : Nat) : Nat :=
  ((ws.getD (k / p.spw) { data := 0#256, poison := false }).data.toNat / 2 ^ (p.b * (k % p.spw))) % 2 ^ p.b

/-- The output words of a row from its source words: padded, and poisoned where a sample is (R163, R171). -/
def row (p : Shape) (ws : List PWord) : List PWord :=
  (List.range p.w).map fun q =>
    let js := (List.range p.spw).map (q * p.spw + ·)
    { data := packW256 p.b (js.map fun j => if j < p.cw then p.sample ws (p.c0 + j) else p.pad)
      poison := js.any fun j => decide (j < p.cw) &&
        (ws.getD ((p.c0 + j) / p.spw) { data := 0#256, poison := false }).poison }

/-- Source and destination spans in bytes (R164). -/
def srcSpan (p : Shape) : Nat := ((p.rw - 1) * p.spitch + p.sw) * 32
def dstSpan (p : Shape) (d : Desc) : Nat :=
  if d.kind = 1 then ((p.rw - 1) * d.pitch + p.w) * 32 else p.rw * p.w * 32

/-- Whether rows and words of rows run last to first, for spans that meet (R164). -/
def reverse (p : Shape) (a : Nat) (d : Desc) : Bool × Bool :=
  let delta : Int := ((d.base / 32 : Nat) - (a / 32 : Nat) : Int) * p.spw - p.c0
  let per : Int := d.pitch * p.spw
  let dr := Int.tdiv delta per
  let dc := delta - dr * per
  (decide (dr > 0 ∨ (dr = 0 ∧ dc > 0)), decide (dc > 0 ∨ (dc = 0 ∧ dr > 0)))

end Shape

/-- Whether two spans of bytes share one. -/
def spansMeet (a n b m : Nat) : Bool := decide (a < b + m) && decide (b < a + n) && decide (0 < n) && decide (0 < m)

/-! The operations (07 R158 to R171) -/

/-- The end of a source word's work: its output words and the running values. -/
structure OpOut where
  acc : OpAcc
  out : List PWord

/-- Records gathered into words of `per` records of b bits; the words that are full leave. -/
def packRecs (b per : Nat) (a : OpAcc) (rs : List Nat) (poison : Bool) : OpOut :=
  rs.foldl (fun (o : OpOut) r =>
    let recs := o.acc.recs ++ [r]
    let p := o.acc.recPoison || poison
    if recs.length = per then
      { acc := { o.acc with recs := [], recPoison := false }, out := o.out ++ [{ data := packW256 b recs, poison := p }] }
    else { o with acc := { o.acc with recs := recs, recPoison := p } }) { acc := a, out := [] }

/-- Lane k as a number, signed or unsigned. -/
def laneVal (sgn : Nat) (w : W256) (k : Nat) : Int := if sgn = 1 then signed 16 (sample16 w k) else sample16 w k

/-- The lanes that a mask selects. -/
def lanesOf (mask : Nat) : List Nat := (List.range 16).filter fun k => mask / 2 ^ k % 2 = 1

/-- EXPAND of map word j (R166, R171). -/
def opExpand (a : OpAcc) (em val cb j : Nat) (w : PWord) : OpOut :=
  let bit (k : Nat) : Bool := w.data.getLsbD k
  if em = 0 then
    { acc := a
      out := (List.range 16).map fun q =>
        { data := packW256 16 ((List.range 16).map fun k => if bit (16 * q + k) then val else 0), poison := w.poison } }
  else
    let ks := (List.range 256).filter fun k => w.poison || bit k
    let o := packRecs 32 8 a (ks.map fun k => (cb + j * 256 + k) % 2 ^ 16 * 2 ^ 16 + val) w.poison
    { o with acc := { o.acc with hits := o.acc.hits + ks.length } }

/-- REDUCE of word j (R167, R168, R171); `thr` gives the threshold of a lane and whether it is uncorrectable.
(log 44, DESIGN CHOICE) -/
def opReduce (a : OpAcc) (rop sgn mask j : Nat) (thr : Nat → Int × Bool) (w : PWord) : OpOut :=
  let ks := lanesOf mask
  let a := { a with tainted := a.tainted || w.poison }
  match rop with
  | 0 => { acc := { a with acc := [ks.foldl (fun s k => s + laneVal sgn w.data k) (a.acc.headD 0)] }, out := [] }
  | 1 =>
    let best := ks.foldl (fun (b : Option (Int × Nat)) k =>
      let v := laneVal sgn w.data k
      match b with
      | none => some (v, j * 16 + k)
      | some x => if v > x.1 then some (v, j * 16 + k) else b) a.best
    { acc := { a with best := best }, out := [] }
  | 2 =>
    let sums := (List.range 16).map fun k => a.acc.getD k 0 + if ks.contains k then laneVal sgn w.data k else 0
    { acc := { a with acc := sums }, out := [] }
  | _ =>
    let bad := w.poison || ks.any fun k => (thr k).2
    let bits' := (List.range 16).map fun k => b2n (ks.contains k && decide (laneVal sgn w.data k > (thr k).1))
    packRecs 1 256 a bits' bad

/-- The channel of lane k of word j (R168, R169). -/
def channelOf (ch0 cstep j k : Nat) : Nat := (ch0 + (if cstep = 1 then 16 * j else 0) + k) % 2 ^ 16

/-- PEDSUB of word j (R169 to R171); `ent` gives a lane's pedestal, threshold and whether either is uncorrectable. -/
def opPedsub (a : OpAcc) (zs ch0 cstep j : Nat) (ent : Nat → Nat × Int × Bool) (w : PWord) : OpOut :=
  let res (k : Nat) : Int := clamp (-32768) 32767 ((sample16 w.data k : Int) - (ent k).1)
  let forced (k : Nat) : Bool := w.poison || (ent k).2.2
  let live (k : Nat) : Bool := forced k || decide (res k > (ent k).2.1)
  let ks := (List.range 16).filter live
  let bad := (List.range 16).any forced
  if zs = 2 then
    ks.foldl (fun (o : OpOut) k =>
      let r := j % 2 ^ 16 * 2 ^ 48 + channelOf ch0 cstep j k * 2 ^ 32 + sample16 w.data k * 2 ^ 16 + unsigned 16 (res k)
      let x := packRecs 64 4 o.acc [r] (forced k)
      { acc := { x.acc with hits := x.acc.hits + 1 }, out := o.out ++ x.out }) { acc := a, out := [] }
  else
    { acc := { a with hits := a.hits + ks.length }
      out := [{ data := packW256 16 ((List.range 16).map fun k => if zs = 0 ∨ live k then unsigned 16 (res k) else 0)
                poison := bad }] }

/-- Fill up a word of records with terminators (R166, R169). -/
def terminate (b per : Nat) (a : OpAcc) : OpOut :=
  { acc := { a with recs := [], recPoison := false }
    out := [{ data := packW256 b (a.recs ++ List.replicate (per - a.recs.length) (2 ^ b - 1)), poison := a.recPoison }] }

/-- What is left when the source ends: terminators, a partial TMAP word, the two LSUM words (R166 to R169). -/
def opFlush (i : WInstr) (read : Nat) (a : OpAcc) : OpOut :=
  match i with
  | .expand _ em _ _ _ _ => if em = 1 then terminate 32 8 a else { acc := a, out := [] }
  | .pedsub _ zs _ _ _ _ => if zs = 2 then terminate 64 4 a else { acc := a, out := [] }
  | .reduce _ rop _ _ _ _ _ _ =>
    if rop = 3 ∧ a.recs ≠ [] then
      { acc := { a with recs := [], recPoison := false }, out := [{ data := packW256 1 a.recs, poison := a.recPoison }] }
    else if rop = 2 ∧ read > 0 then
      let half (q : Nat) : PWord :=
        { data := packW256 32 ((List.range 8).map fun k => unsigned 32 (a.acc.getD (8 * q + k) 0)), poison := a.tainted }
      { acc := a, out := [half 0, half 1] }
    else { acc := a, out := [] }
  | _ => { acc := a, out := [] }

/-- The lanes of COMPARE that differ (R160). -/
def differs (mask : Nat) (s r : PWord) : Bool :=
  s.poison || r.poison || (lanesOf mask).any fun k => sample16 s.data k != sample16 r.data k

/-- What an instruction writes beside its count: the second register and C (R161, R166, R167, R170). -/
structure XRes where
  code : Nat
  count : Nat
  second : Option W32
  carry : Option Bool

/-- The result of a transfer that leaves the active set (R134, R154, R161, R166 to R170). `u` indexes the free values of a
maximum of no sample. The code of a source that ended early stands before TAINTED. Where the output ends early, H of a PEDSUB
of ZS 1 or 2 and of an EXPAND LIST counts the words read, records that were not written among them.
(log 43, DEDUCED; log 124, DESIGN CHOICE; log 136, DESIGN CHOICE; log 137, DESIGN CHOICE) -/
def xferResult (x : Xfer) (u : Nat) : XRes :=
  let r : XRes := { code := x.res, count := min x.total 0xFFFFFF, second := none, carry := none }
  match x.instr with
  | .compare .. =>
    { r with second := some (match x.acc.firstDiff with | some i => BitVec.ofNat 32 i | none => 0xFFFFFFFF#32)
             code := if x.res = 0 ∧ x.acc.firstDiff.isSome then 14 else x.res }
  | .expand _ em _ _ _ _ => { r with second := some (BitVec.ofNat 32 (if em = 1 then x.acc.hits else x.n * 256)) }
  | .pedsub _ zs _ _ _ _ => { r with second := some (BitVec.ofNat 32 (if zs = 0 then x.n * 16 else x.acc.hits)) }
  | .reduce _ rop sgn _ _ _ _ _ =>
    let code := if x.res = 0 ∧ x.acc.tainted then 15 else x.res
    match rop with
    | 0 =>
      let s := x.acc.acc.headD 0
      let lo : Int := if sgn = 1 then -(2 ^ 31 : Nat) else 0
      let hi : Int := if sgn = 1 then (2 ^ 31 - 1 : Nat) else (2 ^ 32 - 1 : Nat)
      { code := code, count := x.read, second := some (BitVec.ofNat 32 (unsigned 32 (clamp lo hi s)))
        carry := some (decide (s < lo) || decide (hi < s)) }
    | 1 =>
      match x.acc.best with
      | some b => { r with code := code, count := b.2, second := some (BitVec.ofNat 32 (unsigned 32 b.1)) }
      | none => { r with code := code, count := (Config.emptyMaxIndex u).toNat, second := some (Config.emptyMax u) }
    | _ => r
  | _ => r

end Sys2Proof.Machine
end

