-- ==== Sys2Proof/Machine/Transfers.lean ====
section
/-! DEFINITION. Transfers (06_transfers_and_descriptors.md, 07_inflight_operations.md): fences, the fetch of descriptors and
the search of a staged group, the engine that moves words into bursts, closing, completion, and suspension. POST, SEAL and
DSET are in Post.lean. -/

namespace Sys2Proof.Machine

/-- A descriptor that nothing has been written for yet. -/
def DRec.of (d : Desc) : DRec := { desc := d, status := d.status, pend := 0, statusSent := false, own := 0 }

/-- The codes with which a descriptor that received no word is closed (R131): the refusals of a read and POISON. -/
def closesEmpty (code : Nat) : Bool := decide (3 ≤ code) && decide (code ≤ 7)

/-- The bytes of a word at an address of 8 bytes, as one line of a write. -/
def wordLine (addr : Nat) (w : Word) : WLine :=
  let k := addr / 8 % 8
  { data := BitVec.ofNat 512 (w.toNat * 2 ^ (64 * k)), be := BitVec.ofNat 64 (255 * 2 ^ (8 * k)), poison := false }

/-- One byte at an address, as one line of a write. -/
def byteLine (addr b : Nat) : WLine :=
  let k := addr % 64
  { data := BitVec.ofNat 512 (b * 2 ^ (8 * k)), be := BitVec.ofNat 64 (2 ^ k), poison := false }

/-- Words at consecutive addresses as the lines of one burst: its first line and the lines (R137, R209). -/
def formLines (ws : List (Nat × PWord)) : Nat × List WLine :=
  let lo := ws.foldl (fun m w => min m (w.1 / 64)) ((ws.head?.map (·.1 / 64)).getD 0)
  let hi := ws.foldl (fun m w => max m (w.1 / 64)) lo
  let half (a : Nat) : Option PWord := (ws.find? fun w => w.1 == a).map (·.2)
  (lo, (List.range (hi + 1 - lo)).map fun j =>
    let a := half ((lo + j) * 64)
    let b := half ((lo + j) * 64 + 32)
    { data := (b.map (·.data)).getD 0#256 ++ (a.map (·.data)).getD 0#256
      be := BitVec.ofNat 64 (b2n a.isSome * (2 ^ 32 - 1) + b2n b.isSome * ((2 ^ 32 - 1) * 2 ^ 32))
      poison := (a.any (·.poison)) || (b.any (·.poison)) })

namespace Xfer

/-- A burst of a transfer, for the requester of its needle. -/
def burst (x : Xfer) (n : Nat) (use : BurstFor) (kind : BurstKind) (addr len : Nat) (data : List WLine) (d : Option Desc) :
    Burst :=
  { Chip.unitBurst n use x.cls kind addr len data with
    thr := x.t, gen := x.gen, pc := x.pc, desc := (d.map (·.addr)).getD 0, dgen := d.bind (·.fenceGen) }

/-- The words formed so far become a burst (R137), bound to the line that holds its first line now (R215); `cap` is the most lines
of a burst into the range of an address, so that a line enabled while they formed makes several bursts of them. -/
def flush (x : Xfer) (n : Nat) (bind : Nat → Option Nat) (cap : Nat → Nat) : Xfer :=
  match x.cur, x.forming with
  | some r, w :: ws =>
    let f := formLines (w :: ws)
    let k := max 1 (cap (f.1 * 64))
    let part (j : Nat) : Burst :=
      let a := (f.1 + j * k) * 64
      let ls := (f.2.drop (j * k)).take k
      { x.burst n (.xData n x.id r.desc.addr) .ack a ls.length ls (some r.desc) with bound := bind a }
    let parts := (List.range ((f.2.length + k - 1) / k)).map part
    { x with forming := [], queue := x.queue ++ (if x.reverse then parts.reverse else parts) }
  | _, _ => { x with forming := [] }

/-- The shape of a PATCH, as read at issue. -/
def shape (x : Xfer) : Shape := Shape.of x.opA x.opB

/-- Whether the transfer is a PATCH from host memory: it reads its whole rectangle before it writes (R165), where it ends early
too.
(log 128, DESIGN CHOICE) -/
def hostPatch (x : Xfer) : Bool := match x.instr with | .patch _ _ mode _ _ _ => mode == 2 | _ => false

/-- The source words to read. -/
def total' (x : Xfer) : Nat :=
  match x.instr with
  | .patch .. => if x.hostPatch then x.shape.rw * x.shape.sw else x.shape.rw
  | _ => x.n

/-- The host-memory address of source word i (R132, R162). -/
def srcAddr (x : Xfer) (i : Nat) : Nat :=
  if x.hostPatch then x.a + (i / x.shape.sw * x.shape.spitch + i % x.shape.sw) * 32 else x.a + i * 32

/-- The address of the source word that is read after i others: rows and words last to first in reverse traversal (R164). -/
def readAddr (x : Xfer) (i : Nat) : Nat := x.srcAddr (if x.reverse then x.total' - 1 - i else i)

/-- The line that holds an address, if it has come. -/
def lineGot (l : List (Nat × Option (Line × Bool))) (addr : Nat) : Option PWord :=
  match l.find? fun q => q.1 == addr / 64 with
  | some (_, some (d, p)) => some { data := halfOf d addr, poison := p }
  | _ => none

/-- The line reads outstanding, of source and reference together (R172). -/
def linesOut (x : Xfer) : Nat := ((x.lines ++ x.refs).filter fun q => q.2.isNone).length

/-- The next source line to ask for, within the words that 16 lines reach: host source lines are read up to 16 ahead of the
word that the transfer needs, past the end of the current descriptor too.
(log 96, DESIGN CHOICE) -/
def wantSrc (x : Xfer) : Option Nat :=
  if hostSource x.instr then
    (((List.range 34).map (x.read + ·)).filter fun i => decide (i < x.total')).findSome? fun i =>
      let l := x.readAddr i / 64
      if x.lines.any fun q => q.1 == l then none else some l
  else none

/-- The next reference line of a COMPARE to ask for. -/
def wantRef (x : Xfer) : Option Nat :=
  match x.instr, x.cur with
  | .compare .., some r =>
    (((List.range 34).map (x.read + ·)).filter fun i => decide (i < x.n) && decide (i ≤ r.desc.len)).findSome? fun i =>
      let l := (r.desc.base + i * 32) / 64
      if x.refs.any fun q => q.1 == l then none else some l
  | _, _ => none

/-- The record of a descriptor that the transfer writes, changed by f. -/
def mapRec (x : Xfer) (addr : Nat) (f : DRec → DRec) : Xfer :=
  let g (r : DRec) : DRec := if r.desc.addr = addr then f r else r
  { x with cur := x.cur.map g, closed := x.closed.map g }

/-- The descriptor that the transfer is writing, or else fetching (R296). -/
def atDesc (x : Xfer) : Option Nat := (x.cur.map (·.desc.addr)).or x.fetch

/-- The record of a descriptor that the transfer writes. -/
def recAt (x : Xfer) (addr : Nat) : Option DRec := (x.cur.toList ++ x.closed.reverse).find? fun r => r.desc.addr == addr

end Xfer

/-- A record of a descriptor in an entry, changed. -/
def CqEntry.mapRec (x : CqEntry) (addr : Nat) (f : DRec → DRec) : CqEntry :=
  { x with descs := x.descs.map fun r => if r.desc.addr = addr then f r else r }

namespace Chip

/-! Fences (R145, R146) -/

/-- A fence beside its registers. -/
def fenceSt (c : Chip) (k : Nat) : FenceSt := Tab.get FenceSt.none c.fences k
/-- The chip with it. -/
def setFenceSt (c : Chip) (k : Nat) (f : FenceSt) : Chip := { c with fences := Tab.put FenceSt.none c.fences k f }

/-- Whether fence k, valid or not, names a descriptor with an address and a GEN (none for version 1). -/
def fenceNames (c : Chip) (k addr : Nat) (gen : Option Nat) : Bool :=
  c.fld (.xfFence k) F.XfFence.ADDR == addr / 32 &&
    match gen with | some g => c.fld (.xfFence k) F.XfFence.GEN == g | none => true

/-- Whether fence k matches a descriptor (R145). -/
def fenceHit (c : Chip) (k : Nat) (d : Desc) : Bool :=
  c.bit (.xfFence k) F.XfFence.VALID && (d.ver == 1 || d.ver == 2) && c.fenceNames k d.addr d.fenceGen

/-- A descriptor judged against the fences: each match is counted, and the first is named (R145). -/
def fenceMatch (c : Chip) (d : Desc) : Chip × Option Nat :=
  let ks := (List.range 64).filter fun k => c.fenceHit k d
  let c := ks.foldl (fun c k => c.tally (.xfFenceSt k) F.XfFenceSt.HITS 1) c
  (if ks = [] then c else c.flag .xfStat F.XfStat.STALE, ks.head?)

/-- The descriptors that a needle's sets, suspended registers and completion queue hold (R146). -/
def heldDescs (nd : Needle) : List Desc :=
  let ofX (x : Xfer) : List Desc := x.cur.toList.map (·.desc) ++ x.closed.map (·.desc)
  nd.active.toList.flatMap ofX ++ nd.shadow.toList.flatMap ofX ++ nd.susp.flatMap (fun q => q.2.toList.flatMap ofX) ++
    nd.cq.flatMap fun e => (e.descs.filter fun r => r.own != 2).map (·.desc)

/-- The descriptors of the POST COMMITs of a needle that are being written and have no queue entry yet (R142). -/
def postDescs (nd : Needle) : List Desc :=
  nd.slots.flatMap fun q => ((q.2.bind (·.act)).filter fun a => a.kind == .commit && a.go && a.arg == 0).toList.flatMap fun a =>
    a.descs.map (·.desc)

/-- LIVE of fence k (R146): a descriptor that it matches is held, or a write into it, presented or on its way, has not been
acknowledged. -/
def fenceLive (c : Chip) (k : Nat) : Bool :=
  c.bit (.xfFence k) F.XfFence.VALID &&
    ((c.needles.any fun q => (heldDescs q.2 ++ postDescs q.2).any fun d => c.fenceHit k d) ||
      c.writesOf fun b => c.fenceNames k b.desc b.dgen)

/-- A fence whose expiry has come and whose LIVE is 0 is no longer valid (R146). An expiry that has come stays due, though EXP is
written to 0 or to a larger value before LIVE falls.
(log 135, DESIGN CHOICE) -/
def fenceExpire (c : Chip) (k : Nat) : Chip :=
  if (c.fenceSt k).due ∧ ¬ c.fenceLive k then
    (c.setF (.xfFence k) F.XfFence.VALID 0).setFenceSt k FenceSt.none
  else c

/-- Every needle forgets a group or fill point it keeps for the descriptor that fence k names; a search for a group that has
found the descriptor begins again (R145).
(log 97, DEDUCED) -/
def dropGroups (c : Chip) (k : Nat) : Chip :=
  let hits (ds : List DRec) (fill : Nat) : Bool :=
    ds.any (fun r => c.fenceNames k r.desc.addr r.desc.fenceGen) || c.fld (.xfFence k) F.XfFence.ADDR == fill / 32
  let act (a : Act) : Act := if a.fetching ∧ hits a.descs (a.fetch.getD 0) then { a with redo := true } else a
  let thin (q : Nat × Option Slot) : Nat × Option Slot := (q.1, q.2.map fun s =>
    { s with grp := s.grp.filter fun g => !hits g.descs g.fill, act := s.act.map act })
  let again (x : Xfer) : Xfer :=
    if x.search.any fun g => hits g (x.fetch.getD 0) then { x with search := none, fetch := none, fetching := false } else x
  let go (q : Nat × Needle) : Nat × Needle := (q.1, { q.2 with
    slots := List.map thin q.2.slots, active := q.2.active.map again,
    susp := q.2.susp.map fun (p : Nat × Option Xfer) => (p.1, p.2.map again) })
  { c with needles := List.map go c.needles }

/-- A write of DXW_XF_FENCEk (R145, R146): a write of VALID = 0 while LIVE is 1 is discarded. -/
def fenceWrite (c : Chip) (k : Nat) (w : Word) : Chip :=
  if ¬ fbit w F.XfFence.VALID ∧ c.fenceLive k then c.flag .xfStat F.XfStat.FENCE_LIVE
  else
    let c := c.setF (.xfFence k) F.XfFence.VALID (fget w F.XfFence.VALID)
    let c := c.setF (.xfFence k) F.XfFence.GEN (fget w F.XfFence.GEN)
    let c := c.setF (.xfFence k) F.XfFence.ADDR (fget w F.XfFence.ADDR)
    if fbit w F.XfFence.VALID then (c.setFenceSt k { since := some c.ctr, due := false }).dropGroups k
    else c.setFenceSt k FenceSt.none

/-! The sets (R93, R94, R136) -/

/-- The entries of the 16 channels of word j (R156, R174), and the memory errors met. -/
def loadEntries (e : Env) (c : Chip) (set : Nat) (ped thr : Option Nat) (ch : Nat → Nat) : Chip × List (Nat × Nat × Bool) :=
  let words := ((List.range 16).flatMap fun k => (ped.toList ++ thr.toList).map fun t => mapAt set ((t + 2 * ch k) / 8 * 8))
  let c := c.readWords 2 words
  let one (t : Option Nat) (k : Nat) : Nat × Bool := match t with
    | some t => mapEntry16 e c set (t + 2 * ch k)
    | none => (0, false)
  (c, (List.range 16).map fun k => ((one ped k).1, (one thr k).1, (one ped k).2 || (one thr k).2))

/-- The entries that word j of the transfer uses: none but for PEDSUB and TMAP with TSRC = 1; with CSTEP = 0 they are read
once (R156). -/
def entriesFor (e : Env) (c : Chip) (x : Xfer) : Chip × List (Nat × Nat × Bool) :=
  match x.instr with
  | .pedsub _ _ cstep _ ch0 _ =>
    if cstep = 0 ∧ x.entries ≠ [] then (c, x.entries)
    else c.loadEntries e x.set (some 0) (some 0x20000) (channelOf ch0 cstep x.read)
  | .reduce _ rop _ tsrc _ _ cstep _ =>
    if rop ≠ 3 ∨ tsrc = 0 then (c, [])
    else if cstep = 0 ∧ x.entries ≠ [] then (c, x.entries)
    else c.loadEntries e x.set none (some 0x40000) (channelOf (x.opA / 2 ^ 16) cstep x.read)
  | _ => (c, [])

/-- The entries that a transfer reads once, as it enters the active set: those of CSTEP = 0 (R156, R182). -/
def entriesOnce (e : Env) (c : Chip) (x : Xfer) : Chip × List (Nat × Nat × Bool) :=
  match x.instr with
  | .pedsub _ _ 0 _ _ _ | .reduce _ _ _ _ _ _ 0 _ => c.entriesFor e x
  | _ => (c, x.entries)

/-- A transfer enters the active set: it takes the thread's domain (R258) and, with CSTEP = 0, its entries (R156, R182), and
XF_START and XF_SPEC count (R326). -/
def startXfer (e : Env) (c : Chip) (n : Nat) (x : Xfer) : Chip :=
  let th := c.live n x.slot
  let k := c.entriesOnce e x
  let c := k.1
  let x : Xfer := { x with pd := th.pd, cls := th.cls, gen := th.gen, entries := k.2 }
  let c := c.setNdl n { c.ndl n with active := some x }
  if c.ndlCounts n then c.countCycle (4 * n) 4 ((0x020, 1) :: if isSpec x.instr then [(0x022, 1)] else []) else c

/-- The slot of a suspended transfer that goes on: its fill point stands after the descriptors that it has closed (R129). The
descriptors of a SPEC = 1 transfer are staged, and a search finds them. -/
def resumeFill (c : Chip) (n k : Nat) (x : Xfer) : Chip :=
  match c.slot n k, x.closed.getLast? with
  | some s, some r =>
    if isSpec x.instr then c
    else c.setSlot n k (some { s with base := some r.desc.nextAddr, grp := some { descs := [], fill := r.desc.nextAddr } })
  | _, _ => c

/-- The next transfer a needle starts, once its active set is free: a suspended transfer whose thread is resident again,
else the shadow set's (R93, R94). Of several suspended transfers that may start, the one in the lowest register starts first. A
transfer takes the configuration set that is active as it enters (R156).
(log 129, DESIGN CHOICE) -/
def promote (e : Env) (c : Chip) (n : Nat) : Chip :=
  let nd := c.ndl n
  if nd.active.isSome then c
  else match nd.susp.findSome? fun q => q.2.bind fun x => (residentAt nd x.t).map fun k => (q.1, x, k) with
  | some (q, x, k) =>
    ((c.setNdl n { nd with susp := Tab.put none nd.susp q none }).resumeFill n k x).startXfer e n { x with slot := k }
  | none => match nd.shadow with
    | some x => (c.setNdl n { nd with shadow := none }).startXfer e n { x with set := c.activeSet }
    | none => c

/-- A record fetch completes (R87, R90): the thread may issue, or it faults with ECC and the slot is free. Words 0 and 2 of
a faulted record are rewritten whole; any other bad word keeps its mark. A suspended transfer of the thread stays in its
register, to go on once the thread is resident again. The entry's DETAIL names the lowest bad word, and with word 0 bad it
carries PC 0 and the GEN from before the rewrite.
(log 121, DESIGN CHOICE; log 132, DESIGN CHOICE) -/
def fetchDone (e : Env) (c : Chip) (n k : Nat) : Chip :=
  match c.slot n k with
  | none => c
  | some s =>
    if ¬ s.fetching then c
    else
      let r := (List.range 8).foldl (fun (acc : Chip × List Nat) j =>
        let x := acc.1.readEcc 0 (recordAt s.t j)
        (x.1, if x.2 then acc.2 ++ [j] else acc.2)) (c, [])
      let c := r.1
      match r.2 with
      | [] =>
        let live := { c.thr s.t with st := .running, cmd := s.live.cmd }
        (c.setSlot n k (some { s with fetching := false, live := live })).promote e n
      | w :: _ =>
        let th := c.thr s.t
        let c := (c.setSlot n k none).setThr s.t { th with cmd := s.live.cmd }
        let c := c.faultStored s.t (FaultInfo.plain cEcc n (if r.2.contains 0 then 0 else th.pc) w)
        let c := if r.2.contains 0 then
            (c.setThr s.t { (c.thr s.t).setWord 0 0#64 with gen := 0 }).clearEcc (recordAt s.t 0)
          else c
        if r.2.contains 2 then
          (c.setThr s.t { c.thr s.t with bxing := 0 }).clearEcc (recordAt s.t 2)
        else c

/-- The chip with the active transfer of a needle. -/
def setActive (c : Chip) (n : Nat) (x : Xfer) : Chip := c.setNdl n { c.ndl n with active := some x }

/-- The transfers that a needle holds, in its sets and its suspended registers. -/
def heldXfers (nd : Needle) : List Xfer := nd.active.toList ++ nd.shadow.toList ++ nd.susp.flatMap fun q => q.2.toList

/-- The transfer of a needle with a number, wherever it stands, changed by f. -/
def mapXfer (c : Chip) (n id : Nat) (f : Xfer → Xfer) : Chip :=
  let g (x : Xfer) : Xfer := if x.id = id then f x else x
  let nd := c.ndl n
  let thin (q : Nat × Option Xfer) : Nat × Option Xfer := (q.1, q.2.map g)
  c.setNdl n { nd with active := nd.active.map g, shadow := nd.shadow.map g, susp := List.map thin nd.susp }

/-- An entry of the completion queue replaced. -/
def setEntry (c : Chip) (n id : Nat) (f : CqEntry → CqEntry) : Chip :=
  let nd := c.ndl n
  c.setNdl n { nd with cq := nd.cq.map fun x => if x.id = id then f x else x }

/-- The bursts of a thread that have not been sent are withdrawn, granted ones before their first beats (R227): an OWN clear
among them has not been issued (R139). -/
def recallBursts (c : Chip) (p : Burst → Bool) : Chip :=
  let back := c.heldBursts p
  let c := (c.withdrawGranted p).dropBursts p
  back.foldl (fun c b => match b.use with
    | .own n id a => c.setEntry n id fun x => x.mapRec a fun r => { r with own := 0 }
    | _ => c) c

/-- A transfer fault (R147, R292, R293): the thread's transfers end, its bursts that have not been sent and its
completion-queue entries with no OWN clear issued are discarded, and the thread faults.
(log 111, DESIGN CHOICE) -/
def xferFault (e : Env) (c : Chip) (n t : Nat) (i : FaultInfo) : Chip :=
  let c := (c.followMark n t true).recallBursts fun b => b.thr == t && threadUse b.use
  let nd := c.ndl n
  let thin (q : Nat × Option Slot) : Nat × Option Slot := (q.1, q.2.map fun s =>
    if s.t = t then { s with act := s.act.filter fun a => isLockAct a.kind } else s)
  let mine (x : Xfer) : Bool := x.t == t
  let nd := { nd with
    slots := List.map thin nd.slots, active := nd.active.filter fun x => !mine x, shadow := nd.shadow.filter fun x => !mine x,
    susp := nd.susp.filter fun q => !q.2.any mine,
    cq := nd.cq.filter fun e => e.t != t || e.descs.any fun r => r.own != 0,
    descIn := nd.descIn.filter fun d => match d.1 with
      | none => !nd.active.any mine
      | some k => !(Tab.get none nd.slots k).any fun s => s.t == t }
  let c := c.setNdl n nd
  let c := match c.findSlot t with
    | some (m, k) => c.faultSlot m k i
    | none => c.faultStored t i
  c.promote e n

/-- The fault of a transfer's access that fails the check (R260, R291). -/
def xferProt (e : Env) (c : Chip) (n : Nat) (x : Xfer) (write : Bool) (addr acc : Nat) (win : Option Nat)
    (daddr : Option Nat) : Chip :=
  c.xferFault e n x.t (protFault n x.pc write addr acc win daddr)

/-- The fault of a transfer with no failing address (DESC, STALE). -/
def xferBad (e : Env) (c : Chip) (n : Nat) (x : Xfer) (cause detail daddr : Nat) : Chip :=
  c.xferFault e n x.t { FaultInfo.plain cause n x.pc detail with dv := true, daddr := daddr }

/-- The transfer ends with a result code and goes to CLOSE (R134, R136); a descriptor read ahead is not used. -/
def endXfer (c : Chip) (n : Nat) (x : Xfer) (res : Nat) : Chip :=
  let nd := c.ndl n
  let x : Xfer := { x with res := res, stage := .close, cur := none, forming := [], fetch := none, fetching := false }
  c.setNdl n { nd with active := some x, descIn := nd.descIn.filter fun d => d.1.isSome }

/-- The current descriptor is closed with a code (R131, R133): its words leave, then its STATUS; the fill point moves past
it. A descriptor that has received no word stays at the fill point but for the codes of `closesEmpty`. A group that the slot
no longer keeps is not kept in part: the next user finds it again (R129, R145). A code of `closesEmpty` closes it with WORDS = 0
after reads that have given no output word too.
(log 42, DEDUCED; log 126, DESIGN CHOICE) -/
def closeDesc (c : Chip) (n : Nat) (x : Xfer) (code : Nat) : Chip × Xfer :=
  let x := x.flush n c.bindLine c.lineCap
  match x.cur with
  | none => (c, x)
  | some r =>
    if x.dwords = 0 ∧ ¬ closesEmpty code then (c, { x with cur := none })
    else
      let spec := isSpec x.instr
      let r := { r with status := statusWord (code + if spec then 128 else 0) x.pcnt x.dwords 0 }
      let line := r.desc.addr / 64 * 64
      let b := { x.burst n (.xStatus n x.id r.desc.addr) .ack line 1 [] (some r.desc) with bound := c.bindLine line }
      let x := { x with cur := none, closed := x.closed ++ [r], queue := x.queue ++ [b] }
      match c.slot n x.slot with
      | none => (c, x)
      | some s =>
        let add (g : Grp) : Grp := { descs := g.descs ++ [r], fill := r.desc.nextAddr }
        let grp : Option Grp := if spec then s.grp.map add else some { descs := [], fill := r.desc.nextAddr }
        (c.setSlot n x.slot (some { s with grp := grp, base := if spec then s.base else some r.desc.nextAddr }), x)

/-- Close and end. -/
def closeEnd (c : Chip) (n : Nat) (x : Xfer) (code res : Nat) : Chip :=
  let r := c.closeDesc n x code
  r.1.endXfer n r.2 res

/-- A thread with a transfer in a set enters a DESC wait (R130): its instruction has not completed. Where a HALT or KILL waits
already, the thread stays at its boundary instead, with no wait kept.
(log 95, DESIGN CHOICE) -/
def descWait (e : Env) (c : Chip) (n : Nat) (x : Xfer) : Chip :=
  let c := c.followMark n x.t false
  let c := (c.setNdl n { c.ndl n with active := none }).cntNeedle n 0x024 1
  let c := c.mapLive n x.slot fun th => { th with pc := x.pc }
  let c := if (c.live n x.slot).cmd.isSome then c else c.leaveWait e n x.slot kDesc n id
  c.promote e n

/-! Suspension (R93) -/

/-- The transfer's next burst targets a domain under PDREQ: it moves to a suspended-transfer register and its thread is
PARKED; it waits at its boundary while all four are in use or writes of the thread are outstanding (R93, R140). A HALT or
KILL that waits takes effect then (R85). The register that it takes is the lowest free one.
(log 129, DESIGN CHOICE) -/
def suspend (e : Env) (c : Chip) (n : Nat) (x : Xfer) (dom : Nat) : Chip :=
  let nd := c.ndl n
  let held := { x with stage := .held, back := if x.stage = .held then x.back else x.stage }
  match [0, 1, 2, 3].find? fun q => (Tab.get none nd.susp q).isNone with
  | none => c.setActive n held
  | some q =>
    if hasCq nd x.t ∨ c.writesOut x.t then c.setActive n held
    else
      let held := { held with fetching := false }
      let c := c.setNdl n { nd with active := none, susp := Tab.put none nd.susp q (some held),
                                    descIn := nd.descIn.filter fun d => d.1.isSome }
      let cmd := (c.live n x.slot).cmd
      let c := c.leave n x.slot fun th =>
        { th with st := .parked, kind := kPark, arg := parkTarget * 2 ^ 24 + dom, cmd := none }
      let c := match cmd with
        | some .halt => c.haltNow x.t
        | some .kill => c.killNow e x.t
        | none => c
      c.promote e n

/-- The bursts of the active transfer that wait at a port for a domain under PDREQ come back, oldest first; they stay bound as
they were formed (R215). -/
def withdrawDown (c : Chip) (n : Nat) (x : Xfer) : Chip × Xfer :=
  let mine (b : Burst) : Bool := b.req == n && b.thr == x.t && threadUse b.use && !isOwn b.use
  let waiting : List Burst := c.ports.flatMap (fun q => q.2.waiting.filter mine) ++ (c.backlog.map (·.2)).filter mine
  if waiting.any fun b => c.tdDown b.tdom then
    let c := c.dropBursts mine
    let x := waiting.foldl (fun x b => if b.kind = .ack then x.mapRec b.desc fun r => { r with pend := r.pend - 1 } else x) x
    (c, { x with queue := waiting ++ x.queue, fetching := x.fetching && !waiting.any fun b => b.kind == .read && namesDesc b.use })
  else (c, x)

/-! Presenting (R16, R138, R260) -/

/-- The address and length that a burst of a transfer is checked for, and bits 2:0 of DETAIL: 0 descriptor fetch, 1 source
read, 2 reference read, 3 data burst, 4 STATUS (R291). -/
def checkOf (b : Burst) : Nat × Nat × Nat :=
  match b.use with
  | .xDesc .. => (b.desc, 32, 0)
  | .xSrc .. => (b.addr, 64, 1)
  | .xRef .. => (b.addr, 64, 2)
  | .xData .. => (b.addr, 64 * b.len, 3)
  | _ => (b.addr, 64, 4)

/-- The oldest burst formed is checked and presented; or it stops the transfer: the protection check comes first, then the
target domain, then the fences.
(log 123, DESIGN CHOICE) -/
def presentNext (e : Env) (c : Chip) (n : Nat) (x : Xfer) (b : Burst) (rest : List Burst) : Chip :=
  let k := checkOf b
  let daddr := if namesDesc b.use then some b.desc else (x.cur.map (·.desc.addr)).or x.fetch
  match e.prot.check x.pd k.1 k.2.1 (needOf b.kind) with
  | .fail w => c.xferProt e n x (b.kind != .read) k.1 k.2.2 w daddr
  | .ok w =>
    let b := { b with tdom := e.prot.tdom w }
    if c.tdDown b.tdom then c.suspend e n x b.tdom
    else
      let x := if x.stage = .held then { x with stage := x.back } else x
      match b.kind, x.recAt b.desc with
      | .ack, some r =>
        let m := c.fenceMatch r.desc
        match m.2 with
        | some f => m.1.xferBad e n x cStale f r.desc.addr
        | none =>
          let c := m.1
          let isSt : Bool := match b.use with | .xStatus .. => true | _ => false
          let st := fset r.status ⟨23, 0⟩ c.ctr
          let b := if isSt then { b with data := [wordLine (r.desc.addr + 24) st] } else b
          let x := { x with queue := rest }
          let x := x.mapRec b.desc fun r =>
            { r with pend := r.pend + 1, status := if isSt then st else r.status, statusSent := r.statusSent || isSt }
          (c.setActive n x).present (e.prot.home w) b
      | _, _ =>
        let isDesc : Bool := match b.use with | .xDesc .. => true | _ => false
        let c := if isDesc then c.cntNeedle n 0x023 1 else c
        (c.setActive n { x with queue := rest, fetching := x.fetching || isDesc }).present (e.prot.home w) b

/-! The fetch of a descriptor (R128 to R133, R154) -/

/-- The burst that reads the descriptor at an address. -/
def descRead (x : Xfer) (n a : Nat) : Burst :=
  { x.burst n (.xDesc n x.id) .read (a / 64 * 64) 1 [] none with desc := a }

/-- The first step of a transfer in FETCH: no descriptor for REDUCE SUM and MAX; the group as the slot keeps it, or the
search for it (R129, R133, R153). -/
def beginFetch (c : Chip) (n : Nat) (x : Xfer) : Chip :=
  if noDesc x.instr then c.setActive n { x with stage := .data }
  else match c.slot n x.slot with
  | none => c
  | some s => match s.grp with
    | some g =>
      if g.descs ≠ [] ∧ ¬ isSpec x.instr then c.endXfer n x 9
      else c.setActive n { x with fetch := some g.fill, glen := g.descs.length }
    | none => c.setActive n { x with fetch := some (s.base.getD (s.live.dptr * 32)), search := some [] }

/-- Whether the buffer and the descriptor lie in windows that let the transfer write them (R128 check 4): the failing
address and window.
(log 43, DEDUCED) -/
def bufferFail (e : Env) (pd : Nat) (d : Desc) : Option (Nat × Option Nat) :=
  match e.prot.check pd d.base d.span .ackWrite with
  | .fail w => some (d.base, w)
  | .ok _ => match e.prot.check pd d.addr 32 .ackWrite with
    | .fail w => some (d.addr, w)
    | .ok _ => none

/-- Whether a descriptor refuses the transfer's shape or meets its source (R155, R163, R164): 13 SHAPE, 12 OVERLAP. `first`
is true at the fill point. -/
def shapeCode (x : Xfer) (d : Desc) (first : Bool) : Option Nat :=
  match x.instr with
  | .patch .. =>
    let p := x.shape
    if d.kind = 1 ∧ d.rowWidth ≠ p.w then some 13
    else if x.hostPatch ∧ spansMeet x.a p.srcSpan d.base (if first then p.dstSpan d else d.span) then
      if ¬ first ∨ d.kind ≠ 1 ∨ d.pitch ≠ p.spitch ∨ p.rw * p.w > d.len + 1 then some 12 else none
    else none
  | .expand .. | .reduce .. | .pedsub .. =>
    if hostSource x.instr ∧ spansMeet x.a (x.n * 32) d.base d.span then some 12 else none
  | _ => none

/-- The descriptors in the group that a transfer adds to: those it found, and its own (R130, R133). -/
def groupLen (x : Xfer) : Nat := x.glen + if isSpec x.instr then x.closed.length else 0

/-- The descriptor at the fill point, or the next of the chain, has been read (R128, R130, R133, R154). A DESC wait waits
until the thread's completion-queue entries have emptied (R140); the read then stays to be judged. NOSPEC and GROUPFULL come
before SHAPE and OVERLAP.
(log 43, DEDUCED; log 125, DESIGN CHOICE) -/
def acceptDesc (e : Env) (c : Chip) (n : Nat) (x : Xfer) (d : Desc) : Chip :=
  let x := { x with fetch := none, fetching := false, search := none }
  let first := x.closed == []
  if ¬ d.own then
    if groupLen x > 0 ∨ x.total > 0 then c.endXfer n x 6 else c.descWait e n x
  else
    let m := c.fenceMatch d
    let c := m.1
    match m.2 with
    | some k => c.xferBad e n x cStale k d.addr
    | none =>
      if d.malformed (kindsOf x.instr) then c.xferBad e n x cDesc 0 d.addr
      else match bufferFail e x.pd d with
      | some f => c.xferProt e n x true f.1 0 f.2 (some d.addr)
      | none =>
        if isSpec x.instr ∧ ¬ d.specOk then c.endXfer n x 8
        else if isSpec x.instr ∧ groupLen x ≥ 64 then c.endXfer n x 10
        else match shapeCode x d first with
        | some r => c.endXfer n x r
        | none =>
          let whole : Bool := match x.instr with | .fill _ w _ => w == 1 | _ => false
          let rv : Bool × Bool :=
            if x.hostPatch ∧ spansMeet x.a x.shape.srcSpan d.base (x.shape.dstSpan d) then x.shape.reverse x.a d
            else (false, false)
          c.setActive n { x with stage := .data, cur := some (DRec.of d), dwords := 0, pcnt := 0
                                 n := if whole then d.len + 1 else x.n, reverse := rv.1 || rv.2 }

/-- A descriptor read of the active transfer has returned: it belongs to the search for the group, or it is the fill
point's or the chain's next (R129). -/
def descArrive (e : Env) (c : Chip) (n : Nat) (x : Xfer) (addr : Nat) (l : Line) (poison : Bool) : Chip :=
  if poison then c.xferBad e n x cDesc 1 addr
  else
    let d := Desc.ofLine addr l
    match x.search with
    | none => c.acceptDesc e n x d
    | some g =>
      if d.staged ∧ g.length < 64 then
        c.setActive n { x with fetching := false, fetch := some d.nextAddr, search := some (g ++ [DRec.of d]) }
      else
        let c := match c.slot n x.slot with
          | some s => c.setSlot n x.slot (some { s with grp := some { descs := g, fill := addr } })
          | none => c
        let x := { x with glen := g.length }
        if g ≠ [] ∧ ¬ isSpec x.instr then c.endXfer n { x with fetching := false, search := none } 9
        else c.acceptDesc e n x d

/-- A DESC wait that cannot be entered yet: the thread's completion-queue entries have not emptied (R140). -/
def descBlocked (c : Chip) (n : Nat) (x : Xfer) (addr : Nat) (l : Line) (poison : Bool) : Bool :=
  let none' : Bool := match x.search with
    | some g => g == []
    | none => groupLen x == 0
  !poison && !(Desc.ofLine addr l).own && none' && x.total == 0 && hasCq (c.ndl n) x.t

/-! Data (R131, R132, R135, R137) -/

/-- An answer of the source. -/
inductive SrcAns where
  | wait
  | refused (code : Nat)
  | word (w : PWord)

/-- The next source word (R132, R151). A cursor read that outruns the refill starts it and waits (R76). -/
def srcWord (e : Env) (c : Chip) (n : Nat) (x : Xfer) : Chip × SrcAns :=
  let host : Bool := hostSource x.instr
  let cursor : Bool := usesCursor x.instr
  if host then
    match Xfer.lineGot x.lines (x.readAddr x.read) with
    | some w => (c, .word w)
    | none => (c, .wait)
  else if cursor then
    let th := c.live n x.slot
    let m := spoolOfHandle th
    let p := (c.cursorPos th).getD 0
    let r := c.cursorRead e th
    match r.2 with
    | .data w =>
      let c := r.1.mapLive n x.slot fun th => { th with curoff := (th.curoff + 1) % 2 ^ 26 }
      let q := (p + 1) % 2 ^ 48
      let c := if q % 32 = 0 ∧ c.spMode m = 2 then
          let c := c.sweepRefills e m
          let ahead := (q / 32 + 1) * 32
          if c.hostResident m ahead ∧ posDiff ahead (c.wp m) < 0 then c.startRefill e m (q / 32 + 1) x.t else c
        else c
      (c, .word w)
    | .stall => (r.1.startRefill e m (p / 32) x.t, .wait)
    | .lapped => (r.1, .refused 1)
    | .nocursor => (r.1, .refused 2)
    | .nodata => (r.1, .refused 3)
    | .deeperr => (r.1, .refused 4)
  else (c, .word { data := x.reg, poison := false })

/-- One output word is placed into the current descriptor (R127, R135, R137); a burst is formed where it is full or its row,
its 1 KiB block or the descriptor ends. -/
def placeWord (c : Chip) (n : Nat) (x : Xfer) (r : DRec) (w : PWord) (rest : List PWord) : Chip :=
  let d := r.desc
  if w.poison ∧ d.abortPoison then
    c.closeEnd n { x with pcnt := x.pcnt + 1, out := [] } 7 7
  else
    let i := if x.reverse then x.shape.rw * x.shape.w - 1 - x.dwords else x.dwords
    let a := d.outAddr i
    let last := (x.forming.getLast?.map (·.1)).getD a
    let joins := x.forming == [] || (a / 1024 == last / 1024 &&
      (if x.reverse then decide (last ≤ a + 64) && decide (a ≤ last) else decide (a / 64 ≤ last / 64 + 1) && decide (last ≤ a)))
    let first := x.forming.foldl (fun m w => min m (w.1 / 64)) (a / 64)
    let fits := decide ((if x.reverse then (((x.forming.head?).map (·.1 / 64)).getD (a / 64)) else a / 64) + 1 - first ≤
      c.lineCap (first * 64))
    let x := if joins && fits then x else x.flush n c.bindLine c.lineCap
    let c := c.cntNeedle n 0x028 (b2n w.poison)
    let x := { x with forming := x.forming ++ [(a, w)], dwords := x.dwords + 1, total := x.total + 1
                      pcnt := x.pcnt + b2n w.poison, out := rest }
    let rowEnd : Bool := d.kind == 1 && (if x.reverse then i % d.rowWidth == 0 else (i + 1) % d.rowWidth == 0)
    let blockEnd : Bool := if x.reverse then a % 1024 == 0 else (a + 32) % 1024 == 0
    let f := formLines x.forming
    let full : Bool := decide (f.2.length ≥ c.lineCap (f.1 * 64)) && (if x.reverse then a % 64 == 0 else a % 64 == 32)
    c.setActive n (if rowEnd || blockEnd || full || decide (x.dwords > d.len) then x.flush n c.bindLine c.lineCap else x)

/-- A full descriptor with words still to move (R131): the chain goes on, or the transfer ends with TRUNC. -/
def fullDesc (c : Chip) (n : Nat) (x : Xfer) (r : DRec) : Chip :=
  if chains x.instr ∧ ¬ r.desc.last then
    let k := c.closeDesc n x 1
    k.1.setActive n { k.2 with stage := .fetch, fetch := some r.desc.nextAddr }
  else c.closeEnd n x 2 5

/-- What an operation makes of a source word (R158, R163, R166 to R171). -/
def applyOp (x : Xfer) (ent : List (Nat × Nat × Bool)) (w : PWord) : OpOut :=
  match x.instr with
  | .expand _ em _ val cb _ => opExpand x.acc em val cb x.read w
  | .reduce _ rop sgn tsrc _ mask _ _ =>
    let thr (k : Nat) : Int × Bool :=
      if tsrc = 0 then (if sgn = 1 then signed 16 x.opA else (x.opA % 2 ^ 16 : Nat), false)
      else
        let v := ent.getD k (0, 0, false)
        (if sgn = 1 then signed 16 v.2.1 else v.2.1, v.2.2)
    opReduce x.acc rop sgn mask x.read thr w
  | .pedsub _ zs cstep _ ch0 _ =>
    let one (k : Nat) : Nat × Int × Bool :=
      let v := ent.getD k (0, 0, false)
      (v.1, signed 16 v.2.1, v.2.2)
    opPedsub x.acc zs ch0 cstep x.read one w
  | .patch .. => if x.hostPatch then { acc := x.acc, out := [] } else { acc := x.acc, out := x.shape.row [w] }
  | _ => { acc := x.acc, out := [w] }

/-- The output of a PATCH from host memory: its rows from the lines read, last to first where R164 says so. -/
def patchOut (x : Xfer) : List PWord :=
  let p := x.shape
  let rows := (List.range p.rw).flatMap fun r =>
    p.row ((List.range p.sw).map fun q =>
      (Xfer.lineGot x.lines (x.srcAddr (r * p.sw + q))).getD { data := 0#256, poison := false })
  if x.reverse then rows.reverse else rows

/-- The read of NEXT that MOVEC starts when 16 words or fewer of the current descriptor remain and more are to move (R148). -/
def aheadOf (x : Xfer) : Option Nat :=
  match x.instr, x.cur with
  | .movec .., some r =>
    let left := r.desc.len + 1 - x.dwords
    if x.stage = .data ∧ ¬ x.fetching ∧ ¬ r.desc.last ∧ left ≤ 16 ∧ left < x.n - x.total then some r.desc.nextAddr else none
  | _, _ => none

/-- A transfer whose source has ended gives what its operation has left. -/
def flushSource (c : Chip) (n : Nat) (x : Xfer) : Chip :=
  let o := if x.hostPatch then { acc := x.acc, out := patchOut x } else opFlush x.instr x.read x.acc
  c.setActive n { x with acc := o.acc, out := x.out ++ o.out, srcDone := true }

/-- One step of a COMPARE (R159 to R161): a source and a reference word, a poisoned one stopping it under ABORT_POISON. A
position where both are poisoned counts once.
(log 127, DESIGN CHOICE) -/
def stepCompare (e : Env) (c : Chip) (n : Nat) (x : Xfer) (r : DRec) (mask : Nat) : Chip × Bool :=
  if x.read = x.n then (c.closeEnd n x 1 0, true)
  else if x.dwords > r.desc.len then (c.closeEnd n x 2 5, true)
  else match Xfer.lineGot x.refs (r.desc.base + x.read * 32) with
  | none => (c, false)
  | some ref =>
    let s := c.srcWord e n x
    let c := s.1
    match s.2 with
    | .wait => (c, false)
    | .refused code => (c.closeEnd n x (code + 2) code, true)
    | .word w =>
      let bad := w.poison || ref.poison
      let diff := differs mask w ref
      let first := if diff then some (x.acc.firstDiff.getD x.read) else x.acc.firstDiff
      let c := c.cntNeedle n 0x021 1
      let x := { x with pcnt := x.pcnt + b2n bad }
      if bad ∧ r.desc.abortPoison then (c.closeEnd n x 7 7, true)
      else
        (c.setActive n { x with read := x.read + 1, dwords := x.dwords + 1, total := x.total + 1
                                acc := { x.acc with firstDiff := first } }, true)

/-- One step of a transfer in DATA; false where it waits. -/
def stepData (e : Env) (c : Chip) (n : Nat) (x : Xfer) : Chip × Bool :=
  match x.instr, x.cur with
  | .compare _ mask _, some r => c.stepCompare e n x r mask
  | _, cur =>
    let full : Bool := cur.any fun r => decide (x.dwords > r.desc.len)
    if full ∧ ¬(x.out = [] ∧ (x.srcDone ∨ x.read = x.total')) then
      (match cur with | some r => c.fullDesc n x r | none => c, true)
    else match x.out, cur with
    | w :: rest, some r => (c.placeWord n x r w rest, true)
    | _, _ =>
      if x.srcDone then (c.closeEnd n x 1 0, true)
      else if x.read ≥ x.total' then (c.flushSource n x, true)
      else
        let s := c.srcWord e n x
        let c := s.1
        match s.2 with
        | .wait => (c, false)
        | .refused code => (c.closeEnd n x (code + 2) code, true)
        | .word w =>
          let k := c.entriesFor e x
          let o := applyOp x k.2 w
          let c := k.1.cntNeedle n 0x021 1
          (c.setActive n { x with read := x.read + 1, acc := o.acc, out := o.out, entries := k.2 }, true)

/-- The line read that a waiting transfer asks for next (R132, R159, R172). -/
def askLine (c : Chip) (n : Nat) (x : Xfer) : Chip × Bool :=
  if x.linesOut ≥ 16 then (c, false)
  else match x.wantSrc with
  | some l =>
    (c.setActive n { x with lines := x.lines ++ [(l, none)],
                            queue := x.queue ++ [x.burst n (.xSrc n x.id l) .read (l * 64) 1 [] none] }, true)
  | none => match x.wantRef with
    | some l =>
      (c.setActive n { x with refs := x.refs ++ [(l, none)],
                              queue := x.queue ++ [x.burst n (.xRef n x.id l) .read (l * 64) 1 [] none] }, true)
    | none => (c, false)

/-- One step of the active transfer of a needle; false where it has presented a burst or waits.
(log 40, DEDUCED) -/
def stepXfer (e : Env) (c : Chip) (n : Nat) : Chip × Bool :=
  match (c.ndl n).active with
  | none => (c, false)
  | some x =>
    let r := c.withdrawDown n x
    let c := r.1
    let x := r.2
    match x.queue with
    | b :: rest => (c.presentNext e n x b rest, false)
    | [] =>
      match x.stage with
      | .fetch =>
        if x.fetching then (c, false)
        else match x.fetch with
        | some a => (c.setActive n { x with queue := [descRead x n a] }, true)
        | none => (c.beginFetch n x, true)
      | .data =>
        match aheadOf x with
        | some a => (c.setActive n { x with fetch := some a, queue := [descRead x n a] }, true)
        | none =>
        let s := c.stepData e n x
        if s.2 then s
        else match (s.1.ndl n).active with
        | some x => s.1.askLine n x
        | none => s
      | .close => (c, false)
      | .held => (c.setActive n { x with stage := x.back }, true)

/-- Steps of the active transfer until it presents a burst or waits, at most the given number.
(log 40, DEDUCED) -/
def runXfer (e : Env) (c : Chip) (n : Nat) : Nat → Chip
  | 0 => c
  | k + 1 =>
    let r := c.stepXfer e n
    if r.2 then r.1.runXfer e n k else r.1

/-! Issue (R94, R132, R154) -/

/-- The transfer of an instruction that issues from slot k: every operand is read here (R150). -/
def makeXfer (c : Chip) (n k : Nat) (i : WInstr) : Xfer :=
  let th := c.live n k
  let h := headFields i
  let reg := match i with
    | .fill .. => packW256 64 (List.replicate 4 (if h.mode = 0 then (th.pair h.ws).toNat else 0))
    | _ => if h.mode = 1 then th.regWord else 0#256
  let op : Nat × Nat := match i with
    | .patch _ _ _ _ _ wp => ((th.reg wp).toNat, (th.reg (wp + 1)).toNat)
    | .reduce _ _ _ _ wq _ _ _ => ((th.reg wq).toNat, 0)
    | _ => (0, 0)
  { id := c.xid, t := ((c.slot n k).map (·.t)).getD 0, slot := k, instr := i, pc := c.issuePc n k, cls := th.cls, pd := th.pd,
    gen := th.gen, stage := .fetch, back := .fetch, res := 0, n := countOf th i,
    a := if hostSource i then th.address h.ws else 0, reg := reg, opA := op.1, opB := op.2, set := c.activeSet, read := 0,
    lines := [], refs := [], fetch := none, fetching := false, search := none, glen := 0, cur := none, dwords := 0, pcnt := 0, out := [],
    forming := [], total := 0, closed := [], acc := OpAcc.empty, srcDone := false, queue := [],
    entries := [], reverse := false }

/-- The registers and flags of a transfer's result (R134, R154). -/
def writeResult (c : Chip) (n k : Nat) (x : Xfer) (r : XRes) : Chip :=
  c.mapLive n k fun th =>
    let wd := (headFields x.instr).wd
    let th := match r.second with | some v => th.setReg (wd + 1) v | none => th
    let th := (th.setReg wd (BitVec.ofNat 32 (r.code * 2 ^ 24 + min r.count 0xFFFFFF))).report (r.code ≠ 0)
    match r.carry with | some b => { th with fC := b } | none => th

/-- A transfer instruction issues (R94, R132, R133, R154): ALIGN, SHAPE and STAGED where they are known end it at once, and
otherwise it enters the active set, or the shadow set.
(log 43, DEDUCED) -/
def doXfer (e : Env) (c : Chip) (n k : Nat) (i : WInstr) : Chip :=
  let th := c.live n k
  let h := headFields i
  let x := c.makeXfer n k i
  let ends (res : Nat) : Chip := c.spend.writeResult n k { x with res := res } (xferResult { x with res := res } c.free)
  let shapeBad : Bool := match i with
    | .patch _ _ mode _ _ _ => !x.shape.ok (mode == 2)
    | _ => false
  let staged : Bool := ((c.slot n k).bind (·.grp)).any fun g => g.descs != []
  if hostSource i ∧ ¬ th.addressOk h.ws then ends 11
  else if shapeBad then ends 13
  else if staged ∧ ¬ isSpec i ∧ ¬ noDesc i then ends 9
  else
    let c := { c with xid := c.xid + 1 }
    let nd := c.ndl n
    if nd.active.isNone then c.startXfer e n x else c.setNdl n { nd with shadow := some x }

/-! Leaving the active set and completing (R136, R139) -/

/-- Whether a burst of a transfer has been presented and has not been sent. -/
def unsent (c : Chip) (n t : Nat) : Bool :=
  (c.heldBursts fun b => b.req == n && b.thr == t && threadUse b.use && !isOwn b.use) != []

/-- An entry whose OWN clears have all been acknowledged leaves, or one of SPEC = 1 with every write acknowledged; a stopped
entry leaves once no OWN clear of it is outstanding (R139). -/
def entryDone (x : CqEntry) : Bool :=
  if x.stopped then x.descs.all fun r => r.own != 1
  else if x.spec then x.descs.all fun r => r.pend == 0
  else x.descs.all fun r => r.own == 2

/-- The transfer in CLOSE leaves the active set once everything of it has been issued and the completion queue has room; wd
and the flags are written (R136). A transfer that has closed no descriptor takes no entry and needs no room.
(log 98, DESIGN CHOICE) -/
def leaveActive (e : Env) (c : Chip) (n : Nat) : Chip :=
  let nd := c.ndl n
  match nd.active with
  | none => c
  | some x =>
    if x.stage ≠ .close ∨ x.queue ≠ [] ∨ c.unsent n x.t ∨ (nd.cq.length ≥ 8 ∧ x.closed ≠ []) then c
    else
      let ent : CqEntry :=
        { id := x.id, t := x.t, slot := x.slot, pc := x.pc, cls := x.cls, pd := x.pd, gen := x.gen, spec := isSpec x.instr,
          post := false, descs := x.closed, stopped := false }
      let c := c.setNdl n { nd with active := none, cq := if entryDone ent then nd.cq else nd.cq ++ [ent] }
      let c := c.spend.writeResult n x.slot x (xferResult x c.free)
      c.promote e n

/-- The home port of an address in a domain, for writes. -/
def homeOf (e : Env) (pd a : Nat) : Nat :=
  match e.prot.check pd a 32 .ackWrite with
  | .ok w => e.prot.home w
  | .fail _ => 16

/-- The entries of a needle that are done leave its completion queue. -/
def sweepCq (c : Chip) (n : Nat) : Chip :=
  let nd := c.ndl n
  (c.setNdl n { nd with cq := nd.cq.filter fun x => !entryDone x }).reap n

/-- The descriptor whose OWN an entry may clear now (R139): its writes have arrived and, where the home port changes, the
clear before it has; `prev` is the last descriptor of the thread's entry before, with its domain. -/
def nextClear (e : Env) (prev : Option (Nat × DRec)) (x : CqEntry) : Option DRec :=
  if x.spec ∨ x.stopped then none
  else match x.descs.find? fun r => r.own == 0 with
  | none => none
  | some r =>
    let before := (((x.descs.takeWhile fun q => q.own != 0).getLast?).map fun q => (x.pd, q)).or prev
    let ok : Bool := match before with
      | some q => homeOf e q.1 q.2.desc.addr == homeOf e x.pd r.desc.addr || q.2.own == 2
      | none => true
    if r.pend = 0 ∧ r.statusSent ∧ ok then some r else none

/-- The first entry of a needle's completion queue that can clear an OWN, no earlier entry of its thread still clearing
(R139), among those that `p` takes; `done` are the entries before. -/
def readyEntry (e : Env) (p : CqEntry → DRec → Bool) : List CqEntry → List CqEntry → Option (CqEntry × DRec)
  | _, [] => none
  | done, x :: xs =>
    let mine := done.filter fun y => y.t == x.t && !y.spec
    let prev := (mine.getLast?).bind fun y => (y.descs.getLast?).map fun r => (y.pd, r)
    match (if mine.any fun y => y.descs.any fun r => r.own == 0 then none else nextClear e prev x) with
    | some r => if p x r then some (x, r) else readyEntry e p (done ++ [x]) xs
    | none => readyEntry e p (done ++ [x]) xs

/-- The target domain of an OWN clear; none where its write fails the check (R260). -/
def clearTarget (e : Env) (x : CqEntry) (r : DRec) : Option Nat :=
  match e.prot.check x.pd (r.desc.addr / 64 * 64) 64 .ackWrite with
  | .ok w => some (e.prot.tdom w)
  | .fail _ => none

/-- Whether the target domain of an OWN clear is not under PDREQ (R141). -/
def clearFree (e : Env) (c : Chip) (x : CqEntry) (r : DRec) : Bool := !(clearTarget e x r).any c.tdDown

/-- DPTR passes a descriptor that completes (R129, R133): in the slot, or in the record of a thread that has faulted (R293). A
DPTR that names another descriptor, as DSET has set it since, stays.
(log 42, DEDUCED; log 134, DESIGN CHOICE) -/
def passDptr (c : Chip) (n : Nat) (x : CqEntry) (r : DRec) : Chip :=
  let pass (th : Thread) : Thread := if th.dptr * 32 = r.desc.addr then { th with dptr := r.desc.nextAddr / 32 } else th
  match c.slot n x.slot with
  | some s =>
    if s.t ≠ x.t then c
    else if s.dead then
      let th := c.thr x.t
      if th.st = .fault ∧ th.gen = x.gen then c.setThr x.t (pass th) else c
    else c.mapLive n x.slot pass
  | none => c

/-- An OWN clear has been sent: DPTR passes its descriptor, and OWN_CLR counts (R139).
(log 42, DEDUCED) -/
def ownSent (c : Chip) (n id addr : Nat) : Chip :=
  let x := (c.ndl n).cq.find? fun x => x.id == id
  let c := match x, x.bind fun x => x.descs.find? fun r => r.desc.addr == addr with
    | some x, some r => c.passDptr n x r
    | _, _ => c
  c.cntNeedle n 0x025 1

/-- The next OWN clear of a needle's completion queue is written: byte 7 of CTL with OWN = 0 (R139). An entry whose
clear's target domain is under PDREQ waits, and those of other threads go on (R141).
(log 42, DEDUCED) -/
def ownClear (e : Env) (c : Chip) (n : Nat) : Chip :=
  match readyEntry e (c.clearFree e) [] (c.ndl n).cq with
  | none => c
  | some (x, r) =>
    let a := r.desc.addr
    let b : Burst :=
      { unitBurst n (.own n x.id a) x.cls .ack (a / 64 * 64) 1 [byteLine (a + 7) (r.desc.ver * 8 + r.desc.kind)] with
        thr := x.t, gen := x.gen, pc := x.pc, desc := a, dgen := r.desc.fenceGen }
    match e.prot.check x.pd b.addr 64 .ackWrite with
    | .fail w =>
      ((c.setEntry n x.id fun x => { x with stopped := true }).xferFault e n x.t
        (protFault n x.pc true b.addr 4 w (some a))).sweepCq n
    | .ok w =>
      let c := c.setEntry n x.id fun x => x.mapRec a fun r => { r with own := 1 }
      c.present (e.prot.home w) { b with tdom := e.prot.tdom w }

/-- Whether an entry of a needle's completion queue could clear an OWN in mesh domain d next (R141, R280). -/
def ownAwaits (e : Env) (c : Chip) (n d : Nat) : Bool :=
  (readyEntry e (fun x r => clearTarget e x r == some d) [] (c.ndl n).cq).isSome

end Chip

/-- MOVE (R132). -/
def execMove (n : Fin 128) (k : Fin 8) (s : State) : Host.Outcome State Fault Refusal :=
  s.issue n k fun e c i => match i with
    | .move .. => some (c.doXfer e n k i)
    | _ => none
/-- MOVEC (R131). -/
def execMovec (n : Fin 128) (k : Fin 8) (s : State) : Host.Outcome State Fault Refusal :=
  s.issue n k fun e c i => match i with
    | .movec .. => some (c.doXfer e n k i)
    | _ => none
/-- FILL (R158). -/
def execFill (n : Fin 128) (k : Fin 8) (s : State) : Host.Outcome State Fault Refusal :=
  s.issue n k fun e c i => match i with
    | .fill .. => some (c.doXfer e n k i)
    | _ => none
/-- COMPARE (R159). -/
def execCompare (n : Fin 128) (k : Fin 8) (s : State) : Host.Outcome State Fault Refusal :=
  s.issue n k fun e c i => match i with
    | .compare .. => some (c.doXfer e n k i)
    | _ => none
/-- PATCH (R162). -/
def execPatch (n : Fin 128) (k : Fin 8) (s : State) : Host.Outcome State Fault Refusal :=
  s.issue n k fun e c i => match i with
    | .patch .. => some (c.doXfer e n k i)
    | _ => none
/-- EXPAND (R166). -/
def execExpand (n : Fin 128) (k : Fin 8) (s : State) : Host.Outcome State Fault Refusal :=
  s.issue n k fun e c i => match i with
    | .expand .. => some (c.doXfer e n k i)
    | _ => none
/-- REDUCE (R167). -/
def execReduce (n : Fin 128) (k : Fin 8) (s : State) : Host.Outcome State Fault Refusal :=
  s.issue n k fun e c i => match i with
    | .reduce .. => some (c.doXfer e n k i)
    | _ => none
/-- PEDSUB (R169). -/
def execPedsub (n : Fin 128) (k : Fin 8) (s : State) : Host.Outcome State Fault Refusal :=
  s.issue n k fun e c i => match i with
    | .pedsub .. => some (c.doXfer e n k i)
    | _ => none

/-- THREAD_FETCH_DONE (R90). -/
def execThreadFetchDone (n : Fin 128) (k : Fin 8) (s : State) : Host.Outcome State Fault Refusal :=
  s.coreStep fun e c => c.whenClocked n (·.fetchDone e n k)
/-- TRANSFER_BURST (R137): the active transfer of a needle goes on until it presents a burst or waits. -/
def execTransferBurst (n : Fin 128) (s : State) : Host.Outcome State Fault Refusal :=
  s.coreStep fun e c => c.whenClocked n (·.runXfer e n 96)
/-- TRANSFER_LEAVE_ACTIVE (R136). -/
def execTransferLeaveActive (n : Fin 128) (s : State) : Host.Outcome State Fault Refusal :=
  s.coreStep fun e c => c.whenClocked n (·.leaveActive e n)
/-- COMPLETION_OWN_CLEAR (R139). -/
def execCompletionOwnClear (n : Fin 128) (s : State) : Host.Outcome State Fault Refusal :=
  s.coreStep fun e c => c.whenClocked n (·.ownClear e n)
/-- FENCE_WRITE (R145). -/
def execFenceWrite (k : Fin 64) (data : Word) (s : State) : Host.Outcome State Fault Refusal :=
  s.chipStep fun _ c => whenReady c (·.fenceWrite k data)

end Sys2Proof.Machine
end

