-- ==== Sys2Proof/Machine/Post.lean ====
section
/-! DEFINITION. POST, SEAL and DSET (06 R142 to R144) and the return of descriptor reads, for transfers and for the group search
of POST and DSET (R129). -/

namespace Sys2Proof.Machine

namespace Chip

/-- The instruction that a thread in a slot has issued and not completed. -/
def actOf (c : Chip) (n k : Nat) : Option Act := (c.slot n k).bind (·.act)
/-- The chip with it. -/
def setAct (c : Chip) (n k : Nat) (a : Option Act) : Chip :=
  match c.slot n k with
  | some s => c.setSlot n k (some { s with act := a })
  | none => c

/-- An instruction of the kind named, just issued. -/
def newAct (c : Chip) (n k : Nat) (kind : ActKind) (wd arg : Nat) : Act :=
  { kind := kind, wd := wd, pc := c.issuePc n k, descs := [], fetch := none, fetching := false, redo := false, go := false,
    arg := arg }

/-- A burst of a POST or DSET. -/
def actBurst (s : Slot) (n : Nat) (a : Act) (use : BurstFor) (kind : BurstKind) (d : Nat) (gen : Option Nat)
    (data : List WLine) : Burst :=
  { unitBurst n use s.live.cls kind (d / 64 * 64) 1 data with
    thr := s.t, gen := s.live.gen, pc := a.pc, desc := d, dgen := gen }

/-- The group search of a POST or DSET reads the descriptor at an address (R129). -/
def actRead (e : Env) (c : Chip) (n k : Nat) (a : Act) (addr : Nat) : Chip :=
  match c.slot n k with
  | none => c
  | some s =>
    let b := actBurst s n a (.actDesc n k) .read addr none []
    match e.prot.check s.live.pd addr 32 .read with
    | .fail w => c.xferFault e n s.t (protFault n a.pc false addr 0 w (some addr))
    | .ok w =>
      let c := (c.setAct n k (some { a with fetch := some addr, fetching := true })).cntNeedle n 0x023 1
      c.present (e.prot.home w) { b with tdom := e.prot.tdom w }

/-- The STATUS writes of a POST are presented in chain order; one that fails the check faults the thread (R142, R260). -/
def postWrites (e : Env) (c : Chip) (n k : Nat) (a : Act) : List DRec → Chip
  | [] => c
  | r :: rest =>
    match c.slot n k with
    | none => c
    | some s =>
      let st : Word := if a.kind = .commit
        then fset (fset r.status ⟨63, 63⟩ 0) ⟨23, 0⟩ c.ctr
        else 0#64
      let b := actBurst s n a (.actStatus n k r.desc.addr) .ack r.desc.addr r.desc.fenceGen [wordLine (r.desc.addr + 24) st]
      match e.prot.check s.live.pd b.addr 64 .ackWrite with
      | .fail w => c.xferFault e n s.t (protFault n a.pc true b.addr 4 w (some r.desc.addr))
      | .ok w => (c.present (e.prot.home w) { b with tdom := e.prot.tdom w }).postWrites e n k a rest

/-- A POST whose group is known: COMMIT checks every descriptor against the fences before it writes any; DISCARD skips the
descriptors that match (R142). -/
def postGo (e : Env) (c : Chip) (n k : Nat) (a : Act) : Chip :=
  match c.slot n k with
  | none => c
  | some s =>
    let judged := a.descs.foldl (fun (acc : Chip × List (DRec × Option Nat)) r =>
      let m := acc.1.fenceMatch r.desc
      (m.1, acc.2 ++ [(r, m.2)])) (c, [])
    let c := judged.1
    match (if a.kind = .commit then judged.2.findSome? fun q => q.2.map fun f => (q.1.desc.addr, f) else none) with
    | some (addr, f) => c.xferFault e n s.t { FaultInfo.plain cStale n a.pc f with dv := true, daddr := addr }
    | none =>
      let todo := ((judged.2.filter fun q => q.2.isNone).map (·.1)).map fun r => { r with pend := 1, statusSent := true }
      let a := { a with descs := todo, go := true }
      (c.setAct n k (some a)).postWrites e n k a todo

/-- DSET MODE 0b00 with the group known (R144). The group at the new DPTR is to be found by reading from there: no descriptor
there has been read (R129). -/
def dsetGo (c : Chip) (n k : Nat) (a : Act) (empty : Bool) : Chip :=
  match c.slot n k with
  | none => c
  | some s =>
    if empty then
      let c := c.setSlot n k (some { s with base := some a.arg, grp := none })
      c.landResult n k fun th => { th with dptr := a.arg / 32 % 2 ^ 43 }.report false
    else c.landResult n k fun th => th.report true

/-- The group of a POST or DSET is known. -/
def actGroup (e : Env) (c : Chip) (n k : Nat) (a : Act) : Chip :=
  match a.kind with
  | .dset => c.dsetGo n k a (a.descs == [])
  | _ => c.postGo e n k a

/-- A POST or DSET starts: the group as the slot keeps it, or the search for it (R129). -/
def actStart (e : Env) (c : Chip) (n k : Nat) (a : Act) : Chip :=
  match c.slot n k with
  | none => c
  | some s => match s.grp with
    | some g => (c.setAct n k (some { a with descs := g.descs })).actGroup e n k { a with descs := g.descs }
    | none => c.actRead e n k a (s.base.getD (s.live.dptr * 32))

/-- A descriptor read of a POST or DSET has returned (R128, R129). -/
def actArrive (e : Env) (c : Chip) (n k : Nat) (a : Act) (addr : Nat) (l : Line) (poison : Bool) : Chip :=
  match c.slot n k with
  | none => c
  | some s =>
    if a.redo then c.actRead e n k { a with descs := [], redo := false } (s.base.getD (s.live.dptr * 32))
    else if poison then c.xferFault e n s.t { FaultInfo.plain cDesc n a.pc 1 with dv := true, daddr := addr }
    else
      let d := Desc.ofLine addr l
      if d.staged ∧ a.descs.length < 64 then
        c.actRead e n k { a with descs := a.descs ++ [DRec.of d], fetching := false } d.nextAddr
      else
        let a := { a with fetch := none, fetching := false }
        let c := c.setSlot n k (some { s with grp := some { descs := a.descs, fill := addr }, act := some a })
        c.actGroup e n k a

/-- The oldest descriptor read of a needle that can be judged is judged (R128); the read of NEXT that MOVEC makes ahead is
judged once the descriptor before it is closed (R131, R148). -/
def descFetchDone (e : Env) (c : Chip) (n : Nat) : Chip :=
  let nd := c.ndl n
  let blocked (d : Option Nat × Nat × Line × Bool) : Bool := match d.1, nd.active with
    | none, some x => x.stage == .data || c.descBlocked n x d.2.1 d.2.2.1 d.2.2.2
    | _, _ => false
  match nd.descIn.find? fun d => !blocked d with
  | none => c
  | some d =>
    let c := c.setNdl n { nd with descIn := nd.descIn.erase d }
    match d.1 with
    | none => match nd.active with
      | some x => if x.fetching ∧ x.fetch = some d.2.1 then c.descArrive e n x d.2.1 d.2.2.1 d.2.2.2 else c
      | none => c
    | some k => match c.actOf n k with
      | some a => if a.fetching ∧ a.fetch = some d.2.1 then c.actArrive e n k a d.2.1 d.2.2.1 d.2.2.2 else c
      | none => c

/-- A COMMIT whose STATUS writes have all been acknowledged takes an entry of the completion queue, when one is free
(R139, R142); the act keeps the entry's number plus 1. -/
def postEntry (c : Chip) (n k : Nat) : Chip :=
  match c.slot n k with
  | none => c
  | some s => match s.act with
    | none => c
    | some a =>
      if a.kind = .commit ∧ a.go ∧ a.arg = 0 ∧ a.descs ≠ [] ∧ a.descs.all (fun r => r.pend == 0) ∧ (c.ndl n).cq.length < 8 then
        let ent : CqEntry :=
          { id := c.xid, t := s.t, slot := k, pc := a.pc, cls := s.live.cls, pd := s.live.pd, gen := s.live.gen, spec := false,
            post := true, descs := a.descs, stopped := false }
        let c := { c with xid := c.xid + 1 }
        let c := c.setNdl n { c.ndl n with cq := (c.ndl n).cq ++ [ent] }
        c.setAct n k (some { a with arg := ent.id + 1 })
      else c

/-- A STATUS write of a POST has been acknowledged. -/
def actAcked (c : Chip) (n k addr : Nat) : Chip :=
  match c.actOf n k with
  | some a =>
    let f (r : DRec) : DRec := if r.desc.addr = addr then { r with pend := r.pend - 1 } else r
    (c.setAct n k (some { a with descs := a.descs.map f })).postEntry n k
  | none => c

/-- Whether an OWN clear of a thread has been presented and not sent. -/
def ownUnsent (c : Chip) (n t : Nat) : Bool := (c.heldBursts fun b => b.req == n && b.thr == t && isOwn b.use) != []

/-- Whether a POST may complete (R142): the STATUS writes are acknowledged, and for a COMMIT every OWN clear has left the
needle and those of SEAL_POST descriptors have been acknowledged. -/
def postReady (c : Chip) (n t : Nat) (a : Act) : Bool :=
  a.go && a.descs.all (fun r => r.pend == 0) &&
    (a.kind != .commit || a.descs == [] ||
      (a.arg != 0 && !c.ownUnsent n t &&
        match (c.ndl n).cq.find? fun x => x.id + 1 == a.arg with
        | none => true
        | some x => x.descs.all fun r => decide (r.own ≠ 0) && (!r.desc.sealPost || r.own == 2)))

/-- A POST completes (R142): wd, F and Z; a COMMIT sets DPTR and is a post (R40), a DISCARD moves the fill point to DPTR.
(log 79, DEDUCED) -/
def postComplete (c : Chip) (n k : Nat) : Chip :=
  match c.slot n k with
  | none => c
  | some s => match s.act with
    | none => c
    | some a =>
      if (a.kind = .commit ∨ a.kind = .discard) ∧ c.postReady n s.t a then
        let g := a.descs.length
        let dptr := match a.kind, a.descs.getLast? with
          | .commit, some r => r.desc.nextAddr / 32
          | _, _ => s.live.dptr
        let c := c.setSlot n k (some { s with base := some (dptr * 32), grp := some { descs := [], fill := dptr * 32 } })
        let c := c.landResult n k fun th =>
          { th.setReg a.wd (BitVec.ofNat 32 g) with fF := false, fZ := decide (g = 0), dptr := dptr }
        if a.kind = .commit then (c.cntNeedle n 0x026 1).measurePost s.live
        else (c.cntNeedle n 0x027 1).tally (.ndlXfCnt n) F.NdlXfCnt.DISC g
      else c.postEntry n k

/-- SEAL (R143): the thread issues nothing until it completes. -/
def doSeal (c : Chip) (n k : Nat) : Chip :=
  match c.slot n k with
  | some s => c.setSlot n k (some { s with sealing := some (c.issuePc n k) })
  | none => c

/-- Whether a POST is pending: it has writes that are still to be issued. -/
def isPost (a : Act) : Bool := a.kind == .commit || a.kind == .discard

/-- A SEAL completes (R143): no write of the thread is on its way, and none is still to be issued by its completion queue or by
a POST before the SEAL. -/
def sealComplete (c : Chip) (n k : Nat) : Chip :=
  match c.slot n k with
  | none => c
  | some s =>
    if s.sealing.isSome ∧ ¬ c.writesOut s.t ∧ ¬ hasCq (c.ndl n) s.t ∧ ¬ s.act.any isPost then
      c.setSlot n k (some { s with sealing := none })
    else c

/-- DSET MODE 0b00 (R144). -/
def dsetSet (e : Env) (c : Chip) (n k ws : Nat) : Chip :=
  let th := c.live n k
  if ¬ th.addressOk ws then c.resultFlag n k true
  else c.actStart e n k (c.newAct n k .dset 0 (th.address ws))

/-- DSET MODE 0b01 (R144). -/
def dsetGet (c : Chip) (n k wd : Nat) : Chip :=
  c.mapLive n k fun th =>
    let a := th.dptr * 32
    ((th.setReg (wd + 1) (BitVec.ofNat 32 (a / 2 ^ 32 % 2 ^ 16))).setReg wd (BitVec.ofNat 32 a)).report false

end Chip

/-- POST_COMMIT (R142). -/
def execPostCommit (n : Fin 128) (k : Fin 8) (s : State) : Host.Outcome State Fault Refusal :=
  s.issue n k fun e c i => match i with
    | .post wd mode => if mode = 0 then some (c.actStart e n k (c.newAct n k .commit wd 0)) else none
    | _ => none
/-- POST_DISCARD (R142). -/
def execPostDiscard (n : Fin 128) (k : Fin 8) (s : State) : Host.Outcome State Fault Refusal :=
  s.issue n k fun e c i => match i with
    | .post wd mode => if mode = 1 then some (c.actStart e n k (c.newAct n k .discard wd 0)) else none
    | _ => none
/-- POST_COMPLETE (R142). -/
def execPostComplete (n : Fin 128) (k : Fin 8) (s : State) : Host.Outcome State Fault Refusal :=
  s.coreStep fun _ c => c.whenClocked n (·.postComplete n k)
/-- SEAL (R143). -/
def execSeal (n : Fin 128) (k : Fin 8) (s : State) : Host.Outcome State Fault Refusal :=
  s.issue n k fun _ c i => match i with
    | .seal => some (c.doSeal n k)
    | _ => none
/-- SEAL_COMPLETE (R143). -/
def execSealComplete (n : Fin 128) (k : Fin 8) (s : State) : Host.Outcome State Fault Refusal :=
  s.coreStep fun _ c => c.whenClocked n (·.sealComplete n k)
/-- DSET_SET (R144). -/
def execDsetSet (n : Fin 128) (k : Fin 8) (s : State) : Host.Outcome State Fault Refusal :=
  s.issue n k fun e c i => match i with
    | .dset _ ws mode => if mode = 0 then some (c.dsetSet e n k ws) else none
    | _ => none
/-- DSET_GET (R144). -/
def execDsetGet (n : Fin 128) (k : Fin 8) (s : State) : Host.Outcome State Fault Refusal :=
  s.issue n k fun _ c i => match i with
    | .dset wd _ mode => if mode = 1 then some (c.dsetGet n k wd) else none
    | _ => none
/-- DESC_FETCH_DONE (R128). -/
def execDescFetchDone (n : Fin 128) (s : State) : Host.Outcome State Fault Refusal :=
  s.coreStep fun e c => c.whenClocked n (·.descFetchDone e n)
/-- FENCE_EXPIRE (R146). -/
def execFenceExpire (k : Fin 64) (s : State) : Host.Outcome State Fault Refusal :=
  s.coreStep fun _ c => c.fenceExpire k

end Sys2Proof.Machine
end

