-- ==== Sys2Proof/Machine/Irq.lean ====
section
/-! DEFINITION. Interrupt sources and lines (14_faults_and_black_box.md R300 to R302, 15 R323, 16 R330): which sources are asserted
and which lines are 1. Sending a message is in Mesh.lean. -/

namespace Sys2Proof.Machine

/-- Whether some W1C bit of a register is 1 in a value. -/
def w1cAny (r : Reg) (w : Word) : Bool := r.fields.any fun f => f.2 == .w1c && fget w f.1 != 0

/-- The register whose W1C bits assert a source (R300, R323, R330); none for the sources that are never asserted, for the
notices of the crossing watermarks and for the counter groups. -/
def sourceReg (s : Nat) : Option Reg :=
  if s < 128 then some (.ndlXfStat s)
  else if s < 384 then some (.rlStat (s - 128))
  else if s < 640 then some (.spStat (s - 384))
  else if s < 656 then some (.ipStat (s - 640))
  else if s < 672 then some (.mpStat (s - 656))
  else match s with
    | 672 => some .otStat
    | 677 => some .spcStat
    | 678 => some .thStat
    | 679 => some .lkStat
    | 680 => some .xfStat
    | 681 => some .decStat
    | 682 => some .seamStat
    | 684 => some .commitStat
    | 685 => some .pwrStat
    | 686 => some .fltStat
    | 687 => some .bbStat
    | 768 => some .wdStat
    | 769 => some .calStat
    | 770 => some .monStat
    | 771 => some .stkStat
    | 772 => some .rotStat
    | 970 => some .hvStat
    | 971 => some .isStat
    | _ => none

namespace Chip

/-- Whether counter i asks for an interrupt (R330). -/
def ovfIrq (c : Chip) (i : Nat) : Bool :=
  decide (i < 592) && c.bit (.pmcCnt i) F.PmcCnt.OVF && c.bit (.pmcCfg i) F.PmcCfg.OVI

/-- Whether a source is asserted (R300, R323, R330). -/
def asserted (e : Env) (c : Chip) (s : Nat) : Bool :=
  if s = 683 then w1cAny .seal (e.prot.rd .seal)
  else if 673 ≤ s ∧ s ≤ 676 then c.bit (.otWmLvl (s - 673)) F.OtWmLvl.NOTICE
  else if 896 ≤ s ∧ s ≤ 969 then (List.range 8).any fun j => c.ovfIrq (8 * (s - 896) + j)
  else
    (match sourceReg s with | some r => w1cAny r (c.rd r) | none => false) ||
      (decide (384 ≤ s ∧ s < 640) && c.bit (.spLvl (s - 384)) F.SpLvl.NOTICE)

/-- The enabled asserted sources on a line (R301). -/
def lineSources (e : Env) (c : Chip) (k : Nat) : Nat :=
  ((List.range 1024).filter fun s =>
    c.bit (.irqRt s) F.IrqRt.EN && c.fld (.irqRt s) F.IrqRt.LINE == k && c.asserted e s).length

/-- The level of DXW_IRQ[k] (R301): 0 while a reset is in progress and until READY (13 R284). -/
def irqLevel (e : Env) (c : Chip) (k : Nat) : Bool :=
  c.pwr.phase == .running && c.lineSources e k != 0

/-- What a read of DXW_IRQ_PENDk gives. -/
def irqPendWord (e : Env) (c : Chip) (k : Nat) : Word :=
  BitVec.ofNat 64 ((List.range 64).foldl (fun v j => v + b2n (c.asserted e (64 * k + j)) * 2 ^ j) 0)

/-- The data of a message of line k (R302): DATA, and k in bits 37:32. -/
def irqData (c : Chip) (k : Nat) : Word := BitVec.ofNat 64 (c.fld (.irqLnCfg k) F.IrqLnCfg.DATA + k * 2 ^ 32)

/-- Whether line k has a message to send (R302). -/
def irqDue (e : Env) (c : Chip) (k : Nat) : Bool :=
  c.bit (.irqLnCfg k) F.IrqLnCfg.MSI && c.bit (.irqLnCfg k) F.IrqLnCfg.ARMED && c.irqLevel e k

/-- The burst that carries a message of line k, and the check that it passes (R302). -/
def irqBurst (e : Env) (c : Chip) (k : Nat) : Burst × Checked :=
  let a := c.fld (.irqLnAddr k) F.IrqLnAddr.ADDR * 8
  (unitBurst 255 (.irq k) 0 .posted (a / 64 * 64) 1 [wordLine a (c.irqData k)],
    e.prot.check (c.fld (.irqLnCfg k) F.IrqLnCfg.PD) a 8 .postedWrite)

end Chip

end Sys2Proof.Machine
end

