-- ==== Sys2Proof/Machine/BlackBox.lean ====
section
/-! DEFINITION. The fault queue's read side and the black-box log (14_faults_and_black_box.md R296, R303 to R307). -/

namespace Sys2Proof.Machine

namespace Chip

/-- POP (R296). -/
def faultPop (c : Chip) : Chip := { c with faults := c.faults.drop 1 }

/-- Always-on cycles since cold reset (R304): a tick of DXW_TH_TIMER is 10 ns and an always-on cycle 50 ns. -/
def atime (c : Chip) : Nat := (c.rd .thTimer).toNat / 5 % 2 ^ 48

/-- Word 1 of an entry (R304). -/
def bbWord1 (c : Chip) (ev : BbEvent) : Word :=
  BitVec.ofNat 64 (ev.ty % 256 * 2 ^ 56 + ev.fine % 8 * 2 ^ 53 + b2n c.bb.loss * 2 ^ 52 + c.atime)

/-- Whether an event's type is a freeze trigger (R305). -/
def bbTrigger (c : Chip) (ty : Nat) : Bool := ty == 0x0E || (decide (ty < 64) && (c.rd .bbFrzen).toNat / 2 ^ ty % 2 == 1)

/-- What is left to record after an entry of a type (R305): POST entries after a trigger; nothing after a FREEZE written
while they are being recorded. -/
def bbPost (c : Chip) (ty : Nat) : Option Nat :=
  match c.bb.postLeft with
  | none => if c.bbTrigger ty then some (c.fld .bbCtl F.BbCtl.POST) else none
  | some k => if ty = 0x0E then some 0 else some (k - 1)

/-- The oldest event of the island's FIFO is written at WIDX (R303 to R305). Nothing is recorded once the POST entries
have been. -/
def bbRecord (c : Chip) : Chip :=
  match c.bb.fifo with
  | [] => c
  | ev :: rest =>
    if c.bit .bbStat F.BbStat.FROZEN ∨ c.bb.postLeft = some 0 then c
    else
      let w := c.fld .bbStat F.BbStat.WIDX
      let log := [ev.xing, c.bbWord1 ev, ev.p0, ev.p1].zipIdx.foldl (fun l x => Tab.put 0#64 l (4 * w + x.2) x.1) c.bb.log
      let first : Bool := c.bb.postLeft.isNone && c.bbTrigger ev.ty
      let bb := { c.bb with log := log, fifo := rest, loss := false, postLeft := c.bbPost ev.ty }
      let c := { c with bb := bb }.setF .bbStat F.BbStat.WIDX (w + 1)
      if first then c.setF .bbStat F.BbStat.TRIG w else c

/-- After the POST entries recording stops (R305); a flush is due where DXW_BB_FLUSH.EN is 1 (R307).
(log 59, DEDUCED) -/
def bbFreezeDone (c : Chip) : Chip :=
  if c.bb.postLeft = some 0 ∧ ¬ c.bit .bbStat F.BbStat.FROZEN then
    let c := { c with bb := { c.bb with fifo := [], postLeft := none, owed := c.bit .bbFlush F.BbFlush.EN } }
    (c.flag .bbStat F.BbStat.FROZEN).flag .bbStat F.BbStat.FRZ
  else c

/-- FREEZE (R305).
(log 59, DEDUCED) -/
def bbFreeze (c : Chip) : Chip := c.bbEvent 0x0E 0#64 0#64

/-- ARM (R305): recording resumes; a copy in progress ends, since it is taken while FROZEN is 1 (R307).
(log 59, DEDUCED) -/
def bbArm (c : Chip) : Chip :=
  if c.bit .bbStat F.BbStat.FROZEN then
    let c := c.dropBursts fun b => b.req == 130
    let c := { c with bb := { c.bb with owed := false, flush := none, loss := false } }
    (c.setF .bbStat F.BbStat.FROZEN 0).setF .bbStat F.BbStat.DONE 0
  else c

/-- A write of DXW_BB_SOFT (R304); `src` is 0 control port, 1 SETAT, 2 remote, 3 debug. -/
def bbSoft (c : Chip) (v : Word) (src : Nat) : Chip := c.bbEvent 0x0D v (BitVec.ofNat 64 src)

/-- Line i of the log: two entries. -/
def bbLine (c : Chip) (i : Nat) : WLine :=
  let w (j : Nat) : Nat := (Tab.get 0#64 c.bb.log (8 * i + j)).toNat
  { data := BitVec.ofNat 512 ((List.range 8).foldl (fun v j => v + w j * 2 ^ (64 * j)) 0)
    be := BitVec.allOnes 64, poison := false }

/-- The bursts of the copy from burst i on, in ascending order (R307): one that fails the check stops the copy. -/
def bbFlushFrom (e : Env) (c : Chip) : Nat → Nat → Chip
  | 0, _ => c
  | k + 1, i =>
    let a := c.fld .bbFlush F.BbFlush.ADDR * 2 ^ 15 + i * 1024
    let b := unitBurst 130 (.flush (32 * c.bb.copies + i)) 3 .ack a 16 ((List.range 16).map fun j => c.bbLine (16 * i + j))
    let r := c.issue e (c.fld .bbFlush F.BbFlush.PD) b
    match r.2 with
    | .ok _ => r.1.bbFlushFrom e k (i + 1)
    | .fail _ => { r.1.flag .bbStat F.BbStat.FLUSH_ERR with bb := { r.1.bb with flush := none } }

/-- The flusher copies the log to host memory (R307). -/
def bbFlush (e : Env) (c : Chip) : Chip :=
  if c.bb.owed ∧ c.bit .bbStat F.BbStat.FROZEN then
    { c with bb := { c.bb with owed := false, flush := some 32, copies := c.bb.copies + 1 } }.bbFlushFrom e 32 0
  else c

/-- The answer to burst i: DONE after the last of the copy, or the copy stops (R307). A burst of an earlier copy counts for
nothing. -/
def bbFlushAck (c : Chip) (i : Nat) (ok : Bool) : Chip :=
  match c.bb.flush with
  | none => c
  | some k =>
    if i / 32 ≠ c.bb.copies then c
    else if ok then
      if k ≤ 1 then { c with bb := { c.bb with flush := none } }.flag .bbStat F.BbStat.DONE
      else { c with bb := { c.bb with flush := some (k - 1) } }
    else
      let c := c.dropBursts fun b => b.req == 130
      { c with bb := { c.bb with flush := none } }.flag .bbStat F.BbStat.FLUSH_ERR

end Chip

/-- FAULT_POP (R296). -/
def execFaultPop (s : State) : Host.Outcome State Fault Refusal := s.chipStep fun _ c => whenReady c (·.faultPop)
/-- BB_EVENT_RECORD (R303). -/
def execBbEventRecord (s : State) : Host.Outcome State Fault Refusal := s.chipStep fun _ c => c.bbRecord
/-- BB_FREEZE (R305). -/
def execBbFreeze (s : State) : Host.Outcome State Fault Refusal := s.chipStep fun _ c => whenReady c (·.bbFreeze)
/-- BB_FREEZE_COMPLETE (R305). -/
def execBbFreezeComplete (s : State) : Host.Outcome State Fault Refusal := s.chipStep fun _ c => c.bbFreezeDone
/-- BB_ARM (R305). -/
def execBbArm (s : State) : Host.Outcome State Fault Refusal := s.chipStep fun _ c => whenReady c (·.bbArm)
/-- BB_SOFT (R304). -/
def execBbSoft (value : Word) (s : State) : Host.Outcome State Fault Refusal :=
  s.chipStep fun _ c => whenReady c (·.bbSoft value 0)
/-- BB_FLUSH (R307). -/
def execBbFlush (s : State) : Host.Outcome State Fault Refusal := s.chipStep fun e c => whenReady c (·.bbFlush e)

end Sys2Proof.Machine
end

