-- ==== Sys2Proof/Machine/Harvest.lean ====
section
/-! DEFINITION. Performance counters, the harvest and instruction sampling (16_performance_monitoring.md R324 to R336). -/

namespace Sys2Proof.Machine

/-- One whole line of a record from its eight words. -/
def fullLine (ws : List Word) : WLine :=
  { data := BitVec.ofNat 512 (ws.foldr (fun w v => w.toNat + 2 ^ 64 * v) 0), be := BitVec.allOnes 64, poison := false }

/-- A half line of 32 bytes at an address of 32 bytes, from its four words. -/
def halfLine (addr : Nat) (ws : List Word) : WLine :=
  let k := addr / 32 % 2
  { data := BitVec.ofNat 512 ((ws.foldr (fun w v => w.toNat + 2 ^ 64 * v) 0) * 2 ^ (256 * k))
    be := BitVec.ofNat 64 ((2 ^ 32 - 1) * 2 ^ (32 * k)), poison := false }

/-- The events that EVENT may name for the unit of counter i (R326). -/
def eventOk (i ev : Nat) : Bool :=
  ev ≤ 2 ||
  (if i < 512 then (decide (0x010 ≤ ev) && decide (ev ≤ 0x01C)) || (decide (0x020 ≤ ev) && decide (ev ≤ 0x029))
   else if i < 544 then (decide (0x080 ≤ ev) && decide (ev ≤ 0x08C)) || (decide (0x090 ≤ ev) && decide (ev ≤ 0x093))
   else if i < 576 then decide (0x0C0 ≤ ev) && decide (ev ≤ 0x0C6)
   else if i < 584 then decide (0x0E0 ≤ ev) && decide (ev ≤ 0x0E9)
   else if i < 588 then decide (0x110 ≤ ev) && decide (ev ≤ 0x115)
   else decide (0x130 ≤ ev) && decide (ev ≤ 0x134))

namespace Chip

/-! Counters (R325 to R330) -/

/-- A write of DXW_PMC_CFGi (R326, R327): an event that the unit does not have is not accepted, and QV only for the spool
controller. -/
def pmcCfgWrite (c : Chip) (i : Nat) (w : Word) : Chip :=
  let c := c.setF (.pmcCfg i) F.PmcCfg.EN (fget w F.PmcCfg.EN)
  let c := c.setF (.pmcCfg i) F.PmcCfg.OVI (fget w F.PmcCfg.OVI)
  let c := if eventOk i (fget w F.PmcCfg.EVENT) then c.setF (.pmcCfg i) F.PmcCfg.EVENT (fget w F.PmcCfg.EVENT) else c
  if fbit w F.PmcCfg.QV ∧ ¬(576 ≤ i ∧ i < 584) then c
  else (c.setF (.pmcCfg i) F.PmcCfg.QV (fget w F.PmcCfg.QV)).setF (.pmcCfg i) F.PmcCfg.QSPOOL (fget w F.PmcCfg.QSPOOL)

/-- The most that an event adds in one store cycle (R326): one for each slot, set, spool, mark, tag, memory or thread that it can
befall at once, four head reads of each spool (R68), and the lines or words of a burst; for what the spec does not bound, any
count. A needle or mesh cycle is longer than half a store cycle.
(log 103, DESIGN CHOICE) -/
def eventMost (ev : Nat) : Nat :=
  if ev = 0x001 ∨ ev = 0x0E9 then 1
  else if ev = 0x018 ∨ ev = 0x134 then 4
  else if [0x017, 0x019, 0x01A, 0x025, 0x026, 0x027].contains ev then 16
  else if [0x021, 0x023, 0x028, 0x083, 0x084].contains ev then 32
  else if ev = 0x0E1 then 4 * 256
  else if ev = 0x0E6 then 256 * 512
  else if 0x0E0 ≤ ev ∧ ev ≤ 0x0E8 then 2 * 256
  else if [0x08B, 0x112].contains ev then 256
  else if [0x130, 0x131].contains ev then 1024
  else if ev = 0x029 ∨ ev = 0x133 then 2 ^ 18
  else if [0x089, 0x08A, 0x113, 0x132].contains ev then 2 ^ 48 - 1
  else 2

/-- Whether the unit of counter i can count at all (R325): a needle with its clock running, Seam with SEAM on. -/
def unitCounts (c : Chip) (i : Nat) : Bool :=
  if i < 512 then c.ndlCounts (i / 4) else if 584 ≤ i ∧ i < 588 then c.seamCounts else true

/-- Whether the increment that a write or CLEAR discards would have wrapped counter i (R329). SCYC adds 1 in every cycle; which
other event falls on the write's cycle the commands do not say: the increment is the free value number x, within what the
counter's event adds.
(log 103, DESIGN CHOICE) -/
def lostWrap (c : Chip) (i x : Nat) : Bool :=
  let cfg := c.rd (.pmcCfg i)
  let ev := fget cfg F.PmcCfg.EVENT
  let inc := if ev = 0 then 0 else if ev = 0x002 then 1 else Config.cycles x % (eventMost ev + 1)
  !c.bit .pmcCtl F.PmcCtl.FREEZE && fbit cfg F.PmcCfg.EN && c.unitCounts i &&
    decide (2 ^ 48 ≤ c.fld (.pmcCnt i) F.PmcCnt.VALUE + inc)

/-- A write of DXW_PMC_CNTi (R329): VALUE, OVF and LOST_OVF cleared where the write has 1, and LOST_OVF set where the
increment it discards would have wrapped the counter.
(log 103, DESIGN CHOICE) -/
def pmcCntWrite (c : Chip) (i : Nat) (w : Word) : Chip :=
  let lost := c.lostWrap i c.free
  let c := c.spend.setF (.pmcCnt i) F.PmcCnt.VALUE (fget w F.PmcCnt.VALUE)
  let c := if fbit w F.PmcCnt.OVF then c.setF (.pmcCnt i) F.PmcCnt.OVF 0 else c
  let c := if fbit w F.PmcCnt.LOST_OVF then c.setF (.pmcCnt i) F.PmcCnt.LOST_OVF 0 else c
  if lost then c.flag (.pmcCnt i) F.PmcCnt.LOST_OVF else c

/-- CLEAR (R329): every counter is 0 but for the LOST_OVF of one whose wrap falls on the same cycle.
(log 103, DESIGN CHOICE) -/
def pmcClear (c : Chip) : Chip :=
  let d := (List.range 592).foldl (fun d i =>
    d.wr (.pmcCnt i) (if c.lostWrap i (c.free + i) then F.PmcCnt.LOST_OVF.mask else 0#64)) c
  { d with free := c.free + 592 }

/-- What a read of DXW_PMC_OVFk gives. -/
def pmcOvfWord (c : Chip) (k : Nat) : Word :=
  BitVec.ofNat 64 ((List.range 64).foldl (fun v j =>
    v + b2n (decide (64 * k + j < 592) && c.bit (.pmcCnt (64 * k + j)) F.PmcCnt.OVF) * 2 ^ j) 0)

/-! The harvest (R331 to R334) -/

/-- The record's address. -/
def hvBase (c : Chip) : Nat := c.fld .hvAddr F.HvAddr.ADDR * 2 ^ 13

/-- A write of a harvest record. -/
def isHarvest : BurstFor → Bool
  | .harvest _ => true
  | _ => false

/-- The record stops for good (R334): no further burst of it is presented, and those that wait at a port are withdrawn. -/
def hvFail (c : Chip) : Chip :=
  let c := c.dropBursts fun b => isHarvest b.use
  match c.hv.record with
  | some r => { c with hv := { c.hv with record := some { r with failed := true } } }
  | none => c

/-- The number of a step of the record in hand: an answer to an earlier record's writes names another. -/
def hvStep (c : Chip) (stage : Nat) : Nat := 8 * c.fld .hvStat F.HvStat.SEQ + stage

/-- A burst of the record is presented, unless the record has stopped; one that fails the check stops it. -/
def hvBurst (e : Env) (c : Chip) (stage line n : Nat) (data : List WLine) : Chip :=
  if c.hv.record.any (·.failed) then c
  else
    let b := unitBurst 129 (.harvest (c.hvStep stage)) 3 .ack (c.hvBase + line * 64) n data
    let r := c.issue e (c.fld .hvCtl F.HvCtl.PD) b
    match r.2 with
    | .ok _ => r.1
    | .fail _ => r.1.hvFail

/-- Lines l to l + n − 1 of the record: the snapshot from counter 8 (l − 1) on.
(log 67, DEDUCED) -/
def hvLines (c : Chip) (l n : Nat) : List WLine :=
  (List.range n).map fun j => fullLine ((List.range 8).map fun k => c.rd (.pmcSnap (8 * (l - 1 + j) + k)))

/-- The step of a record begins: its bursts are presented (R334).
(log 67, DEDUCED) -/
def hvStage (e : Env) (c : Chip) (r : Record) (stage : Nat) : Chip :=
  match stage with
  | 1 =>
    let w0 := fset (fset c.hv.prev ⟨31, 0⟩ (r.h0.toNat % 2 ^ 32 + (2 ^ 32 - 1))) ⟨63, 63⟩ 1
    { c with hv := { c.hv with record := some { r with stage := 1, pend := 1 } } }.hvBurst e 1 0 1 [wordLine c.hvBase w0]
  | 2 =>
    let c := { c with hv := { c.hv with record := some { r with stage := 2, pend := 5 } } }
    [(1, 15), (16, 16), (32, 16), (48, 16), (64, 11)].foldl (fun c b => c.hvBurst e 2 b.1 b.2 (c.hvLines b.1 b.2)) c
  | _ =>
    { c with hv := { c.hv with record := some { r with stage := 3, pend := 1 } } }.hvBurst e 3 0 1
      [fullLine [r.h0, r.h1, r.h2, 592#64, 0#64, 0#64, 0#64, 0#64]]

/-- A snapshot point (R331, R333): every counter is copied and the record begins, unless one is still being written. -/
def hvSnapshot (e : Env) (c : Chip) (kind : Nat) (late : Bool) : Chip :=
  if c.bit .hvStat F.HvStat.BUSY then c.flag .hvStat F.HvStat.MISSED
  else
    let seq := (c.fld .hvStat F.HvStat.SEQ + 1) % 2 ^ 32
    let c := (c.setF .hvStat F.HvStat.SEQ seq).setF .hvStat F.HvStat.BUSY 1
    let c := (List.range 592).foldl (fun c i => c.wr (.pmcSnap i) (c.rd (.pmcCnt i))) c
    let h0 : Word := BitVec.ofNat 64 (b2n late * 2 ^ 35 + kind % 8 * 2 ^ 32 + seq)
    c.hvStage e { stage := 0, pend := 0, failed := false, h0 := h0, h1 := c.rd .otXing, h2 := c.rd .thTimer } 1

/-- OP = NOW (R332, R333). -/
def harvestNow (e : Env) (c : Chip) : Chip :=
  if c.bit .hvStat F.HvStat.BUSY then c.flag .hvStat F.HvStat.REFUSED else c.hvSnapshot e 1 false

/-- A harvest at a target is accepted (R332): kind 2 AT, 3 RING. -/
def harvestAccept (e : Env) (c : Chip) (kind target : Nat) : Chip :=
  if c.bit .hvStat F.HvStat.PEND then c.flag .hvStat F.HvStat.REFUSED
  else if c.reached target then (c.flag .hvStat F.HvStat.LATE).hvSnapshot e kind true
  else
    let c := (c.setF .hvStat F.HvStat.PEND 1).setF .hvStat F.HvStat.PKIND kind
    { c with hv := { c.hv with target := some target } }

/-- No harvest is pending any more. -/
def hvUnpend (c : Chip) : Chip :=
  { (c.setF .hvStat F.HvStat.PEND 0).setF .hvStat F.HvStat.PKIND 0 with hv := { c.hv with target := none } }

/-- OP = CANCEL (R332): a harvest whose edge has come but which has not been taken is removed with the rest. -/
def harvestCancel (c : Chip) : Chip :=
  let tb : Timebase := { c.tb with agenda := c.tb.agenda.filter fun t => t != .harvest }
  { c.hvUnpend with tb := tb }

/-- The pending harvest's target has been reached (R332). -/
def harvestFire (e : Env) (c : Chip) : Chip :=
  if c.bit .hvStat F.HvStat.PEND then
    let kind := c.fld .hvStat F.HvStat.PKIND
    c.hvUnpend.hvSnapshot e kind false
  else c

/-- A write of DXW_HV_CTL. -/
def hvCtlWrite (e : Env) (c : Chip) (w : Word) : Chip :=
  let c := c.setF .hvCtl F.HvCtl.PD (fget w F.HvCtl.PD)
  match fget w F.HvCtl.OP with
  | 1 => c.harvestNow e
  | 2 => c.harvestAccept e 2 (c.rd .hvAt).toNat
  | 3 => c.harvestCancel
  | _ => c

/-- The answer to a burst of step number j (R334): the step's last acknowledgement begins the next step, and a failure stops
the record. -/
def hvAck (e : Env) (c : Chip) (j : Nat) (ok : Bool) : Chip :=
  match c.hv.record with
  | none => c
  | some r =>
    if j ≠ c.hvStep r.stage ∨ r.failed then c
    else
      let r := { r with pend := r.pend - 1 }
      let c := { c with hv := { c.hv with record := some r } }
      if ¬ ok then c.hvFail
      else if r.pend = 0 ∧ r.stage < 3 then c.hvStage e r (r.stage + 1) else c

/-- The record ends: DONE after step 3, ERR after a failure (R334). -/
def harvestDone (c : Chip) : Chip :=
  match c.hv.record with
  | none => c
  | some r =>
    let ended (c : Chip) : Chip := { c with hv := { c.hv with record := none } }.setF .hvStat F.HvStat.BUSY 0
    if r.failed then (ended c).flag .hvStat F.HvStat.ERR
    else if r.stage = 3 ∧ r.pend = 0 then
      let c := (ended c).flag .hvStat F.HvStat.DONE
      { c with hv := { c.hv with prev := r.h0 } }
    else c

/-! Sampling (R335, R336) -/

/-- EN of sampling becomes RUNNING: each needle's LFSR is loaded (R335). -/
def sampleSeed (c : Chip) : Chip :=
  (List.range 128).foldl (fun c n =>
    let v := c.fld .isCfg F.IsCfg.SEED ^^^ n
    c.setNdl n { c.ndl n with lfsr := if v = 0 then 1 else v }) c

/-- Whether nothing is followed and no record waits. -/
def sampleIdle (c : Chip) : Bool := c.hv.samples == [] && !c.needles.any fun q => q.2.follow.isSome

/-- A value of EN, with the load at the entry into RUNNING. -/
def sampleEnter (c : Chip) (old new : En) : Chip :=
  let c := c.setF .isCfg F.IsCfg.EN new.code
  if old ≠ .running ∧ new = .running then c.sampleSeed else c

/-- A write to EN (R271, R335). -/
def sampleEnWrite (c : Chip) (v : Nat) : Chip :=
  let old := c.en .isCfg F.IsCfg.EN
  c.sampleEnter old (old.write v true c.sampleIdle)

/-- A stop that has nothing left to record completes (R336). -/
def sampleStopped (c : Chip) : Chip :=
  let old := c.en .isCfg F.IsCfg.EN
  if (old = .stopping ∨ old = .restart) ∧ c.sampleIdle then c.sampleEnter old (old.complete true) else c

/-- The record of a followed instruction (R336). The cycle counts are free values within the bounds that the rule sets: the
five stall counts make up WAIT, the branch gap is 2 cycles, and only a transfer that entered the shadow set waited there.
(log 60, DESIGN CHOICE) -/
def sampleRecord (c : Chip) (w0 w1 flags : Nat) : List Word :=
  let cy (j : Nat) : Nat := Config.cycles (c.free + j)
  let stalls := [cy 0, cy 1 % 3, cy 2, cy 3, cy 4]
  let wait := stalls.foldl (· + ·) 0
  let setwait := if flags % 2 = 0 then 0 else cy 6
  let flt := flags / 8 % 2 == 1
  let left := flags / 4 % 2 == 1
  let sat := decide (wait > 0xFFFF) || decide (cy 5 > 0xFFFF) || decide (setwait > 0xFFFF) || stalls.any (decide <| · > 4095)
  let st (j : Nat) : Nat := min (stalls.getD j 0) 4095 * 2 ^ (52 - 12 * j)
  [BitVec.ofNat 64 w0, BitVec.ofNat 64 w1,
   BitVec.ofNat 64 (min wait 0xFFFF * 2 ^ 48 + min (cy 5) 0xFFFF * 2 ^ 32 + min setwait 0xFFFF * 2 ^ 16),
   BitVec.ofNat 64 (st 0 + st 1 + st 2 + st 3 + st 4 + b2n flt * 8 + b2n left * 4 + b2n sat * 2)]

/-- Whether a record's burst waits at a port. -/
def sampleWaits (c : Chip) : Bool :=
  let mine (b : Burst) : Bool := b.use == .sample
  c.ports.any (fun q => q.2.waiting.any mine) || c.backlog.any fun x => mine x.2

/-- The ring's size in records. -/
def isRingSize (c : Chip) : Nat := 16 * 2 ^ c.fld .isRing F.IsRing.SIZE

/-- The harvester writes queued records, one at a time (R336). -/
def sampleDrain (e : Env) (c : Chip) : Nat → Chip
  | 0 => c
  | k + 1 =>
    match c.hv.samples with
    | [] => c.sampleStopped
    | r0 :: rest =>
      if c.sampleWaits then c
      else
        let c := { c with hv := { c.hv with samples := rest } }
        let w := c.fld .isIdx F.IsIdx.WIDX
        if (w + 2 ^ 20 - c.fld .isIdx F.IsIdx.RIDX) % 2 ^ 20 = c.isRingSize then
          (c.flag .isStat F.IsStat.RFULL).sampleDrain e k
        else
          let a := c.fld .isRing F.IsRing.ADDR * 32 + w % c.isRingSize * 32
          let r := e.prot.check (c.fld .isRing F.IsRing.PD) a 32 .postedWrite
          match r with
          | .ok g =>
            let b := unitBurst 129 .sample 3 .posted (a / 64 * 64) 1 [halfLine a r0]
            (c.setF .isIdx F.IsIdx.WIDX (w + 1)).present (e.prot.home g) { b with tdom := e.prot.tdom g }
          | .fail _ => (c.flag .isStat F.IsStat.RFAIL).sampleDrain e k

/-- The followed instruction of a needle has ended: its record is queued, and written as the queue comes to it (R336).
(log 65, DEDUCED) -/
def sampleEnd (e : Env) (c : Chip) (n : Nat) : Chip :=
  match (c.ndl n).follow with
  | some (w0 :: w1 :: more) =>
    if ¬ following (c.ndl n) (w1 % 2 ^ 18) then
      let r := c.sampleRecord w0 w1 (more.getD 0 0)
      let c := c.setNdl n { c.ndl n with follow := none }
      let c := { c with free := c.free + 7 }
      let c := if c.hv.samples.length ≥ 32 then c.tally .isStat F.IsStat.DROP 1
        else { c with hv := { c.hv with samples := c.hv.samples ++ [r] } }
      c.sampleDrain e 33
    else c
  | _ => c.sampleDrain e 33

/-- A write of DXW_IS_CFG (R335): SEED, K and CLSMASK only while EN is OFF. -/
def isCfgWrite (c : Chip) (w : Word) : Chip :=
  let off : Bool := c.en .isCfg F.IsCfg.EN == .off
  let same : Bool := fget w F.IsCfg.SEED == c.fld .isCfg F.IsCfg.SEED && fget w F.IsCfg.K == c.fld .isCfg F.IsCfg.K &&
    fget w F.IsCfg.CLSMASK == c.fld .isCfg F.IsCfg.CLSMASK
  let c := if off then
      let c := (c.setF .isCfg F.IsCfg.SEED (fget w F.IsCfg.SEED)).setF .isCfg F.IsCfg.CLSMASK (fget w F.IsCfg.CLSMASK)
      if 4 ≤ fget w F.IsCfg.K ∧ fget w F.IsCfg.K ≤ 20 then c.setF .isCfg F.IsCfg.K (fget w F.IsCfg.K) else c
    else if same then c else c.flag .isStat F.IsStat.CFG_LOCKED
  c.sampleEnWrite (fget w F.IsCfg.EN)

/-- A write of DXW_IS_RING: only while EN is OFF. -/
def isRingWrite (c : Chip) (w : Word) : Chip :=
  if c.en .isCfg F.IsCfg.EN ≠ .off then c.flag .isStat F.IsStat.CFG_LOCKED
  else
    let c := c.setF .isRing F.IsRing.SIZE (fget w F.IsRing.SIZE)
    (c.setF .isRing F.IsRing.PD (fget w F.IsRing.PD)).setF .isRing F.IsRing.ADDR (fget w F.IsRing.ADDR)

end Chip

/-- PMC_COUNTER_WRITE (R329). -/
def execPmcCounterWrite (i : Fin 592) (data : Word) (s : State) : Host.Outcome State Fault Refusal :=
  s.chipStep fun _ c => whenReady c (·.pmcCntWrite i data)
/-- PMC_CLEAR (R329). -/
def execPmcClear (s : State) : Host.Outcome State Fault Refusal := s.chipStep fun _ c => whenReady c (·.pmcClear)
/-- HARVEST_NOW (R332). -/
def execHarvestNow (s : State) : Host.Outcome State Fault Refusal := s.chipStep fun e c => whenReady c (·.harvestNow e)
/-- HARVEST_AT (R332). -/
def execHarvestAt (s : State) : Host.Outcome State Fault Refusal :=
  s.chipStep fun e c => whenReady c fun c => c.harvestAccept e 2 (c.rd .hvAt).toNat
/-- HARVEST_CANCEL (R332). -/
def execHarvestCancel (s : State) : Host.Outcome State Fault Refusal := s.chipStep fun _ c => whenReady c (·.harvestCancel)
/-- HARVEST_RECORD_DONE (R334). -/
def execHarvestRecordDone (s : State) : Host.Outcome State Fault Refusal := s.coreStep fun _ c => c.harvestDone
/-- SAMPLE_ENABLE (R335). -/
def execSampleEnable (s : State) : Host.Outcome State Fault Refusal := s.chipStep fun _ c => whenReady c (·.sampleEnWrite 1)
/-- SAMPLE_STOP (R336). -/
def execSampleStop (s : State) : Host.Outcome State Fault Refusal := s.chipStep fun _ c => whenReady c (·.sampleEnWrite 0)
/-- SAMPLE_RECORD (R336). -/
def execSampleRecord (n : Fin 128) (s : State) : Host.Outcome State Fault Refusal :=
  s.chipStep fun e c => whenReady c (·.sampleEnd e n)

end Sys2Proof.Machine
end

