-- ==== Sys2Proof/Machine/Services.lean ====
section
/-! DEFINITION. The background services (15_background_services.md): the weeder, calibration, rotation, the monitor pusher, the
stuck-channel detector, their tap of the ingest stream, and their enables. -/

namespace Sys2Proof.Machine

namespace Chip

/-! Enables (R271) -/

/-- The enable field of service k: 0 WD, 1 CAL, 2 ROT, 3 MON, 4 STK. -/
def svcFld (k : Nat) : Fld := ⟨2 * k + 1, 2 * k⟩
/-- EN of service k. -/
def svcEn (c : Chip) (k : Nat) : En := c.en .svcEn (svcFld k)
/-- The chip with the services' state. -/
def setSvc (c : Chip) (v : Services) : Chip := { c with svc := v }

/-! The weeder (R310 to R312) -/

/-- The interval, pass field and units of a memory: 0 thread store, 1 pattern, 2 map, 3 spool (R310). -/
def wdInt (c : Chip) (k : Nat) : Nat := c.fld .wdCfg ⟨16 * k + 15, 16 * k⟩
def wdUnits : Nat → Nat
  | 0 => 262144 | 1 => 8192 | 2 => 16384 | _ => 98304

/-- The offset of unit u of a memory. -/
def wdUnitAt (k u : Nat) : Nat :=
  (match k with | 0 => 0x1000000 | 1 => 0x400000 | 2 => 0x800000 | _ => 0x2000000) + u * 64

/-- The weeder's ring in records. -/
def wdRingSize (c : Chip) : Nat := 16 * 2 ^ c.fld .wdRing F.WdRing.SIZE

/-- A record of an error (R312).
(log 65, DEDUCED) -/
def wdRecord (e : Env) (c : Chip) (k : Nat) (ue : Bool) (off synd : Nat) : Chip :=
  if ¬ c.bit .wdRing F.WdRing.REN ∨ (¬ ue ∧ ¬ c.bit .wdRing F.WdRing.REC_CE) then c
  else
    let seq := (c.svc.wdSeq + 1) % 2 ^ 32
    let c := c.setSvc { c.svc with wdSeq := seq }
    let w := c.fld .wdIdx F.WdIdx.WIDX
    if (w + 2 ^ 20 - c.fld .wdIdx F.WdIdx.RIDX) % 2 ^ 20 = c.wdRingSize then
      (c.tally .wdStat F.WdStat.RDROP 1).flag .wdStat F.WdStat.RFULL
    else
      let a := c.fld .wdRing F.WdRing.ADDR * 32 + w % c.wdRingSize * 32
      match e.prot.check (c.fld .wdRing F.WdRing.PD) a 32 .postedWrite with
      | .fail _ => c.flag .wdStat F.WdStat.RFAIL
      | .ok g =>
        let words : List Word :=
          [c.rd .otXing, BitVec.ofNat 64 (k * 2 ^ 62 + b2n ue * 2 ^ 61 + off), BitVec.ofNat 64 (synd % 256), BitVec.ofNat 64 seq]
        let b := unitBurst 128 .weeder 3 .posted (a / 64 * 64) 1 [halfLine a words]
        (c.setF .wdIdx F.WdIdx.WIDX (w + 1)).present (e.prot.home g) { b with tdom := e.prot.tdom g }

/-- The weeder reads one word of thread store, pattern or map memory (R311). -/
def wdWord (e : Env) (c : Chip) (k off : Nat) : Chip :=
  let ue := Tab.get false c.eccUe off
  let ce := Tab.get false c.eccCe off
  if ue ∨ ce then
    let c := (c.noteEcc k ue off)
    let synd := (Config.syndrome c.free).toNat
    c.spend.wdRecord e k ue off synd
  else c

/-- The weeder reads one word of spool memory (R61, R311). -/
def wdSpool (e : Env) (c : Chip) (off : Nat) : Chip :=
  let g := (off - 0x2000000) / 0x400
  let w := off / 32 % 32
  let l := c.lanesAt g w
  if l = 0 ∨ l = 15 then c else (c.noteParity g w).wdRecord e 3 true off l

/-- One unit of a memory (R310). -/
def weederUnit (e : Env) (c : Chip) (k : Nat) : Chip :=
  if c.svcEn 0 ≠ .running ∨ c.wdInt k = 0 then c
  else
    let u := Tab.get 0 c.svc.wdNext k
    let a := wdUnitAt k u
    let c := if k = 3 then (c.wdSpool e a).wdSpool e (a + 32)
      else (List.range 8).foldl (fun c j => c.wdWord e k (a + 8 * j)) c
    let c := c.cntStore 0x134 1
    let next := (u + 1) % wdUnits k
    let c := c.setSvc { c.svc with wdNext := Tab.put 0 c.svc.wdNext k next }
    let f : Fld := ⟨16 * k + 15, 16 * k⟩
    if next = 0 then c.setF .wdPass f (c.fld .wdPass f + 1) else c

/-! The tap (R309) -/

/-- The channel of lane k of word w of a packet on spool m. -/
def tapChan (c : Chip) (m w k : Nat) : Nat :=
  (c.fld (.svcSp m) F.SvcSp.CH0 + (if c.bit (.svcSp m) F.SvcSp.CSTEP then 16 * w else 0) + k) % 65536

/-- The offsets of the PED, HTHR, CMAP and TILE entries in a set (R173). -/
def pedAt (ch : Nat) : Nat := 2 * ch
def hthrAt (ch : Nat) : Nat := 0x40000 + 2 * ch
def cmapAt (ch : Nat) : Nat := 0x60000 + ch
def tileAt (t : Nat) : Nat := 0x70000 + 8 * t

/-- The words of map memory that hold the CMAP entries of channels. -/
def cmapWords (set : Nat) (chs : List Nat) : List Nat := chs.map fun ch => mapAt set (cmapAt ch) / 8 * 8

/-- The CMAP entry of a channel in a set; an uncorrectable word reads as 0 (R309). -/
def cmapOf (e : Env) (c : Chip) (set ch : Nat) : Nat :=
  let a := mapAt set (cmapAt ch)
  if Tab.get false c.eccUe (a / 8 * 8) then 0 else (memWord e.mem (a / 8 * 8)).toNat / 2 ^ (8 * (ch % 8)) % 256

/-- Whether a slot lies in an enabled range of empty slots (R313). -/
def emptySlot (c : Chip) (x : Nat) : Bool :=
  [0, 1].any fun i =>
    (c.bit (.calEmpty i) F.CalEmpty.VA && decide (c.fld (.calEmpty i) F.CalEmpty.FIRSTA ≤ x) &&
      decide (x ≤ c.fld (.calEmpty i) F.CalEmpty.LASTA)) ||
    (c.bit (.calEmpty i) F.CalEmpty.VB && decide (c.fld (.calEmpty i) F.CalEmpty.FIRSTB ≤ x) &&
      decide (x ≤ c.fld (.calEmpty i) F.CalEmpty.LASTB))

/-- The samples summed, their number, and the K of the sum for a channel. A sum keeps the K that its first sample found.
(log 63, DEDUCED; log 101, DESIGN CHOICE) -/
def pedAcc (c : Chip) (ch : Nat) : Nat × Nat × Nat := Tab.get (0, 0, 0) c.svc.pedSum ch

/-- The mean of a channel's 2^K samples is judged against its PED entry in the active set (R313).
(log 100, DESIGN CHOICE) -/
def pedResult (e : Env) (c : Chip) (ch : Nat) : Chip :=
  let a := c.pedAcc ch
  let k := a.2.2
  if c.svcEn 1 ≠ .running ∨ a.2.1 = 0 ∨ a.2.1 < 2 ^ k then c
  else
    let mean := (a.1 + 2 ^ (k - 1)) / 2 ^ k
    let ped := (mapEntry16 e c c.activeSet (pedAt ch)).1
    let c := c.readWords 2 [mapAt c.activeSet (pedAt ch / 8 * 8)]
    let c := c.setSvc { c.svc with pedSum := Tab.put (0, 0, 0) c.svc.pedSum ch (0, 0, 0) }
    if ((mean : Int) - ped).natAbs > c.fld .calCfg F.CalCfg.MAXDEV then
      (c.tally .calStat F.CalStat.PED_REJ 1).flag .calStat F.CalStat.REJ
    else c.setSvc { c.svc with pedPend := Tab.put none c.svc.pedPend ch (some mean) }

/-- A sample enters a channel's sum; a full sum gives its result first. -/
def pedSample (e : Env) (c : Chip) (ch raw : Nat) : Chip :=
  let c := c.pedResult e ch
  let a := c.pedAcc ch
  let k := if a.2.1 = 0 then c.fld .calCfg F.CalCfg.K else a.2.2
  c.setSvc { c.svc with pedSum := Tab.put (0, 0, 0) c.svc.pedSum ch (a.1 + raw, a.2.1 + 1, k) }

/-- A sample is judged for occupancy, from its PED and HTHR entries (R319). -/
def occSample (e : Env) (c : Chip) (ch raw ped thr : Nat) (poison : Bool) : Chip :=
  let res := clamp (-32768) 32767 ((raw : Int) - ped)
  if ¬ poison ∧ c.cmapOf e c.activeSet ch / 64 % 2 = 1 ∧ res > signed 16 thr then
    c.setSvc { c.svc with occ := Tab.upd 0 c.svc.occ ch fun v => min (v + 1) 0xFFFF }
  else c

/-- One bit into a CRC-16 of the polynomial x^16 + x^12 + x^5 + 1 (R322). -/
def crcBit (v : Nat) (b : Bool) : Nat :=
  let top : Bool := decide (v / 0x8000 % 2 = 1)
  let sh := v * 2 % 0x10000
  if top != b then sh ^^^ 0x1021 else sh

/-- A sample into a CRC-16, bit 0 first.
(log 51, PRESUMED) -/
def crcSample (v raw : Nat) : Nat := (List.range 16).foldl (fun v k => crcBit v (decide (raw / 2 ^ k % 2 = 1))) v

/-- A sample enters a channel's signature (R322).
(log 63, DEDUCED) -/
def stkSample (c : Chip) (m ch raw : Nat) (poison : Bool) : Chip :=
  let s : StkChan := (Tab.get none c.svc.stk ch).getD
    { spool := m, sig := 0xFFFF, prev := 0, same := 0, poisoned := false, flagged := false }
  let s : StkChan := { s with spool := m, sig := crcSample s.sig raw, poisoned := s.poisoned || poison }
  c.setSvc { c.svc with stk := Tab.put none c.svc.stk ch (some s) }

/-- The close of a channel's orbit (R322). A channel that has been flagged is flagged again only after SAME has returned to
0; LIVE is read where SAME is K.
(log 63, DEDUCED; log 100, DESIGN CHOICE) -/
def stkClose (e : Env) (c : Chip) (ch : Nat) (s : StkChan) : Chip :=
  let same := if ¬ s.poisoned ∧ s.sig = s.prev then min (s.same + 1) 255 else 0
  let due := same = c.fld .stkCfg F.StkCfg.K ∧ (same = 0 ∨ ¬ s.flagged)
  let c := if due then c.readWords 2 (cmapWords c.activeSet [ch]) else c
  let hit : Bool := decide due && c.cmapOf e c.activeSet ch / 128 % 2 == 1
  let flagged := hit || (s.flagged && same != 0)
  let s : StkChan := { s with prev := s.sig, sig := 0xFFFF, same := same, poisoned := false, flagged := flagged }
  let c := c.setSvc { c.svc with stk := Tab.put none c.svc.stk ch (some s) }
  if hit then
    let f : Fld := ⟨ch % 64, ch % 64⟩
    let c := (c.flag (.stkFlag (ch / 64)) f).flag .stkStat F.StkStat.NEW
    (c.setF .stkStat F.StkStat.LASTCH ch).tally .stkStat F.StkStat.COUNT 1
  else c

/-- The close of the orbit of all channels of a spool (R322). -/
def stkCloseAll (e : Env) (c : Chip) (m : Nat) : Chip :=
  c.svc.stk.foldl (fun c q => match q.2 with
    | some s => if s.spool = m then c.stkClose e q.1 s else c
    | none => c) c

/-- The deskew of an SOP beat of port n (R315). Its tag gives the orbit modulo 2^12; the fine tick is free.
(log 63, DEDUCED) -/
def deskew (c : Chip) (n tag : Nat) : Chip :=
  let od := signed 12 (unsigned 12 ((c.ctr / 4096 : Nat) - ((tag / 4096 : Nat) : Int)))
  let d : Int := od * c.olen + ((c.ctr % 4096 : Nat) - ((tag % 4096 : Nat) : Int))
  let lag := (clamp 0 65535 (d * 8 + (Config.deskewFine c.free).toNat)).toNat
  let c := c.spend
  let r : Reg := .calDsk n
  let seen := Tab.get false c.svc.dskSeen n
  let c := c.setSvc { c.svc with dskSeen := Tab.put false c.svc.dskSeen n true }
  let c := c.setF r F.CalDsk.LAST lag
  let c := if ¬ seen ∨ lag > c.fld r F.CalDsk.MAX then c.setF r F.CalDsk.MAX lag else c
  let c := if ¬ seen ∨ lag < c.fld r F.CalDsk.MIN then c.setF r F.CalDsk.MIN lag else c
  let w := watermark lag (c.fld .calDskcfg F.CalDskcfg.HIGH) (c.fld .calDskcfg F.CalDskcfg.LOW) (c.bit r F.CalDsk.ARMED)
  let c := c.setF r F.CalDsk.ARMED (b2n w.2)
  let rise := w.1 && !c.bit r F.CalDsk.NOTICE
  let c := if w.1 then c.flag r F.CalDsk.NOTICE else c
  if rise then c.flag .calStat F.CalStat.DSK else c

/-- The tap sees a word that enters the tail register of spool m from port n (R309). Where a service watches the spool, the
PED and HTHR entries of its 16 samples are read; a sample with an uncorrectable entry is poisoned for every service.
(log 63, DEDUCED; log 100, DESIGN CHOICE) -/
def tapWord (e : Env) (c : Chip) (n m : Nat) (w : FWord) : Chip :=
  let old := Tab.get none c.svc.tap m
  let t : TapState := if w.sop then { tag := w.tag, words := 0 } else old.getD { tag := 0, words := 0 }
  let next : TapState := { t with words := t.words + 1 }
  let c := c.setSvc { c.svc with tap := Tab.put none c.svc.tap m (some next) }
  let c := if w.sop ∧ c.svcEn 1 = .running then c.deskew n w.tag else c
  let stk : Bool := c.bit (.svcSp m) F.SvcSp.STK && c.svcEn 4 == .running
  let newOrbit : Bool := w.sop && old.any fun o => o.tag / 4096 != w.tag / 4096
  let c := if stk && newOrbit then c.stkCloseAll e m else c
  let ped : Bool := c.bit (.svcSp m) F.SvcSp.PED && c.svcEn 1 == .running && c.emptySlot (t.tag % 4096)
  let occ : Bool := c.bit (.svcSp m) F.SvcSp.OCC && c.svcEn 3 == .running
  if ¬ (ped || occ || stk) then c
  else
    let chan := c.tapChan m t.words
    let ents := c.loadEntries e c.activeSet (some 0) (some 0x40000) chan
    let c := if occ then ents.1.readWords 2 (cmapWords ents.1.activeSet ((List.range 16).map chan)) else ents.1
    (List.range 16).foldl (fun c k =>
      let raw := sample16 w.data k
      let x := ents.2.getD k (0, 0, true)
      let poison := w.poison || x.2.2
      let c := if ped ∧ ¬ poison then c.pedSample e (chan k) raw else c
      let c := if occ then c.occSample e (chan k) raw x.1 x.2.1 poison else c
      if stk then c.stkSample m (chan k) raw poison else c) c

/-! Calibration (R313, R314, R316) -/

/-- Whether the counter is in a gap slot (R31). -/
def inGap (c : Chip) : Bool := decide (c.olen - c.gap ≤ c.ctr % 4096) && decide (c.ctr % 4096 < c.olen)

/-- The channel whose word calibration writes next: ascending from where it stopped (R314). -/
def pedNextChan (c : Chip) : Option Nat :=
  let pend := (c.svc.pedPend.filter fun q => q.2.isSome).map (·.1)
  match pend.find? fun q => decide (c.svc.pedNext ≤ q) with
  | some q => some q
  | none => pend.head?

/-- One PED word of the shadow set, with its pending results (R314): the offset and the word written. -/
def calPedWord (e : Env) (c : Chip) : Option (Nat × Word) :=
  if c.svcEn 1 = .running ∧ c.inGap then
    c.pedNextChan.map fun q =>
      let a := mapAt (1 - c.activeSet) (pedAt (q / 4 * 4))
      let old := memWord e.mem a
      let one (j : Nat) : Nat :=
        (Tab.get none c.svc.pedPend (q / 4 * 4 + j)).getD (old.toNat / 2 ^ (16 * j) % 2 ^ 16) * 2 ^ (16 * j)
      (a, BitVec.ofNat 64 (one 0 + one 1 + one 2 + one 3))
  else none

/-- What that write does beside memory (R177, R313). A word whose other entries cannot be corrected is written with them as they
are stored, and is good from then on.
(log 140, DESIGN CHOICE) -/
def calPedDone (c : Chip) (a : Nat) : Chip :=
  match c.pedNextChan with
  | none => c
  | some q =>
    let c := (c.readEcc 2 a).1.clearEcc a
    let pend := (List.range 4).foldl (fun p j => Tab.put none p (q / 4 * 4 + j) none) c.svc.pedPend
    let c := c.setSvc { c.svc with pedPend := pend, pedNext := (q / 4 * 4 + 4) % 65536 }
    c.tally .calStat F.CalStat.PED_WR 1

/-- The mean of 2^AVG residuals (R316), with the AVG that the first of them found. Where it is no whole number of ps, its rounding
is free.
(log 64, DESIGN CHOICE; log 101, DESIGN CHOICE) -/
def phaseMean (c : Chip) : Chip :=
  let n := 2 ^ c.svc.phAvg
  if c.svcEn 1 ≠ .running ∨ c.fld .calPhase F.CalPhase.NMARK < n then c
  else
    let lo := c.svc.phSum / (n : Int)
    let mean := if c.svc.phSum % (n : Int) = 0 then lo else if Config.roundUp c.free then lo + 1 else lo
    let c := c.spend.setSvc { c.svc with phSum := 0 }
    let c := (c.setF .calPhase F.CalPhase.NMARK 0).setF .calPhase F.CalPhase.VALID 1
    let c := c.setF .calPhase F.CalPhase.PS (unsigned 16 (clamp (-32768) 32767 mean))
    let w := watermark mean.natAbs (c.fld .calCfg F.CalCfg.PH_HIGH) (c.fld .calCfg F.CalCfg.PH_LOW)
      (c.bit .calPhase F.CalPhase.ARMED)
    let c := c.setF .calPhase F.CalPhase.ARMED (b2n w.2)
    if w.1 then c.flag .calStat F.CalStat.PHASE else c

/-- A residual in ps of a marker evaluated while LOCKED in ring mode, on a node that is not the reference (R316). -/
def phaseSample (c : Chip) (ps : Int) : Chip :=
  if c.svcEn 1 ≠ .running ∨ c.isRef ∨ ¬ c.ringMode ∨ c.alignSt ≠ 3 then c
  else
    let c := c.phaseMean
    let avg := if c.fld .calPhase F.CalPhase.NMARK = 0 then c.fld .calCfg F.CalCfg.AVG else c.svc.phAvg
    let c := c.setSvc { c.svc with phSum := c.svc.phSum + ps, phAvg := avg }
    c.setF .calPhase F.CalPhase.NMARK (c.fld .calPhase F.CalPhase.NMARK + 1)

/-- CAL stops: every sum and pending result is discarded (R314). -/
def calClear (c : Chip) : Chip := (c.setSvc { c.svc with pedSum := [], pedPend := [], pedNext := 0 }).phaseDrop

/-! Rotation (R317, R318) -/

/-- A rotation point (R317): one that finds a pass still running, the last of a stopping rotation too, starts none. -/
def rotPoint (c : Chip) : Chip :=
  if c.bit .rotStat F.RotStat.ACTIVE then (c.tally .rotStat F.RotStat.SKIPS 1).flag .rotStat F.RotStat.SKIP
  else if c.svcEn 2 ≠ .running then c
  else (c.setSvc { c.svc with rotNext := some 0 }).setF .rotStat F.RotStat.ACTIVE 1

/-- One record of a pass (R317): of a record in the store, word 0 is read and written in one bank access; one that is
uncorrectable is counted and stays.
(log 100, DESIGN CHOICE) -/
def rotOne (c : Chip) (t : Nat) : Chip :=
  let step := c.fld .rotCfg F.RotCfg.STEP
  if (c.suspendedOn t).isSome then c
  else match c.findSlot t with
  | some (n, k) => match c.slot n k with
    | some s => if s.live.afix then c else c.setSlot n k (some { s with rot := (s.rot + step) % 128 })
    | none => c
  | none =>
    let r := c.readEcc 0 (recordAt t 0)
    let c := r.1
    let th := c.thr t
    if r.2 ∨ th.afix then c else c.setThr t { th with aff := (th.aff + step) % 128 }

/-- Eight records of a pass, one in each bank; the pass may end (R317). -/
def rotBatch (c : Chip) : Chip :=
  match c.svc.rotNext with
  | none => c
  | some t =>
    let c := (List.range 8).foldl (fun c j => c.rotOne (t + j)) c
    if t + 8 ≥ numThreads then
      ((c.setSvc { c.svc with rotNext := none }).setF .rotStat F.RotStat.ACTIVE 0).tally .rotStat F.RotStat.PASSES 1
    else c.setSvc { c.svc with rotNext := some (t + 8) }

/-! Tiles and monitor frames (R175, R318 to R321) -/

/-- The TILE word of a tile in a set; none where it is not VALID or uncorrectable (R175, R176). -/
def tileOf (e : Env) (c : Chip) (set t : Nat) : Option Word :=
  let a := mapAt set (tileAt t)
  let w := memWord e.mem a
  if Tab.get false c.eccUe a ∨ ¬ fbit w ⟨63, 63⟩ then none else some w

/-- The TILE words of the active set are read: an error among them is counted once (R311). A word with no mark reads clean.
(log 100, DESIGN CHOICE) -/
def readTiles (c : Chip) : Chip :=
  let lo := mapAt c.activeSet (tileAt 0)
  let hi := mapAt c.activeSet (tileAt 4096)
  c.readWords 2 (((c.eccUe ++ c.eccCe).map (·.1)).filter fun a => decide (lo ≤ a) && decide (a < hi))

/-- The channels of a tile, row by row (R175). -/
def tileChans (w : Word) : List Nat :=
  (List.range (fget w ⟨31, 24⟩ + 1)).flatMap fun r => (List.range (fget w ⟨23, 16⟩ + 1)).map fun q =>
    (fget w ⟨15, 0⟩ + r * fget w ⟨47, 32⟩ + q) % 65536

/-- The tiles of the active set, by number. -/
def tiles (e : Env) (c : Chip) : List (Nat × Word) :=
  (List.range 4096).filterMap fun t => (c.tileOf e c.activeSet t).map fun w => (t, w)

/-- Rotation adds the sums of a snapshot to the tiles' totals (R175, R318): a channel that a tile's shape names more than once is
added once per naming.
(log 139, DESIGN CHOICE) -/
def occTotals (e : Env) (c : Chip) (snap : Tab Nat) : Chip :=
  if c.svcEn 2 = .off then c
  else (c.tiles e).foldl (fun c x =>
    let sum := (tileChans x.2).foldl (fun v ch => v + Tab.get 0 snap ch) 0
    c.tally (.occTot (x.1 / 2)) (if x.1 % 2 = 1 then F.OccTot.TOT1 else F.OccTot.TOT0) sum) c.readTiles

/-- BASE of the image. -/
def monImage (c : Chip) : Nat := c.fld .monBase F.MonBase.ADDR * 2 ^ 18
/-- BASE + 0x2_0000, the header. -/
def monHead (c : Chip) : Nat := c.monImage + 0x20000

/-- Whether a burst is a write of a frame (R321). -/
def ofFrame (f : Frame) : BurstFor → Bool
  | .monitor id => decide (f.first ≤ id)
  | _ => false

/-- The frame has failed: it presents nothing further (R321). -/
def monFail (c : Chip) : Chip :=
  match c.svc.frame with
  | none => c
  | some f =>
    let fr : Frame := { f with failed := true }
    let c := c.dropBursts fun b => ofFrame f b.use
    c.setSvc { c.svc with frame := some fr }

/-- One write of a frame, numbered, with the cells it carries (R320). A write that fails the check fails the frame. -/
def monWrite (e : Env) (c : Chip) (addr n : Nat) (data : List WLine) (cells : List (Nat × Nat)) : Chip :=
  if (c.svc.frame.map (·.failed)).getD true then c
  else
    let id := c.svc.monId
    let r := c.issue e (c.fld .monCfg F.MonCfg.PD) (unitBurst 131 (.monitor id) 3 .ack addr n data)
    match r.2 with
    | .ok _ => r.1.setSvc { r.1.svc with monId := id + 1, monOut := r.1.svc.monOut ++ [(id, cells)] }
    | .fail _ => r.1.monFail

/-- A run of cells is cut into bursts of consecutive lines of one 1 KiB block (R205, R320). -/
def cutRuns : List Nat → List (List Nat)
  | [] => []
  | l :: ls => match cutRuns ls with
    | (m :: ms) :: rest => if m = l + 1 ∧ m / 16 = l / 16 then (l :: m :: ms) :: rest else [l] :: (m :: ms) :: rest
    | _ => [[l]]

/-- The line of an image that holds cells of a tile: two bytes each (R320). -/
def cellLine (snap : Tab Nat) (chans : List Nat) (l : Nat) : WLine × List (Nat × Nat) :=
  let here := (List.range 32).filter fun j => chans.contains (32 * l + j)
  let cells := here.map fun j => (32 * l + j, Tab.get 0 snap (32 * l + j))
  ({ data := BitVec.ofNat 512 (here.foldl (fun v j => v + Tab.get 0 snap (32 * l + j) % 65536 * 2 ^ (16 * j)) 0)
     be := BitVec.ofNat 64 (here.foldl (fun v j => v + 3 * 2 ^ (2 * j)) 0), poison := false }, cells)

/-- A changed tile is pushed (R320). -/
def monTile (e : Env) (c : Chip) (snap : Tab Nat) (w : Word) : Chip :=
  let chans := tileChans w
  let lines := (chans.map (· / 32)).eraseDups
  (cutRuns lines).foldl (fun c run =>
    let l := run.map (cellLine snap chans)
    c.monWrite e (c.monImage + (run.headD 0) * 64) run.length (l.map (·.1)) (l.flatMap (·.2))) c

/-- Whether a tile is changed: a cell differs by more than DELTA from the shown value (R320). -/
def tileChanged (c : Chip) (snap : Tab Nat) (w : Word) : Bool :=
  (tileChans w).any fun ch =>
    decide ((((Tab.get 0 snap ch : Nat) : Int) - (Tab.get 0 c.svc.shown ch : Nat)).natAbs > c.fld .monCfg F.MonCfg.DELTA)

/-- The frame's step changes. -/
def monSet (c : Chip) (stage : Nat) (tiles : List Nat) : Chip :=
  match c.svc.frame with
  | none => c
  | some f =>
    let fr : Frame := { f with stage := stage, tiles := tiles }
    c.setSvc { c.svc with frame := some fr }

/-- The frame goes on to its next steps (R320), once every write of the step has been acknowledged. -/
def monAdvance (e : Env) (c : Chip) : Chip :=
  match c.svc.frame with
  | none => c
  | some f =>
    if f.failed ∨ c.svc.monOut.any (fun x => f.first ≤ x.1) then c
    else match f.stage with
    | 1 =>
      let ts := (c.tiles e).filter fun x => c.tileChanged f.snap x.2
      let c := c.readTiles.monSet 2 (ts.map (·.1))
      let c := ts.foldl (fun c x => c.monTile e f.snap x.2) c
      if ts = [] then
        (c.monSet 3 []).monWrite e c.monHead 1 [monHeader c f 0] []
      else c
    | 2 => (c.monSet 3 f.tiles).monWrite e c.monHead 1 [monHeader c f f.tiles.length] []
    | 3 => (c.monSet 4 f.tiles).monWrite e c.monHead 1 [wordLine c.monHead (BitVec.ofNat 64 ((c.fld .monStat F.MonStat.SEQ + 1) % 2 ^ 32))] []
    | _ =>
      let c := c.setF .monStat F.MonStat.SEQ (c.fld .monStat F.MonStat.SEQ + 1)
      (c.setF .monStat F.MonStat.BUSY 0).setSvc { c.svc with frame := none }
where
  /-- Header words 1 to 3 (R320). -/
  monHeader (c : Chip) (f : Frame) (tiles : Nat) : WLine :=
    let a := c.monHead
    let w1 := (wordLine (a + 8) (BitVec.ofNat 64 (f.orbit % 2 ^ 52))).data
    let w2 := (wordLine (a + 16) (BitVec.ofNat 64 (tiles % 65536 * 2 ^ 16 + min f.orbits 65535))).data
    let w3 := (wordLine (a + 24) (BitVec.ofNat 64 (c.svc.aborts % 2 ^ 32))).data
    { data := w1 ||| w2 ||| w3, be := 0xFFFFFF00#64, poison := false }

/-- Counts added cell by cell, saturating (R321). -/
def addCells (s t : Tab Nat) : Tab Nat := t.foldl (fun s q => Tab.upd 0 s q.1 fun v => min (v + q.2) 0xFFFF) s

/-- A gap-start edge brings the counter to n: the orbits that have passed since the snapshot before (R320). Where the counter has
gone on, over a wrap too, they are the orbits that it has gone on by; where it has gone back, the edge ends one orbit.
(log 143, DESIGN CHOICE) -/
def monPass (c : Chip) (n : Nat) : Chip :=
  if n % 4096 = c.olen - c.gap ∧ c.svc.frameEnd.isSome then
    let on := match c.svc.monGap with
      | some o => unsigned 52 ((n / 4096 : Nat) - (o : Nat) : Int)
      | none => 1
    c.setSvc { c.svc with monRun := c.svc.monRun + (if 0 < on ∧ on < 2 ^ 51 then on else 1), monGap := some (n / 4096) }
  else c

/-- The orbits that will have passed at the gap-start edge of the next orbit (R321). -/
def monNext (c : Chip) : Nat := c.svc.monRun + if c.ctr % 4096 < c.olen - c.gap then 2 else 1

/-- A snapshot is taken at the gap start of an orbit and its frame begins (R320, R321). -/
def monSnapshot (e : Env) (c : Chip) (orbit : Nat) : Chip :=
  let old := c.svc.carry.getD ([], 0)
  let snap := addCells old.1 c.svc.occ
  let span := c.svc.monRun + old.2
  let fr : Frame :=
    { snap := snap, orbit := orbit, orbits := span, tiles := [], stage := 1, first := c.svc.monId, failed := false }
  let c := c.setSvc { c.svc with
    occ := [], carry := none, monRun := 0, frame := some fr, frameEnd := some (c.fld .monCfg F.MonCfg.FRAME) }
  let c := (c.occTotals e snap).setF .monStat F.MonStat.BUSY 1
  c.monWrite e c.monHead 1
    [wordLine c.monHead (BitVec.ofNat 64 (2 ^ 63 + c.fld .monStat F.MonStat.SEQ))] []

/-- Whether a write of the monitor has been granted and not been answered. -/
def monSent (c : Chip) (id : Nat) : Bool :=
  c.ports.any fun q => q.2.outst.any (fun o => o.2.1.use == .monitor id) || q.2.granted.any fun g => g.burst.use == .monitor id

/-- The frame is aborted (R321); a new snapshot is due at the gap start of the next orbit. A write of the frame before that still
waits is not the aborted frame's. -/
def monAbort (c : Chip) (f : Frame) : Chip :=
  let c := c.dropBursts fun b => ofFrame f b.use
  let c := c.setSvc { c.svc with monOut := c.svc.monOut.filter fun x => decide (x.1 < f.first) || c.monSent x.1 }
  let c := c.tally .monStat F.MonStat.ABORTS 1
  let c := c.flag .monStat (if f.failed then F.MonStat.ERR else F.MonStat.ABORT)
  c.setSvc { c.svc with frame := none, carry := some (f.snap, f.orbits), frameEnd := some c.monNext, aborts := c.svc.aborts + 1 }

/-- A frame end at the gap start of an orbit (R320, R321). A frame in step 4 ends with it, its last write acknowledged or not.
(log 63, DEDUCED) -/
def monFrameEnd (e : Env) (c : Chip) (orbit : Nat) : Chip :=
  match c.svc.frame with
  | none => if c.svcEn 3 = .running then c.monSnapshot e orbit else c
  | some f =>
    if f.stage = 4 ∧ ¬ f.failed then
      let c := c.setF .monStat F.MonStat.SEQ (c.fld .monStat F.MonStat.SEQ + 1)
      let c := c.setF .monStat F.MonStat.BUSY 0
      let open' := (c.svc.monOut.find? fun x => decide (f.first ≤ x.1)).map fun x => (x.1, f)
      let c := c.setSvc { c.svc with frame := none, prevFrame := open' }
      if c.svcEn 3 = .running then c.monSnapshot e orbit else c
    else c.monAbort f

/-- A frame with a failed write is aborted (R321). -/
def monFailed (c : Chip) : Chip :=
  match c.svc.frame with
  | some f => if f.failed then c.monAbort f else c
  | none => c

/-- The last write of the frame before has failed after the frame end (R321): that frame is aborted, and so is the one that has
begun since, whose counts the next snapshot takes with it. Where that one has ended too, the next snapshot takes what is due.
(log 117, DESIGN CHOICE) -/
def monLate (c : Chip) (f : Frame) : Chip :=
  let c := c.setF .monStat F.MonStat.SEQ (c.fld .monStat F.MonStat.SEQ + (2 ^ 32 - 1))
  let c := c.setSvc { c.svc with prevFrame := none }
  match c.svc.frame with
  | some g =>
    let whole : Frame := { g with snap := addCells f.snap g.snap, orbits := f.orbits + g.orbits, failed := true }
    c.monAbort whole
  | none =>
    let old := c.svc.carry.getD ([], 0)
    let due := if c.svc.carry.isSome ∨ c.svc.frameEnd.isNone then c.svc.frameEnd else some c.monNext
    let c := c.setSvc { c.svc with
      aborts := c.svc.aborts + 1, carry := some (addCells f.snap old.1, f.orbits + old.2), frameEnd := due }
    (c.tally .monStat F.MonStat.ABORTS 1).flag .monStat F.MonStat.ERR

/-- The answer to a write of a frame (R320, R321). -/
def monAck (e : Env) (c : Chip) (id : Nat) (ok : Bool) : Chip :=
  let cells := ((c.svc.monOut.find? fun x => x.1 == id).map (·.2)).getD []
  let c := c.setSvc { c.svc with monOut := c.svc.monOut.filter fun x => x.1 != id }
  let prev := c.svc.prevFrame.filter fun p => p.1 == id
  if ok then
    let c := c.setSvc { c.svc with
      shown := cells.foldl (fun s x => Tab.put 0 s x.1 x.2) c.svc.shown
      prevFrame := if prev.isSome then none else c.svc.prevFrame }
    c.monAdvance e
  else if let some p := prev then c.monLate p.2
  else if c.svc.frame.any fun f => decide (f.first ≤ id) then c.monFail
  else c

/-! Enabling and stopping (R271) -/

/-- Whether a service has nothing to finish: rotation finishes a pass and the monitor a frame; CAL and STK have nothing, and the
weeder's unit is whole in one command.
(log 4, DESIGN CHOICE) -/
def svcIdle (c : Chip) (k : Nat) : Bool :=
  match k with
  | 2 => !c.bit .rotStat F.RotStat.ACTIVE
  | 3 => c.svc.frame.all fun f => f.stage == 4
  | _ => true

/-- A service's enable takes a value, with what its start or stop does.
(log 63, DEDUCED) -/
def svcEnter (c : Chip) (k : Nat) (old new : En) : Chip :=
  let c := c.setF .svcEn (svcFld k) new.code
  if old = new then c
  else match k, new with
    | 1, .off => c.calClear
    | 4, .off => c.setSvc { c.svc with stk := [] }
    | 3, .running =>
      (c.setF .monStat F.MonStat.SEQ 0).setSvc { c.svc with
        aborts := 0, monRun := 0, monGap := none, prevFrame := none, frameEnd := some 1 }
    | 3, .off => c.setSvc { c.svc with frameEnd := none }
    | _, _ => c

/-- A write to a service's enable (R271). -/
def svcEnWrite (c : Chip) (k v : Nat) : Chip :=
  let old := c.svcEn k
  c.svcEnter k old (old.write v true (c.svcIdle k))

/-- The stop of a service completes (R271). -/
def svcComplete (c : Chip) (k : Nat) : Chip :=
  let old := c.svcEn k
  if (old = .stopping ∨ old = .restart) ∧ c.svcIdle k then c.svcEnter k old (old.complete true) else c

/-- A write of a configuration register that only an OFF service accepts: WD_CFG and WD_RING, MON_CFG and MON_BASE. -/
def svcCfgWrite (c : Chip) (k : Nat) (r st : Reg) (lock : Fld) (fs : List Fld) (w : Word) : Chip :=
  if c.svcEn k ≠ .off then c.flag st lock
  else fs.foldl (fun c f => c.setF r f (fget w f)) c

end Chip

/-- The oldest word of a port's FIFO moves on (R53, R60, R68): a running spool that can take it writes it to memory, with the
tap (R309); a stopping spool drops and counts it (R77); for a spool that is OFF it is dropped.
(log 38, DESIGN CHOICE) -/
def State.fifoWord (s : State) (n : Nat) : State :=
  match (s.chip.ip n).fifo with
  | [] => s
  | w :: rest =>
    let i : Ingest := { s.chip.ip n with fifo := rest }
    let c := s.chip.setIp n i
    match (if w.spool < 256 then c.spEn w.spool else .off) with
    | .running =>
      if s.chip.canTake w.spool then
        let pl := c.writePlace w.spool
        { s with mem := memPutWords s.mem (spoolAt pl.1 pl.2) ((List.range 4).map (lane64 w.data)),
                 chip := (c.takeWord w.spool w).tapWord s.env n w.spool w }
      else { s with chip := s.chip.holCheck n }
    | .off => { s with chip := c }
    | _ => { s with chip := c.tally (.spCnt w.spool) F.SpCnt.DROP 1 }

/-- SPOOL_WORD_WRITE (R68). -/
def execSpoolWordWrite (port : Fin 16) (s : State) : Host.Outcome State Fault Refusal :=
  if s.chip.pwr.phase = .running then .next (s.fifoWord port) else .next s
/-- WEEDER_UNIT (R310). -/
def execWeederUnit (mem : Fin 4) (s : State) : Host.Outcome State Fault Refusal :=
  s.chipStep fun e c => whenReady c (·.weederUnit e mem)
/-- PED_RESULT (R313). -/
def execPedResult (ch : BitVec 16) (s : State) : Host.Outcome State Fault Refusal :=
  s.chipStep fun e c => whenReady c (·.pedResult e ch.toNat)
/-- CAL_PED_WRITE (R314). -/
def execCalPedWrite (s : State) : Host.Outcome State Fault Refusal :=
  if s.chip.pwr.phase = .running then
    match s.chip.calPedWord s.env with
    | some (a, w) => .next { s with mem := memPutWord s.mem a w, chip := s.chip.calPedDone a }
    | none => .next s
  else .next s
/-- PHASE_MEAN (R316). -/
def execPhaseMean (s : State) : Host.Outcome State Fault Refusal := s.chipStep fun _ c => whenReady c (·.phaseMean)
/-- ROTATION_BATCH (R317). -/
def execRotationBatch (s : State) : Host.Outcome State Fault Refusal := s.chipStep fun _ c => whenReady c (·.rotBatch)
/-- SERVICE_ENABLE (R271). -/
def execServiceEnable (svc : Fin 5) (s : State) : Host.Outcome State Fault Refusal :=
  s.chipStep fun _ c => whenReady c (·.svcEnWrite svc 1)
/-- SERVICE_STOP (R271). -/
def execServiceStop (svc : Fin 5) (s : State) : Host.Outcome State Fault Refusal :=
  s.chipStep fun _ c => whenReady c (·.svcEnWrite svc 0)
/-- SERVICE_STOP_COMPLETE (R271). -/
def execServiceStopComplete (svc : Fin 5) (s : State) : Host.Outcome State Fault Refusal :=
  s.chipStep fun _ c => whenReady c (·.svcComplete svc)

end Sys2Proof.Machine
end

