-- ==== Sys2Proof/Machine/Mesh.lean ====
section
/-! DEFINITION. What the mesh ports do from cycle to cycle (10_mesh_ports_and_arbitration.md): what an answer means to its
requester, rounds and grants, trains, request lines, timeouts, interrupt messages (14 R302), and the power-down of mesh
target domains (13 R280, R281). -/

namespace Sys2Proof.Machine

namespace Chip

/-! Answers (R207, R209, R210) -/

/-- Whether the thread that issued a burst still stands as it issued it. -/
def ofThread (c : Chip) (b : Burst) : Bool :=
  threadUse b.use && (c.copyOf b.thr).gen == b.gen && (c.copyOf b.thr).st != .idle

/-- The debug requester's access ends (13 R290): 0 OK, 1 PROT, 2 MESH, 3 FORCED_PD. -/
def dbgDone (c : Chip) (code : Nat) : Chip := (c.setF .dbgMcmd F.DbgMcmd.BUSY 0).setF .dbgMcmd F.DbgMcmd.CODE code

/-- The line that the debug requester has read. -/
def dbgLine (c : Chip) (l : Line) (poison : Bool) : Chip :=
  let c := (List.range 8).foldl (fun c j => c.wr (.dbgMdata j) (BitVec.ofNat 64 (l.toNat / 2 ^ (64 * j)))) c
  (c.setF .dbgMcmd F.DbgMcmd.POISON (b2n poison)).dbgDone 0

/-- A line has come for a list of lines asked for. -/
def fillLine (ls : List (Nat × Option (Line × Bool))) (i : Nat) (l : Line × Bool) : List (Nat × Option (Line × Bool)) :=
  ls.map fun q => if q.1 = i ∧ q.2.isNone then (i, some l) else q

/-- A spill of spool m has been answered: the answer waits for DEEP_SPILL_ACK. An error of a spill of an earlier run sets
DEEP_ERR only (R76).
(log 85, DESIGN CHOICE) -/
def spillAnswer (c : Chip) (m blk run : Nat) (bad : Bool) : Chip :=
  let s := c.spool m
  if s.run = run then c.setSpool m { s with spillIn := s.spillIn ++ [(blk, bad)] }
  else if bad then c.flag (.spStat m) F.SpStat.DEEP_ERR else c

/-- A refill of spool m has been answered: the answer waits for DEEP_REFILL_DONE. One of an earlier run is discarded, an
error sets DEEP_ERR (R76).
(log 85, DESIGN CHOICE) -/
def refillAnswer (c : Chip) (m blk run : Nat) (ls : List (Line × Bool)) (bad : Bool) : Chip :=
  let s := c.spool m
  if s.run = run then c.setSpool m { s with refillIn := s.refillIn ++ [(blk, ls, bad)] }
  else if bad then c.flag (.spStat m) F.SpStat.DEEP_ERR else c

/-- A read has been answered whole: its lines go to its requester. -/
def deliverRead (c : Chip) (b : Burst) (ls : List (Line × Bool)) : Chip :=
  let l := ls.headD (0#512, false)
  match b.use with
  | .xDesc n id =>
    let nd := c.ndl n
    if nd.active.any fun x => x.id == id && x.fetching && x.fetch == some b.desc then
      c.setNdl n { nd with descIn := nd.descIn ++ [(none, b.desc, l.1, l.2)] }
    else c.mapXfer n id fun x => { x with fetching := false }
  | .xSrc n id i => c.mapXfer n id fun x => { x with lines := fillLine x.lines i l }
  | .xRef n id i => c.mapXfer n id fun x => { x with refs := fillLine x.refs i l }
  | .actDesc n k =>
    let nd := c.ndl n
    if (c.slot n k).any fun s => s.t == b.thr && s.act.any fun a => a.fetching && a.fetch == some b.desc then
      c.setNdl n { nd with descIn := nd.descIn ++ [(some k, b.desc, l.1, l.2)] }
    else c
  | .dwait t => { c with dwaitIn := c.dwaitIn ++ [(t, b.desc, l.1, l.2)] }
  | .refill m blk run => c.refillAnswer m blk run ls false
  | .dbgRead => c.dbgLine l.1 l.2
  | _ => c

/-- A data or STATUS write of a transfer has arrived (R139). -/
def writeArrived (c : Chip) (n id addr : Nat) : Chip :=
  let f (r : DRec) : DRec := { r with pend := r.pend - 1 }
  let c := c.mapXfer n id fun x => x.mapRec addr f
  (c.setEntry n id fun x => x.mapRec addr f).sweepCq n

/-- The entries that a POST waits to make are made where the completion queue has room.
(log 79, DEDUCED) -/
def postEntries (c : Chip) (n : Nat) : Chip := (List.range 8).foldl (fun c k => c.postEntry n k) c

/-- An OWN clear has arrived: it is counted, and CPL is set where IRQ is 1 (R139). -/
def ownArrived (c : Chip) (n id addr : Nat) : Chip :=
  let irq : Bool := (c.ndl n).cq.any fun x => x.id == id && x.descs.any fun r => r.desc.addr == addr && r.desc.irq
  let c := c.setEntry n id fun x => x.mapRec addr fun r => { r with own := 2 }
  let c := c.tally (.ndlXfCnt n) F.NdlXfCnt.DONE 1
  let c := if irq then c.flag (.ndlXfStat n) F.NdlXfStat.CPL else c
  (c.sweepCq n).postEntries n

/-- A dead slot that waited for a thread's write is judged again (R140, R293). -/
def reapOf (c : Chip) (b : Burst) : Chip := if threadUse b.use then c.reap b.req else c

/-- An acknowledgement without an error reaches its requester. -/
def deliverAck (e : Env) (c : Chip) (b : Burst) : Chip :=
  match b.use with
  | .xData n id a | .xStatus n id a => (c.writeArrived n id a).postEntries n
  | .own n id a => c.ownArrived n id a
  | .actStatus n k a => if (c.slot n k).any fun s => s.t == b.thr then c.actAcked n k a else c
  | .spill m blk run => c.spillAnswer m blk run false
  | .monitor id => c.monAck e id true
  | .flush i => c.bbFlushAck i true
  | .harvest st => c.hvAck e st true
  | .dbgWrite => c.dbgDone 0
  | _ => c

/-- The descriptor that a burst's transfer was writing or fetching, where it has one. -/
def burstDesc (c : Chip) (b : Burst) : Option Nat :=
  if namesDesc b.use then some b.desc
  else match b.use with
  | .xSrc n id _ | .xRef n id _ => ((heldXfers (c.ndl n)).find? fun x => x.id == id).bind (·.atDesc)
  | _ => none

/-- What a thread's fault reports for a failed burst (R210, R291). -/
def meshInfo (c : Chip) (p code : Nat) (b : Burst) (addr : Nat) : FaultInfo :=
  let d := c.burstDesc b
  { cause := if code = 3 then cForcedPd else cMesh, ndl := b.req, pc := b.pc, av := true, dir := b.kind != .read,
    addr := addr, detail := code * 16 + p, dv := d.isSome, daddr := d.getD 0 }

/-- A thread's burst has failed (R139, R147): its completion-queue entry stops, and the thread faults.
(log 57, DEDUCED) -/
def threadFail (e : Env) (c : Chip) (b : Burst) (i : FaultInfo) : Chip :=
  let c := match b.use with
    | .own _ id a => c.setEntry b.req id fun x =>
      { x.mapRec a fun r => { r with own := if r.own = 1 then 0 else r.own } with stopped := true }
    | .xData _ id _ | .xStatus _ id _ => c.setEntry b.req id fun x => { x with stopped := true }
    | _ => c
  if c.ofThread b then (c.xferFault e b.req b.thr i).sweepCq b.req else c.sweepCq b.req

/-- A burst has failed: it is recorded, and its requester is told (R210). -/
def answerFail (e : Env) (c : Chip) (p code : Nat) (b : Burst) (addr : Nat) : Chip :=
  let i := c.meshInfo p code b addr
  let c := c.meshFail p code b addr
  match b.use with
  | .dwait t =>
    let th := c.thr t
    if th.st = .waiting ∧ th.kind = kDesc ∧ th.gen = b.gen then c.faultStored t { i with pc := th.pc } else c
  | .spill m blk run => c.spillAnswer m blk run true
  | .refill m blk run => c.refillAnswer m blk run [] true
  | .monitor id => c.monAck e id false
  | .flush i => c.bbFlushAck i false
  | .harvest st => c.hvAck e st false
  | .dbgRead | .dbgWrite => c.dbgDone (if code = 3 then 3 else 2)
  | .weeder => c.flag .wdStat F.WdStat.RFAIL
  | .sample => c.flag .isStat F.IsStat.RFAIL
  | .irq _ => c
  | _ => c.threadFail e b i

/-! Sending and trains (R216 to R218) -/

/-- A burst has left: the next of its requester takes its place, and a bound burst of a thread is a post (R40, R181). -/
def sent (e : Env) (c : Chip) (p tag : Nat) (b : Burst) : Chip :=
  let c := (c.sendBurst p tag b).pull p b.req b.use
  let c := match b.use with | .own n id a => c.ownSent n id a | _ => c
  let c := if b.bound.isSome ∧ threadUse b.use then c.measurePost (c.copyOf b.thr) else c
  if b.use = .sample then c.sampleDrain e 33 else c

/-- The burst of a transfer that a fence stops before its first beat, with the fence (R138, R227). -/
def fenceStop (c : Chip) (b : Burst) : List Nat :=
  if (xferOf b.use).isSome then
    (List.range 64).filter fun k => c.bit (.xfFence k) F.XfFence.VALID && c.fenceNames k b.desc b.dgen
  else []

/-- A granted burst is withdrawn before its first beat (R227), and its thread faults (R138).
(log 55, DEDUCED) -/
def withdraw (e : Env) (c : Chip) (p : Nat) (b : Burst) (ks : List Nat) : Chip :=
  let c := ks.foldl (fun c k => c.tally (.xfFenceSt k) F.XfFenceSt.HITS 1) c
  let c := (c.flag .xfStat F.XfStat.STALE).noteWithdraw p b
  c.xferFault e b.req b.thr { FaultInfo.plain cStale b.req b.pc (ks.headD 0) with dv := true, daddr := b.desc }

/-- A granted bound burst, if there is one, leaves whole; its requester holds the port for the rest of its train. A fence
written since the grant withdraws it instead (R138, R227). LASTn is 1 for the moment of the burst's last beat (R214). -/
def finish (e : Env) (c : Chip) (p : Nat) : Chip :=
  let q := c.port p
  match q.granted, q.lastLine with
  | none, none => c
  | none, some _ => c.setPort p { q with lastLine := none }
  | some g, _ =>
    match c.fenceStop g.burst with
    | k :: ks => (c.setPort p { q with granted := none, holder := none, lastLine := none }).withdraw e p g.burst (k :: ks)
    | [] =>
      let hold := match g.burst.bound, xferOf g.burst.use with
        | some l, some id => if c.bit (.mpArb p) F.MpArb.FREEZE then none else some (g.burst.req, l, id)
        | _, _ => none
      (c.setPort p { q with granted := none, holder := hold, lastLine := g.burst.bound }).sent e p g.tag g.burst

/-- ACKn (R214): 1 from the grant of a burst bound to line n to its first beat. -/
def ackOut (c : Chip) (n : Nat) : Bool := c.ports.any fun q => q.2.granted.any fun g => g.burst.bound == some n
/-- LASTn (R214). -/
def lastOut (c : Chip) (n : Nat) : Bool := c.ports.any fun q => q.2.lastLine == some n

/-- Whether a train may have a further burst (R218): the oldest of its transfer at the port is of it, or its transfer is still
in the active set with something to come. -/
def trainOn (c : Chip) (p : Nat) (h : Nat × Nat × Nat) : Bool :=
  match c.trainBurst p h with
  | some b => b.bound == some h.2.1
  | none => (c.ndl h.1).active.any fun x => x.id == h.2.2 && (x.queue != [] || x.stage != .close)

/-- A port comes to its next break point: the granted burst leaves, and a train with no further burst ends (R218, R222).
(log 55, DEDUCED) -/
def settle (e : Env) (c : Chip) (p : Nat) : Chip :=
  let c := c.finish e p
  let q := c.port p
  match q.holder with
  | some h => if c.trainOn p h then c else c.setPort p { q with holder := none }
  | none => c

/-- A burst is granted with a tag: an unbound one leaves, a bound one waits for its first beat (R216). -/
def granting (e : Env) (c : Chip) (p : Nat) (b : Burst) (tag before : Nat) : Chip :=
  let q := c.port p
  let c : Chip := if q.waiting.contains b then c.setPort p { q with waiting := q.waiting.erase b }
    else { c with backlog := c.backlog.erase (p, b) }
  match c.fenceStop b with
  | k :: ks => c.withdraw e p b (k :: ks)
  | [] =>
    let b := { b with wait := 0 }
    if b.bound.isSome then c.setPort p { c.port p with granted := some { burst := b, tag := tag, waitBefore := before } }
    else c.sent e p tag b

/-- The burst that the round grants is granted (R223). `pick` chooses among the free tags; `evs` are the events of the break
point, which count in the same cycle (R330).
(log 54, DESIGN CHOICE) -/
def grant (e : Env) (c : Chip) (p : Nat) (w : Burst) (forced : Bool) (pick : Nat) (evs : List (Nat × Nat)) : Chip :=
  let tags := freeTags (c.port p) w.kind
  let tag := tags.getD (pick % tags.length) 0
  let k := c.reqClass w
  let c := c.countCycle (512 + 2 * p) 2 (evs ++ [(0x085, 1), (0x090 + k, 1)] ++ (if forced then [(0x086, 1)] else []))
  let c := (c.ageWaiting p w).noteWait p k w.wait
  let c := c.setPort p { c.port p with ptr := w.req }
  c.granting e p w tag w.wait

/-- Whether a line has a message that port p can take now (R230).
(log 56, DEDUCED) -/
def irqWaits (e : Env) (c : Chip) (p : Nat) : Bool :=
  (List.range 64).any fun k => c.irqDue e k &&
    match (c.irqBurst e k).2 with
    | .ok w => e.prot.home w == p && decide (0 < c.rqHeld p) && decide (0 < c.wdHeld p) && !c.tdDown (e.prot.tdom w)
    | .fail _ => false

/-- A break point that holds no round, for no request is eligible or FREEZE is 1, ends the turn that a message has left to
the requests (R229, R230).
(log 56, DEDUCED) -/
def endTurn (c : Chip) (p : Nat) : Chip :=
  let q := c.port p
  if q.msgTurn ∧ q.holder.isNone ∧ (c.bit (.mpArb p) F.MpArb.FREEZE ∨ (c.arbPick p).isNone) then
    c.setPort p { q with msgTurn := false }
  else c

/-- A round at a port (R222, R223), at a break point with an eligible request. A message that can be sent comes first, but not
directly after another: the break point after a message belongs to a round, whether a request is eligible or not (R230).
(log 53, DEDUCED; log 56, DEDUCED) -/
def round (e : Env) (c : Chip) (p pick : Nat) : Chip :=
  let c := c.settle e p
  let q := c.port p
  if q.holder.isSome ∨ c.bit (.mpArb p) F.MpArb.FREEZE ∨ (c.irqWaits e p ∧ ¬ q.msgTurn) then c.endTurn p
  else
    let evs := if q.waiting.any fun b => c.unmasked b && c.openTo p b && c.lacking p b != [] then [(0x088, 1)] else []
    let c := c.setPort p { q with msgTurn := false }
    match c.arbPick p with
    | none => c.countCycle (512 + 2 * p) 2 evs
    | some (w, forced) => c.grant e p w forced pick evs

/-- The next burst of a train (R218): granted, or the train breaks where REQn is 0, or it waits for credits, a tag or its
domain.
(log 54, DESIGN CHOICE) -/
def trainNext (e : Env) (c : Chip) (p : Nat) : Chip :=
  let c := c.settle e p
  let q := c.port p
  match q.holder with
  | none => c
  | some h =>
    match c.trainBurst p h with
    | none => c
    | some b =>
      if ¬ c.reqLevel h.2.1 then
        let again (x : Burst) : Burst := if x = b then { x with wait := 0 } else x
        (c.setPort p { q with holder := none, waiting := q.waiting.map again }).tally (.rlStat h.2.1) F.RlStat.BREAKS 1
      else if c.lacking p b ≠ [] ∨ ¬ c.openTo p b then c
      else c.granting e p b ((freeTags q b.kind).headD 0) 0

/-- HOLD_LIMIT runs out for a train (R226). -/
def holdOverrun (e : Env) (c : Chip) (p : Nat) : Chip :=
  let c := c.settle e p
  let q := c.port p
  match q.holder with
  | none => c
  | some h =>
    let act := c.fld (.arbRq h.1) F.ArbRq.HOLDACT
    if c.fld (.mpArb p) F.MpArb.HOLD_LIMIT = 0 ∨ act = 2 then c
    else
      let again (x : Burst) : Burst := if x.req = h.1 then { x with wait := 0 } else x
      let c := c.setPort p { q with holder := none, waiting := q.waiting.map again }
      let c := (c.tally (.arbRq h.1) F.ArbRq.HOLD_CNT 1).flag (.mpStat p) F.MpStat.HOLD
      if act = 1 then c.setF (.arbRq h.1) F.ArbRq.MASK 1 else c

/-! Request lines (R217, R219) -/

/-- REQn rises: the REQ waits on the line are met, where the line is enabled and CORE has power (13 R275). -/
def reqRise (c : Chip) (n : Nat) : Chip :=
  let c : Chip := { c with reqn := Tab.put false c.reqn n true }
  if coreUp c ∧ c.bit (.rlCfg n) F.RlCfg.EN then c.endReqWaits n false else c

/-- REQn falls before the first beat of a granted burst of the line: the burst goes back to waiting (R217), behind another
request of its requester that is presented already.
(log 55, DEDUCED) -/
def fallEarly (c : Chip) (n : Nat) : Chip :=
  c.ports.foldl (fun c q => match q.2.granted with
    | some g =>
      if g.burst.bound = some n then
        let b := { g.burst with wait := g.waitBefore }
        let d := c.setPort q.1 { c.port q.1 with granted := none, holder := none }
        let c : Chip := if hasRequest (d.port q.1) b.req then { d with backlog := (q.1, b) :: d.backlog }
          else d.setPort q.1 { d.port q.1 with waiting := (d.port q.1).waiting ++ [b] }
        (c.tally (.rlStat n) F.RlStat.EARLY 1).cntMesh q.1 0x087 1
      else c
    | none => c) c

/-- REQn falls after the first beat: the burst completes (R217). A burst that a fence withdrew had no first beat.
(log 55, DEDUCED) -/
def fallLate (e : Env) (c : Chip) (n : Nat) : Chip :=
  c.ports.foldl (fun c q => match q.2.granted with
    | some g =>
      if g.burst.bound = some n ∧ c.fenceStop g.burst ≠ [] then c.finish e q.1
      else if g.burst.bound = some n then
        ((c.finish e q.1).tally (.rlStat n) F.RlStat.WDRAW 1).flag (.rlStat n) F.RlStat.REQ_WITHDRAWN
      else c
    | none => c) c

/-- REQn falls (R217). -/
def reqFall (e : Env) (c : Chip) (n : Nat) (late : Bool) : Chip :=
  let c := if late then c.fallLate e n else c.fallEarly n
  { c with reqn := Tab.put false c.reqn n false }

/-! Responses (R207, R211) -/

/-- A tag is no longer outstanding.
(log 57, DEDUCED) -/
def closeTag (c : Chip) (p tag : Nat) : Chip :=
  let q := c.port p
  c.setPort p { q with outst := q.outst.filter fun o => o.1 ≠ tag, failing := q.failing.filter fun t => t ≠ tag }

/-- A tag is retired (R211, R212), with the domain of its burst, by force or by timeout. -/
def retireTag (c : Chip) (p tag dom : Nat) (forced : Bool) : Chip :=
  let c := c.closeTag p tag
  c.setPort p { c.port p with retired := (c.port p).retired ++ [(tag, dom, forced)] }

/-- A response beat whose tag is not outstanding: for a retired tag it is a late response, which frees the tag unless it was
retired by force (R211, R212); it is not heard at all while its domain is forced down (R281).
(log 57, DEDUCED) -/
def strayBeat (c : Chip) (p tag : Nat) : Chip :=
  let q := c.port p
  match q.retired.find? fun r => r.1 == tag with
  | some (_, d, forced) =>
    if Tab.get false c.pwr.tdForce d then c
    else
      let c := if forced then c else c.setPort p { q with retired := q.retired.filter fun r => r.1 ≠ tag }
      c.flag (.mpStat p) F.MpStat.LATE_RSP
  | none => c.flag (.mpStat p) F.MpStat.UNEXP

/-- One read beat for a tag (R207, R210): a line, or an error. The first error is reported at once; the other beats of a
failed read are received and discarded, and the tag stays outstanding to the last of them.
(log 58, DESIGN CHOICE) -/
def readBeat (e : Env) (c : Chip) (p tag : Nat) (l : Option (Line × Bool)) (err : Nat) : Chip :=
  let q := c.port p
  match q.outst.find? fun o => o.1 == tag && o.2.1.kind == .read with
  | none => c.strayBeat p tag
  | some (_, b, before) =>
    let failing : Bool := q.failing.contains tag
    let got := before ++ [l.getD (0#512, false)]
    let last : Bool := decide (got.length ≥ b.len)
    let fails : List (Nat × Nat) := if err ≠ 0 ∧ ¬ failing then [(0x08B, 1)] else []
    let c := c.countCycle (512 + 2 * p) 2 ((if last then [(0x089, Config.cycles c.free)] else []) ++ fails)
    let c := if last then (c.closeTag p tag).spend
      else c.setPort p { q with outst := q.outst.map (fun o => if o.1 = tag then (tag, b, got) else o),
                                failing := if err ≠ 0 ∧ ¬ failing then q.failing ++ [tag] else q.failing }
    if failing then c
    else if err ≠ 0 then c.answerFail e p err b (b.addr + 64 * before.length)
    else if last then c.deliverRead b got
    else c

/-- Read beats return for a tag (R207): `ls` without an error, then one with `err` where that is not 0. -/
def readBeats (e : Env) (c : Chip) (p tag : Nat) (ls : List (Line × Bool)) (err : Nat) : Chip :=
  let c := ls.foldl (fun c l => c.readBeat e p tag (some l) 0) c
  if err = 0 then c else c.readBeat e p tag none err

/-- A write acknowledgement returns for a tag (R207, R210), or for a write that a warm reset left behind (13 R286). -/
def ackBeat (e : Env) (c : Chip) (p tag err : Nat) : Chip :=
  match (c.port p).outst.find? fun o => o.1 == tag && o.2.1.kind == .ack with
  | none =>
    let q := c.port p
    match q.undrained.find? fun o => o.1 == tag with
    | some o =>
      if Tab.get false c.pwr.tdForce o.2.tdom then c
      else c.setPort p { q with undrained := q.undrained.filter fun o => o.1 ≠ tag }
    | none => c.strayBeat p tag
  | some (_, b, _) =>
    let lat := Config.cycles c.free
    let evs : List (Nat × Nat) := (0x08A, lat) :: if err = 0 then [] else [(0x08B, 1)]
    let c := ((c.closeTag p tag).countCycle (512 + 2 * p) 2 evs).spend
    (if err = 0 then c.deliverAck e b else c.answerFail e p err b b.addr).reapOf b

/-- A request is not answered in time: its tag is retired (R211), and it fails unless its failure has been reported (R210); a
write that a warm reset left behind has failed (R286). -/
def meshTimeout (e : Env) (c : Chip) (p tag : Nat) : Chip :=
  match (c.port p).outst.find? fun o => o.1 == tag with
  | none =>
    let q := c.port p
    c.setPort p { q with undrained := q.undrained.filter fun o => o.1 ≠ tag }
  | some (_, b, _) =>
    if c.fld (.mpCtl p) F.MpCtl.TMO = 0 then c
    else
      let told : Bool := (c.port p).failing.contains tag
      let c := c.retireTag p tag b.tdom false
      if told then c else ((c.cntMesh p 0x08B 1).answerFail e p 4 b b.addr).reapOf b

/-! Interrupt messages (14 R302, R230) -/

/-- Line k sends its message, if one is due and its port can take it; after a message, a request that is eligible has its
round first (R230, R302).
(log 56, DEDUCED) -/
def irqSend (e : Env) (c : Chip) (k : Nat) : Chip :=
  if ¬ c.irqDue e k then c
  else
    let r := c.irqBurst e k
    match r.2 with
    | .fail _ => (c.tally (.irqLnStat k) F.IrqLnStat.MSI_FAIL 1).setF (.irqLnCfg k) F.IrqLnCfg.ARMED 0
    | .ok w =>
      let p := e.prot.home w
      let c := c.settle e p
      if (c.port p).holder.isSome ∨ c.bit (.mpArb p) F.MpArb.FREEZE ∨ c.rqHeld p = 0 ∨ c.wdHeld p = 0 ∨
          c.tdDown (e.prot.tdom w) ∨ ((c.port p).msgTurn ∧ (c.arbPick p).isSome) then c
      else
        let c := c.sendBurst p 0 { r.1 with tdom := e.prot.tdom w }
        let c := c.setPort p { c.port p with msgTurn := true }
        (c.tally (.irqLnStat k) F.IrqLnStat.MSI_SENT 1).setF (.irqLnCfg k) F.IrqLnCfg.ARMED 0

/-- ACK of line k (R302): ARMED is set, and another message follows while the level is 1. -/
def irqAck (e : Env) (c : Chip) (k : Nat) : Chip := (c.setF (.irqLnCfg k) F.IrqLnCfg.ARMED 1).irqSend e k

/-! Mesh target domains (13 R280, R281): the host's signals stand whatever has power, and what they do is CORE's (R275). -/

/-- Every port comes to a break point. -/
def settleAll (e : Env) (c : Chip) : Chip := (List.range 16).foldl (fun c p => (c.settle e p).endTurn p) c

/-- Whether a read or acknowledged write to a domain is outstanding, or a granted burst to it has not left (R212). -/
def tdBusy (c : Chip) (d : Nat) : Bool :=
  c.ports.any fun q => q.2.outst.any (fun o => o.2.1.tdom == d) || q.2.granted.any fun g => g.burst.tdom == d

/-- PDACK of a domain. -/
def setTdAck (c : Chip) (d : Nat) (v : Bool) : Chip :=
  let pw := { c.pwr with tdAck := Tab.put false c.pwr.tdAck d v }
  { c with pwr := pw }

/-- The power-up of a domain (R212, R280): PDACK falls, its forced tags are free, and the threads PARKED on it become
READY, in ascending number.
(log 130, DESIGN CHOICE) -/
def tdUp (c : Chip) (d : Nat) : Chip :=
  if c.tdDown d then c
  else
    let c := c.setTdAck d false
    let free (q : Nat × Port) : Nat × Port := (q.1, { q.2 with retired := q.2.retired.filter fun r => r.2 ≠ (d, true) })
    let c : Chip := { c with ports := List.map free c.ports }
    let parked := (c.threads.filter fun q => q.2.st == .parked && q.2.kind == kPark && q.2.arg == parkTarget * 2 ^ 24 + d).map (·.1)
    parked.foldl (fun c t => c.wake t id) c

/-- The OWN clears of the threads with one that waits at a port for a domain come back to their entries (R141), in chain
order. -/
def recallOwn (c : Chip) (d : Nat) : Chip :=
  let wait (b : Burst) : Bool := isOwn b.use && !c.ports.any fun q => q.2.granted.any fun g => g.burst == b
  let ts := (c.heldBursts fun b => wait b && b.tdom == d).map (·.thr)
  c.recallBursts fun b => wait b && ts.contains b.thr

/-- PDREQ of a domain rises (R280). -/
def tdRise (c : Chip) (d : Nat) : Chip :=
  let pw := { c.pwr with tdReq := Tab.put false c.pwr.tdReq d true }
  let c : Chip := { c with pwr := pw }
  if coreUp c then c.recallOwn d else c

/-- PDACK of a domain rises once nothing to it is left on any port (R212, R280). -/
def tdAckRise (e : Env) (c : Chip) (d : Nat) : Chip :=
  let c := c.settleAll e
  if c.tdDown d ∧ ¬ c.tdBusy d then c.setTdAck d true else c

/-- PDREQ of a domain falls (R280). -/
def tdFall (c : Chip) (d : Nat) : Chip :=
  let pw := { c.pwr with tdReq := Tab.put false c.pwr.tdReq d false }
  let c : Chip := { c with pwr := pw }
  if coreUp c then c.tdUp d else c

/-- What is outstanding to a domain, by port: the tag, its burst, and whether its failure has been reported already. -/
def tdHits (c : Chip) (d : Nat) : List (Nat × Nat × Burst × Bool) :=
  (List.range 16).flatMap fun p =>
    ((c.port p).outst.filter fun o => o.2.1.tdom == d).map fun o => (p, o.1, o.2.1, (c.port p).failing.contains o.1)

/-- Every read and acknowledged write outstanding to a domain fails with FORCED_PD; its tags stay retired (R212, R281). The
failures count as of one cycle (16 R330). -/
def tdFail (e : Env) (c : Chip) (d : Nat) : Chip :=
  let hits := c.tdHits d
  hits.foldl (fun c h =>
    let c := c.retireTag h.1 h.2.1 d true
    if h.2.2.2 then c else (c.answerFail e h.1 3 h.2.2.1 h.2.2.1.addr).reapOf h.2.2.1)
    (c.meshCycle ((hits.filter fun h => !h.2.2.2).map (·.1)) 0x08B)

/-- FORCE of a domain rises (R281). -/
def tdForce (e : Env) (c : Chip) (d : Nat) : Chip :=
  let up := coreUp c
  let c := if up then c.settleAll e else c
  let pw := { c.pwr with tdForce := Tab.put false c.pwr.tdForce d true }
  let c : Chip := { c with pwr := pw }
  if up then ((c.recallOwn d).tdFail e d).setTdAck d true else c

/-- FORCE of a domain falls (R281). -/
def tdForceFall (c : Chip) (d : Nat) : Chip :=
  let pw := { c.pwr with tdForce := Tab.put false c.pwr.tdForce d false }
  let c : Chip := { c with pwr := pw }
  if coreUp c then c.tdUp d else c

end Chip

/-- ARBITRATION_ROUND (R223). -/
def execArbitrationRound (p : Fin 16) (pick : Nat) (s : State) : Host.Outcome State Fault Refusal :=
  s.chipStep fun e c => whenLive c (·.round e p pick)
/-- TRAIN_NEXT_BURST (R218). -/
def execTrainNextBurst (p : Fin 16) (s : State) : Host.Outcome State Fault Refusal :=
  s.chipStep fun e c => whenLive c (·.trainNext e p)
/-- HOLD_LIMIT_OVERRUN (R226). -/
def execHoldLimitOverrun (p : Fin 16) (s : State) : Host.Outcome State Fault Refusal :=
  s.chipStep fun e c => whenLive c (·.holdOverrun e p)
/-- MESH_READ_RESPONSE (R207). -/
def execMeshReadResponse (p : Fin 16) (tag : BitVec 7) (lines : List (Line × Bool)) (err : BitVec 2) (s : State) :
    Host.Outcome State Fault Refusal :=
  s.chipStep fun e c => whenLive c (·.readBeats e p tag.toNat lines err.toNat)
/-- MESH_WRITE_ACK (R207). -/
def execMeshWriteAck (p : Fin 16) (tag : BitVec 7) (err : BitVec 2) (s : State) : Host.Outcome State Fault Refusal :=
  s.chipStep fun e c => whenLive c (·.ackBeat e p tag.toNat err.toNat)
/-- MESH_TIMEOUT (R211). -/
def execMeshTimeout (p : Fin 16) (tag : BitVec 7) (s : State) : Host.Outcome State Fault Refusal :=
  s.chipStep fun e c => whenLive c (·.meshTimeout e p tag.toNat)
/-- REQ_RISE (R219). -/
def execReqRise (line : Fin 256) (s : State) : Host.Outcome State Fault Refusal := s.chipStep fun _ c => c.reqRise line
/-- REQ_FALL (R217). -/
def execReqFall (line : Fin 256) (late : Bool) (s : State) : Host.Outcome State Fault Refusal :=
  s.chipStep fun e c => c.reqFall e line late
/-- IRQ_MESSAGE (R302). -/
def execIrqMessage (line : Fin 64) (s : State) : Host.Outcome State Fault Refusal :=
  s.chipStep fun e c => whenReady c (·.irqSend e line)
/-- IRQ_ACK (R302). -/
def execIrqAck (line : Fin 64) (s : State) : Host.Outcome State Fault Refusal :=
  s.chipStep fun e c => whenReady c (·.irqAck e line)
/-- TD_PDREQ_RISE (R280). -/
def execTdPdreqRise (d : Fin 64) (s : State) : Host.Outcome State Fault Refusal := s.chipStep fun _ c => c.tdRise d
/-- TD_PDACK_RISE (R280). -/
def execTdPdackRise (d : Fin 64) (s : State) : Host.Outcome State Fault Refusal := s.coreStep fun e c => c.tdAckRise e d
/-- TD_PDREQ_FALL (R280). -/
def execTdPdreqFall (d : Fin 64) (s : State) : Host.Outcome State Fault Refusal := s.chipStep fun _ c => c.tdFall d
/-- TD_FORCE (R281). -/
def execTdForce (d : Fin 64) (s : State) : Host.Outcome State Fault Refusal := s.chipStep fun e c => c.tdForce e d
/-- TD_FORCE_FALL (R281). -/
def execTdForceFall (d : Fin 64) (s : State) : Host.Outcome State Fault Refusal := s.chipStep fun _ c => c.tdForceFall d

end Sys2Proof.Machine
end

