-- ==== Sys2Proof/WellFormed.lean ====
section
/-! DEFINITION. Well-formed commands: the limits on operands that no operand type states. A command that is not well
formed stands for nothing that the block's interfaces can carry; the meanings leave the state unchanged on it. -/

namespace Sys2Proof

/-- An offset in the register regions, on a word (R19, R21). -/
def isRegisterOffset (a : Nat) : Bool := decide (a % 8 = 0) && decide (a < 0x400000)

/-- An offset in the memory windows, on a word (R19, R21). -/
def isMemoryOffset (a : Nat) : Bool := decide (a % 8 = 0) && decide (0x400000 ≤ a)

/-- The entries that a BBRSP of a code carries: 4 data blocks each with code 0, none with the others (R254). -/
def bbrspDataOk (code ent : Nat) (len : Nat) : Bool :=
  if code = 0 then decide (1 ≤ ent) && len == 4 * ent else ent == 0 && len == 0

/-- A well-formed command. -/
def Instr.wellFormed : Instr → Bool
  | .registerWrite a _ => isRegisterOffset a.toNat
  | .memoryWindowWrite a _ _ => isMemoryOffset a.toNat
  | .memoryWindowRead a => isMemoryOffset a.toNat
  | .meshReadResponse _ _ lines _ => decide (lines.length ≤ 16)
  | .lockLeaseEnd l => decide (l.toNat < 1024) || (decide (0x8000 ≤ l.toNat) && decide (l.toNat ≤ 0x80FF))
  | .bbrsp _ _ code ent _ _ data => bbrspDataOk code.toNat ent.toNat data.length
  | _ => true

end Sys2Proof
end

