-- ==== Sys2Proof/Machine/Seam.lean ====
section
/-! DEFINITION. The Seam ring (11_seam_ring.md): messages of the node's own and forwarded ones, training (R239 to R243),
markers (R244 to R246), decisions and hints (R247), ring locks (R248, R249), user messages, the receive queue (R253),
BBREAD (R254), and bypass (R255 to R257). Performing RREAD and RWRITE is in Remote.lean. -/

namespace Sys2Proof.Machine

/-- One bit of the CRC of R234: polynomial x^8 + x^2 + x + 1. -/
def crcBit (crc b : Nat) : Nat :=
  if (crc / 128 + b) % 2 = 1 then Nat.xor (crc * 2 % 256) 7 else crc * 2 % 256

/-- The CRC over the n low bits of a number, bit 0 first. -/
def crcBits (crc n v : Nat) : Nat := (List.range n).foldl (fun a i => crcBit a (v / 2 ^ i % 2)) crc

/-- The header word of a message (R234): `blocks` is the number of data blocks. -/
def msgHead (ty : Nat) (h : SeamHead) (data : List Word) : Word :=
  let w := 0x5A + ty % 256 * 2 ^ 8 + (data.length - 1) % 16 * 2 ^ 16 + b2n h.bc * 2 ^ 20 + h.src.toNat * 2 ^ 21 +
    h.dest.toNat * 2 ^ 33 + h.root.toNat * 2 ^ 45 + h.seq.toNat * 2 ^ 49
  let crc := data.foldl (fun a d => crcBits a 64 d.toNat) (crcBits 0 48 (w / 256))
  BitVec.ofNat 64 (w + crc * 2 ^ 56)

/-- The priority of a message of the node's own (R238): the least goes first. -/
def msgPrio (ty : Nat) : Nat :=
  if ty = 0x10 then 0
  else if ty = 0x11 ∨ ty = 0x12 then 1
  else if ty < 0x10 then 2
  else if ty < 0x30 then 3
  else if ty < 0x40 then 4
  else if ty < 0x50 then 5
  else 6

/-- The types that only a node in service sends or acts on (R239). -/
def needsService (ty : Nat) : Bool :=
  [0x11, 0x12, 0x20, 0x21, 0x30, 0x31, 0x40, 0x41, 0x48, 0x50].contains ty

/-- The types of ring version 3 (R235). -/
def needsV3 (ty : Nat) : Bool := [0x12, 0x48, 0x49].contains ty

/-- The types that only their addressee acts on. -/
def unicastOnly (ty : Nat) : Bool := [0x20, 0x21, 0x40, 0x41, 0x42, 0x48, 0x49].contains ty

namespace Chip

/-- The chip with the Seam node changed. -/
def mapSeam (c : Chip) (f : Seam → Seam) : Chip := { c with seam := f c.seam }

/-- Whether SEAM is powered down (R282). -/
def seamOff (c : Chip) : Bool := c.bdDown 128

/-- Both receive lanes are block-locked. -/
def bothLocked (c : Chip) : Bool := c.seam.lockE && c.seam.lockW

/-- DXW_SEAM_STAT as it reads: RXNE from the receive queue. -/
def seamStatWord (c : Chip) : Word := fset (c.rd .seamStat) F.SeamStat.RXNE (b2n (c.seam.rxq != []))

/-- A SEAM event (14 R304). -/
def seamEvent (c : Chip) (old new : Nat) : Chip := c.bbEvent 0x07 (BitVec.ofNat 64 (old * 16 + new)) c.seamStatWord

/-! Ring locks that the node gives up (R249, R256) -/

/-- Whether a slot's pending result is that of a request. -/
def answers (a : LockAsk) (s : Slot) : Bool :=
  s.t == a.t && s.act.any fun x => x.arg == a.lock && x.kind == (if a.isUnlock then ActKind.lockUnlock else ActKind.lockTry)

/-- The slot that a thread which has faulted since its request still holds for the result (14 R292). -/
def deadAsk (c : Chip) (a : LockAsk) : Option (Nat × Nat) :=
  (c.needles.findSome? fun p => p.2.slots.findSome? fun q =>
    if q.2.any fun s => s.dead && answers a s then some (p.1, q.1) else none)

/-- The result code of a ring lock lands (14 R292). -/
def lockCode (c : Chip) (n k code : Nat) : Chip :=
  let wd := ((c.actOf n k).map (·.wd)).getD 0
  c.landResult n k fun th => (th.setReg wd (BitVec.ofNat 32 code)).report (code ≠ 0)

/-- The result of a try-mode LOCK or of an UNLOCK of a ring lock reaches its thread; the answer says whether it still
waited for it. A thread that has faulted since does not wait, but its record takes the result (14 R292). -/
def askResult (c : Chip) (a : LockAsk) (code : Nat) : Chip × Bool :=
  match c.deadAsk a with
  | some (n, k) => (c.lockCode n k code, false)
  | none =>
    match c.findSlot a.t with
    | none => (c, false)
    | some (n, k) =>
      match c.actOf n k with
      | none => (c, false)
      | some x =>
        if x.arg = a.lock ∧ x.kind = (if a.isUnlock then ActKind.lockUnlock else ActKind.lockTry) then
          (c.lockCode n k code, true)
        else (c, false)

/-- The threads that wait in a wait-mode LOCK of a ring lock become READY with UNAVAIL, and so do the requests that are
outstanding end (R249, R256). On the reference they wait in its lock unit no more. -/
def leaveService (c : Chip) : Chip :=
  let open' := c.seam.asks.filter fun a => !a.lapsed && (a.isTry || a.isUnlock)
  let c := open'.foldl (fun c a => (c.askResult a 5).1) c
  let c := c.mapSeam fun s => { s with asks := s.asks.map fun a => { a with lapsed := true } }
  (c.waiters kLock isRing).foldl (fun c t => (c.dropRingWaits t).lockResult t 5) c

/-- Whether a message is of the node's own making. -/
def ownMsg (c : Chip) (m : SMsg) : Bool := m.h.src.toNat == c.nodeId

/-- What a node that enters LINK or STANDBY no longer sends of its training (R239): it sends only idles there, but for the ECHO
that a node in STANDBY still sends, and the RING_UP of VER 0 that took the reference to it (R240). -/
def dropTraining (c : Chip) (st : Nat) : Chip :=
  if st = 1 ∨ st = 6 then
    c.mapSeam fun s => { s with
      tx := s.tx.filter fun m => decide (0x10 ≤ m.ty) || (st == 6 && m.ty == 0x05)
      west := if st = 1 then s.west.filter fun m => !c.ownMsg m else s.west }
  else c

/-- The queued messages that only a node in service sends are dropped (R193, R239). -/
def dropService (c : Chip) : Chip := c.mapSeam fun s => { s with tx := s.tx.filter fun m => !needsService m.ty }

/-- RSTATE moves (R239), each change is a SEAM event, and leaving SERVICE ends the node's ring-lock waits. A MARKER that has
not been launched is not sent later. A node that stops while it is not in service sends no message that needs it.
(log 48, DEDUCED) -/
def setR (c : Chip) (st : Nat) : Chip :=
  let old := c.rstate
  if old = st then c
  else
    let c := ((c.setF .seamStat F.SeamStat.RSTATE st).seamEvent old st).dropTraining st
    let c := if st = 7 ∧ old ≠ 5 then c.dropService else c
    if old = 5 then (c.mapSeam fun s => { s with tx := s.tx.filter fun m => m.ty ≠ 0x10 }).leaveService else c

/-! Sending -/

/-- HELLO from the reference (R240): LO 2, HI VERMAX, COUNT 1. With both lanes locked the reference is in HELLO (R239). -/
def sendHello (c : Chip) : Chip :=
  let c := c.sendMsg .node 0x01 0 false 0 none [BitVec.ofNat 64 (2 + c.fld .seamCfg F.SeamCfg.VERMAX * 2 ^ 4 + 2 ^ 8)]
  let c := c.mapSeam fun s => { s with helloOut := true, full := true }
  if c.bothLocked then c.setR 2 else c

/-- The node enters LINK (R239). -/
def enterLink (c : Chip) : Chip :=
  let c := (c.setR 1).mapSeam fun s => { s with token := none, claimOut := none, helloOut := false }
  if c.isRef then c.sendHello else c

/-- The island's path takes over or gives back forwarding (R255). -/
def setIsland (c : Chip) (on : Bool) : Chip :=
  if c.bit .seamByp F.SeamByp.ISL = on then c
  else (c.setF .seamByp F.SeamByp.ISL (b2n on)).tally .seamByp F.SeamByp.SWITCHES 1

/-- The node starts: LINK, with its own forwarding (R239, R255). -/
def seamStart (c : Chip) : Chip := (c.setIsland false).enterLink

/-- The node hands forwarding to the island: RSTATE OFF, and what it has queued of its own is discarded; the switch loses no
message that it forwards, on either lane (R255, R256). -/
def seamDown (c : Chip) : Chip :=
  let c := c.setR 0
  let others := c.seam.west.filter fun m => !c.ownMsg m
  let c := c.mapSeam fun s => { s with tx := [], west := others, token := none, claimOut := none, helloOut := false }
  c.setIsland true

/-- Send a PROBE for the token in hand (R241). -/
def sendProbe (c : Chip) : Chip :=
  let q := c.seam.probeSeq
  let c := c.sendMsg .node 0x03 0 false 0 none [BitVec.ofNat 64 q]
  c.mapSeam fun s => { s with probeSeq := (q + 1) % 2 ^ 16, token := s.token.map fun t => { t with pseq := q } }

/-- The node becomes the token holder (R241). -/
def holdToken (c : Chip) (ver count curRoot : Nat) (crv : Bool) (acc : Nat) : Chip :=
  let t : TokenState :=
    { ver := ver, count := count, curRoot := curRoot, crv := crv, acc := acc, done := 0, pseq := 0, repeats := 0, best := none }
  (c.mapSeam fun s => { s with token := some t }).sendProbe

/-- The holder forwards TOKEN with the hop it measured (R241). -/
def passToken (c : Chip) (t : TokenState) (hop dwell : Nat) : Chip :=
  let root := c.isRoot
  let cur := if root then c.fld .seamCfg F.SeamCfg.ROOTIDX else t.curRoot
  let b1 := t.ver + t.count * 2 ^ 4 + cur * 2 ^ 17 + b2n (root || t.crv) * 2 ^ 21 + hop % 2 ^ 30 * 2 ^ 22
  let c := c.sendMsg .node 0x02 0 false 0 none [BitVec.ofNat 64 b1, BitVec.ofNat 64 ((t.acc + dwell + hop) % 2 ^ 30)]
  c.mapSeam fun s => { s with token := none }

/-- CLAIM (R242). -/
def sendClaim (c : Chip) : Chip :=
  (c.sendMsg .node 0x06 0 true 0 none [0#64]).mapSeam fun s => { s with claimOut := some c.seam.seq }

/-- RING_UP from the reference (R241, R240). -/
def sendRingUp (c : Chip) (ver count lastRoot : Nat) (lrv : Bool) (rtt : Nat) : Chip :=
  c.sendMsg .node 0x05 0 true 0 none
    [BitVec.ofNat 64 (ver + count * 2 ^ 4 + lastRoot * 2 ^ 17 + b2n lrv * 2 ^ 21 + rtt % 2 ^ 30 * 2 ^ 22 + b2n c.seam.full * 2 ^ 52)]

/-- The parts of DXW_SEAM_RING that RING_UP gives, and the island's copies (R254). -/
def storeRing (c : Chip) (ver count ref rtt : Nat) : Chip :=
  let c := c.setF .seamRing F.SeamRing.VER ver
  let c := c.setF .seamRing F.SeamRing.COUNT count
  let c := c.setF .seamRing F.SeamRing.REF_ID ref
  let c := c.setF .seamRing F.SeamRing.RTT rtt
  c.mapSeam fun s => { s with islNode := c.nodeId, islVer := ver }

/-- The arc root becomes known (R241). -/
def setArc (c : Chip) (root : Nat) : Chip :=
  (c.setF .seamRing F.SeamRing.ARC_ROOT root).setF .seamRing F.SeamRing.ARV 1

/-- What every node takes from a RING_UP, the reference from its own at the moment of sending (R237, R241). -/
def takeRing (c : Chip) (src ver count lastRoot : Nat) (lrv : Bool) (rtt : Nat) : Chip :=
  let c := c.storeRing ver count src rtt
  if lrv ∧ ¬ c.bit .seamRing F.SeamRing.ARV then c.setArc lastRoot else c

/-! The receive queue (R253) -/

/-- A message enters the receive queue of 256 words, or is dropped whole. -/
def rxPush (c : Chip) (ty : Nat) (h : SeamHead) (data : List Word) : Chip :=
  if c.seam.rxq.length + 1 + data.length > 256 then c.flag .seamStat F.SeamStat.RXOVF
  else c.mapSeam fun s => { s with rxq := s.rxq ++ msgHead ty h data :: data }

/-- The next word of the receive queue, 0 when it is empty, and the chip without it. -/
def rxPop (c : Chip) : Chip × Word :=
  match c.seam.rxq with
  | [] => (c, 0#64)
  | w :: ws => (c.mapSeam fun s => { s with rxq := ws }, w)

/-! Receiving (R236, R237) -/

/-- A message is forwarded eastward. -/
def forward (c : Chip) (ty : Nat) (h : SeamHead) (data : List Word) : Chip :=
  let m : SMsg := { ty := ty, h := h, data := data, orig := .node }
  c.mapSeam fun s => { s with fwd := s.fwd ++ [m] }

/-- A malformed message is forwarded (R236, R237); of its type and data, at most `n` blocks, nothing is known.
(log 52, DESIGN CHOICE) -/
def forwardStray (c : Chip) (h : SeamHead) (n : Nat) : Chip :=
  (c.forward (Config.strayType c.free).toNat h ((Config.strayData c.free).take n)).spend

/-- A unicast of the node's own has come back (R237). -/
def cameBack (c : Chip) (h : SeamHead) : Bool := h.src.toNat == c.nodeId && !h.bc && h.dest.toNat != c.nodeId

/-- A message is counted as malformed (R236). -/
def malformed (c : Chip) : Chip :=
  (c.tally .seamCnt F.SeamCnt.MALFORMED 1).flag .seamStat F.SeamStat.MALFORMED

/-- A unicast has returned to its source (R237). -/
def unreach (c : Chip) : Chip :=
  (c.tally .seamCnt F.SeamCnt.UNREACH 1).flag .seamStat F.SeamStat.UNREACH

/-- Whether a message is of a type that the ring version in service lacks (R236). -/
def lacksType (c : Chip) (ty : Nat) : Bool := c.inService && needsV3 ty && decide (c.fld .seamRing F.SeamRing.VER < 3)

/-- Whether the node acts on a message that it receives (R236, R239, R253). -/
def actsOn (c : Chip) (ty : Nat) (h : SeamHead) : Bool :=
  let own := h.src.toNat == c.nodeId
  let toMe := !h.bc && h.dest.toNat == c.nodeId
  let self := own && [0x40, 0x41, 0x48].contains ty
  !c.lacksType ty && (!needsService ty || c.inService) && ((toMe && !self) || (h.bc && !own && !unicastOnly ty))

/-- Whether the node strips a message that it receives (R237). -/
def strips (c : Chip) (ty : Nat) (h : SeamHead) : Bool :=
  h.src.toNat == c.nodeId || (!h.bc && h.dest.toNat == c.nodeId) ||
    ((ty == 0x11 || ty == 0x12) && c.inService && c.isRoot && c.fld .seamCfg F.SeamCfg.ROOTIDX != h.root.toNat)

/-- A message that the node does not act on for its form goes on, or is stripped (R236, R237); of its type and data, at most `n`
blocks, nothing is known.
(log 52, DESIGN CHOICE) -/
def passStray (c : Chip) (h : SeamHead) (n : Nat) : Chip :=
  let c := if c.cameBack h then c.unreach else c
  if c.strips (Config.strayType c.free).toNat h then c.spend else c.forwardStray h n

/-- The event of a DECISION that the decision unit takes from the ring, of an arc's root (R185, 16 R326). -/
def decisionTaken (c : Chip) (ty root : Nat) : List (Nat × Nat) :=
  if ty = 0x11 ∧ c.decSrc ≠ 1 ∧ c.bit .seamRing F.SeamRing.ARV ∧ c.fld .seamRing F.SeamRing.ARC_ROOT = root then [(0x115, 1)]
  else []

/-- A message on the eastward lanes (R236, R237): `act` is what the node does where it acts on it. A bypassed node's
island forwards it.
(log 46, DEDUCED; log 50, DEDUCED) -/
def receive (c : Chip) (ty : Nat) (h : SeamHead) (data : List Word) (act : Chip → Chip) : Chip :=
  if c.rstate = 0 then c.forward ty h data
  else
    let strip := c.strips ty h
    let lost := c.cameBack h
    let c := if c.lacksType ty then c.malformed else c
    let c := if c.actsOn ty h then act (c.seamCycle ((0x110, 1) :: c.decisionTaken ty h.root.toNat)) else c
    let c := if lost then c.unreach else c
    if strip then c else c.forward ty h data

/-! Training (R240 to R243) -/

/-- The block of a HELLO. -/
def helloWord (lo hi count : Nat) : Word := BitVec.ofNat 64 (lo % 16 + hi % 16 * 2 ^ 4 + count % 2 ^ 13 * 2 ^ 8)

/-- A node that is not the reference forwards the HELLO with its range narrowed, and moves to HELLO (R239, R240). -/
def helloPass (c : Chip) (h : SeamHead) (lo hi count : Nat) : Chip :=
  let c := c.forward 0x01 h [helloWord (max lo 2) (min hi (c.fld .seamCfg F.SeamCfg.VERMAX)) (count + 1)]
  let c := c.cntSeam 0x110 1
  if (c.rstate = 1 ∧ c.bothLocked) ∨ c.rstate = 5 ∨ c.rstate = 6 then c.setR 2 else c

/-- The reference's own HELLO has returned (R240). -/
def helloBack (c : Chip) (lo hi count : Nat) : Chip :=
  if c.rstate ≠ 2 ∨ ¬ c.seam.helloOut then c
  else
    let c := (c.mapSeam fun s => { s with helloOut := false }).cntSeam 0x110 1
    if lo ≤ hi then (c.setR 3).holdToken hi count 0 false 0
    else ((c.flag .seamStat F.SeamStat.VER_FAIL).sendRingUp 0 count 0 false 0).setR 6

/-- A HELLO arrives (R240): a new ring, in which a stopping node is not in service.
(log 48, DEDUCED) -/
def helloRx (c : Chip) (h : SeamHead) (lo hi count : Nat) : Chip :=
  let own := h.src.toNat == c.nodeId
  if c.rstate = 0 then c.forward 0x01 h [helloWord lo hi count]
  else if own then (if c.isRef then c.helloBack lo hi count else c)
  else
  let c := if c.rstate = 7 then c.dropService else c
  if c.isRef then
    let c := c.flag .seamStat F.SeamStat.DUAL_REF
    if c.nodeId > h.src.toNat then
      (c.mapSeam fun s => { s with demoted := true, helloOut := false, token := none }).helloPass h lo hi count
    else c.forward 0x01 h [helloWord (max lo 2) (min hi (c.fld .seamCfg F.SeamCfg.VERMAX)) (count + 1)]
  else c.helloPass h lo hi count

/-- The reference sends HELLO again (R240). -/
def helloResend (c : Chip) : Chip :=
  if c.isRef ∧ c.seam.helloOut ∧ (c.rstate = 1 ∨ c.rstate = 2) then c.sendHello else c

/-- The token has come back to the reference (R241): what RING_UP gives, the reference takes as it leaves (R237, R246). -/
def tokenHome (c : Chip) (ver count curRoot : Nat) (crv : Bool) (acc : Nat) : Chip :=
  let c := (c.setF .seamRing F.SeamRing.RTT acc).sendRingUp ver count curRoot crv acc
  if c.seam.full then (c.setR 4).sendClaim else c

/-- A TOKEN arrives from the west neighbour (R241). -/
def tokenRx (c : Chip) (h : SeamHead) (ver count curRoot : Nat) (crv : Bool) (hop acc : Nat) : Chip :=
  if c.rstate ≠ 2 ∧ c.rstate ≠ 3 ∧ c.rstate ≠ 5 then
    c.forward 0x02 h
      [BitVec.ofNat 64 (ver + count * 2 ^ 4 + curRoot * 2 ^ 17 + b2n crv * 2 ^ 21 + hop * 2 ^ 22), BitVec.ofNat 64 acc]
  else
    let c := (c.setF .seamHop F.SeamHop.HOP_IN hop).cntSeam 0x110 1
    let c := if crv then c.setArc curRoot else c
    let c := if c.rstate = 2 then c.setR 3 else c
    if c.isRef then c.tokenHome ver count curRoot crv acc else c.holdToken ver count curRoot crv acc

/-- A PROBE arrives from the west neighbour and is answered on the west lane (R241, R239). -/
def probeRx (c : Chip) (h : SeamHead) (pseq turn : Nat) : Chip :=
  if c.rstate ≤ 1 ∨ c.rstate = 7 then c.forward 0x03 h [BitVec.ofNat 64 pseq]
  else
    let head : SeamHead := { src := BitVec.ofNat 12 c.nodeId, dest := h.src, bc := false, root := 0#4, seq := h.seq }
    let m : SMsg := { ty := 0x04, h := head, data := [BitVec.ofNat 64 (pseq + turn * 2 ^ 16)], orig := .node }
    (c.mapSeam fun s => { s with west := s.west ++ [m] }).cntSeam 0x110 1

/-- An ECHO arrives on the west lane: the measurement goes on, and after 8 the token is passed (R241). -/
def echoRx (c : Chip) (h : SeamHead) (pseq turn elapsed dwell : Nat) : Chip :=
  let m : SMsg := { ty := 0x04, h := h, data := [BitVec.ofNat 64 (pseq + turn * 2 ^ 16)], orig := .node }
  if c.rstate = 0 ∨ h.dest.toNat ≠ c.nodeId then c.mapSeam fun s => { s with west := s.west ++ [m] }
  else match c.seam.token with
    | none => c
    | some t =>
      if t.pseq ≠ pseq then c
      else
        let c := c.cntSeam 0x110 1
        let best := match t.best with | none => elapsed - turn | some b => min b (elapsed - turn)
        let t := { t with best := some best, done := t.done + 1, repeats := 0 }
        if t.done ≥ 8 then c.passToken t (best / 2) dwell
        else (c.mapSeam fun s => { s with token := some t }).sendProbe

/-- A PROBE has had no ECHO within 10 µs (R241). -/
def probeTimeout (c : Chip) (dwell : Nat) : Chip :=
  match c.seam.token with
  | none => c
  | some t =>
    if t.repeats ≥ 16 then (c.passToken t 0 dwell).flag .seamStat F.SeamStat.LINK_LOST
    else (c.mapSeam fun s => { s with token := some { t with repeats := t.repeats + 1 } }).sendProbe

/-- RING_UP is acted on (R240, R242, R243). VER 0 sets VER_FAIL and takes every node that receives it to STANDBY, but not one
that is stopping, which takes what the RING_UP gives and sends no CLAIM.
(log 46, DEDUCED) -/
def ringUp (c : Chip) (src ver count lastRoot : Nat) (lrv : Bool) (rtt : Nat) (full : Bool) : Chip :=
  if ver = 0 then
    let c := (c.takeRing src ver count lastRoot lrv rtt).flag .seamStat F.SeamStat.VER_FAIL
    if c.rstate = 7 then c else c.setR 6
  else if c.rstate = 1 ∨ c.rstate = 6 then c
  else
      let c := c.takeRing src ver count lastRoot lrv rtt
      let c := if c.rstate = 2 then c.setR 3 else c
      if full ∧ c.rstate = 3 then (c.setR 4).sendClaim else c

/-- A CLAIM arrives: the node's own puts it in SERVICE; that of another node with the same ID is stripped without an effect, and
every other passes on (R237, R242). Another holder's has another SEQ, or the same by chance, which nothing in it tells.
(log 116, DESIGN CHOICE) -/
def claimRx (c : Chip) (h : SeamHead) : Chip :=
  if c.rstate = 0 ∨ h.src.toNat ≠ c.nodeId then c.forward 0x06 h [0#64]
  else if c.rstate = 4 ∧ c.seam.claimOut = some h.seq.toNat then
    if Config.claimOwn c.free then ((c.spend.mapSeam fun s => { s with claimOut := none }).setR 5).cntSeam 0x110 1 else c.spend
  else c

/-- The node's CLAIM has not returned in time (R242). -/
def claimTimeout (c : Chip) : Chip :=
  if c.rstate = 4 ∧ c.seam.claimOut.isSome then
    ((c.mapSeam fun s => { s with claimOut := none }).flag .seamStat F.SeamStat.DUP_ID).setR 6
  else c

/-- A full retrain begins at the reference: RETRAIN with FULL = 1, then HELLO (R243). -/
def startRetrain (c : Chip) : Chip :=
  if c.isRef ∧ 2 ≤ c.rstate ∧ c.rstate ≤ 6 then
    let c := c.sendMsg .node 0x07 0 true 0 none [1#64]
    let c := c.mapSeam fun s => { s with token := none, claimOut := none, markersOut := 0 }
    (c.setR 2).sendHello
  else c

/-- A measure round begins at the reference (R243). -/
def startMeasure (c : Chip) : Chip :=
  if c.isRef ∧ c.inService ∧ c.seam.token.isNone then
    (c.mapSeam fun s => { s with full := false }).holdToken (c.fld .seamRing F.SeamRing.VER) (c.fld .seamRing F.SeamRing.COUNT)
      0 false 0
  else c

/-- A full RETRAIN is acted on (R239, R243): every node leaves service, a stopping one for good.
(log 48, DEDUCED) -/
def retrain (c : Chip) (full : Bool) : Chip :=
  if full ∧ (c.rstate = 5 ∨ c.rstate = 6) then (c.mapSeam fun s => { s with token := none }).setR 2
  else if full ∧ c.rstate = 7 then c.dropService
  else c

/-- While CORE is in retention the island judges a message that may wake it (R282). -/
def wakeOn (c : Chip) (yes : Bool) : Chip :=
  if c.pwr.phase = .retention ∧ yes then { c with pwr := { c.pwr with coreWake := true } } else c

/-- A link hit on a receive lane (R243); on the bypass path the island records it (14 R303). -/
def linkHit (c : Chip) (east : Bool) : Chip :=
  let had := if east then c.seam.lockE else c.seam.lockW
  if ¬ had then c
  else
    let c := c.mapSeam fun s => if east then { s with lockE := false } else { s with lockW := false }
    if c.rstate = 0 then c.seamEvent 0 0
    else
      let mine := c.ownMsg
      let c := c.mapSeam fun s =>
        if east then { s with hitE := true, laneW := s.laneW.filter mine } else { s with hitW := true, laneE := s.laneE.filter mine }
      ((c.tally .seamCnt F.SeamCnt.HITS 1).flag .seamStat F.SeamStat.LINK_LOST).seamEvent c.rstate c.rstate

/-- A hit has lasted longer than HITMAX (R243). -/
def linkHitTimeout (c : Chip) (east : Bool) : Chip :=
  let hit := if east then c.seam.hitE else c.seam.hitW
  if ¬ hit then c
  else
    let c := c.mapSeam fun s => if east then { s with hitE := false } else { s with hitW := false }
    let c := c.flag .seamStat F.SeamStat.LINK_DOWN
    if 2 ≤ c.rstate ∧ c.rstate ≤ 6 then c.enterLink else c

/-- A receive lane gains block lock (R232, R239, R243); how its headers are counted lies below the commands.
(log 102, DEDUCED) -/
def lockGained (c : Chip) (east : Bool) : Chip :=
  let c := c.mapSeam fun s => if east then { s with lockE := true, hitE := false } else { s with lockW := true, hitW := false }
  if c.isRef ∧ c.seam.helloOut ∧ c.rstate = 1 ∧ c.bothLocked then c.setR 2 else c

/-! Markers (R244 to R246) -/

/-- An integer quotient rounded to the nearest whole number, halves toward zero (R245). -/
def roundHalf (a : Int) (b : Nat) : Int :=
  let q : Nat := (2 * a.natAbs + b - 1) / (2 * b)
  if a < 0 then -(q : Int) else q

/-- OFFSET, PHASE and the residual in ps of a marker at the counter's crossing, `tau` ps after its edge (R245). -/
def markerEval (c : Chip) (xing delay tau : Nat) : Int × Int × Int :=
  let p := c.fld .otBclk F.OtBclk.MEAS * 10
  if p = 0 then
    ((Config.markerOffset c.free).toInt, (Config.markerPhase c.free).toInt, 0)
  else
    let e : Int := dist c.olen xing c.ctr * p + delay + c.fld .seamHop F.SeamHop.HOP_IN - tau
    let off := roundHalf e p
    (off, roundHalf ((e - off * p) * 8) p, e - off * p)

/-- The counter value k crossings from x. A resync past orbit 2^52 − 1 goes on from orbit 0, without WRAP and as a step back.
(log 105, DESIGN CHOICE) -/
def shiftX (c : Chip) (x : Nat) (k : Int) : Nat :=
  if k < 0 then retreat c.olen x k.natAbs else advance c.olen x k.natAbs % 2 ^ 64

/-- Whether a marker's geometry agrees with DXW_OT_GEOM (R32, R242). -/
def geomAgrees (c : Chip) (dlat gap olen : Nat) : Bool :=
  c.fld .otGeom F.OtGeom.DLAT == dlat && c.fld .otGeom F.OtGeom.GAP == gap && c.fld .otGeom F.OtGeom.OLEN == olen

/-- The state that a marker gives the timebase outside ACQUIRE (R43). -/
def markerState (off phase : Int) : Nat := if off ≠ 0 then 6 else if phase.natAbs ≤ 1 then 3 else 5

/-- A marker is evaluated by a node other than the reference (R245, R43, R45, 15 R316).
(log 45, DEDUCED) -/
def markerAct (c : Chip) (xing delay dlat gap olen tau : Nat) : Chip :=
  let r := c.markerEval xing delay tau
  let c := if c.fld .otBclk F.OtBclk.MEAS = 0 then c.spend else c
  let c := c.setF .seamHop F.SeamHop.DELAY delay
  let off := clamp (-32767) 32767 r.1
  let phase := clamp (-127) 127 r.2.1
  let c := c.setF .otAlign F.OtAlign.OFFSET (unsigned 16 off)
  let c := c.setF .otAlign F.OtAlign.PHASE (unsigned 8 phase)
  let c := c.setF .otAlign F.OtAlign.MISSED 0
  let c : Chip := { c with tb := { c.tb with missedOver := false } }
  let agree := c.geomAgrees dlat gap olen
  let c := if agree then c else c.flag .seamStat F.SeamStat.GEOM_MISMATCH
  let c :=
    if ¬ c.ringMode then c
    else if c.alignSt = 2 then
      if agree then { c with tb := { c.tb with ringLoad := some (c.shiftX c.ctr (r.1 + 1)) } } else c
    else if 3 ≤ c.alignSt ∧ c.alignSt ≤ 7 then c.setAlign (markerState off phase)
    else c
  let c : Chip := if c.tb.resync then { c with tb := { c.tb with resyncMarker := true } } else c
  c.phaseSample r.2.2

/-- The second block of a MARKER (R235). -/
def markerWord (delay dlat gap olen : Nat) : Word :=
  BitVec.ofNat 64 (delay % 2 ^ 30 + dlat * 2 ^ 30 + gap * 2 ^ 39 + olen * 2 ^ 51)

/-- A MARKER arrives (R244 to R246). It is forwarded with DELAY increased by the incoming hop and the node's dwell, as the
worked example adds them. -/
def markerRx (c : Chip) (h : SeamHead) (xing : Word) (delay dlat gap olen tau dwell : Nat) : Chip :=
  if c.rstate = 0 then c.forward 0x10 h [xing, markerWord delay dlat gap olen]
  else if h.src.toNat = c.nodeId then
    if c.isRef then
      (c.mapSeam fun s => { s with markersOut := 0 }).setF .seamRing F.SeamRing.RTT (delay + c.fld .seamHop F.SeamHop.HOP_IN)
    else c
  else
    let hop := c.fld .seamHop F.SeamHop.HOP_IN
    let c := if c.isRef then c else (c.seamCycle [(0x110, 1), (0x114, 1)]).markerAct xing.toNat delay dlat gap olen tau
    c.forward 0x10 h [xing, markerWord (delay + hop + dwell) dlat gap olen]

/-- The reference sends its MARKER at an edge that begins slot 0 (R244): ring mode, a counting timebase, in service. The
time to the launch in ps is free, but no more than to the next block boundary and the 17 blocks of a message before it.
(log 47, DESIGN CHOICE) -/
def sendMarker (c : Chip) : Chip :=
  if c.isRef ∧ c.inService ∧ c.ringMode ∧ c.counting then
    let g := markerWord (Config.cycles c.free % (18 * 2560)) (c.fld .otGeom F.OtGeom.DLAT) c.gap (c.fld .otGeom F.OtGeom.OLEN)
    (c.spend.sendMsg .node 0x10 0 true 0 none [c.rd .otXing, g]).mapSeam fun s => { s with markersOut := s.markersOut + 1 }
  else c

/-! Decisions and hints (R247, 09 R185) -/

/-- A root's own decision unit takes the message at sending (R247). -/
def decisionOwn (c : Chip) (hint : Bool) (root payload : Nat) : Chip :=
  if c.decSrc = 1 then c
  else if hint then c.hintArrive payload
  else c.decArrive payload root

/-! Ring locks (R248, R249) -/

/-- LOCK_RSP from the reference. -/
def sendLockRsp (c : Chip) (dest seq l t code : Nat) : Chip :=
  c.sendMsg .node 0x21 dest false 0 (some seq)
    [BitVec.ofNat 64 (l % 256 + t * 2 ^ 8 + code * 2 ^ 26 + (c.lockAt l).leaseEnd % 2 ^ 24 * 2 ^ 29)]

/-- A LOCK_REQ at the reference's lock unit (R117, R118, R248). TRY with UNLOCK stands for an owner that faulted or was
killed, whose lock breaks (R119, R249). -/
def lockReqAct (c : Chip) (src seq l t : Nat) (isTry isUnlock : Bool) (lease : Nat) : Chip :=
  let o := src * numThreads + t
  if ¬ c.isRef then c
  else if isTry ∧ isUnlock then (if (c.lockAt l).owner = o then c.lockBreak l false else c)
  else if isUnlock then
    let r := c.lockFree l o
    r.1.sendLockRsp src seq l t r.2
  else
    let r := c.lockTake l o lease
    if r.2 = 2 ∧ ¬ isTry then
      let v := r.1.lockAt l
      r.1.setLock l { v with waiters := (v.waiters.filter fun w => w.1 ≠ o) ++ [(o, lease, seq)] }
    else r.1.sendLockRsp src seq l t r.2

/-- The ring locks that the node's threads hold, after a result. -/
def holdRing (c : Chip) (l t : Nat) (held : Bool) : Chip :=
  c.mapSeam fun s =>
    let rest := s.held.filter fun p => p ≠ (l, t)
    { s with held := if held then rest ++ [(l, t)] else rest }

/-- A LOCK_RSP reaches its thread, or is answered with an UNLOCK where it grants a lock that nobody waits for (R248, R249); the
answer to that UNLOCK is heard by nobody. A lock granted to a thread that has faulted since is broken (R119, R249). GRANT_BROKEN
does not rise here, but at the reference.
(log 90, DESIGN CHOICE) -/
def lockRspAct (c : Chip) (seq l t code : Nat) : Chip :=
  let same (a : LockAsk) : Bool := a.t == t && a.lock == l && a.seq == seq
  let ask := c.seam.asks.find? same
  let c := c.mapSeam fun s => { s with asks := s.asks.filter fun a => !same a }
  let back : LockAsk := { t := t, lock := l, seq := c.seam.seq, isTry := false, isUnlock := true, lapsed := true }
  let refuse (c : Chip) : Chip := if code ≤ 1 then (c.noteAsk back).sendLockReq l t false true 0 else c
  match ask with
  | none => refuse c
  | some a =>
    if a.isUnlock then
      let c := c.holdRing l t false
      if a.lapsed then c else (c.askResult a code).1
    else if a.lapsed then refuse c
    else if a.isTry then
      let r := c.askResult a code
      if (c.deadAsk a).isSome then (if code ≤ 1 then r.1.sendLockReq l t true true 0 else r.1)
      else if r.2 then r.1.holdRing l t (decide (code ≤ 1) || r.1.seam.held.contains (l, t)) else refuse c
    else if (c.thr t).st = .waiting ∧ (c.thr t).kind = kLock ∧ (c.thr t).arg = l then
      (if code ≤ 1 then c.holdRing l t true else c).lockResult t code
    else refuse c

/-- A try-mode request or an UNLOCK has had no LOCK_RSP within LKTMO (R249). -/
def lockReqTimeout (c : Chip) (t : Nat) : Chip :=
  let due (a : LockAsk) : Bool := a.t == t && !a.lapsed && (a.isTry || a.isUnlock)
  let late := c.seam.asks.filter due
  let c := c.mapSeam fun s => { s with asks := s.asks.map fun a => if due a then { a with lapsed := true } else a }
  late.foldl (fun c a => (c.askResult a 5).1) c

/-! Remote access and the send register (R252 to R254) -/

/-- An RRSP is queued, and the request it answers is no longer outstanding (R252). -/
def rrspAct (c : Chip) (h : SeamHead) (rtag : Nat) (data : List Word) : Chip :=
  (c.rxPush 0x42 h data).mapSeam fun s =>
    { s with remotes := s.remotes.filter fun r => !(r.1 == rtag && r.2.1 == h.seq.toNat) }

/-- The two blocks of an RRSP (R235). -/
def rrspData (rtag code : Nat) (w : Word) : List Word := [BitVec.ofNat 64 (rtag + code * 2 ^ 8), w]

/-- A remote access has had no RRSP within RTMO: the requester queues one of its own, with its own SEQ (R252). -/
def remoteTimeout (c : Chip) (rtag : Nat) : Chip :=
  match c.seam.remotes.find? (fun r => r.1 == rtag) with
  | none => c
  | some r =>
    let id := BitVec.ofNat 12 c.nodeId
    let head : SeamHead := { src := id, dest := id, bc := false, root := 0#4, seq := BitVec.ofNat 7 c.seam.seq }
    let c := c.mapSeam fun s => { s with remotes := s.remotes.erase r, seq := (s.seq + 1) % 128 }
    c.rxPush 0x42 head (rrspData rtag 2 0#64)

/-- Whether a send of the control port is refused (R253). -/
def sendRefused (c : Chip) (ty : Nat) : Bool :=
  let root := ty == 0x11 || ty == 0x12
  decide ((c.seam.tx.filter fun m => m.orig == .port).length ≥ 8) || !c.inService ||
    !([0x50, 0x30, 0x31, 0x40, 0x41, 0x48].contains ty || root) || (root && !c.isRoot) ||
    (needsV3 ty && decide (c.fld .seamRing F.SeamRing.VER < 3))

/-- A write of DXW_SEAM_SENDH (R253). -/
def seamSend (c : Chip) (w : Word) : Chip :=
  let ty := fget w F.SeamSendh.TYPE
  let dest := fget w F.SeamSendh.DEST
  if c.sendRefused ty then c.flag .seamStat F.SeamStat.SEND_REFUSED
  else
    let root := ty == 0x11 || ty == 0x12
    let d0 := c.rd .seamSendd0
    let data := if ty = 0x41 then [d0, c.rd .seamSendd1] else [d0]
    let q := c.seam.seq
    let c := c.sendMsg .port ty dest (root || fbit w F.SeamSendh.BC) (if root then c.fld .seamCfg F.SeamCfg.ROOTIDX else 0)
      none data
    if ty = 0x40 ∨ ty = 0x41 then c.mapSeam fun s => { s with remotes := s.remotes ++ [(bits d0.toNat 33 26, q, dest)] }
    else c

/-- The four blocks of log entry e. -/
def bbEntry (c : Chip) (e : Nat) : List Word := (List.range 4).map fun j => Tab.get 0#64 c.bb.log (4 * e + j)

/-- One BBRSP (R254): the entries from `first` on, `n` of them. -/
def bbrspMsg (c : Chip) (h : SeamHead) (rtag code first n : Nat) (more : Bool) : SMsg :=
  let head : SeamHead :=
    { src := BitVec.ofNat 12 c.seam.islNode, dest := h.src, bc := false, root := 0#4, seq := h.seq }
  let b := BitVec.ofNat 64 (rtag + code * 2 ^ 8 + n * 2 ^ 10 + first % 1024 * 2 ^ 12 + b2n more * 2 ^ 22)
  { ty := 0x49, h := head, data := b :: (List.range n).flatMap fun i => c.bbEntry ((first + i) % 1024), orig := .node }

/-- Whether the island is still sending an answer (R254): one waits, or is on the lane. -/
def islSending (c : Chip) : Bool :=
  c.seam.islBusy != [] || c.seam.laneE.any fun m => m.ty == 0x49 && m.h.src.toNat == c.seam.islNode

/-- The island answers a BBREAD (R254). -/
def bbAnswer (e : Env) (c : Chip) (h : SeamHead) (first n rtag : Nat) : Chip :=
  let out : List SMsg :=
    if ¬ fbit (e.prot.rd .seamCfg) F.SeamCfg.BBR then [c.bbrspMsg h rtag 2 0 0 false]
    else if c.islSending then [c.bbrspMsg h rtag 1 0 0 false]
    else if n ≤ 3 then [c.bbrspMsg h rtag 0 first n false]
    else [c.bbrspMsg h rtag 0 first 3 true, c.bbrspMsg h rtag 0 (first + 3) 1 false]
  c.mapSeam fun s => { s with islBusy := s.islBusy ++ out }

/-- A BBREAD arrives (R254): the island of a node in service or bypassed answers it. -/
def bbreadRx (e : Env) (c : Chip) (h : SeamHead) (first n rtag : Nat) (data : List Word) : Chip :=
  let own := h.src.toNat == c.nodeId && c.rstate != 0
  if (c.rstate = 0 ∨ c.inService) ∧ c.seam.islVer = 3 ∧ ¬ h.bc ∧ h.dest.toNat = c.seam.islNode ∧ ¬ own then
    c.bbAnswer e h first n rtag
  else c.receive 0x48 h data id

/-! Enabling and bypass (R239, R255 to R257) -/

/-- Whether the node may leave the island: FORCE 0 and SEAM powered. -/
def seamFree (c : Chip) : Bool := !(c.bit .seamByp F.SeamByp.FORCE) && !c.seamOff

/-- Whether a message of the node's own is on a lane. -/
def ownOnLane (c : Chip) : Bool := c.seam.laneE.any c.ownMsg || c.seam.laneW.any c.ownMsg

/-- Whether the node has nothing to finish (R239): its transmit queues are empty and no message of its own is on a lane. -/
def seamQuiet (c : Chip) : Bool := c.seam.tx.isEmpty && !c.seam.west.any c.ownMsg && !c.ownOnLane

/-- A write to EN (R239, R271). A node that is bypassed, or has nothing to finish, is OFF at once. -/
def seamEnWrite (c : Chip) (v : Nat) : Chip :=
  let old := c.en .seamCfg F.SeamCfg.EN
  let new := old.write v true (c.rstate == 0 || c.seamQuiet)
  if new = old then c
  else
    let c := c.setF .seamCfg F.SeamCfg.EN new.code
    if old = .off then (if c.seamFree then c.seamStart else c)
    else if old = .running ∧ c.rstate ≠ 0 then (if new = .off then c.seamDown else c.setR 7)
    else c

/-- The stop of the node completes (R239, R271); with CORE in a quiesce, in retention or without power it waits (R275). -/
def seamStopDone (c : Chip) : Chip :=
  let en := c.en .seamCfg F.SeamCfg.EN
  if (en = .stopping ∨ en = .restart) ∧ c.seamQuiet then
    let c := (c.seamDown).setF .seamCfg F.SeamCfg.EN (en.complete true).code
    if en = .restart ∧ c.seamFree then c.seamStart else c
  else c

/-- FORCE is written 1 (R256). -/
def forceSet (c : Chip) : Chip := c.seamDown.setF .seamByp F.SeamByp.FORCE 1

/-- FORCE is written 0 (R256). -/
def forceClear (c : Chip) : Chip :=
  if ¬ c.bit .seamByp F.SeamByp.FORCE then c
  else
    let c := c.setF .seamByp F.SeamByp.FORCE 0
    if c.en .seamCfg F.SeamCfg.EN = .running ∧ c.seamFree then c.seamStart else c

/-! Launching (R237, R238): what an idle moment sends -/

/-- Whether the node's state lets a message of its own leave (R239): only a node in service, or stopping, sends the types that
need it; LINK sends the reference's HELLO alone, and STANDBY the RING_UP that took the reference to it. -/
def sendable (c : Chip) (m : SMsg) : Bool :=
  if needsService m.ty then c.inService || c.rstate == 7
  else if c.rstate = 1 then m.ty == 0x01
  else if c.rstate = 6 then m.ty == 0x05
  else true

/-- Whether two messages are of one thread and go to one destination (R121). -/
def sameThread (a m : SMsg) : Bool :=
  fromThread m.orig && a.orig == m.orig && a.h.bc == m.h.bc && (m.h.bc || a.h.dest == m.h.dest)

/-- The messages of a queue that no earlier one of their thread to their destination holds back (R121). -/
def unheld : List SMsg → List SMsg
  | [] => []
  | m :: ms => m :: (unheld ms).filter fun x => !sameThread m x

/-- The node's own message that goes next, by priority and then in queue order, but the messages of one thread to one
destination in SENDS order (R121, R238). -/
def nextOwn (c : Chip) : Option SMsg :=
  (unheld (c.seam.tx.filter c.sendable)).foldl (fun acc m => match acc with
    | none => some m
    | some a => if msgPrio m.ty < msgPrio a.ty then some m else some a) none

/-- Queued messages of types that the ring version lacks are dropped, where they could leave (R193, R236, R247). -/
def dropLacking (c : Chip) : Chip :=
  let lacks (m : SMsg) : Bool :=
    (c.inService || c.rstate == 7) && needsV3 m.ty && decide (c.fld .seamRing F.SeamRing.VER < 3)
  c.mapSeam fun s => { s with tx := s.tx.filter fun m => !lacks m }

/-- The reference's RING_UP leaves: what it takes from it, and in ACQUIRE its timebase loads at the next edge (R237, R246). -/
def ownRingUp (c : Chip) (d : Nat) : Chip :=
  let c := c.takeRing c.nodeId (bits d 3 0) (bits d 16 4) (bits d 20 17) (bits d 21 21 == 1) (bits d 51 22)
  if c.ringMode ∧ c.alignSt = 2 then { c with tb := { c.tb with ringLoad := some (c.rd .otLoad).toNat } } else c

/-- The events of a message of the node's own as it leaves: sent, and, where it is a broadcast, acted on (R237, 16 R326). -/
def ownEvents (c : Chip) (m : SMsg) : List (Nat × Nat) :=
  (0x111, 1) :: (if m.h.bc then [(0x110, 1)] else []) ++
    if m.h.bc ∧ m.ty = 0x11 ∧ c.decSrc ≠ 1 then [(0x115, 1)] else []

/-- What a broadcast of the node's own does at the node at the moment of sending (R237, R247). -/
def ownAct (e : Env) (c : Chip) (m : SMsg) : Chip :=
  let d := (m.data.headD 0#64)
  if ¬ m.h.bc then c
  else if m.ty = 0x05 then c.ownRingUp d.toNat
  else if m.ty = 0x11 then c.decisionOwn false m.h.root.toNat d.toNat
  else if m.ty = 0x12 then c.decisionOwn true m.h.root.toNat d.toNat
  else if m.ty = 0x30 then c.commitAccept true (some (d.toNat % 2 ^ 52))
  else if m.ty = 0x31 then c.harvestAccept e 3 d.toNat
  else if m.ty = 0x50 then c.rxPush 0x50 m.h m.data
  else c

/-- A forwarded message leaves: its blocks and its wait are counted (16 R326), but not on the island's path. -/
def countFwd (c : Chip) (m : SMsg) : Chip :=
  if c.rstate = 0 then c
  else if c.seamCounts then
    (c.countCycle 584 4 [(0x112, m.data.length + 1), (0x113, Config.cycles c.free % 18)]).spend
  else c.spend

/-- One message is launched on each lane: eastward a forwarded one first, then the node's own and the island's answers, which
go before USER (R238); westward an ECHO. What was on the lanes has left.
(log 3, DESIGN CHOICE)
(log 47, DESIGN CHOICE; log 48, DEDUCED) -/
def seamTick (e : Env) (c : Chip) : Chip :=
  let west := c.seam.west.head?
  let c := c.mapSeam fun s => { s with laneE := none, laneW := west, west := s.west.drop 1 }
  let c := match west with
    | none => c
    | some m => if c.ownMsg m then c.cntSeam 0x111 1 else c.countFwd m
  let c := c.dropLacking
  match c.seam.fwd with
  | m :: rest => (c.mapSeam fun s => { s with laneE := some m, fwd := rest }).countFwd m
  | [] =>
    match if c.rstate = 0 then none else c.nextOwn.filter fun m => c.seam.islBusy == [] || msgPrio m.ty != 6 with
    | some m =>
      let c := c.mapSeam fun s => { s with laneE := some m, tx := s.tx.erase m }
      (c.seamCycle (c.ownEvents m)).ownAct e m
    | none => c.mapSeam fun s => { s with laneE := s.islBusy.head?, islBusy := s.islBusy.drop 1 }

end Chip

/-- HELLO (R240). -/
def execHello (h : SeamHead) (lo hi : BitVec 4) (count : BitVec 13) (s : State) : Host.Outcome State Fault Refusal :=
  s.chipStep fun _ c => c.helloRx h lo.toNat hi.toNat count.toNat
/-- HELLO_RESEND (R240). -/
def execHelloResend (s : State) : Host.Outcome State Fault Refusal := s.chipStep fun _ c => c.helloResend
/-- TOKEN (R241). -/
def execToken (h : SeamHead) (ver : BitVec 4) (count : BitVec 13) (curRoot : BitVec 4) (crv : Bool)
    (hopDelay acc : BitVec 30) (s : State) : Host.Outcome State Fault Refusal :=
  s.chipStep fun _ c => c.tokenRx h ver.toNat count.toNat curRoot.toNat crv hopDelay.toNat acc.toNat
/-- PROBE (R241). -/
def execProbe (h : SeamHead) (pseq : BitVec 16) (turn : BitVec 30) (s : State) : Host.Outcome State Fault Refusal :=
  s.chipStep fun _ c => c.probeRx h pseq.toNat turn.toNat
/-- ECHO (R241). -/
def execEcho (h : SeamHead) (pseq : BitVec 16) (turn elapsed dwell : BitVec 30) (s : State) :
    Host.Outcome State Fault Refusal :=
  s.chipStep fun _ c => c.echoRx h pseq.toNat turn.toNat elapsed.toNat dwell.toNat
/-- PROBE_TIMEOUT (R241). -/
def execProbeTimeout (dwell : BitVec 30) (s : State) : Host.Outcome State Fault Refusal :=
  s.chipStep fun _ c => c.probeTimeout dwell.toNat
/-- RING_UP (R242). -/
def execRingUp (h : SeamHead) (ver : BitVec 4) (count : BitVec 13) (lastRoot : BitVec 4) (lrv : Bool) (rtt : BitVec 30)
    (full : Bool) (s : State) : Host.Outcome State Fault Refusal :=
  s.chipStep fun _ c =>
    let w := ver.toNat + count.toNat * 2 ^ 4 + lastRoot.toNat * 2 ^ 17 + b2n lrv * 2 ^ 21 + rtt.toNat * 2 ^ 22 + b2n full * 2 ^ 52
    c.receive 0x05 h [BitVec.ofNat 64 w] fun c =>
      c.ringUp h.src.toNat ver.toNat count.toNat lastRoot.toNat lrv rtt.toNat full
/-- CLAIM (R242). -/
def execClaim (h : SeamHead) (s : State) : Host.Outcome State Fault Refusal := s.chipStep fun _ c => c.claimRx h
/-- CLAIM_TIMEOUT (R242). -/
def execClaimTimeout (s : State) : Host.Outcome State Fault Refusal := s.chipStep fun _ c => c.claimTimeout
/-- RETRAIN (R243). -/
def execRetrain (h : SeamHead) (full : Bool) (s : State) : Host.Outcome State Fault Refusal :=
  s.chipStep fun _ c =>
    (c.wakeOn (full && c.bit .pwrWakecfg F.PwrWakecfg.RETRAIN)).receive 0x07 h [BitVec.ofNat 64 (b2n full)] (·.retrain full)
/-- SEAM_RETRAIN_CMD (R243). -/
def execSeamRetrainCmd (s : State) : Host.Outcome State Fault Refusal := s.chipStep fun _ c => whenReady c (·.startRetrain)
/-- SEAM_MEASURE_CMD (R243). -/
def execSeamMeasureCmd (s : State) : Host.Outcome State Fault Refusal := s.chipStep fun _ c => whenReady c (·.startMeasure)
/-- REF_MARKER_LOST (R243): 16 markers in a row have not returned. -/
def execRefMarkerLost (s : State) : Host.Outcome State Fault Refusal :=
  s.chipStep fun _ c => if c.inService ∧ c.seam.markersOut ≥ 16 then c.startRetrain else c
/-- MARKER (R245). -/
def execMarker (h : SeamHead) (xing : Word) (delay : BitVec 30) (dlat : BitVec 9) (gap olen : BitVec 12) (tau dwell : BitVec 30)
    (s : State) : Host.Outcome State Fault Refusal :=
  s.chipStep fun _ c => c.markerRx h xing delay.toNat dlat.toNat gap.toNat olen.toNat tau.toNat dwell.toNat
/-- LINK_HIT (R243). -/
def execLinkHit (east : Bool) (s : State) : Host.Outcome State Fault Refusal := s.chipStep fun _ c => c.linkHit east
/-- LINK_HIT_TIMEOUT (R243). -/
def execLinkHitTimeout (east : Bool) (s : State) : Host.Outcome State Fault Refusal :=
  s.chipStep fun _ c => c.linkHitTimeout east
/-- BLOCK_LOCK_GAINED (R243). -/
def execBlockLockGained (east : Bool) (s : State) : Host.Outcome State Fault Refusal :=
  s.chipStep fun _ c => c.lockGained east
/-- DECISION (R187). -/
def execDecision (h : SeamHead) (payload : Word) (s : State) : Host.Outcome State Fault Refusal :=
  s.chipStep fun _ c => c.receive 0x11 h [payload] (·.decFromSeam false h.root.toNat payload.toNat)
/-- HINT (R193). -/
def execHint (h : SeamHead) (payload : Word) (s : State) : Host.Outcome State Fault Refusal :=
  s.chipStep fun _ c => c.receive 0x12 h [payload] (·.decFromSeam true h.root.toNat payload.toNat)
/-- LOCK_REQ (R248). -/
def execLockReq (h : SeamHead) (lock : BitVec 8) (t : BitVec 18) (isTry isUnlock : Bool) (lease : BitVec 16) (s : State) :
    Host.Outcome State Fault Refusal :=
  s.chipStep fun _ c =>
    let w := lock.toNat + t.toNat * 2 ^ 8 + b2n isTry * 2 ^ 26 + b2n isUnlock * 2 ^ 27 + lease.toNat * 2 ^ 28
    c.receive 0x20 h [BitVec.ofNat 64 w] fun c =>
      c.lockReqAct h.src.toNat h.seq.toNat (0x8000 + lock.toNat) t.toNat isTry isUnlock lease.toNat
/-- LOCK_RSP (R248). -/
def execLockRsp (h : SeamHead) (lock : BitVec 8) (t : BitVec 18) (code : BitVec 3) (leaseEnd : BitVec 24) (s : State) :
    Host.Outcome State Fault Refusal :=
  s.chipStep fun _ c =>
    let w := lock.toNat + t.toNat * 2 ^ 8 + code.toNat * 2 ^ 26 + leaseEnd.toNat * 2 ^ 29
    c.receive 0x21 h [BitVec.ofNat 64 w] (·.lockRspAct h.seq.toNat (0x8000 + lock.toNat) t.toNat code.toNat)
/-- LOCK_REQ_TIMEOUT (R249). -/
def execLockReqTimeout (t : Fin 262144) (s : State) : Host.Outcome State Fault Refusal :=
  s.coreStep fun _ c => c.lockReqTimeout t
/-- COMMIT (R268). -/
def execCommit (h : SeamHead) (orbit : BitVec 52) (s : State) : Host.Outcome State Fault Refusal :=
  s.chipStep fun _ c => c.receive 0x30 h [BitVec.ofNat 64 orbit.toNat] (·.commitAccept true (some orbit.toNat))
/-- HARVEST (R332). -/
def execHarvest (h : SeamHead) (xing : Word) (s : State) : Host.Outcome State Fault Refusal :=
  s.chipStep fun e c => c.receive 0x31 h [xing] fun c => c.harvestAccept e 3 xing.toNat
/-- RRSP (R253). -/
def execRrsp (h : SeamHead) (rtag : BitVec 8) (code : BitVec 2) (data : Word) (s : State) : Host.Outcome State Fault Refusal :=
  s.chipStep fun _ c =>
    let d := Chip.rrspData rtag.toNat code.toNat data
    c.receive 0x42 h d (·.rrspAct h rtag.toNat d)
/-- REMOTE_ACCESS_TIMEOUT (R252). -/
def execRemoteAccessTimeout (rtag : BitVec 8) (s : State) : Host.Outcome State Fault Refusal :=
  s.coreStep fun _ c => c.remoteTimeout rtag.toNat
/-- BBREAD (R254). -/
def execBbread (h : SeamHead) (first : BitVec 10) (num : BitVec 2) (rtag : BitVec 8) (s : State) :
    Host.Outcome State Fault Refusal :=
  s.chipStep fun e c =>
    c.bbreadRx e h first.toNat (num.toNat + 1) rtag.toNat [BitVec.ofNat 64 (first.toNat + num.toNat * 2 ^ 10 + rtag.toNat * 2 ^ 12)]
/-- BBRSP (R254). -/
def execBbrsp (h : SeamHead) (rtag : BitVec 8) (code ent : BitVec 2) (first : BitVec 10) (more : Bool) (data : List Word)
    (s : State) : Host.Outcome State Fault Refusal :=
  s.chipStep fun _ c =>
    if Instr.wellFormed (.bbrsp h rtag code ent first more data) then
      let b := BitVec.ofNat 64
        (rtag.toNat + code.toNat * 2 ^ 8 + ent.toNat * 2 ^ 10 + first.toNat * 2 ^ 12 + b2n more * 2 ^ 22)
      c.receive 0x49 h (b :: data) (·.rxPush 0x49 h (b :: data))
    else c
/-- USER (R250). -/
def execUser (h : SeamHead) (payload : Word) (s : State) : Host.Outcome State Fault Refusal :=
  s.chipStep fun _ c =>
    let mine := !h.bc && h.dest.toNat == c.seam.islNode && c.bit .pwrWakecfg F.PwrWakecfg.USER
    (c.wakeOn mine).receive 0x50 h [payload] (·.rxPush 0x50 h [payload])
/-- MALFORMED_MESSAGE (R236, R237): counted, and forwarded or stripped as any other message; a foreign control block is taken as
idle (R232). A bypassed node's island forwards it unchanged. -/
def execMalformedMessage (h : SeamHead) (kind : Malform) (s : State) : Host.Outcome State Fault Refusal :=
  s.chipStep fun _ c =>
    if c.rstate = 0 then (match kind with | .control => c | _ => c.forwardStray h 16)
    else match kind with
      | .crc =>
        ((c.tally .seamCnt F.SeamCnt.CRC_ERR 1).flag .seamStat F.SeamStat.CRC).passStray h 15
      | .shape => c.malformed.passStray h 16
      | .control => c.malformed
/-- SEAM_SEND (R253). -/
def execSeamSend (data : Word) (s : State) : Host.Outcome State Fault Refusal := s.chipStep fun _ c => whenReady c (·.seamSend data)
/-- SEAM_RXQ_READ (R253): a read of the register, which answers on the control port; before READY with NRDY and 0 (R12). -/
def execSeamRxqRead (s : State) : Host.Outcome State Fault Refusal :=
  s.chipStep fun _ c => if c.pwr.phase = .running then c.rxPop.1.respond c.rxPop.2 rspOk else c.respond 0#64 rspNrdy
/-- SEAM_ENABLE (R239). -/
def execSeamEnable (s : State) : Host.Outcome State Fault Refusal := s.chipStep fun _ c => whenReady c (·.seamEnWrite 1)
/-- SEAM_STOP (R239). -/
def execSeamStop (s : State) : Host.Outcome State Fault Refusal := s.chipStep fun _ c => whenReady c (·.seamEnWrite 0)
/-- SEAM_STOP_COMPLETE (R239). -/
def execSeamStopComplete (s : State) : Host.Outcome State Fault Refusal := s.chipStep fun _ c => whenReady c (·.seamStopDone)
/-- BYPASS_FORCE_SET (R256). -/
def execBypassForceSet (s : State) : Host.Outcome State Fault Refusal := s.chipStep fun _ c => whenReady c (·.forceSet)
/-- BYPASS_FORCE_CLEAR (R256). -/
def execBypassForceClear (s : State) : Host.Outcome State Fault Refusal := s.chipStep fun _ c => whenReady c (·.forceClear)
/-- BYPASS_PIN_RISE (R257): the island's path is block-locked on both receive lanes. -/
def execBypassPinRise (s : State) : Host.Outcome State Fault Refusal :=
  s.chipStep fun _ c => if c.bothLocked then c.setF .seamByp F.SeamByp.PIN 1 else c
/-- AO_SUPPLY_FALL (R257). -/
def execAoSupplyFall (s : State) : Host.Outcome State Fault Refusal := s.chipStep fun _ c => c.setF .seamByp F.SeamByp.PIN 0

end Sys2Proof.Machine
end

