-- ==== Sys2Proof/Machine/Power.lean ====
section
/-! DEFINITION. Power, clocks and resets (13_power_clocks_startup.md R274 to R288): needle PLLs, the block power domains, cold,
warm and CORE loss resets, retention and the start-up, with the wipe of a lifecycle change (12 R266). The debug data
register is in Debug.lean. -/

namespace Sys2Proof.Machine

namespace Chip

/-- The chip with its power state changed. -/
def mapPwr (c : Chip) (f : Power → Power) : Chip := { c with pwr := f c.pwr }

/-- A POWER event (14 R304): kind 0 PDREQ rise, 1 PDACK rise, 2 PDREQ fall, 3 FORCE, at its rise and at its fall. -/
def powerEvent (c : Chip) (b kind : Nat) : Chip := c.bbEvent 0x09 (BitVec.ofNat 64 (b + kind * 2 ^ 8)) 0#64

/-! The output signals of R279 -/

/-- DXW_READY. -/
def ready (c : Chip) : Bool := c.pwr.phase == .running

/-- Whether a reset is in progress (R284): the quiesce of a warm reset, or the start-up before READY. -/
def inReset (c : Chip) : Bool := c.pwr.phase == .starting || (c.pwr.phase == .quiesce && !c.pwr.forRetention)

/-- PWR_BD_PDACK bit b (R282, R284). -/
def bdAckOut (c : Chip) (b : Nat) : Bool :=
  if c.inReset then decide (b < 128) || c.bdDown b else Tab.get false c.pwr.bdAck b

/-- PWR_TD_PDACK bit d (R280, R284). -/
def tdAckOut (c : Chip) (d : Nat) : Bool := if c.inReset then c.tdDown d else Tab.get false c.pwr.tdAck d

/-- The POWER event of a PDACK that falls: the rule lists no kind for it, so the kind is free (14 R304).
(log 114, DESIGN CHOICE) -/
def ackFall (c : Chip) (b : Nat) : Chip := c.spend.powerEvent b (Config.powerKind c.free).toNat

/-- A POWER event for each PDACK that has risen or fallen since `was` (14 R304). -/
def ackEvents (c : Chip) (was : Nat → Bool) : Chip :=
  (List.range 130).foldl (fun c b =>
    if !was b && c.bdAckOut b then c.powerEvent b 1 else if was b && !c.bdAckOut b then c.ackFall b else c) c

/-! Needle PLLs (R274) -/

/-- A write of DXW_CLK_NPLLq (R274, R10). -/
def npllWrite (c : Chip) (q : Nat) (w : Word) : Chip :=
  let m := fget w F.ClkNpll.MULT
  let off (n : Nat) : Bool := c.en (.ndlCtl n) F.NdlCtl.EN == .off && (c.npwr n == 1 || c.npwr n == 2)
  if ¬ (List.range 32).all (fun j => off (32 * q + j)) then c.flag .pwrStat F.PwrStat.CLK_LOCKED
  else if m < 20 ∨ 80 < m ∨ m = c.fld (.clkNpll q) F.ClkNpll.MULT then c
  else (c.setF (.clkNpll q) F.ClkNpll.MULT m).setF (.clkNpll q) F.ClkNpll.LOCK 0

/-- A needle's clock that the loss of lock stopped restarts when its PLL locks (R274); one that waits to wake restarts as such,
and counts (R96). -/
def clockBack (c : Chip) (n : Nat) : Chip :=
  if c.pwr.clkLost.contains n then
    let c := c.mapPwr fun p => { p with clkLost := p.clkLost.filter fun m => m ≠ n }
    if c.npwr n = 1 ∧ ¬ c.pwr.wakeQ.contains n then c.setF (.ndlStat n) F.NdlStat.PWR 0 else c
  else c

/-- PLL q has locked: the clocks of its needles restart, and the wakes that waited for it go on (R274). -/
def npllLock (c : Chip) (q : Nat) : Chip :=
  if c.bit (.clkNpll q) F.ClkNpll.LOCK then c
  else
    ((List.range 32).foldl (fun c j => c.clockBack (32 * q + j)) (c.setF (.clkNpll q) F.ClkNpll.LOCK 1)).startWakes

/-- A needle's running clock stops for the loss of its PLL's lock (R274). -/
def clockLost (c : Chip) (n : Nat) : Chip :=
  if c.npwr n = 0 then
    (c.mapPwr fun p => { p with clkLost := n :: p.clkLost }).setF (.ndlStat n) F.NdlStat.PWR 1
  else c

/-- PLL q has lost lock: its needles' clocks stop and no state is lost (R274). -/
def npllUnlock (c : Chip) (q : Nat) : Chip :=
  if ¬ c.bit (.clkNpll q) F.ClkNpll.LOCK then c
  else
    let c := (c.setF (.clkNpll q) F.ClkNpll.LOCK 0).flag .pwrStat F.PwrStat.NPLL_UNLOCK
    (List.range 32).foldl (fun c j => c.clockLost (32 * q + j)) c

/-! Quiesce (R285) -/

/-- A thread in a slot leaves it with its record written back, its transfers abandoned (R285).
(log 24, DEDUCED) -/
def quiesceSlot (c : Chip) (n k : Nat) : Chip :=
  match c.slot n k with
  | none => c
  | some s =>
    if s.dead then c.setSlot n k none
    else if s.fetching then (c.setSlot n k none).setSt s.t .ready
    else c.leave n k fun th => { th with st := .ready }

/-- A port takes FREEZE, what waits at it is not sent, and its LASTn falls (R284).
(log 24, DEDUCED) -/
def quiescePort (c : Chip) (p : Nat) : Chip := (c.setPort p { c.port p with lastLine := none }).freezeWrite p true

/-- An ingest port with nothing taken: the rest of a packet that is open is dropped after its quarantine (R54). -/
def cutPacket (i : Ingest) : Ingest := { i with pkt := none, dropRest := i.dropRest || i.pkt.isSome }

/-- An ingest port enters quarantine (R54, R285).
(log 24, DEDUCED) -/
def quiesceIngest (c : Chip) (n : Nat) : Chip := (c.setIp n (cutPacket (c.ip n))).setF (.ipStat n) F.IpStat.QUAR 1

/-- The quiesce begins (R285 steps 1 and 2), for a warm reset or for retention (R282).
(log 24, DEDUCED) -/
def beginQuiesce (e : Env) (c : Chip) (cause : Nat) (ret : Bool) : Chip :=
  let was := c.bdAckOut
  let c := (c.mapPwr fun p => { p with phase := .quiesce, cause := cause, forRetention := ret }).settleAll e
  let c := (List.range 128).foldl (fun c n => (List.range 8).foldl (fun c k => c.quiesceSlot n k) c) c
  let c : Chip := { c with needles := [] }
  let c := c.dropBursts fun _ => true
  let c := (List.range 16).foldl (fun c p => c.quiescePort p) c
  let c := (List.range 16).foldl (fun c n => c.quiesceIngest n) c
  c.seamDown.ackEvents was

/-- Every port reads DRAINED. -/
def allDrained (c : Chip) : Bool := (List.range 16).all fun p => c.drained p

/-! The logic reset (R283, R286) -/

/-- The registers that the always-on island keeps whole through a warm or CORE loss reset.
(log 22, DEDUCED) -/
def islandRegs : List Reg :=
  let single : List Reg := [.otShadow, .pwrWakecfg, .seamByp, .bbCtl, .bbTypeen, .bbFrzen, .bbStat, .bbFlush, .thTimer]
  single.append ((List.range 128).map Reg.rotAge)

/-- The fields that it keeps of other registers.
(log 22, DEDUCED) -/
def islandFields : List (Reg × Fld) :=
  [(.pwrStat, F.PwrStat.CORE_LOST), (.pwrStat, F.PwrStat.WR_UNDRAINED), (.rstCtl, F.RstCtl.QTMO),
   (.clkNpll 0, F.ClkNpll.MULT), (.clkNpll 1, F.ClkNpll.MULT), (.clkNpll 2, F.ClkNpll.MULT), (.clkNpll 3, F.ClkNpll.MULT),
   (.cfgset, F.Cfgset.ACTIVE), (.hvStat, F.HvStat.SEQ)]

/-- The registers after a warm or CORE loss reset: Reset values but for what the island keeps. -/
def resetRegs (c : Chip) : Tab Word :=
  let d : Chip := islandRegs.foldl (fun d r => d.wr r (c.rd r)) { Chip.reset with regs := [] }
  (islandFields.foldl (fun d x => d.setF x.1 x.2 (c.fld x.1 x.2)) d).regs

/-- The Seam node after a reset: what the island keeps is the block lock of the lanes, what it forwards and answers, and
its copies of the node ID and the ring version (R254, R255). -/
def resetSeam (s : Seam) : Seam :=
  { Seam.idle with
    lockE := s.lockE, lockW := s.lockW, fwd := s.fwd, west := s.west, islNode := s.islNode, islVer := s.islVer, islBusy := s.islBusy }

/-- The power state at the start of a reset: the host's signals stand, and so does a lifecycle change that is not written yet. -/
def resetPower (p : Power) (wiping : Bool) : Power :=
  { Power.start with
    wiping := wiping, tdReq := p.tdReq, tdForce := p.tdForce, bdReq := p.bdReq, bdForce := p.bdForce, newLc := p.newLc
    run := p.run }

/-- What a reset leaves of the ingest ports: the packets that the links are in the middle of (R54). -/
def ingestLeft (t : Tab Ingest) : Tab Ingest :=
  (t.map fun q => (q.1, { cutPacket q.2 with fifo := [], stopping := false })).filter fun q => q.2.dropRest

/-- A lock through a warm reset: HELD becomes BROKEN (05 R119, 11 R249).
(log 23, DEDUCED) -/
def brokenLock (l : Lock) : Lock :=
  if l.st = .held then { l with st := .broken, leaseEnd := 0, waiters := [] } else { l with waiters := [] }

/-- A thread takes its RESET fault (R286). -/
def resetThread (c : Chip) (t : Nat) : Chip :=
  let th := c.thr t
  if th.st = .idle then c
  else
    let i := FaultInfo.plain cReset 0 th.pc (c.fld .pwrStat F.PwrStat.LASTRST)
    let c := c.queueFault t th.gen i
    c.setThr t (if th.st = .fault then { th with cmd := none, sealing := false } else { faulted th i with cmd := none })

/-- The acknowledged writes of a port that have not been answered. -/
def leftWrites (q : Port) : List (Nat × Burst) :=
  q.undrained ++ (q.outst.filter fun o => o.2.1.kind == .ack).map fun o => (o.1, o.2.1)

/-- The chip after the logic reset of a warm reset (`loss` false) or of a CORE loss reset (R283, R285 step 4, R286). `kind`
is the new LASTRST.
(log 22, DEDUCED; log 23, DEDUCED) -/
def logicReset (c : Chip) (kind : Nat) (loss : Bool) : Chip :=
  let left : List (Nat × Port) := c.ports.map fun q => (q.1, { Port.idle with undrained := leftWrites q.2 })
  let held : Bool := c.locks.any (fun l => l.2.st == .held) || c.seam.ringLocks.any fun l => l.2.st == .held
  let brk (l : Nat × Lock) : Nat × Lock := (l.1, brokenLock l.2)
  let seam : Seam := resetSeam c.seam
  let ring : Tab Lock := c.seam.ringLocks.map brk
  let tb : Timebase := { Timebase.reset with present := c.tb.present }
  let d : Chip := { Chip.reset with
    regs := c.resetRegs, free := c.free, xid := c.xid, cpRsp := c.cpRsp, pwr := resetPower c.pwr loss, reqn := c.reqn,
    tb := tb, bb := c.bb, seam := seam, ingest := ingestLeft c.ingest }
  let d := (d.setF .pwrStat F.PwrStat.LASTRST kind).ackEvents c.bdAckOut
  let d := if c.tb.present then d.setF .otAlign F.OtAlign.STATE 0 else d
  if loss then d.flag .pwrStat F.PwrStat.CORE_LOST
  else
    let ports : Tab Port := left.filter fun q => q.2 ≠ Port.idle
    let seam : Seam := { d.seam with ringLocks := ring }
    let d : Chip := { d with
      threads := c.threads, eccCe := c.eccCe, eccUe := c.eccUe, lanes := c.lanes, locks := c.locks.map brk, seam := seam,
      ports := ports }
    let d := if held then d.flag .lkStat F.LkStat.OWNER_LOST else d
    let lock (d : Chip) (q : Nat) : Chip :=
      if kind = 5 then d else d.setF (.clkNpll q) F.ClkNpll.LOCK (c.fld (.clkNpll q) F.ClkNpll.LOCK)
    let d := (List.range 4).foldl lock d
    (c.threads.map (·.1)).foldl (fun d t => d.resetThread t) d

/-- A WARM_RESET request (R283, R285): one during a warm reset is merged into it, and CORE's return from retention goes to
the logic reset at once.
(log 22, DEDUCED) -/
def warmReset (e : Env) (c : Chip) (src : WarmSource) : Chip :=
  match src, c.pwr.phase with
  | .pin, .running => c.beginQuiesce e 3 false
  | .keyed, .running => c.beginQuiesce e 4 false
  | .retention, .retention => if Tab.get false c.pwr.bdReq 129 then c else c.logicReset 5 false
  | _, _ => c

/-- Every needle is gated (R282, R288). -/
def gateAll (c : Chip) : Chip :=
  let c := (List.range 128).foldl (fun c n => c.setF (.ndlStat n) F.NdlStat.PWR 2) c
  { c.mapPwr (fun p => { p with wakeQ := [] }) with needles := [] }

/-- The quiesce ends, when every port is drained or by timeout (R285 step 3); with retention to follow, every needle is gated
(R282). -/
def quiesceEnd (c : Chip) (timeout : Bool) : Chip :=
  if c.pwr.phase ≠ .quiesce ∨ ¬ (timeout ∨ c.allDrained) then c
  else
    let c := if c.allDrained then c else c.flag .pwrStat F.PwrStat.WR_UNDRAINED
    if c.pwr.forRetention ∧ Tab.get false c.pwr.bdReq 129 then c.gateAll.mapPwr fun p => { p with phase := .retention }
    else c.logicReset c.pwr.cause false

/-- The four needle PLLs have locked, as the start-up has them do before the wipes end (R288). -/
def pllsLocked (c : Chip) : Bool := (List.range 4).all fun q => c.bit (.clkNpll q) F.ClkNpll.LOCK

/-- The spool memory's wipe is done (R54, R288).
(log 27, DEDUCED) -/
def spoolWipeDone (c : Chip) : Chip :=
  if c.pwr.phase = .starting ∧ c.pwr.wiping ∧ ¬ c.pwr.spoolWiped ∧ c.pllsLocked then
    ((c.mapPwr fun p => { p with spoolWiped := true }).setF .spcStat F.SpcStat.WIPE_DONE 1).releaseTick
  else c

/-- A copy of the log is due at READY (14 R307).
(log 59, DEDUCED) -/
def owedAtReady (c : Chip) : Bool :=
  c.bit .bbStat F.BbStat.FROZEN && !(c.bit .bbStat F.BbStat.DONE) && c.bit .bbFlush F.BbFlush.EN

/-- DXW_READY rises (R285 step 5, R288); a lifecycle change is written with it (12 R266).
(log 27, DEDUCED) -/
def blockReady (e : Env) (c : Chip) : Chip :=
  if c.pwr.phase ≠ .starting ∨ (c.pwr.wiping ∧ ¬ (c.pwr.spoolWiped ∧ c.pllsLocked)) then c
  else
    let kind := c.fld .pwrStat F.PwrStat.LASTRST
    let was := c.bdAckOut
    let td : Tab Bool := (List.range 64).foldl (fun t d => Tab.put false t d (c.tdDown d)) []
    let bd : Tab Bool := (List.range 129).foldl (fun t b => Tab.put false t b (c.bdDown b)) []
    let c := c.mapPwr fun p => { p with phase := .running, wiping := false, spoolWiped := false, newLc := none, tdAck := td, bdAck := bd }
    let c := if c.bit .spcStat F.SpcStat.WIPE_DONE then c else (c.setF .spcStat F.SpcStat.WIPE_DONE 1).releaseTick
    let c := (if 3 ≤ kind then c.bbEvent 0x08 (BitVec.ofNat 64 kind) 0#64 else c).ackEvents was
    let c : Chip := { c with bb := { c.bb with owed := c.owedAtReady } }
    if Tab.get false c.pwr.bdReq 129 then c.beginQuiesce e 5 true else c

/-- The chip after a cold reset (R283). The host's signals stand, but for the FORCE of CORE, which has power again before a cold
reset ends (R287); and, but for a power-on, the state of the lanes, the messages of other nodes on their way (11 R255) and the packets
that the ingest links are in the middle of. `lc` is the lifecycle state that the wipe ends in (12 R266).
(log 112, DESIGN CHOICE; log 115, DESIGN CHOICE) -/
def coldReset (c : Chip) (kind : Nat) (lc : Option Nat) : Chip :=
  let lanes : Seam := { Seam.idle with
    lockE := c.seam.lockE, lockW := c.seam.lockW, fwd := c.seam.fwd, west := c.seam.west.filter fun m => !c.ownMsg m }
  let pwr : Power := { resetPower c.pwr true with bdForce := Tab.put false c.pwr.bdForce 129 false, newLc := lc, run := [] }
  let d : Chip := { Chip.reset with
    free := c.free, cpRsp := c.cpRsp, pwr := pwr, reqn := c.reqn, seam := if kind = 0 then Seam.idle else lanes
    ingest := if kind = 0 then [] else ingestLeft c.ingest }
  d.setF .pwrStat F.PwrStat.LASTRST kind

/-! Block power domains (R282) -/

/-- A needle is gated: its own domain loses power. A wake in progress gives up its place (R277). -/
def gateNeedle (c : Chip) (n : Nat) : Chip :=
  let c := (c.unqueueWake n).setF (.ndlStat n) F.NdlStat.PWR 2
  (c.setNdl n { c.ndl n with ib := [], descIn := [] }).startWakes

/-- Whether a needle holds nothing (R282). -/
def needleBare (c : Chip) (n : Nat) : Bool :=
  let nd := c.ndl n
  c.slotsEmpty n && nd.active.isNone && nd.shadow.isNone && nd.susp == [] && nd.cq == []

/-- The threads that a needle forced down takes with it: resident ones and those of its suspended transfers, each once.
(log 26, DEDUCED) -/
def forcedThreads (nd : Needle) : List Nat :=
  let res := nd.slots.filterMap fun q => q.2.bind fun s => if s.dead then none else some s.t
  (res ++ nd.susp.filterMap fun q => q.2.map fun x => x.t).eraseDups

/-- The HALT or KILL that waits in a thread's slot waits with its record. -/
def keepCmd (c : Chip) (t : Nat) : Chip :=
  match c.findSlot t with
  | some (n, k) => c.setThr t { c.thr t with cmd := (c.live n k).cmd }
  | none => c

/-- What the fault of a thread of a needle forced down reports (R291, R292, R296): the instruction whose transfer the needle held,
with the descriptor that the transfer was writing or fetching; for a thread without one the PC of its record.
(log 26, DEDUCED) -/
def forcedInfo (nd : Needle) (n t recordPc : Nat) : FaultInfo :=
  match (heldXfers nd).find? fun x => x.t == t with
  | some x => { FaultInfo.plain cForcedPd n x.pc 0xFF with dv := x.atDesc.isSome, daddr := x.atDesc.getD 0 }
  | none => FaultInfo.plain cForcedPd n recordPc 0xFF

/-- Needle n loses power now (R282, R293): what its threads have asked for and not sent is withdrawn, granted bursts before their
first beats among it. A HALT or KILL that waits is judged after the fault (R294).
(log 26, DEDUCED) -/
def forceNeedle (c : Chip) (n : Nat) : Chip :=
  let was := c.ndl n
  let ts := forcedThreads was
  let c := ts.foldl keepCmd (c.requeue n)
  let c := ts.foldl (fun c t => c.followMark n t true) c
  let nd : Needle := { Needle.idle with
    queues := (c.ndl n).queues, lfsr := (c.ndl n).lfsr, follow := (c.ndl n).follow, ncyc := (c.ndl n).ncyc }
  let c := (c.setNdl n nd).recallBursts fun b => b.req == n && threadUse b.use
  let c := c.gateNeedle n
  ts.foldl (fun c t => c.faultStored t (forcedInfo was n t (c.thr t).pc)) c

/-- PDREQ of block domain b rises (R282).
(log 25, DEDUCED) -/
def bdRise (e : Env) (c : Chip) (b : Nat) : Chip :=
  if Tab.get false c.pwr.bdReq b then c
  else
    let was := c.bdAckOut
    let c := (c.mapPwr fun p => { p with bdReq := Tab.put false p.bdReq b true }).powerEvent b 0
    if c.pwr.phase ≠ .running then c.ackEvents was
    else if b < 128 then (c.evict e b).unparkHeld b
    else if b = 128 then c.seamDown
    else c.beginQuiesce e 5 true

/-- The chip with PDACK of block domain b 1. -/
def bdAcked (c : Chip) (b : Nat) : Chip :=
  if Tab.get false c.pwr.bdAck b then c
  else (c.mapPwr fun p => { p with bdAck := Tab.put false p.bdAck b true }).powerEvent b 1

/-- PDACK of block domain b rises, once its condition holds (R282).
(log 25, DEDUCED) -/
def bdAckRise (c : Chip) (b : Nat) : Chip :=
  if ¬ Tab.get false c.pwr.bdReq b then c
  else if b < 128 then
    if (c.pwr.phase = .running ∨ c.pwr.phase = .retention) ∧ c.needleBare b then (c.gateNeedle b).bdAcked b else c
  else if b = 128 then (if c.rstate = 0 then c.bdAcked b else c)
  else if c.pwr.phase = .retention then c.bdAcked b
  else c

/-- PDREQ of block domain b falls: the domain returns (R282). A FORCE that came with it has ended too.
(log 25, DEDUCED) -/
def bdFall (c : Chip) (b : Nat) : Chip :=
  if ¬ c.bdDown b then c
  else
    let was := c.bdAckOut
    let had := Tab.get false c.pwr.bdReq b
    let forced := b ≠ 129 ∧ Tab.get false c.pwr.bdForce b
    let c := c.mapPwr fun p => { p with
      bdReq := Tab.put false p.bdReq b false
      bdForce := if b = 129 then p.bdForce else Tab.put false p.bdForce b false
      bdAck := Tab.put false p.bdAck b false }
    let c := if had then c.powerEvent b 2 else c
    let c := (if forced then c.powerEvent b 3 else c).ackEvents was
    if c.pwr.phase ≠ .running then c
    else if b < 128 then
      let c := c.wantClock b
      if c.needleOn b then c.unparkNeedle b else c
    else if b = 128 then
      if c.en .seamCfg F.SeamCfg.EN = .running ∧ c.seamFree then c.seamStart else c
    else c

/-- FORCE of block domain b rises (R282): SEAM and a needle are down at once, in retention and the quiesce before it too, where a
needle holds nothing. While a reset is in progress the outputs stand as R284 has them.
(log 25, DEDUCED) -/
def bdForce (c : Chip) (b : Nat) : Chip :=
  if Tab.get false c.pwr.bdForce b then c
  else
  let was := c.bdAckOut
  let c := (c.mapPwr fun p => { p with bdForce := Tab.put false p.bdForce b true }).powerEvent b 3
  if b = 129 then (c.mapPwr fun p => { p with phase := .coreOff }).seamDown.ackEvents was
  else if c.inReset then c.ackEvents was
  else if b = 128 then c.seamDown.bdAcked b
  else if c.pwr.phase = .running then (c.forceNeedle b).bdAcked b
  else if c.pwr.phase = .coreOff then c
  else ((c.unqueueWake b).setF (.ndlStat b) F.NdlStat.PWR 2).bdAcked b

/-- PWR_BD_WAKE bit b (R282). -/
def bdWake (c : Chip) (b : Nat) : Bool :=
  if b < 128 then Tab.get false c.pwr.bdReq b && rdyq (c.ndl b) != 0
  else if b = 128 then Tab.get false c.pwr.bdReq 128 && c.en .seamCfg F.SeamCfg.EN == .running
  else c.pwr.phase == .retention && c.pwr.coreWake

/-- PWR_NDL_ON bit n (R277). -/
def ndlOn (c : Chip) (n : Nat) : Bool := c.npwr n != 2

end Chip

/-- The protection tables through a warm or CORE loss reset: every field stands but LC_BAD (R263, R11).
(log 22, DEDUCED; log 71, DEDUCED) -/
def Prot.warm (p : Prot) : Prot := p.wr .lc (fset (p.rd .lc) F.Lc.LC_BAD 0)

/-- The protection tables with a lifecycle change written, where one is due (R266). -/
def Prot.takeLc (p : Prot) : Option Nat → Prot
  | none => p
  | some st => p.wr .lc (fset (p.rd .lc) F.Lc.STATE st)

/-- The protection tables after a cold reset: only DXW_LC.STATE stands (R265).
(log 71, DEDUCED) -/
def Prot.cold (st : Nat) : Prot := Prot.wr { regs := [] } .lc (fset (Reg.reset .lc) F.Lc.STATE st)

/-- The lifecycle state (R265).
(log 20, DESIGN CHOICE) -/
def Prot.lcState (p : Prot) : Nat := fget (p.rd .lc) F.Lc.STATE

/-- The machine after a cold reset: memories wiped, `kind` in LASTRST; a lifecycle change to `lc` is written when the wipe is
done (R283, R266).
(log 25, DEDUCED) -/
def State.coldReset (s : State) (kind : Nat) (lc : Option Nat) : State :=
  { s with mem := [], prot := Prot.cold s.prot.lcState, chip := s.chip.coldReset kind lc }

/-- NPLL_MULT_WRITE (R274). -/
def execNpllMultWrite (q : Fin 4) (data : Word) (s : State) : Host.Outcome State Fault Refusal :=
  s.chipStep fun _ c => whenReady c (·.npllWrite q data)
/-- NPLL_LOCK (R274). -/
def execNpllLock (q : Fin 4) (s : State) : Host.Outcome State Fault Refusal := s.chipStep fun _ c => c.npllLock q
/-- NPLL_UNLOCK (R274). -/
def execNpllUnlock (q : Fin 4) (s : State) : Host.Outcome State Fault Refusal := s.chipStep fun _ c => c.npllUnlock q
/-- COLD_RESET (R283): at power-on, or by DXW_CRST_N. -/
def execColdReset (powerOn : Bool) (s : State) : Host.Outcome State Fault Refusal :=
  .next (s.coldReset (if powerOn then 0 else 1) none)
/-- WARM_RESET (R285). -/
def execWarmReset (src : WarmSource) (s : State) : Host.Outcome State Fault Refusal :=
  .next { s with
    prot := if src = .retention ∧ s.chip.pwr.phase = .retention ∧ ¬ Tab.get false s.chip.pwr.bdReq 129 then s.prot.warm else s.prot
    chip := s.chip.warmReset s.env src }
/-- WARM_QUIESCE_END (R285). -/
def execWarmQuiesceEnd (timeout : Bool) (s : State) : Host.Outcome State Fault Refusal :=
  let c := s.chip.quiesceEnd timeout
  .next { s with prot := if s.chip.pwr.phase = .quiesce ∧ c.pwr.phase = .starting then s.prot.warm else s.prot, chip := c }
/-- CORE_LOSS_RESET (R283): CORE power has returned. -/
def execCoreLossReset (s : State) : Host.Outcome State Fault Refusal :=
  if s.chip.pwr.phase = .coreOff then
    let c := (s.chip.mapPwr fun p => { p with bdForce := Tab.put false p.bdForce 129 false }).powerEvent 129 3
    .next { s with mem := [], prot := s.prot.warm, chip := c.logicReset 6 true }
  else .next s
/-- SPOOL_WIPE_DONE (R54). -/
def execSpoolWipeDone (s : State) : Host.Outcome State Fault Refusal := s.chipStep fun _ c => c.spoolWipeDone
/-- BLOCK_READY (R288). -/
def execBlockReady (s : State) : Host.Outcome State Fault Refusal :=
  let c := s.chip.blockReady s.env
  .next { s with prot := if c.pwr.newLc = none then s.prot.takeLc s.chip.pwr.newLc else s.prot, chip := c }
/-- BD_PDREQ_RISE (R282). -/
def execBdPdreqRise (b : Fin 130) (s : State) : Host.Outcome State Fault Refusal := s.chipStep fun e c => c.bdRise e b
/-- BD_PDACK_RISE (R282). -/
def execBdPdackRise (b : Fin 130) (s : State) : Host.Outcome State Fault Refusal := s.chipStep fun _ c => c.bdAckRise b
/-- BD_PDREQ_FALL (R282). -/
def execBdPdreqFall (b : Fin 130) (s : State) : Host.Outcome State Fault Refusal := s.chipStep fun _ c => c.bdFall b
/-- BD_FORCE (R282). -/
def execBdForce (b : Fin 130) (s : State) : Host.Outcome State Fault Refusal := s.chipStep fun _ c => c.bdForce b

end Sys2Proof.Machine
end

