-- ==== Sys2Proof/Machine/Views.lean ====
section
/-! DEFINITION. What a read of a register gives (00_scope.md R6, R8): the value held, with the fields that the hardware forms
at the read, and 0 in every WO field. What a read clears is in Csr.lean. -/

namespace Sys2Proof.Machine

/-- A number with bit d set where a test holds. -/
def bitsOf (n : Nat) (p : Nat → Bool) : Word := BitVec.ofNat 64 ((List.range n).foldl (fun v d => v + b2n (p d) * 2 ^ d) 0)

/-- The word with several fields set. -/
def setFields (w : Word) (l : List (Fld × Nat)) : Word := l.foldl (fun w x => fset w x.1 x.2) w

/-- The WO fields read 0 (R6). -/
def maskWo (r : Reg) (w : Word) : Word := r.fields.foldl (fun w f => if f.2 = .wo then fset w f.1 0 else w) w

namespace Chip

/-- DXW_LKn (05, Registers). -/
def lkWord (c : Chip) (l : Nat) : Word :=
  let v := c.lockAt l
  let st := match v.st with | .free => 0 | .held => 1 | .broken => 2
  setFields 0#64 [(F.Lk.STATE, st), (F.Lk.LEASE_END, if st = 1 then v.leaseEnd else 0),
    (F.Lk.WAITING, b2n (c.lockWaiters l != [])), (F.Lk.OWNER, if st = 0 then 0 else v.owner)]

/-- Word k of the oldest fault entry, 0 while the queue is empty (R296). -/
def fltWord (c : Chip) (k : Nat) : Word :=
  match c.faults.head? with
  | none => 0#64
  | some f => match k with | 0 => f.e0 | 1 => f.e1 | 2 => f.e2 | _ => f.e3

/-- Whether a completion entry or a spill waits for a mesh target domain (R280). -/
def tdWaits (e : Env) (c : Chip) (d : Nat) : Bool :=
  let w (b : Burst) : Bool := b.tdom == d && match b.use with | .own .. | .spill .. => true | _ => false
  c.tdDown d && (c.heldBursts w != [] || c.needles.any fun q => c.ownAwaits e q.1 d)

/-- PWR_TD_WAKE bit d (R280). -/
def tdWake (e : Env) (c : Chip) (d : Nat) : Bool :=
  c.tdWaits e d || c.threads.any fun q => q.2.st == .parked && q.2.kind == kPark && q.2.arg == parkTarget * 2 ^ 24 + d

/-- The transfer of a register set of a needle: 0 the active set, 1 the shadow set, 2 and up the suspended ones (06). -/
def setXfer (c : Chip) (n j : Nat) : Option Xfer :=
  match j with
  | 0 => (c.ndl n).active
  | 1 => (c.ndl n).shadow
  | k + 2 => Tab.get none (c.ndl n).susp k

/-- The _CTL register of a set. -/
def setCtlWord (c : Chip) (n j : Nat) : Word :=
  match c.setXfer n j with
  | none => 0#64
  | some x =>
    let st := if 2 ≤ j then 3 else match x.stage with | .fetch => 0 | .data => 1 | .close => 2 | .held => 3
    setFields 0#64 [(F.NdlSetCtl.VALID, 1), (F.NdlSetCtl.STATE, st), (F.NdlSetCtl.RES, x.res),
      (F.NdlSetCtl.OP, x.instr.code / 2 ^ 56), (F.NdlSetCtl.SPEC, b2n (isSpec x.instr)),
      (F.NdlSetCtl.MODE, (headFields x.instr).mode), (F.NdlSetCtl.T, x.t)]

/-- The _DESC register of a set. -/
def setDescWord (c : Chip) (n j : Nat) : Word :=
  match (c.setXfer n j).bind (·.cur) with
  | none => 0#64
  | some r => setFields 0#64 [(F.NdlSetDesc.KIND, r.desc.kind), (F.NdlSetDesc.GEN, r.desc.fenceGen.getD 0),
      (F.NdlSetDesc.ADDR, r.desc.addr / 32)]

/-- The _SRC register of a set. -/
def setSrcWord (c : Chip) (n j : Nat) : Word :=
  match c.setXfer n j with
  | none => 0#64
  | some x =>
    if hostSource x.instr then setFields 0#64 [(F.NdlSetSrc.POS, x.readAddr x.read)]
    else if usesCursor x.instr then
      let th := c.copyOf x.t
      setFields 0#64 [(F.NdlSetSrc.SPOOL, spoolOfHandle th), (F.NdlSetSrc.POS, (c.cursorPos th).getD 0)]
    else 0#64

/-- The _CNT register of a set. REMAIN, coded N − 1, reads 0 where no input word is left and where N is not known yet.
(log 138, DESIGN CHOICE) -/
def setCntWord (c : Chip) (n j : Nat) : Word :=
  match c.setXfer n j with
  | none => 0#64
  | some x => setFields 0#64 [(F.NdlSetCnt.PCNT, min x.pcnt 255), (F.NdlSetCnt.DWORDS, x.dwords),
      (F.NdlSetCnt.REMAIN, x.total' - x.read - 1)]

/-- DXW_NDLn_CQq: the descriptor the entry completes next is the first whose OWN clear has not arrived. -/
def cqWord (c : Chip) (n q : Nat) : Word :=
  match (c.ndl n).cq[q]? with
  | none => 0#64
  | some x =>
    let next := ((x.descs.find? fun r => r.own != 2).map fun r => r.desc.addr / 32).getD 0
    setFields 0#64 [(F.NdlCq.VALID, 1), (F.NdlCq.SP, b2n (x.descs.any fun r => r.desc.sealPost)),
      (F.NdlCq.IRQ, b2n (x.descs.any fun r => r.desc.irq)), (F.NdlCq.T, x.t), (F.NdlCq.ADDR, next)]

/-- DXW_NDLn_SLOTk. -/
def slotWord (c : Chip) (n k : Nat) : Word :=
  match c.slot n k with
  | none => 0#64
  | some s => setFields 0#64 [(F.NdlSlot.VALID, 1), (F.NdlSlot.CLASS, s.live.cls), (F.NdlSlot.T, s.t)]

/-- DXW_NDLn_STAT. -/
def ndlStatWord (c : Chip) (n : Nat) : Word :=
  setFields (c.rd (.ndlStat n)) [(F.NdlStat.RDYQ, rdyq (c.ndl n)),
    (F.NdlStat.RES, (bitsOf 8 fun k => (c.slot n k).isSome).toNat), (F.NdlStat.SUSP, suspCount (c.ndl n))]

end Chip

/-- Whether a register is one of those the seal protects whole, or the seal itself (R263). -/
def isProtReg : Reg → Bool
  | .seal | .pdCfg _ | .pdWin _ | .winBase _ | .winLimit _ | .winAttr _ | .lc => true
  | _ => false

/-- Full debug access: every lifecycle state but FIELD (12 R265). -/
def Prot.debugFull (p : Prot) : Bool := p.lcState != 2

/-- The LB fields of DXW_SEAM_CFG. -/
def seamLb : List Fld := [F.SeamCfg.RRD, F.SeamCfg.RWR, F.SeamCfg.BBR]

/-- The value that a read of a register gives, before its WO fields are masked. -/
def Chip.view (e : Env) (c : Chip) (r : Reg) : Word :=
  let w := c.rd r
  match r with
  | .xfFenceSt k => fset w F.XfFenceSt.LIVE (b2n (c.fenceLive k))
  | .lk l => c.lkWord l
  | .fltStat => fset w F.FltStat.COUNT c.faults.length
  | .fltE k => c.fltWord k
  | .irqRt s => fset w F.IrqRt.ASSERT (b2n (c.asserted e s))
  | .irqPend k => c.irqPendWord e k
  | .irqLnStat k => setFields w [(F.IrqLnStat.LEVEL, b2n (c.irqLevel e k)), (F.IrqLnStat.NSRC, c.lineSources e k)]
  | .otFine => setFields w [(F.OtFine.FINE, (Config.fine c.free).toNat), (F.OtFine.XING_LO, c.ctr)]
  | .otSetat => fset w F.OtSetat.PENDING c.tb.setat.length
  | .decTbl k => c.decTblWord k
  | .seamCfg => setFields w (seamLb.map fun f => (f, fget (e.prot.rd .seamCfg) f))
  | .seamStat => c.seamStatWord
  | .seamRxq => c.seam.rxq.headD 0#64
  | .mpCred p => c.mpCredWord p
  | .mpStat p => fset w F.MpStat.DRAINED (b2n (c.drained p))
  | .rlStat n => fset w F.RlStat.REQ (b2n (c.reqLevel n))
  | .spcSum k => c.spSumWord k
  | .spLvl m => fset w F.SpLvl.LEVEL (c.spLevel m)
  | .spStat m => fset w F.SpStat.FULL (b2n (c.spFull m))
  | .spCnt m => fset w F.SpCnt.MARKS (c.spool m).q.length
  | .pwrTd => bitsOf 64 c.tdDown
  | .pwrTdack => bitsOf 64 c.tdAckOut
  | .pwrTdwake => bitsOf 64 (c.tdWake e)
  | .pwrNdlq k => bitsOf 64 fun j => Tab.get false c.pwr.bdReq (64 * k + j)
  | .dbgCtl => fset w F.DbgCtl.FULL (b2n e.prot.debugFull)
  | .pmcOvf k => c.pmcOvfWord k
  | .bbLog n j => Tab.get 0#64 c.bb.log (4 * n + j)
  | .ndlStat n => c.ndlStatWord n
  | .ndlSlot n k => c.slotWord n k
  | .ndlXfCnt n => fset w F.NdlXfCnt.CQ (c.ndl n).cq.length
  | .ndlSetCtl n j => c.setCtlWord n j
  | .ndlSetDesc n j => c.setDescWord n j
  | .ndlSetSrc n j => c.setSrcWord n j
  | .ndlSetCnt n j => c.setCntWord n j
  | .ndlCq n q => c.cqWord n q
  | _ => if isProtReg r then e.prot.rd r else w

/-- What a read of a register returns. -/
def Chip.readWord (e : Env) (c : Chip) (r : Reg) : Word := maskWo r (c.view e r)

end Sys2Proof.Machine
end

