-- ==== Sys2Proof/Machine/Csr.lean ====
section
/-! DEFINITION. Accesses to the CSR window (00_scope.md R6 to R12, 01 R17 to R21): what a register read clears, what a register
write does, the boot seal (12 R263, R265), and the memory windows. Every access, from the control port, a SETAT entry,
Seam or the debug data register, goes through `State.csrRead` and `State.csrWrite`. -/

namespace Sys2Proof.Machine

/-- The sources of an access (12, DXW_SEAL.VSRC). -/
def srcPort : Nat := 0
def srcSetat : Nat := 1
def srcRemote : Nat := 2
def srcDebug : Nat := 3

/-! Reads -/

/-- The word with every RC field 0 (R6). -/
def clearRc (r : Reg) (w : Word) : Word := r.fields.foldl (fun w f => if f.2 = .rc then fset w f.1 0 else w) w

/-- Whether a register has an RC field. -/
def hasRc (r : Reg) : Bool := r.fields.any fun f => f.2 == .rc

namespace Chip

/-- The registers held in a needle's own domain: an access starts a stopped clock (13 R278). -/
def ownDomain : Reg → Option Nat
  | .ndlSlot n _ | .ndlSetCtl n _ | .ndlSetDesc n _ | .ndlSetSrc n _ | .ndlSetCnt n _ | .ndlCq n _ => some n
  | _ => none

/-- An access to a register in a needle's own domain starts its stopped clock; no thread wakes (R278, R96). -/
def touch (c : Chip) (r : Reg) : Chip :=
  match ownDomain r with
  | some n => if c.npwr n = 1 ∧ c.pllLocked n then
      ((c.unqueueWake n).setF (.ndlStat n) F.NdlStat.PWR 0).cntNeedle n 0x01B 1 else c
  | none => c

/-- What a read of a register changes: its RC fields (R6), the receive queue (11 R253), the fine tick used up, and the
deskew extremes, which start anew (15 R315). -/
def readEffect (c : Chip) (r : Reg) : Chip :=
  let c := c.touch r
  match r with
  | .seamRxq => c.rxPop.1
  | .otFine => c.spend
  | .calDsk m =>
    let svc := { c.svc with dskSeen := Tab.put false c.svc.dskSeen m false }
    { c.wr r (clearRc r (c.rd r)) with svc := svc }
  | _ => if hasRc r then c.wr r (clearRc r (c.rd r)) else c

end Chip

/-- A read of a register: the word, and the state after it. -/
def State.regRead (s : State) (r : Reg) : State × Word :=
  let w := s.chip.readWord s.env r
  match r with
  | .seal => ({ s with prot := s.prot.wr .seal (clearRc .seal (s.prot.rd .seal)) }, w)
  | _ => ({ s with chip := s.chip.readEffect r }, w)

/-! Writes -/

/-- Whether a field accepts a value (R10, and the ranges that the chapters state). -/
def accepts (r : Reg) (f : Fld) (v : Nat) : Bool :=
  match r with
  | .otBclk => decide (1000 ≤ v) && decide (v ≤ 10000)
  | .decCfg => f != F.DecCfg.SRC || v != 3
  | .seamTmo => v != 0
  | .seamCfg => (f != F.SeamCfg.VERMAX || v == 2 || v == 3) && (f != F.SeamCfg.HITMAX || v != 0)
  | .commitCfg => v != 0
  | .pdCfg _ => f != F.PdCfg.SETAT || v != 3
  | .mpArb _ => (f != F.MpArb.WAIT_LIMIT || v != 0) && (f != F.MpArb.AGECAP || decide (v ≤ 12))
  | .rstCtl => v != 0
  | .ndlCfg _ => f != F.NdlCfg.RSV0 || decide (v ≤ 8)
  | .calCfg => (f != F.CalCfg.K || (decide (4 ≤ v) && decide (v ≤ 12))) && (f != F.CalCfg.AVG || decide (v ≤ 8))
  | .monCfg => f != F.MonCfg.FRAME || v != 0
  | .stkCfg => v != 0
  | .rotCfg => (f != F.RotCfg.ORB && f != F.RotCfg.INT) || v != 0
  | _ => true

namespace Chip

/-- An RW field takes the value a write carries, where it accepts it. -/
def putField (c : Chip) (r : Reg) (w : Word) (f : Fld) : Chip :=
  if accepts r f (fget w f) then c.setF r f (fget w f) else c

/-- A write stores its fields per their access types (R6, R8, R10): RW fields are stored, the 1s of W1C fields cleared, and
everything else is left as it is. -/
def plainWrite (c : Chip) (r : Reg) (w : Word) : Chip :=
  r.fields.foldl (fun c f => match f.2 with
    | .rw => c.putField r w f.1
    | .w1c => c.wr r (c.rd r &&& ~~~(w &&& f.1.mask))
    | _ => c) c

/-- The fields of DXW_SEAM_CFG that are writable only while EN is OFF (11, Registers). -/
def seamLocked : List Fld :=
  [F.SeamCfg.NODE_ID, F.SeamCfg.ROOTIDX, F.SeamCfg.REF, F.SeamCfg.ROOT, F.SeamCfg.VERMAX]

/-- A write of DXW_SEAM_CFG but for its LB fields: the fields, then EN, then the actions.
(log 70, DEDUCED; log 72, DEDUCED) -/
def seamCfgWrite (c : Chip) (w : Word) : Chip :=
  let off : Bool := c.en .seamCfg F.SeamCfg.EN == .off
  let same : Bool := seamLocked.all fun f => fget w f == c.fld .seamCfg f || !accepts .seamCfg f (fget w f)
  let c := if off then seamLocked.foldl (fun c f => c.putField .seamCfg w f) c
    else if same then c else c.flag .seamStat F.SeamStat.CFG_LOCKED
  let c := c.putField .seamCfg w F.SeamCfg.HITMAX
  let c := c.seamEnWrite (fget w F.SeamCfg.EN)
  let c := if fbit w F.SeamCfg.RETRAIN then c.startRetrain else c
  if fbit w F.SeamCfg.MEASURE then c.startMeasure else c

/-- A write of DXW_LK_CMD (05, Registers). -/
def lkCmdWrite (c : Chip) (w : Word) : Chip :=
  match fget w F.LkCmd.OP with
  | 1 => c.lkBreak (fget w F.LkCmd.LOCK)
  | 2 => c.lkClear (fget w F.LkCmd.LOCK)
  | _ => c

/-- A write of DXW_COMMIT (R268, R269). -/
def commitWrite (c : Chip) (w : Word) : Chip :=
  match fget w F.Commit.OP with
  | 1 => c.commitAccept false (if fbit w F.Commit.AT then some (fget w F.Commit.ORBIT) else none)
  | 2 => c.commitCancel
  | _ => c

/-- A write of DXW_MPn_ARB: FREEZE acts on the port (R229). -/
def mpArbWrite (c : Chip) (p : Nat) (w : Word) : Chip :=
  let c := [F.MpArb.HOLD_LIMIT, F.MpArb.WAIT_LIMIT, F.MpArb.AGECAP].foldl (fun c f => c.putField (.mpArb p) w f) c
  c.freezeWrite p (fbit w F.MpArb.FREEZE)

/-- A write of DXW_BB_CTL (14 R305): ARM before FREEZE.
(log 72, DEDUCED) -/
def bbCtlWrite (c : Chip) (w : Word) : Chip :=
  let c := c.putField .bbCtl w F.BbCtl.POST
  let c := if fbit w F.BbCtl.ARM then c.bbArm else c
  if fbit w F.BbCtl.FREEZE then c.bbFreeze else c

/-- A write of DXW_PMC_CTL (16 R325, R329): CLEAR under the FREEZE of before the write, then the fields.
(log 72, DEDUCED) -/
def pmcCtlWrite (c : Chip) (w : Word) : Chip := (if fbit w F.PmcCtl.CLEAR then c.pmcClear else c).plainWrite .pmcCtl w

/-- The debug requester's line (13 R290): present while MEN is 1 and access is full. -/
def dbgLineOp (e : Env) (c : Chip) (op : Nat) : Chip :=
  if ¬ (c.bit .dbgCtl F.DbgCtl.MEN ∧ e.prot.debugFull) ∨ c.bit .dbgMcmd F.DbgMcmd.BUSY ∨ (op ≠ 1 ∧ op ≠ 2) then c
  else
    let a := c.fld .dbgMaddr F.DbgMaddr.ADDR * 64
    let line : WLine :=
      { data := BitVec.ofNat 512 ((List.range 8).foldl (fun v j => v + (c.rd (.dbgMdata j)).toNat * 2 ^ (64 * j)) 0)
        be := BitVec.allOnes 64, poison := false }
    let b := if op = 1 then unitBurst 132 .dbgRead 3 .read a 1 [] else unitBurst 132 .dbgWrite 3 .ack a 1 [line]
    let r := c.issue e (c.fld .dbgMcmd F.DbgMcmd.PD) b
    match r.2 with
    | .ok _ => r.1.setF .dbgMcmd F.DbgMcmd.BUSY 1
    | .fail _ => r.1.dbgDone 1

/-- A write of DXW_RST_CTL (13 R283). -/
def rstWrite (e : Env) (c : Chip) (w : Word) : Chip :=
  let c := c.putField .rstCtl w F.RstCtl.QTMO
  if fbit w F.RstCtl.WARM ∧ fget w F.RstCtl.KEY = 0x5752 then c.warmReset e .keyed else c

/-- A write of DXW_SVC_EN: each service's field (R271). -/
def svcWrite (c : Chip) (w : Word) : Chip := (List.range 5).foldl (fun c k => c.svcEnWrite k (fget w (svcFld k))) c

/-- A configuration register that only an OFF service accepts, with the fields the value is accepted for. -/
def svcCfg (c : Chip) (k : Nat) (r st : Reg) (lock : Fld) (w : Word) : Chip :=
  c.svcCfgWrite k r st lock ((r.fields.map (·.1)).filter fun f => accepts r f (fget w f)) w

/-- A write of a register that the seal does not protect whole. -/
def regWrite (e : Env) (c : Chip) (src : Nat) (r : Reg) (w : Word) : Chip :=
  let c := c.touch r
  match r with
  | .thCmd => c.thCmd e (fget w F.ThCmd.OP) (fget w F.ThCmd.T) (fbit w F.ThCmd.GCHK) (fget w F.ThCmd.GEN)
  | .thDoorbell => c.doorbell e (fget w F.ThDoorbell.T) (fbit w F.ThDoorbell.GCHK) (fget w F.ThDoorbell.GEN)
  | .lkCmd => c.lkCmdWrite w
  | .xfFence k => c.fenceWrite k w
  | .fltCtl => if fbit w F.FltCtl.POP then c.faultPop else c
  | .irqLnCfg k =>
    let c := c.plainWrite r w
    if fbit w F.IrqLnCfg.ACK then c.irqAck e k else c
  | .otCtl => c.otCtlWrite w
  | .otGeom => c.otGeomWrite w
  | .decInj => c.decInject w.toNat
  | .seamCfg => c.seamCfgWrite w
  | .seamSendh => c.seamSend w
  | .seamByp => if fbit w F.SeamByp.FORCE then c.forceSet else c.forceClear
  | .commit => c.commitWrite w
  | .mpArb p => c.mpArbWrite p w
  | .arbRq q => c.arbRqWrite q w
  | .rlCfg n => c.rlWrite n false w
  | .rlBase n => c.rlWrite n true w
  | .ipCtl n => c.ipEnWrite n (fget w F.IpCtl.EN)
  | .ipMap n k => c.ipMapWrite n k w
  | .ipStat n => (c.plainWrite r w).holCheck n
  | .spCfg m => c.spCfgWrite m .cfg w
  | .spDeepbase m => c.spCfgWrite m .deepBase w
  | .spDeepcfg m => c.spCfgWrite m .deepCfg w
  | .spCtl m => c.spCtlWrite m w
  | .rstCtl => c.rstWrite e w
  | .clkNpll q => c.npllWrite q w
  | .dbgMcmd => (c.plainWrite r w).dbgLineOp e (fget w F.DbgMcmd.OP)
  | .pmcCtl => c.pmcCtlWrite w
  | .hvCtl => c.hvCtlWrite e w
  | .isCfg => c.isCfgWrite w
  | .isRing => c.isRingWrite w
  | .pmcCfg i => c.pmcCfgWrite i w
  | .pmcCnt i => c.pmcCntWrite i w
  | .svcEn => c.svcWrite w
  | .wdCfg => c.svcCfg 0 .wdCfg .wdStat F.WdStat.CFG_LOCKED w
  | .wdRing => c.svcCfg 0 .wdRing .wdStat F.WdStat.CFG_LOCKED w
  | .monCfg => c.svcCfg 3 .monCfg .monStat F.MonStat.CFG_LOCKED w
  | .monBase => c.svcCfg 3 .monBase .monStat F.MonStat.CFG_LOCKED w
  | .bbCtl => c.bbCtlWrite w
  | .bbSoft => c.bbSoft w src
  | .ndlCtl n => c.ndlEnWrite e n (fget w F.NdlCtl.EN)
  | _ => c.plainWrite r w

/-- A SEAL_VIOL event (14 R304). -/
def sealEvent (c : Chip) (p : Prot) : Chip := c.bbEvent 0x0B (p.rd .seal) 0#64

end Chip

/-! The boot seal (R263, R265) -/

/-- Whether the tables are sealed. -/
def Prot.isSealed (p : Prot) : Bool := fbit (p.rd .seal) F.Seal.SEAL

/-- The LB fields of a register. -/
def lbFields (r : Reg) : List Fld := (r.fields.filter fun f => f.2 == .lb).map (·.1)

/-- Whether a write would change the value of an LB field (R9, R10). DXW_LC's KEY and NEXT read 0.
(log 70, DEDUCED) -/
def Prot.lbChanges (p : Prot) (r : Reg) (w : Word) : Bool :=
  (lbFields r).any fun f => fget w f != fget (p.rd r) f && accepts r f (fget w f)

/-- The LB fields of a register take the values of a write. -/
def Prot.lbPut (p : Prot) (r : Reg) (w : Word) : Prot :=
  (lbFields r).foldl (fun p f => if accepts r f (fget w f) then p.wr r (fset (p.rd r) f (fget w f)) else p) p

/-- A seal violation is recorded (R263): the first since VIOL was cleared fixes VSRC and VOFF. -/
def Prot.violate (p : Prot) (src off : Nat) : Prot :=
  let w := fsat (p.rd .seal) F.Seal.VCNT 1
  if fbit w F.Seal.VIOL then p.wr .seal w
  else p.wr .seal (setFields w [(F.Seal.VIOL, 1), (F.Seal.VSRC, src), (F.Seal.VOFF, off)])

/-- A violation, with its event.
(log 70, DEDUCED) -/
def State.violate (s : State) (src off : Nat) : State :=
  let p := s.prot.violate src off
  { s with prot := p, chip := s.chip.sealEvent p }

/-- The LB fields of a write (R9): stored before the seal, discarded and judged after it. -/
def State.lbWrite (s : State) (src : Nat) (r : Reg) (w : Word) : State :=
  if s.prot.isSealed then (if s.prot.lbChanges r w then s.violate src r.offset else s)
  else { s with prot := s.prot.lbPut r w }

/-- A write of DXW_SEAL: SEAL is set by a 1, VIOL cleared by a 1 (R263). -/
def Prot.sealWrite (p : Prot) (w : Word) : Prot :=
  let v := p.rd .seal
  let v := if fbit w F.Seal.SEAL then fset v F.Seal.SEAL 1 else v
  p.wr .seal (if fbit w F.Seal.VIOL then fset v F.Seal.VIOL 0 else v)

/-- The next lifecycle state that R265 allows. -/
def nextLifecycle : Nat → Nat
  | 0 => 1 | 1 => 2 | 2 => 3 | _ => 1

/-- A change request of DXW_LC (R265, R266): KEY and NEXT both 0 ask for nothing; after the seal any other value is a
violation; before it the right KEY and NEXT start the cold reset of the change, and any other sets LC_BAD. -/
def State.lcRequest (s : State) (src key next : Nat) : State :=
  if key = 0 ∧ next = 0 then s
  else if s.prot.isSealed then s.violate src (Reg.offset .lc)
  else if key = 0x4C43 ∧ next = nextLifecycle s.prot.lcState then s.coldReset 2 (some next)
  else { s with prot := s.prot.wr .lc (fset (s.prot.rd .lc) F.Lc.LC_BAD 1) }

/-- A write of DXW_LC: a 1 clears LC_BAD, then the request is judged. -/
def State.lcWrite (s : State) (src : Nat) (w : Word) : State :=
  let p := if fbit w F.Lc.LC_BAD then s.prot.wr .lc (fset (s.prot.rd .lc) F.Lc.LC_BAD 0) else s.prot
  State.lcRequest { s with prot := p } src (fget w F.Lc.KEY) (fget w F.Lc.NEXT)

/-- A write of a register (R6 to R10, R263). -/
def State.regWrite (s : State) (src : Nat) (r : Reg) (w : Word) : State :=
  match r with
  | .seal => { s with prot := s.prot.sealWrite w }
  | .lc => s.lcWrite src w
  | .seamCfg =>
    let t := s.lbWrite src r w
    { t with chip := t.chip.regWrite t.env src r w }
  | r => if isProtReg r then s.lbWrite src r w else { s with chip := s.chip.regWrite s.env src r w }

/-! The memory windows (R19, R21) -/

/-- The memories of the window. -/
inductive MemKind where
  | pattern | map | store | spool
  deriving DecidableEq, Repr

/-- The memory that holds an offset of the CSR window; none for an unassigned offset (R21). -/
def memKind (off : Nat) : Option MemKind :=
  if 0x400000 ≤ off ∧ off < 0x480000 then some .pattern
  else if 0x800000 ≤ off ∧ off < 0x900000 then some .map
  else if 0x1000000 ≤ off ∧ off < 0x2000000 then some .store
  else if 0x2000000 ≤ off ∧ off < 0x2600000 then some .spool
  else none

/-- Granule, word and lane of an offset of the spool window (R62). -/
def spoolPlace (off : Nat) : Nat × Nat × Nat := ((off - 0x2000000) / 0x400, off % 0x400 / 32, off / 8 % 4)

/-- A word of a memory without its side effects. -/
def State.memGet (s : State) (k : MemKind) (off : Nat) : Word :=
  match k with
  | .store => (s.chip.thr ((off - 0x1000000) / 64)).word (off / 8 % 8)
  | _ => memWord s.mem off

/-- A read of a word of a memory: data and code, with the errors met (R19, R62, R87). In spool memory it checks all 4 lanes of
the word, the one that it reads among them (R61). -/
def State.memRead (s : State) (off : Nat) : State × Word × Nat :=
  match memKind off with
  | none => (s, 0#64, rspOk)
  | some .spool =>
    let p := spoolPlace off
    let bad := s.chip.lanesAt p.1 p.2.1 / 2 ^ p.2.2 % 2 = 1
    ({ s with chip := s.chip.noteParity p.1 p.2.1 }, s.memGet .spool off, if bad then rspErr else rspOk)
  | some k =>
    let m := match k with | .store => 0 | .pattern => 1 | _ => 2
    let r := s.chip.readEcc m off
    ({ s with chip := r.1 }, s.memGet k off, if r.2 then rspErr else rspOk)

/-- A line of pattern memory is dropped from every instruction buffer when it is written (R89).
(log 69, DEDUCED) -/
def Chip.dropLine (c : Chip) (l : Nat) : Chip :=
  (c.needles.map (·.1)).foldl (fun c n => c.setNdl n { c.ndl n with ib := (c.ndl n).ib.filter fun x => x != l }) c

/-- A write of fewer than 8 bytes, none included, reads the word first: an error that it meets is counted, and an
uncorrectable one turns the write away (R19).
(log 91, DESIGN CHOICE) -/
def Chip.mergeRead (c : Chip) (m off be : Nat) : Chip × Bool := if be = 255 then (c, false) else c.readEcc m off

/-- A write of the enabled bytes of a word of a memory, with its code (R19, R62, R81). A reserved bit of a map entry stays 0
(R8); the read that a write of fewer than 8 bytes of spool memory makes first checks all 4 lanes of the word (R61).
(log 91, DESIGN CHOICE) -/
def State.memWrite (s : State) (off be : Nat) (w : Word) : State × Nat :=
  match memKind off with
  | none => (s, rspOk)
  | some .store =>
    let r := s.chip.recordWrite ((off - 0x1000000) / 64) (off / 8 % 8) be w
    ({ s with chip := r.1 }, if r.2 then rspErr else rspOk)
  | some .spool =>
    let p := spoolPlace off
    let bad := s.chip.lanesAt p.1 p.2.1 / 2 ^ p.2.2 % 2 = 1
    let c := if be = 255 then s.chip else s.chip.noteParity p.1 p.2.1
    if bad ∧ be ≠ 255 then ({ s with chip := c }, rspErr)
    else
      let lanes := c.lanesAt p.1 p.2.1 - (if bad then 2 ^ p.2.2 else 0)
      ({ s with mem := memPutWord s.mem off (mergeBytes (memWord s.mem off) w be),
                chip := (c.setLanes p.1 p.2.1 lanes).dropCopies p.1 p.2.1 }, rspOk)
  | some k =>
    let r := s.chip.mergeRead (if k = .pattern then 1 else 2) off be
    if r.2 then ({ s with chip := r.1 }, rspErr)
    else if be = 0 then ({ s with chip := r.1 }, rspOk)
    else
      let c := r.1.clearEcc off
      let c := if k = .pattern then c.dropLine (Chip.lineOf ((off - 0x400000) / 8)) else c
      let v := mergeBytes (memWord s.mem off) w be
      ({ s with mem := memPutWord s.mem off (if k = .map then v &&& mapBits off else v), chip := c }, rspOk)

/-! Accesses -/

/-- A read of a word of the window (R8, R12, R19, R20). -/
def State.csrRead (s : State) (off : Nat) : State × Word × Nat :=
  if s.chip.pwr.phase ≠ .running then (s, 0#64, rspNrdy)
  else if off % 8 ≠ 0 then (s, 0#64, rspErr)
  else if 0x400000 ≤ off then s.memRead off
  else match Reg.ofOffset off with
    | none => (s, 0#64, rspOk)
    | some r => ((s.regRead r).1, (s.regRead r).2, rspOk)

/-- A write of a word of the window (R8, R9, R12, R19, R20). -/
def State.csrWrite (s : State) (src off be : Nat) (w : Word) : State × Nat :=
  if s.chip.pwr.phase ≠ .running then (s, rspNrdy)
  else if off % 8 ≠ 0 then (s, rspErr)
  else if 0x400000 ≤ off then s.memWrite off be w
  else if be ≠ 255 then (s, rspErr)
  else match Reg.ofOffset off with
    | none => (s, rspOk)
    | some r => (s.regWrite src r w, rspOk)

/-- An access is answered on the control port (R17). -/
def State.respond (s : State) (w : Word) (code : Nat) : State := { s with chip := s.chip.respond w code }

/-- An access of the control port with its response. -/
def State.portAccess (s : State) (write : Bool) (off be : Nat) (w : Word) : State :=
  if write then
    let r := s.csrWrite srcPort off be w
    r.1.respond 0#64 r.2
  else
    let r := s.csrRead off
    r.1.respond r.2.1 r.2.2

/-- CONTROL_PORT_REQUEST (R17). -/
def execControlPortRequest (write : Bool) (addr : BitVec 26) (be : BitVec 8) (wdata : Word) (s : State) :
    Host.Outcome State Fault Refusal :=
  .next (s.portAccess write addr.toNat be.toNat wdata)
/-- REGISTER_WRITE (R6): of the control port, all 8 bytes. -/
def execRegisterWrite (addr : BitVec 26) (data : Word) (s : State) : Host.Outcome State Fault Refusal :=
  .next (if isRegisterOffset addr.toNat then (s.csrWrite srcPort addr.toNat 255 data).1 else s)
/-- MEMORY_WINDOW_WRITE (R19). -/
def execMemoryWindowWrite (addr : BitVec 26) (be : BitVec 8) (wdata : Word) (s : State) : Host.Outcome State Fault Refusal :=
  .next (if isMemoryOffset addr.toNat then s.portAccess true addr.toNat be.toNat wdata else s)
/-- MEMORY_WINDOW_READ (R19). -/
def execMemoryWindowRead (addr : BitVec 26) (s : State) : Host.Outcome State Fault Refusal :=
  .next (if isMemoryOffset addr.toNat then s.portAccess false addr.toNat 255 0#64 else s)
/-- BOOT_SEAL (R263). -/
def execBootSeal (s : State) : Host.Outcome State Fault Refusal :=
  .next (if s.chip.pwr.phase = .running then { s with prot := s.prot.sealWrite F.Seal.SEAL.mask } else s)
/-- LIFECYCLE_CHANGE (R266). -/
def execLifecycleChange (key : BitVec 16) (next : BitVec 2) (s : State) : Host.Outcome State Fault Refusal :=
  .next (if s.chip.pwr.phase = .running then s.lcRequest srcPort key.toNat next.toNat else s)

end Sys2Proof.Machine
end

