-- ==== Sys2Proof/Machine/Debug.lean ====
section
/-! DEFINITION. The debug data register and requester 132 (13_power_clocks_startup.md R289, R290). -/

namespace Sys2Proof.Machine

/-- Whether debug access to an offset is allowed (R290): limited access reads the register regions outside the protection
region.
(log 73, DEDUCED) -/
def debugAllowed (p : Prot) (write : Bool) (off : Nat) : Bool :=
  p.debugFull || (!write && decide (off < 0x400000) && !(decide (0x30000 ≤ off) && decide (off < 0x40000)))

/-- The answer of an access stands in the debug data register (R289).
(log 29, DEDUCED) -/
def State.debugAnswer (s : State) (w : Word) (code : Nat) : State :=
  let pw := { s.chip.pwr with dbgData := w, dbgResp := code }
  let c : Chip := { s.chip with pwr := pw }
  { s with chip := c }

/-- ADDR of the debug data register as an Update-DR shifts it in: bits 25:3 of the offset (R289). -/
def State.debugShift (s : State) (off : Nat) : State :=
  let pw := { s.chip.pwr with dbgAddr := off / 8 }
  let c : Chip := { s.chip with pwr := pw }
  { s with chip := c }

/-- The 96 bits that a Capture-DR takes (R289): DATA, ADDR as shifted in, RESP, which is NRDY while DXW_READY is 0 (R284), and
MEN. An access completes with the command that makes it, so BUSY reads 0, and OP reads 0.
(log 5, DESIGN CHOICE; log 29, DEDUCED) -/
def Chip.debugCapture (c : Chip) : BitVec 96 :=
  let resp := if c.pwr.phase = .running then c.pwr.dbgResp else rspNrdy
  BitVec.ofNat 96 (c.pwr.dbgData.toNat * 2 ^ 32 + c.pwr.dbgAddr % 2 ^ 23 * 2 ^ 6 + resp * 2 ^ 4 +
    b2n (c.bit .dbgCtl F.DbgCtl.MEN) * 2 ^ 2)

/-- An access of the debug data register (R289, R290).
(log 73, DEDUCED) -/
def State.debugAccess (s : State) (write : Bool) (off : Nat) (w : Word) : State :=
  let s := s.debugShift off
  if s.chip.pwr.phase ≠ .running then s.debugAnswer 0#64 rspNrdy
  else if ¬ debugAllowed s.prot write off then s.debugAnswer 0#64 rspDenied
  else if write then
    let r := s.csrWrite srcDebug off 255 w
    r.1.debugAnswer 0#64 r.2
  else
    let r := s.csrRead off
    r.1.debugAnswer r.2.1 r.2.2

/-- DEBUG_READ (R289): bits 25:3 of the offset. -/
def execDebugRead (addr : BitVec 26) (s : State) : Host.Outcome State Fault Refusal :=
  .next (s.debugAccess false (addr.toNat / 8 * 8) 0#64)
/-- DEBUG_WRITE (R289). -/
def execDebugWrite (addr : BitVec 26) (data : Word) (s : State) : Host.Outcome State Fault Refusal :=
  .next (s.debugAccess true (addr.toNat / 8 * 8) data)
/-- DEBUG_SET_MEN (R289). -/
def execDebugSetMen (on : Bool) (s : State) : Host.Outcome State Fault Refusal :=
  s.chipStep fun _ c => whenReady c (·.setF .dbgCtl F.DbgCtl.MEN (b2n on))
/-- DEBUG_READ_LINE (R290). -/
def execDebugReadLine (s : State) : Host.Outcome State Fault Refusal := s.chipStep fun e c => whenReady c (·.dbgLineOp e 1)
/-- DEBUG_WRITE_LINE (R290). -/
def execDebugWriteLine (s : State) : Host.Outcome State Fault Refusal := s.chipStep fun e c => whenReady c (·.dbgLineOp e 2)

end Sys2Proof.Machine
end

