-- ==== Sys2Proof/Machine/Remote.lean ====
section
/-! DEFINITION. Remote access over Seam (11_seam_ring.md R252): RREAD and RWRITE performed as control-port accesses. -/

namespace Sys2Proof.Machine

/-- The RRSP to a request (R252, R234): sent unless the access has bypassed the node.
(log 50, DEDUCED) -/
def State.rrsp (s : State) (h : SeamHead) (rtag code : Nat) (w : Word) : State :=
  if s.chip.rstate = 0 then s
  else { s with chip := s.chip.sendMsg .node 0x42 h.src.toNat false 0 (some h.seq.toNat) (Chip.rrspData rtag code w) }

/-- The block of an RREAD, or the first of an RWRITE (R235). -/
def remoteWord (off rtag : Nat) : Word := BitVec.ofNat 64 (off + rtag * 2 ^ 26)

/-- An RREAD arrives (R252): DENIED without an access where RRD is 0.
(log 50, DEDUCED) -/
def State.rread (s : State) (h : SeamHead) (off rtag : Nat) : State :=
  let t : State := { s with chip := s.chip.receive 0x40 h [remoteWord off rtag] id }
  if s.chip.rstate = 0 ∨ ¬ s.chip.actsOn 0x40 h then t
  else if ¬ fbit (s.prot.rd .seamCfg) F.SeamCfg.RRD then t.rrsp h rtag rspDenied 0#64
  else
    let r := t.csrRead off
    r.1.rrsp h rtag r.2.2 r.2.1

/-- An RWRITE arrives (R252): DENIED without an access where RWR is 0.
(log 50, DEDUCED) -/
def State.rwrite (s : State) (h : SeamHead) (off rtag : Nat) (w : Word) : State :=
  let t : State := { s with chip := s.chip.receive 0x41 h [remoteWord off rtag, w] id }
  if s.chip.rstate = 0 ∨ ¬ s.chip.actsOn 0x41 h then t
  else if ¬ fbit (s.prot.rd .seamCfg) F.SeamCfg.RWR then t.rrsp h rtag rspDenied 0#64
  else
    let r := t.csrWrite srcRemote off 255 w
    r.1.rrsp h rtag r.2 0#64

/-- RREAD (R252). -/
def execRread (h : SeamHead) (offset : BitVec 26) (rtag : BitVec 8) (s : State) : Host.Outcome State Fault Refusal :=
  .next (s.rread h offset.toNat rtag.toNat)
/-- RWRITE (R252). -/
def execRwrite (h : SeamHead) (offset : BitVec 26) (rtag : BitVec 8) (data : Word) (s : State) :
    Host.Outcome State Fault Refusal :=
  .next (s.rwrite h offset.toNat rtag.toNat data)

end Sys2Proof.Machine
end

