-- ==== Sys2Proof/Machine/Edge.lean ====
section
/-! DEFINITION. The beam-clock edge (02_orbit_timebase.md R24, R28, R29, R35, R45 to R48): the value the counter takes, and
the ordered work the edge leaves (the agenda), which the rows of the single tasks execute one by one and the next edge
executes as far as it is still to be done; and the idle tick of 10 ns. -/

namespace Sys2Proof.Machine

namespace Chip

/-- Whether counters count (R325). -/
def pmcOn (c : Chip) : Bool := !c.bit .pmcCtl F.PmcCtl.FREEZE

/-- Count an event that is no spool's on some counters (R326): no qualifier applies. FREEZE has been judged once for the
cycle, so a wrap on one counter does not keep the others from counting (R330).
(log 61, DEDUCED) -/
def cntEvery (c : Chip) (on : Bool) (ev n : Nat) (l : List Nat) : Chip :=
  if on then l.foldl (fun c i => c.bump ev n (some (c.fld (.pmcCfg i) F.PmcCfg.QSPOOL)) i) c else c

/-- Counters lo to lo + k − 1. -/
def ctrsAt (lo k : Nat) : List Nat := (List.range k).map fun j => lo + j

/-- Whether a needle's clock runs (R274, R277). -/
def clockRuns (c : Chip) (n : Nat) : Bool := c.npwr n == 0 && c.pllLocked n

/-- The counters that an event of every unit reaches: of needles with a running clock, ports, the spool controller, Seam
while it is on, and the thread store (R325, R326). -/
def ctrsOn (c : Chip) : List Nat :=
  (List.range 128).flatMap (fun k => if c.clockRuns k then ctrsAt (4 * k) 4 else []) ++ ctrsAt 512 72 ++
    (if c.bdDown 128 then [] else ctrsAt 584 4) ++ ctrsAt 588 4

/-- An event of every unit.
(log 61, DEDUCED) -/
def cntAll (c : Chip) (on : Bool) (ev n : Nat) : Chip := c.cntEvery on ev n c.ctrsOn

/-! The value of an edge -/

/-- How an edge moves the counter. -/
inductive Move where
  | count | wrap | load | resync | training
  deriving DecidableEq, Repr

/-- The next value of the counter by counting (R24), and whether it wraps (R28). -/
def nextCount (c : Chip) : Nat × Bool :=
  if c.ctr % 4096 + 1 < c.olen then (c.ctr + 1, false)
  else if c.ctr / 4096 + 1 < 2 ^ 52 then ((c.ctr / 4096 + 1) * 4096, false)
  else (0, true)

/-- OFFSET of the latest marker. -/
def otOffset (c : Chip) : Int := signed 16 (c.fld .otAlign F.OtAlign.OFFSET)

/-- Whether an edge that would give n is the gap-start edge at which an armed resync takes effect (R45). An arm outlasts a stop
and a change of MODE, and does nothing in standalone mode.
(log 104, DESIGN CHOICE) -/
def resyncNow (c : Chip) (n : Nat) : Bool :=
  c.tb.resync && c.tb.resyncMarker && c.ringMode && n % 4096 == c.olen - c.gap

/-- What the next edge makes of the counter: none where it does not advance. In ACQUIRE only training loads it (R43); the
reference takes DXW_OT_LOAD as it stands at the edge (R246). A load in FREE at the edge that would wrap replaces the wrap.
(log 105, DESIGN CHOICE) -/
def edgeMove (c : Chip) : Option (Move × Nat) :=
  if c.alignSt = 2 then c.tb.ringLoad.map fun v => (.training, if c.isRef then (c.rd .otLoad).toNat else v)
  else if ¬ c.counting then none
  else
    let (n, w) := c.nextCount
    match c.tb.freeLoad with
    | some v => if c.alignSt = 1 ∧ v ≠ n then some (.load, v) else some (if w then .wrap else .count, n)
    | none =>
      if c.resyncNow n ∧ c.otOffset ≠ 0 then some (.resync, c.shiftX n c.otOffset)
      else some (if w then .wrap else .count, n)

/-- A step of the counter: DXW_OT_STEP_FROM takes the value it would have taken, and the black box an ALIGN event.
(log 15, DEDUCED) -/
def stepFrom (c : Chip) (n : Nat) : Chip :=
  let c := (c.flag .otStat F.OtStat.STEP).wr .otStepFrom (BitVec.ofNat 64 n)
  c.bbEvent 0x06 (c.rd .otAlign) (c.rd .otStepFrom)

/-- The counter takes its value, with what the kind of move records (R28, R43, R45, R48). A load that waits is taken or
dropped: one of a training that the loss of the beam clock has ended is dropped.
(log 15, DEDUCED; log 16, DEDUCED; log 108, DESIGN CHOICE) -/
def edgeSet (c : Chip) (m : Move) (v : Nat) : Chip :=
  let n := c.nextCount.1
  let c := match m with
    | .count => c
    | .wrap => c.flag .otStat F.OtStat.WRAP
    | .load => c.stepFrom n
    | .resync =>
      let c := c.stepFrom n
      let ph := signed 8 (c.fld .otAlign F.OtAlign.PHASE)
      if c.alignSt = 6 then c.setAlign (markerState 0 ph) else c
    | .training =>
      let c := c.wr .otStepFrom (c.rd .otXing)
      (c.setF .otAlign F.OtAlign.OFFSET 0).setAlign 3
  let fired := c.resyncNow (if m = .training then v else n)
  let tb : Timebase := { c.tb with freeLoad := none, ringLoad := none, opening := false }
  let tb : Timebase := { tb with resync := tb.resync && !fired, resyncMarker := tb.resyncMarker && !fired }
  { c.wr .otXing (BitVec.ofNat 64 v) with tb := tb }

/-! The agenda -/

/-- The threads whose WAITX an edge that has brought the counter to n reaches, in ascending number (R25, R28, R35, R46 to
R48).
(log 11, DEDUCED; log 12, DEDUCED) -/
def xingDue (c : Chip) (n : Nat) (wrapped : Bool) : List EdgeTask :=
  (c.threads.filter fun p =>
    p.2.st == .waiting && p.2.kind == kXing && (wrapped || decide (p.2.target ≤ n))).map fun p => .wake p.1 p.2.target

/-- The lease ends that an edge reaches, local locks first (R119). -/
def leasesDue (c : Chip) (n : Nat) (wrapped : Bool) : List EdgeTask :=
  let due (base : Nat) (p : Nat × Lock) : Option EdgeTask :=
    if p.2.st = .held ∧ (wrapped ∨ p.2.leaseEnd ≤ n) then some (.lease (base + p.1) p.2.leaseEnd) else none
  c.locks.filterMap (due 0) ++ c.seam.ringLocks.filterMap (due 0x8000)

/-- The expiry of a fence has come at counter n (R146). -/
def fenceDue (c : Chip) (n : Nat) (wrapped : Bool) (k : Nat) : Bool :=
  let exp := c.fld (.xfFenceSt k) F.XfFenceSt.EXP
  match (c.fenceSt k).since with
  | some a => !(c.fenceSt k).due && exp != 0 && (wrapped || decide (dist c.olen n a ≥ exp))
  | none => false

/-- A fence's expiry has come. -/
def fenceMark (c : Chip) (k : Nat) : Chip := c.setFenceSt k { c.fenceSt k with due := true }

/-- The tasks of an edge that has brought the counter to n, in the order of R267, R35, R119 and R188.
(log 11, DEDUCED; log 12, DEDUCED) -/
def edgeTasks (c : Chip) (n : Nat) (wrapped : Bool) : List EdgeTask :=
  let here := n % 4096 == c.olen - c.gap
  let orb := c.fld .rotCfg F.RotCfg.ORB
  let hvst := c.hv.target.any fun t => wrapped || decide (t ≤ n)
  let mon := here && c.svc.frameEnd.any fun k => decide (k ≤ c.svc.monRun)
  let l1 : List EdgeTask := if c.commitPending && (wrapped || decide (c.commitAt ≤ n)) then [.swap] else []
  let l2 : List EdgeTask := (setatDue c.tb.setat n wrapped).map EdgeTask.setat
  let l3 : List EdgeTask := c.xingDue n wrapped
  let l4 : List EdgeTask := c.leasesDue n wrapped
  let l5 : List EdgeTask := (c.dec.filter fun p => c.missingDue n wrapped p.2).map fun p => EdgeTask.missing p.1
  let l6 : List EdgeTask := ((List.range 64).filter (c.fenceDue n wrapped)).map EdgeTask.fence
  let l7 : List EdgeTask := if hvst then [.harvest] else []
  let l8 : List EdgeTask := if here && n / 4096 % orb == 0 then [.rotation] else []
  let l9 : List EdgeTask := if mon then [.monitor] else []
  List.flatten [l1, l2, l3, l4, l5, l6, l7, l8, l9]

/-- The agenda replaced. -/
def setAgenda (c : Chip) (l : List EdgeTask) : Chip := { c with tb := { c.tb with agenda := l } }

/-- An entry leaves the schedule. -/
def setatRemove (c : Chip) (e : SetatEntry) : Chip := { c with tb := { c.tb with setat := c.tb.setat.erase e } }

/-- A task other than a SETAT entry, done. -/
def doTask (e : Env) (c : Chip) : EdgeTask → Chip
  | .swap => if c.commitPending then c.swapSets else c
  | .setat _ => c
  | .wake t target =>
    let th := c.thr t
    if th.st = .waiting ∧ th.kind = kXing ∧ th.target = target then c.xingWake t else c
  | .lease l fin => if (c.lockAt l).st = .held ∧ (c.lockAt l).leaseEnd = fin then c.lockBreak l true else c
  | .missing k =>
    let d := Tab.get DecEntry.unused c.dec k
    if d.st = .opened then c.declareMissing d else c
  | .fence k => c.fenceExpire k
  | .harvest => c.harvestFire e
  | .rotation => c.rotPoint
  | .monitor => c.monFrameEnd e (c.ctr / 4096)

/-- The place of a task in the order of R267, R35, R119 and R188; 4 where the rules set none.
(log 13, DEDUCED) -/
def rank : EdgeTask → Nat
  | .swap => 0 | .setat _ => 1 | .wake .. => 2 | .lease .. => 3 | .missing _ => 3
  | .fence _ => 4 | .harvest => 4 | .rotation => 4 | .monitor => 4

/-- Whether a task of the agenda may be done now: every task of an earlier place is done.
(log 13, DEDUCED) -/
def mayDo (c : Chip) (t : EdgeTask) : Bool :=
  c.tb.agenda.contains t && (rank t == 4 || c.tb.agenda.all fun u => decide (rank t ≤ rank u))

end Chip

/-- A task of the agenda is done: a SETAT entry lands as a write of all 8 bytes and leaves the schedule (R34, R35). -/
def State.doTask (s : State) (t : EdgeTask) : State :=
  let c := s.chip.setAgenda (s.chip.tb.agenda.erase t)
  match t with
  | .setat x =>
    if c.tb.setat.contains x then ({ s with chip := c.setatRemove x }.csrWrite srcSetat x.off 255 x.value).1
    else { s with chip := c }
  | t => { s with chip := c.doTask s.env t }

/-- The tasks still on the agenda are done, in order.
(log 12, DEDUCED; log 13, DEDUCED) -/
def State.drainAgenda (s : State) : State := s.chip.tb.agenda.foldl (fun s t => s.doTask t) s

/-- The entries from n through 16 crossings after it are opened (R186).
(log 18, DEDUCED) -/
def Chip.openRange (c : Chip) (n : Nat) : Chip :=
  (List.range 17).foldl (fun c j => c.openDec (advance c.olen n j)) c

/-- An edge that advances the counter (R35, R186): the counter, the marker and the shadow at slot 0, the agenda. After a
step, a load or a stop the agenda is done at the edge itself, before the entries are opened (R188).
(log 14, DEDUCED) -/
def State.edgeAdvance (s : State) (m : Chip.Move) (v : Nat) : State :=
  let c := s.chip
  let afresh := c.tb.opening || m != .count
  let wrapped := m == .wrap
  let c := ((c.edgeSet m v).cntAll c.pmcOn 0x001 1).monPass v
  let tasks := c.edgeTasks v wrapped
  let c := (tasks.foldl (fun c t => match t with | .fence k => c.fenceMark k | _ => c) c).setAgenda tasks
  let c := if v % 4096 = 0 then (c.wr .otShadow (BitVec.ofNat 64 v)).sendMarker else c
  let s := { s with chip := c }
  let s := if afresh then
      let s := s.drainAgenda
      { s with chip := s.chip.openRange v }
    else { s with chip := s.chip.openDec (advance s.chip.olen v 16) }
  let en : En := s.chip.runEn
  if v % 4096 = 0 ∧ (en = .stopping ∨ en = .restart) then
    let s := s.drainAgenda
    let new := en.complete true
    let c := s.chip.setF .otCtl F.OtCtl.RUN new.code
    { s with chip := if new = .off then c.stoppedAlign else c.startedAlign }
  else s

/-- A rising BCLK edge: what the last one left is done first.
(log 12, DEDUCED) -/
def State.edge (s : State) : State :=
  if s.chip.tb.present ∧ (s.chip.pwr.phase = .running ∨ s.chip.pwr.phase = .quiesce) then
    let s := s.drainAgenda
    match s.chip.edgeMove with
    | some (m, v) => s.edgeAdvance m v
    | none => s
  else s

/-- The next edge, if it is one of a kind.
(log 4, DESIGN CHOICE) -/
def State.edgeIf (s : State) (p : Chip → Bool) : State := if p s.drainAgenda.chip then s.edge else s

/-- The first task on the agenda of a kind, done if its turn has come.
(log 4, DESIGN CHOICE; log 5, DESIGN CHOICE) -/
def State.taskIf (s : State) (p : EdgeTask → Bool) : State :=
  match s.chip.tb.agenda.find? p with
  | some t => if coreUp s.chip ∧ s.chip.mayDo t then s.doTask t else s
  | none => s

/-- BCLK_EDGE (R35). -/
def execBclkEdge (s : State) : Host.Outcome State Fault Refusal := .next s.edge
/-- TIMEBASE_STOP_COMPLETE (R29): the edge at the end of the orbit of a stopping timebase. -/
def execTimebaseStopComplete (s : State) : Host.Outcome State Fault Refusal :=
  .next (s.edgeIf fun c => (c.runEn == .stopping || c.runEn == .restart) && c.edgeMove.any fun m => m.2 % 4096 == 0)
/-- RESYNC_STEP (R45): the edge at which an armed resync takes effect. -/
def execResyncStep (s : State) : Host.Outcome State Fault Refusal :=
  .next (s.edgeIf fun c => c.counting && c.resyncNow c.nextCount.1)
/-- FREE_LOAD_STEP (R48): the edge that takes a load in FREE. -/
def execFreeLoadStep (s : State) : Host.Outcome State Fault Refusal :=
  .next (s.edgeIf fun c => c.alignSt == 1 && c.tb.freeLoad.isSome)
/-- SETAT_ENTRY_APPLY (R35). -/
def execSetatEntryApply (s : State) : Host.Outcome State Fault Refusal :=
  .next (s.taskIf fun t => match t with | .setat _ => true | _ => false)
/-- XING_WAIT_WAKE (R35): the threads of an edge wake in ascending number. -/
def execXingWaitWake (t : Fin 262144) (s : State) : Host.Outcome State Fault Refusal :=
  .next (match s.chip.tb.agenda.find? fun u => match u with | .wake .. => true | _ => false with
    | some (.wake u x) => if u = t.val then s.taskIf (· == .wake u x) else s
    | _ => s)
/-- CONFIG_SWAP (R267). -/
def execConfigSwap (s : State) : Host.Outcome State Fault Refusal := .next (s.taskIf (· == .swap))
/-- LOCK_LEASE_END (R119). -/
def execLockLeaseEnd (lock : BitVec 16) (s : State) : Host.Outcome State Fault Refusal :=
  .next (s.taskIf fun t => match t with | .lease l _ => l == lock.toNat | _ => false)
/-- DECISION_MISSING (R188). -/
def execDecisionMissing (entry : Fin 1024) (s : State) : Host.Outcome State Fault Refusal :=
  .next (s.taskIf (· == .missing entry.val))
/-- HARVEST_SNAPSHOT (R331). -/
def execHarvestSnapshot (s : State) : Host.Outcome State Fault Refusal := .next (s.taskIf (· == .harvest))
/-- ROTATION_POINT (R317). -/
def execRotationPoint (s : State) : Host.Outcome State Fault Refusal := .next (s.taskIf (· == .rotation))
/-- MONITOR_FRAME_END (R320): the frame before is finished, or there is none. -/
def execMonitorFrameEnd (s : State) : Host.Outcome State Fault Refusal :=
  .next (if s.chip.svc.frame.all fun f => f.stage == 4 && !f.failed then s.taskIf (· == .monitor) else s)
/-- MONITOR_FRAME_ABORT (R321): a write of the frame has failed, or the frame end has come before it is finished. -/
def execMonitorFrameAbort (s : State) : Host.Outcome State Fault Refusal :=
  .next (match s.chip.svc.frame with
    | none => s
    | some f =>
      if f.failed then { s with chip := s.chip.monFailed }
      else if f.stage = 4 then s
      else s.taskIf (· == .monitor))

/-! The idle tick -/

namespace Chip

/-- The cycles that needle n's clock makes in the tick after tick t: MULT × 25 MHz (R274).
(log 3, DESIGN CHOICE) -/
def needleCycles (c : Chip) (n t : Nat) : Nat :=
  let m := c.fld (.clkNpll (n / 32)) F.ClkNpll.MULT
  (t + 1) * m / 4 - t * m / 4

/-- A free amount, at most b, of an event counted in cycles of which the spec gives no number. -/
def cntFree (c : Chip) (on : Bool) (ev b : Nat) (l : List Nat) : Chip :=
  (c.cntEvery on ev (Config.cycles c.free % (b + 1)) l).spend

/-- The slots of a needle with a resident thread. -/
def residents (nd : Needle) : Nat := (nd.slots.filter fun q => q.2.any fun s => !s.fetching && !s.dead).length

/-- The resident threads with a transfer in the active or the shadow set. -/
def inSets (nd : Needle) : Nat := (nd.active.toList ++ nd.shadow.toList).length

/-- The counts of a running needle clock in a part of tick t: NCYC, and the stall counts of the threads that can stall
(R326). -/
def needleCounts (on : Bool) (part : Nat → Nat) (c : Chip) (t n : Nat) : Chip :=
  if ¬ c.clockRuns n then c
  else
    let k := part (c.needleCycles n t)
    let l := ctrsAt (4 * n) 4
    let c := c.cntEvery on 0x010 k l
    let c := (c.cntFree on 0x016 k l).cntFree on 0x017 (residents (c.ndl n) * k) l
    c.cntFree on 0x018 (inSets (c.ndl n) * k) l

/-- A running needle clock: its cycles, which end every branch's (R88), and its run time (R318). -/
def needleTick (c : Chip) (t n : Nat) : Chip :=
  if ¬ c.clockRuns n then c
  else
    let c := c.setNdl n { c.ndl n with ncyc := (c.ndl n).ncyc + c.needleCycles n t, gaps := [] }
    let r := Tab.get 0 c.pwr.run n + 1
    let pw := { c.pwr with run := Tab.put 0 c.pwr.run n (r % 100) }
    let c : Chip := { c with pwr := pw }
    if r = 100 then c.setF (.rotAge n) F.RotAge.US (c.fld (.rotAge n) F.RotAge.US + 1) else c

/-- An ingest port's cycles; while READY is 0, a free number of them with VALID = 1, as BP and CYCLES count them (R53, R326).
(log 3, DESIGN CHOICE) -/
def ingestTick (on : Bool) (part : Nat → Nat) (c : Chip) (n : Nat) : Chip :=
  let l := ctrsAt (544 + 2 * n) 2
  let most := part 9
  let c := c.cntFree on 0x0C0 most l
  if c.quar n ∨ (c.ip n).fifo.length < 16 ∨ ¬ c.bit (.ipStat n) F.IpStat.CLK_OK then c
  else
    let b := Config.cycles c.free % (most + 1)
    ((c.tally (.ipBp n) F.IpBp.CYCLES b).cntFree on 0x0C3 most l).holCheck n

/-- The store cycles, of m, in which a tail register waits for a macro (R326, R327): for each spool with words in its tail
register a free number, and for a counter of every spool a free number of cycles between the most and the sum of them,
m at most.
(log 3, DESIGN CHOICE) -/
def macroTick (on : Bool) (m : Nat) (c : Chip) : Chip :=
  let ms := (c.spools.filter fun q => q.2.tail != []).map (·.1)
  let waits : List (Nat × Nat) := ms.zipIdx.map fun x => (x.1, Config.cycles (c.free + x.2) % (m + 1))
  let most := waits.foldl (fun v x => max v x.2) 0
  let total := waits.foldl (fun v x => v + x.2) 0
  let any := most + Config.cycles (c.free + waits.length) % (min m total - most + 1)
  let c := { c with free := c.free + waits.length + 1 }
  let count (c : Chip) (i : Nat) : Chip :=
    if c.bit (.pmcCfg i) F.PmcCfg.QV then
      let sp := c.fld (.pmcCfg i) F.PmcCfg.QSPOOL
      c.bump 0x0E9 (Tab.get 0 waits sp) (some sp) i
    else c.bump 0x0E9 any none i
  if on then (ctrsAt 576 8).foldl count c else c

/-- The counts of m store cycles of tick t (R326): needle, store and mesh cycles, and those of which the spec gives no number;
`part` is the share that falls on them of what a tick has.
(log 3, DESIGN CHOICE) -/
def countPass (on : Bool) (m : Nat) (part : Nat → Nat) (c : Chip) (t : Nat) : Chip :=
  let c := (List.range 128).foldl (fun c n => needleCounts on part c t n) c
  let c := (c.cntAll on 0x002 m).cntEvery on 0x080 (part 16) (ctrsAt 512 32)
  let c := (List.range 16).foldl (ingestTick on part) c
  (macroTick on m c).cntFree on 0x132 (part (130 * 128)) (ctrsAt 588 4)

/-- The counts of tick t. Where a wrap among them sets FREEZE, they are taken store cycle by store cycle, so that nothing counts
after the cycle of the wrap (R325, R330).
(log 3, DESIGN CHOICE) -/
def countTick (c : Chip) (t : Nat) : Chip :=
  let d := c.countPass c.pmcOn 12 id t
  if c.pmcOn && !d.pmcOn then
    (List.range 12).foldl (fun c j => c.countPass c.pmcOn 1 (fun b => b * (j + 1) / 12 - b * j / 12) t) c
  else d

/-- 10 ns in which no command comes: the timer, the needles' clocks, the cycle counts, one message on each lane of Seam,
which its island launches whatever else has power (11 R254, R255), and a break point on every mesh port.
(log 3, DESIGN CHOICE) -/
def idleTick (e : Env) (c : Chip) : Chip :=
  let t := c.timer
  let c := c.wr .thTimer (c.rd .thTimer + 1#64)
  if c.pwr.phase = .running ∨ c.pwr.phase = .quiesce then
    let c := (List.range 128).foldl (fun c n => needleTick c t n) (c.countTick t)
    (c.seamTick e).settleAll e
  else c.seamTick e

end Chip

/-- What a step does when no command waits.
(log 3, DESIGN CHOICE) -/
def idle (s : State) : Host.Outcome State Fault Refusal := s.chipStep fun e c => c.idleTick e

end Sys2Proof.Machine
end

