-- ==== Sys2Proof/Machine/Dispatch.lean ====
section
/-! DEFINITION. The one match from a command to its meaning: one arm per constructor of Instr. -/

namespace Sys2Proof.Machine

def exec (i : Instr) (s : State) : Host.Outcome State Fault Refusal :=
  match i with
  | .controlPortRequest write addr be wdata => Sys2Proof.Machine.execControlPortRequest write addr be wdata s
  | .registerWrite addr data => Sys2Proof.Machine.execRegisterWrite addr data s
  | .memoryWindowWrite addr be wdata => Sys2Proof.Machine.execMemoryWindowWrite addr be wdata s
  | .memoryWindowRead addr => Sys2Proof.Machine.execMemoryWindowRead addr s
  | .bclkEdge => Sys2Proof.Machine.execBclkEdge s
  | .setatEntryApply => Sys2Proof.Machine.execSetatEntryApply s
  | .xingWaitWake t => Sys2Proof.Machine.execXingWaitWake t s
  | .bclkLost => Sys2Proof.Machine.execBclkLost s
  | .bclkPresent => Sys2Proof.Machine.execBclkPresent s
  | .bclkMeasure period => Sys2Proof.Machine.execBclkMeasure period s
  | .timebaseRun => Sys2Proof.Machine.execTimebaseRun s
  | .timebaseStop => Sys2Proof.Machine.execTimebaseStop s
  | .timebaseStopComplete => Sys2Proof.Machine.execTimebaseStopComplete s
  | .timebaseModeWrite mode => Sys2Proof.Machine.execTimebaseModeWrite mode s
  | .otGeomWrite data => Sys2Proof.Machine.execOtGeomWrite data s
  | .resyncArm => Sys2Proof.Machine.execResyncArm s
  | .resyncStep => Sys2Proof.Machine.execResyncStep s
  | .loadGo => Sys2Proof.Machine.execLoadGo s
  | .freeLoadStep => Sys2Proof.Machine.execFreeLoadStep s
  | .markerMissed => Sys2Proof.Machine.execMarkerMissed s
  | .holdoverExpire => Sys2Proof.Machine.execHoldoverExpire s
  | .ingestBeat port stream sop eop xtag poison data => Sys2Proof.Machine.execIngestBeat port stream sop eop xtag poison data s
  | .spoolWordWrite port => Sys2Proof.Machine.execSpoolWordWrite port s
  | .quarantineReleaseTick => Sys2Proof.Machine.execQuarantineReleaseTick s
  | .ingestClkOk port => Sys2Proof.Machine.execIngestClkOk port s
  | .ingestClkLost port => Sys2Proof.Machine.execIngestClkLost port s
  | .ingestEnable port => Sys2Proof.Machine.execIngestEnable port s
  | .ingestStop port => Sys2Proof.Machine.execIngestStop port s
  | .ingestStopEffect port => Sys2Proof.Machine.execIngestStopEffect port s
  | .ingestStopComplete port => Sys2Proof.Machine.execIngestStopComplete port s
  | .ingestMapWrite port stream data => Sys2Proof.Machine.execIngestMapWrite port stream data s
  | .spoolCfgWrite m which data => Sys2Proof.Machine.execSpoolCfgWrite m which data s
  | .spoolEnable m => Sys2Proof.Machine.execSpoolEnable m s
  | .spoolStop m => Sys2Proof.Machine.execSpoolStop m s
  | .spoolForce m => Sys2Proof.Machine.execSpoolForce m s
  | .spoolStopComplete m => Sys2Proof.Machine.execSpoolStopComplete m s
  | .mark n k pick => Sys2Proof.Machine.execMark n k pick s
  | .rewind n k => Sys2Proof.Machine.execRewind n k s
  | .release n k => Sys2Proof.Machine.execRelease n k s
  | .peek n k => Sys2Proof.Machine.execPeek n k s
  | .deepSpill m => Sys2Proof.Machine.execDeepSpill m s
  | .deepSpillAck m => Sys2Proof.Machine.execDeepSpillAck m s
  | .deepRefillDone m => Sys2Proof.Machine.execDeepRefillDone m s
  | .threadStart t gchk gen => Sys2Proof.Machine.execThreadStart t gchk gen s
  | .threadHalt t gchk gen => Sys2Proof.Machine.execThreadHalt t gchk gen s
  | .threadResume t gchk gen => Sys2Proof.Machine.execThreadResume t gchk gen s
  | .threadKill t gchk gen => Sys2Proof.Machine.execThreadKill t gchk gen s
  | .threadCmdBoundary t => Sys2Proof.Machine.execThreadCmdBoundary t s
  | .resumeSealComplete t => Sys2Proof.Machine.execResumeSealComplete t s
  | .threadRecordWrite t word be data => Sys2Proof.Machine.execThreadRecordWrite t word be data s
  | .threadDoorbell t gchk gen => Sys2Proof.Machine.execThreadDoorbell t gchk gen s
  | .descWaitReadDone t => Sys2Proof.Machine.execDescWaitReadDone t s
  | .threadFetchStart n => Sys2Proof.Machine.execThreadFetchStart n s
  | .threadFetchDone n k => Sys2Proof.Machine.execThreadFetchDone n k s
  | .ibLineFill n k => Sys2Proof.Machine.execIbLineFill n k s
  | .timerWaitExpire t => Sys2Proof.Machine.execTimerWaitExpire t s
  | .needleEnable n => Sys2Proof.Machine.execNeedleEnable n s
  | .needleStop n => Sys2Proof.Machine.execNeedleStop n s
  | .needleStopComplete n => Sys2Proof.Machine.execNeedleStopComplete n s
  | .needleClockStop n => Sys2Proof.Machine.execNeedleClockStop n s
  | .needlePowerGate n => Sys2Proof.Machine.execNeedlePowerGate n s
  | .needleWakeDone n => Sys2Proof.Machine.execNeedleWakeDone n s
  | .nop n k => Sys2Proof.Machine.execNop n k s
  | .jmp n k => Sys2Proof.Machine.execJmp n k s
  | .brcc n k => Sys2Proof.Machine.execBrcc n k s
  | .call n k => Sys2Proof.Machine.execCall n k s
  | .ret n k => Sys2Proof.Machine.execRet n k s
  | .halt n k => Sys2Proof.Machine.execHalt n k s
  | .yield n k => Sys2Proof.Machine.execYield n k s
  | .hdr n k => Sys2Proof.Machine.execHdr n k s
  | .illegalInstruction n k => Sys2Proof.Machine.execIllegalInstruction n k s
  | .ldi n k => Sys2Proof.Machine.execLdi n k s
  | .add n k => Sys2Proof.Machine.execAdd n k s
  | .sub n k => Sys2Proof.Machine.execSub n k s
  | .and n k => Sys2Proof.Machine.execAnd n k s
  | .or n k => Sys2Proof.Machine.execOr n k s
  | .xor n k => Sys2Proof.Machine.execXor n k s
  | .shl n k => Sys2Proof.Machine.execShl n k s
  | .shr n k => Sys2Proof.Machine.execShr n k s
  | .cmpi n k => Sys2Proof.Machine.execCmpi n k s
  | .waitx n k => Sys2Proof.Machine.execWaitx n k s
  | .waitd n k => Sys2Proof.Machine.execWaitd n k s
  | .waits n k => Sys2Proof.Machine.execWaits n k s
  | .waitr n k => Sys2Proof.Machine.execWaitr n k s
  | .waitrTimeout t => Sys2Proof.Machine.execWaitrTimeout t s
  | .cross n k => Sys2Proof.Machine.execCross n k s
  | .setat n k => Sys2Proof.Machine.execSetat n k s
  | .lock n k => Sys2Proof.Machine.execLock n k s
  | .unlock n k => Sys2Proof.Machine.execUnlock n k s
  | .lockLeaseEnd lock => Sys2Proof.Machine.execLockLeaseEnd lock s
  | .lockBreak lock => Sys2Proof.Machine.execLockBreak lock s
  | .lockClear lock => Sys2Proof.Machine.execLockClear lock s
  | .sends n k => Sys2Proof.Machine.execSends n k s
  | .move n k => Sys2Proof.Machine.execMove n k s
  | .movec n k => Sys2Proof.Machine.execMovec n k s
  | .postCommit n k => Sys2Proof.Machine.execPostCommit n k s
  | .postDiscard n k => Sys2Proof.Machine.execPostDiscard n k s
  | .postComplete n k => Sys2Proof.Machine.execPostComplete n k s
  | .seal n k => Sys2Proof.Machine.execSeal n k s
  | .sealComplete n k => Sys2Proof.Machine.execSealComplete n k s
  | .dsetSet n k => Sys2Proof.Machine.execDsetSet n k s
  | .dsetGet n k => Sys2Proof.Machine.execDsetGet n k s
  | .descFetchDone n => Sys2Proof.Machine.execDescFetchDone n s
  | .transferBurst n => Sys2Proof.Machine.execTransferBurst n s
  | .transferLeaveActive n => Sys2Proof.Machine.execTransferLeaveActive n s
  | .completionOwnClear n => Sys2Proof.Machine.execCompletionOwnClear n s
  | .fenceWrite k data => Sys2Proof.Machine.execFenceWrite k data s
  | .fenceExpire k => Sys2Proof.Machine.execFenceExpire k s
  | .fill n k => Sys2Proof.Machine.execFill n k s
  | .compare n k => Sys2Proof.Machine.execCompare n k s
  | .patch n k => Sys2Proof.Machine.execPatch n k s
  | .expand n k => Sys2Proof.Machine.execExpand n k s
  | .reduce n k => Sys2Proof.Machine.execReduce n k s
  | .pedsub n k => Sys2Proof.Machine.execPedsub n k s
  | .decision h payload => Sys2Proof.Machine.execDecision h payload s
  | .decisionInject payload => Sys2Proof.Machine.execDecisionInject payload s
  | .hint h payload => Sys2Proof.Machine.execHint h payload s
  | .decisionMissing entry => Sys2Proof.Machine.execDecisionMissing entry s
  | .arbitrationRound p pick => Sys2Proof.Machine.execArbitrationRound p pick s
  | .trainNextBurst p => Sys2Proof.Machine.execTrainNextBurst p s
  | .holdLimitOverrun p => Sys2Proof.Machine.execHoldLimitOverrun p s
  | .meshReadResponse p tag lines err => Sys2Proof.Machine.execMeshReadResponse p tag lines err s
  | .meshWriteAck p tag err => Sys2Proof.Machine.execMeshWriteAck p tag err s
  | .meshTimeout p tag => Sys2Proof.Machine.execMeshTimeout p tag s
  | .creditReturn p data => Sys2Proof.Machine.execCreditReturn p data s
  | .reqRise line => Sys2Proof.Machine.execReqRise line s
  | .reqFall line late => Sys2Proof.Machine.execReqFall line late s
  | .rlCfgWrite line base data => Sys2Proof.Machine.execRlCfgWrite line base data s
  | .arbRqWrite r data => Sys2Proof.Machine.execArbRqWrite r data s
  | .meshFreeze p on => Sys2Proof.Machine.execMeshFreeze p on s
  | .irqMessage line => Sys2Proof.Machine.execIrqMessage line s
  | .irqAck line => Sys2Proof.Machine.execIrqAck line s
  | .hello h lo hi count => Sys2Proof.Machine.execHello h lo hi count s
  | .helloResend => Sys2Proof.Machine.execHelloResend s
  | .token h ver count curRoot crv hopDelay acc => Sys2Proof.Machine.execToken h ver count curRoot crv hopDelay acc s
  | .probe h pseq turn => Sys2Proof.Machine.execProbe h pseq turn s
  | .echo h pseq turn elapsed dwell => Sys2Proof.Machine.execEcho h pseq turn elapsed dwell s
  | .probeTimeout dwell => Sys2Proof.Machine.execProbeTimeout dwell s
  | .ringUp h ver count lastRoot lrv rtt full => Sys2Proof.Machine.execRingUp h ver count lastRoot lrv rtt full s
  | .claim h => Sys2Proof.Machine.execClaim h s
  | .claimTimeout => Sys2Proof.Machine.execClaimTimeout s
  | .retrain h full => Sys2Proof.Machine.execRetrain h full s
  | .seamRetrainCmd => Sys2Proof.Machine.execSeamRetrainCmd s
  | .seamMeasureCmd => Sys2Proof.Machine.execSeamMeasureCmd s
  | .refMarkerLost => Sys2Proof.Machine.execRefMarkerLost s
  | .marker h xing delay dlat gap olen tau dwell => Sys2Proof.Machine.execMarker h xing delay dlat gap olen tau dwell s
  | .linkHit east => Sys2Proof.Machine.execLinkHit east s
  | .linkHitTimeout east => Sys2Proof.Machine.execLinkHitTimeout east s
  | .lockReq h lock t isTry isUnlock lease => Sys2Proof.Machine.execLockReq h lock t isTry isUnlock lease s
  | .lockRsp h lock t code leaseEnd => Sys2Proof.Machine.execLockRsp h lock t code leaseEnd s
  | .lockReqTimeout t => Sys2Proof.Machine.execLockReqTimeout t s
  | .commit h orbit => Sys2Proof.Machine.execCommit h orbit s
  | .harvest h xing => Sys2Proof.Machine.execHarvest h xing s
  | .rread h offset rtag => Sys2Proof.Machine.execRread h offset rtag s
  | .rwrite h offset rtag data => Sys2Proof.Machine.execRwrite h offset rtag data s
  | .rrsp h rtag code data => Sys2Proof.Machine.execRrsp h rtag code data s
  | .remoteAccessTimeout rtag => Sys2Proof.Machine.execRemoteAccessTimeout rtag s
  | .bbread h first num rtag => Sys2Proof.Machine.execBbread h first num rtag s
  | .bbrsp h rtag code ent first more data => Sys2Proof.Machine.execBbrsp h rtag code ent first more data s
  | .user h payload => Sys2Proof.Machine.execUser h payload s
  | .seamSend data => Sys2Proof.Machine.execSeamSend data s
  | .seamRxqRead => Sys2Proof.Machine.execSeamRxqRead s
  | .seamEnable => Sys2Proof.Machine.execSeamEnable s
  | .seamStop => Sys2Proof.Machine.execSeamStop s
  | .seamStopComplete => Sys2Proof.Machine.execSeamStopComplete s
  | .bypassForceSet => Sys2Proof.Machine.execBypassForceSet s
  | .bypassForceClear => Sys2Proof.Machine.execBypassForceClear s
  | .bypassPinRise => Sys2Proof.Machine.execBypassPinRise s
  | .aoSupplyFall => Sys2Proof.Machine.execAoSupplyFall s
  | .configCommit named orbit => Sys2Proof.Machine.execConfigCommit named orbit s
  | .commitCancel => Sys2Proof.Machine.execCommitCancel s
  | .configSwap => Sys2Proof.Machine.execConfigSwap s
  | .bootSeal => Sys2Proof.Machine.execBootSeal s
  | .lifecycleChange key next => Sys2Proof.Machine.execLifecycleChange key next s
  | .tdPdreqRise d => Sys2Proof.Machine.execTdPdreqRise d s
  | .tdPdackRise d => Sys2Proof.Machine.execTdPdackRise d s
  | .tdPdreqFall d => Sys2Proof.Machine.execTdPdreqFall d s
  | .tdForce d => Sys2Proof.Machine.execTdForce d s
  | .bdPdreqRise b => Sys2Proof.Machine.execBdPdreqRise b s
  | .bdPdackRise b => Sys2Proof.Machine.execBdPdackRise b s
  | .bdPdreqFall b => Sys2Proof.Machine.execBdPdreqFall b s
  | .bdForce b => Sys2Proof.Machine.execBdForce b s
  | .npllMultWrite q data => Sys2Proof.Machine.execNpllMultWrite q data s
  | .npllLock q => Sys2Proof.Machine.execNpllLock q s
  | .npllUnlock q => Sys2Proof.Machine.execNpllUnlock q s
  | .coldReset powerOn => Sys2Proof.Machine.execColdReset powerOn s
  | .warmReset src => Sys2Proof.Machine.execWarmReset src s
  | .warmQuiesceEnd timeout => Sys2Proof.Machine.execWarmQuiesceEnd timeout s
  | .coreLossReset => Sys2Proof.Machine.execCoreLossReset s
  | .spoolWipeDone => Sys2Proof.Machine.execSpoolWipeDone s
  | .blockReady => Sys2Proof.Machine.execBlockReady s
  | .debugRead addr => Sys2Proof.Machine.execDebugRead addr s
  | .debugWrite addr data => Sys2Proof.Machine.execDebugWrite addr data s
  | .debugSetMen on => Sys2Proof.Machine.execDebugSetMen on s
  | .debugReadLine => Sys2Proof.Machine.execDebugReadLine s
  | .debugWriteLine => Sys2Proof.Machine.execDebugWriteLine s
  | .faultPop => Sys2Proof.Machine.execFaultPop s
  | .bbEventRecord => Sys2Proof.Machine.execBbEventRecord s
  | .bbFreeze => Sys2Proof.Machine.execBbFreeze s
  | .bbFreezeComplete => Sys2Proof.Machine.execBbFreezeComplete s
  | .bbArm => Sys2Proof.Machine.execBbArm s
  | .bbSoft value => Sys2Proof.Machine.execBbSoft value s
  | .bbFlush => Sys2Proof.Machine.execBbFlush s
  | .weederUnit mem => Sys2Proof.Machine.execWeederUnit mem s
  | .pedResult c => Sys2Proof.Machine.execPedResult c s
  | .calPedWrite => Sys2Proof.Machine.execCalPedWrite s
  | .phaseMean => Sys2Proof.Machine.execPhaseMean s
  | .rotationPoint => Sys2Proof.Machine.execRotationPoint s
  | .rotationBatch => Sys2Proof.Machine.execRotationBatch s
  | .monitorFrameEnd => Sys2Proof.Machine.execMonitorFrameEnd s
  | .monitorFrameAbort => Sys2Proof.Machine.execMonitorFrameAbort s
  | .serviceEnable svc => Sys2Proof.Machine.execServiceEnable svc s
  | .serviceStop svc => Sys2Proof.Machine.execServiceStop svc s
  | .serviceStopComplete svc => Sys2Proof.Machine.execServiceStopComplete svc s
  | .pmcCounterWrite k data => Sys2Proof.Machine.execPmcCounterWrite k data s
  | .pmcClear => Sys2Proof.Machine.execPmcClear s
  | .harvestNow => Sys2Proof.Machine.execHarvestNow s
  | .harvestAt => Sys2Proof.Machine.execHarvestAt s
  | .harvestCancel => Sys2Proof.Machine.execHarvestCancel s
  | .harvestSnapshot => Sys2Proof.Machine.execHarvestSnapshot s
  | .harvestRecordDone => Sys2Proof.Machine.execHarvestRecordDone s
  | .sampleEnable => Sys2Proof.Machine.execSampleEnable s
  | .sampleStop => Sys2Proof.Machine.execSampleStop s
  | .sampleRecord n => Sys2Proof.Machine.execSampleRecord n s
  | .blockLockGained east => Sys2Proof.Machine.execBlockLockGained east s
  | .malformedMessage h kind => Sys2Proof.Machine.execMalformedMessage h kind s
  | .tdForceFall d => Sys2Proof.Machine.execTdForceFall d s

end Sys2Proof.Machine
end

