-- ==== Sys2Proof/Safety.lean ====
section
/-! DEFINITION. The words that claims about the block are stated in: a safe state, a command that completes, an instruction
that a slot issues, and what a command leaves as it was. -/

namespace Sys2Proof

/-- The invariant that every step keeps: the addressed memories are in canonical form, so that equal contents are equal
data. -/
def Safe (s : Machine.State) : Prop := Machine.memWf s.mem = true

/-- The command runs in a state: it answers a next state, and that state has a property. -/
def Completes (i : Instr) (s : Machine.State) (P : Machine.State → Prop) : Prop :=
  ∃ t, Machine.exec i s = .next t ∧ P t

/-- The block reports READY: the control port acts (01 R12, 13 R288). -/
def Ready (s : Machine.State) : Prop := s.chip.pwr.phase = .running

/-- A lifecycle change that is still to be written waits only through the start-up that its cold reset began, or while CORE has
lost its power there, and nothing is sealed then (12 R265, R266). -/
def LcChangeSafe (s : Machine.State) : Prop :=
  s.chip.pwr.newLc = none ∨ s.prot.isSealed = false ∧ (s.chip.pwr.phase = .starting ∨ s.chip.pwr.phase = .coreOff)

/-- Slot k of needle n is the one that issues, it holds `sl`, and `f` is what stands at its PC (04 R88, 05 R97, R98). -/
def Meets (s : Machine.State) (n : Fin 128) (k : Fin 8) (sl : Machine.Slot) (f : Machine.Fetched) : Prop :=
  s.chip.slot n k = some sl ∧ s.chip.issues s.env n k = true ∧ Machine.fetched s.env s.chip sl.live.pc = f

/-- Slot k of needle n is the one that issues, and it holds `sl` at an instruction. -/
def Issues (s : Machine.State) (n : Fin 128) (k : Fin 8) (sl : Machine.Slot) (i : Machine.WInstr) : Prop :=
  Meets s n k sl (.instr i)

/-- Every register but those listed reads as before. -/
def KeepsRegs (c d : Machine.Chip) (l : List Machine.Reg) : Prop :=
  ∀ r : Machine.Reg, (∀ q ∈ l, r.offset ≠ q.offset) → d.rd r = c.rd r

/-- Every register but those listed and the performance counters (16 R324) reads as before. -/
def KeepsButCounts (c d : Machine.Chip) (l : List Machine.Reg) : Prop :=
  ∀ r : Machine.Reg, (r.offset < 0x70000 ∨ 0x74000 ≤ r.offset) → (∀ q ∈ l, r.offset ≠ q.offset) → d.rd r = c.rd r

/-- Nothing outside the chip changes: the memories, the sealed tables and the waiting commands stand. -/
def KeepsOutside (s t : Machine.State) : Prop := t.mem = s.mem ∧ t.prot = s.prot ∧ t.pending = s.pending

/-- Of the chip, only registers change. -/
def OnlyRegs (c d : Machine.Chip) : Prop := d = { c with regs := d.regs }

/-- A register that a write changes by the access types of its fields alone (00 R6), and a read by its RC fields: it starts
no action, is under no lock of a running unit or of the boot seal, and stands in no needle's own domain. -/
def plainReg : Machine.Reg → Bool
  | .thCmd | .thDoorbell | .lkCmd | .xfFence _ | .fltCtl | .irqLnCfg _ | .otCtl | .otGeom | .decInj | .seamCfg | .seamSendh
  | .seamByp | .commit | .mpArb _ | .arbRq _ | .rlCfg _ | .rlBase _ | .ipCtl _ | .ipMap .. | .spCfg _ | .spDeepbase _
  | .spDeepcfg _ | .spCtl _ | .rstCtl | .clkNpll _ | .dbgMcmd | .pmcCtl | .hvCtl | .isCfg | .isRing | .pmcCfg _ | .pmcCnt _
  | .svcEn | .wdCfg | .wdRing | .monCfg | .monBase | .bbCtl | .bbSoft | .ndlCtl _ => false
  | .ndlSlot .. | .ndlSetCtl .. | .ndlSetDesc .. | .ndlSetSrc .. | .ndlSetCnt .. | .ndlCq .. => false
  | .seal | .pdCfg _ | .pdWin _ | .winBase _ | .winLimit _ | .winAttr _ | .lc => false
  | .seamRxq | .otFine | .calDsk _ => false
  | _ => true

/-- The value of a field x of register r, whose word was v, after a write of w (00 R6, R10). -/
def writtenField (r : Machine.Reg) (x : Machine.Fld × Machine.Acc) (v w : Word) : Nat :=
  match x.2 with
  | .rw => if Machine.accepts r x.1 (Machine.fget w x.1) then Machine.fget w x.1 else Machine.fget v x.1
  | .w1c => Machine.fget (v &&& ~~~w) x.1
  | _ => Machine.fget v x.1

/-- A bit of a register that lies in none of its fields (00 R8). -/
def reservedBit (r : Machine.Reg) (i : Nat) : Bool := r.fields.all fun x => decide (i < x.1.lo) || decide (x.1.hi < i)

/-- A thread's copy after an instruction that only advances its PC (05 R100). -/
def stepped (th : Machine.Thread) : Machine.Thread := { th with pc := (th.pc + 1) % 2 ^ 16 }

/-- A slot after the issue of an instruction i from it: its thread's copy is th, what i needs has landed, and what i writes
late is to come (04 R88, 05 R102). -/
def issuedSlot (sl : Machine.Slot) (i : Machine.WInstr) (th : Machine.Thread) : Machine.Slot :=
  { sl with pend := Machine.nextPend sl.pend i, live := th }

/-- A slot whose pending instruction a has its result, its thread's copy now th (05 R102). -/
def landedSlot (sl : Machine.Slot) (a : Machine.Act) (th : Machine.Thread) : Machine.Slot :=
  { sl with act := none, pend := sl.pend.filter fun r => !(Machine.Chip.pendingRes a).contains r, live := th }

/-- The record that a thread takes out of its slot after an instruction that only advances its PC: rotation's change of AFF
reaches it where AFIX is 0 (15 R317). -/
def leaving (sl : Machine.Slot) : Machine.Thread :=
  { stepped sl.live with aff := if sl.live.afix then sl.live.aff else (sl.live.aff + sl.rot) % 128 }

/-- The instruction buffer of needle n after an issue from slot k: the line used is the most recent (04 R89). -/
def lineUsed (c : Machine.Chip) (n k : Nat) : List Nat :=
  match c.slot n k with
  | some s => Machine.Chip.ibTouch (c.ndl n).ib (Machine.Chip.lineOf s.live.pc)
  | none => (c.ndl n).ib

/-- The words of the record of thread u have lost their error marks, for it is written back whole; no other word has
(15 R311). -/
def FreshRecord (c d : Machine.Chip) (u : Nat) : Prop :=
  ∀ a, let own := ((List.range 8).map (Machine.Chip.recordAt u)).contains a
    Machine.Tab.get false d.eccCe a = (!own && Machine.Tab.get false c.eccCe a) ∧
    Machine.Tab.get false d.eccUe a = (!own && Machine.Tab.get false c.eccUe a)

/-- Of the needles, only slot k of needle n changes, beside what an issue keeps: the slot that issued last, the line used, the
cycles that have passed of the other slots' branches, the slots able for certain, and the sampling tag (04 R88, R89, 16 R335). -/
def SlotBecomes (c d : Machine.Chip) (n k : Nat) (v : Option Machine.Slot) : Prop :=
  d.slot n k = v ∧ (∀ j, j ≠ k → d.slot n j = c.slot n j) ∧ (∀ m, m ≠ n → d.ndl m = c.ndl m) ∧
    d.ndl n = { c.ndl n with
      slots := (d.ndl n).slots, ib := lineUsed c n k, lastSlot := k, lfsr := (d.ndl n).lfsr, follow := (d.ndl n).follow
      gaps := (d.ndl n).gaps, sure := (d.ndl n).sure } ∧
    ∀ j, j < 8 → j ≠ k → (d.gapOf n j).2 = (c.gapOf n j).2 - ((c.gapOf n k).1 + 1)

/-- An instruction has issued from slot k of needle n and changed the slot only. -/
def IssuedOnly (s t : Machine.State) (n : Fin 128) (k : Fin 8) (sl : Machine.Slot) : Prop :=
  SlotBecomes s.chip t.chip n k (some sl) ∧ KeepsButCounts s.chip t.chip [.isStat] ∧
    t.chip = { s.chip with regs := t.chip.regs, needles := t.chip.needles } ∧ KeepsOutside s t

/-- An instruction has issued from slot k of needle n and changed the slot only; it is no branch that is taken. -/
def GoesOn (s t : Machine.State) (n : Fin 128) (k : Fin 8) (sl : Machine.Slot) : Prop :=
  IssuedOnly s t n k sl ∧ t.chip.gapOf n k = (0, 0)

/-- A branch has issued from slot k of needle n and been taken: it has changed the slot only, and the thread is unable to issue for
2 needle cycles (04 R88). -/
def Branches (s t : Machine.State) (n : Fin 128) (k : Fin 8) (sl : Machine.Slot) : Prop :=
  IssuedOnly s t n k sl ∧ t.chip.gapOf n k = (2, 2)

/-- A thread has left slot k of needle n, and its record in the store is th; nothing else changes. -/
def LeftOnly (s t : Machine.State) (n : Fin 128) (k : Fin 8) (u : Nat) (th : Machine.Thread) : Prop :=
  SlotBecomes s.chip t.chip n k none ∧ t.chip.thr u = th ∧ (∀ v, v ≠ u → t.chip.thr v = s.chip.thr v) ∧
    KeepsButCounts s.chip t.chip [.isStat] ∧
    FreshRecord s.chip t.chip u ∧
    t.chip = { s.chip with regs := t.chip.regs, needles := t.chip.needles, threads := t.chip.threads,
                           eccCe := t.chip.eccCe, eccUe := t.chip.eccUe } ∧ KeepsOutside s t

/-- No thread of the node holds a lock that its fault or kill would break. -/
def NoLocks (c : Machine.Chip) : Prop := c.locks = [] ∧ c.seam.ringLocks = [] ∧ c.seam.held = []

/-- The command of an ALU operation. -/
def aluCommand (op : Machine.AluOp) (n : Fin 128) (k : Fin 8) : Instr :=
  match op with
  | .add => .add n k
  | .sub => .sub n k
  | .and => .and n k
  | .or => .or n k
  | .xor => .xor n k
  | .shl => .shl n k
  | .shr => .shr n k
  | .cmpi => .cmpi n k

/-- The command of a transfer or in-flight instruction; NOP for every other instruction. -/
def xferCommand (i : Machine.WInstr) (n : Fin 128) (k : Fin 8) : Instr :=
  match i with
  | .move .. => .move n k
  | .movec .. => .movec n k
  | .fill .. => .fill n k
  | .compare .. => .compare n k
  | .patch .. => .patch n k
  | .expand .. => .expand n k
  | .reduce .. => .reduce n k
  | .pedsub .. => .pedsub n k
  | _ => .nop n k

/-- A burst x waits at port p, behind those that waited there, and at no other port anything changes (10 R220). -/
def Presented (c d : Machine.Chip) (p : Nat) (x : Machine.Burst) : Prop :=
  d.port p = { c.port p with waiting := (c.port p).waiting ++ [x] } ∧ (∀ q, q ≠ p → d.port q = c.port q) ∧
    d.backlog = c.backlog

/-- Requester r asks for nothing at port p: no burst of it waits there, is granted, or stands behind one that is (10 R220). -/
def NoneWaits (c : Machine.Chip) (p r : Nat) : Prop :=
  Machine.Chip.hasRequest (c.port p) r = false ∧ ∀ x ∈ c.backlog, x.1 = p → x.2.req ≠ r

/-- No mesh target domain is under PDREQ or forced down (13 R280, R281). -/
def AllUp (c : Machine.Chip) : Prop := c.pwr.tdReq = [] ∧ c.pwr.tdForce = []

/-- No fence is valid (06 R145). -/
def NoFence (c : Machine.Chip) : Prop := ∀ k, k < 64 → c.bit (.xfFence k) Machine.F.XfFence.VALID = false

/-- Orbit o is the first from `start` whose gap start lies at least GUARD crossings after the counter (12 R268). -/
def FirstSafeGap (c : Machine.Chip) (start o : Nat) : Prop :=
  start ≤ o ∧ (c.fld .commitCfg Machine.F.CommitCfg.GUARD : Int) ≤ Machine.dist c.olen (c.gapStart o) c.ctr ∧
    ∀ j, start ≤ j → j < o →
      Machine.dist c.olen (c.gapStart j) c.ctr < (c.fld .commitCfg Machine.F.CommitCfg.GUARD : Int)

/-- A saturating count of a field goes up by n. -/
def Counts (c d : Machine.Chip) (r : Machine.Reg) (f : Machine.Fld) (n : Nat) : Prop :=
  d.fld r f = min (c.fld r f + n) (2 ^ f.width - 1)

/-- Thread t has become READY with record th, at the tail of its class's ready queue on needle n; no other thread and no
other needle changes (04 R90). -/
def Readied (c d : Machine.Chip) (t n : Nat) (th : Machine.Thread) : Prop :=
  d.thr t = { th with st := .ready } ∧ (∀ u, u ≠ t → d.thr u = c.thr u) ∧
    d.ndl n = { c.ndl n with
      queues := (c.ndl n).queues.set th.cls (Machine.Chip.queueOf (c.ndl n) th.cls ++ [t]) } ∧
    ∀ m, m ≠ n → d.ndl m = c.ndl m

/-- A thread that becomes READY goes to its own needle (04 R95): it has no suspended transfer and its needle fills slots; no
needle waits to wake (13 R277). -/
def AtHome (c : Machine.Chip) (t : Nat) : Prop :=
  c.suspendedOn t = none ∧ (c.thr t).aff < 128 ∧ c.needleOn (c.thr t).aff = true ∧ c.pwr.wakeQ = []

/-- Nothing stands on the edge's agenda, and no schedule, wait, lock, decision, fence, commit or harvest can put a task
there at a slot other than the gap start. -/
def QuietEdges (s : Machine.State) : Prop :=
  s.chip.tb.agenda = [] ∧ s.chip.tb.setat = [] ∧ s.chip.threads = [] ∧ s.chip.locks = [] ∧ s.chip.seam.ringLocks = [] ∧
    s.chip.dec = [] ∧ s.chip.fences = [] ∧ s.chip.commitPending = false ∧ s.chip.hv.target = none

/-- The mesh interface acts: the block runs, or is in the quiesce of a warm reset (13 R284, R285). -/
def Live (s : Machine.State) : Prop := s.chip.pwr.phase = .running ∨ s.chip.pwr.phase = .quiesce

/-- Port p is between grants: nothing is granted there and no train holds it. -/
def BetweenGrants (c : Machine.Chip) (p : Nat) : Prop := (c.port p).granted = none ∧ (c.port p).holder = none

/-- Of the ports, only p changes, and it becomes q. -/
def PortBecomes (c d : Machine.Chip) (p : Nat) (q : Machine.Port) : Prop :=
  d.port p = q ∧ ∀ m, m ≠ p → d.port m = c.port m

/-- The level of a request in a round (10 R223). -/
def levelOf (c : Machine.Chip) (p : Nat) (x : Machine.Burst) : Nat :=
  4 * c.reqClass x - min x.wait (c.fld (.mpArb p) Machine.F.MpArb.AGECAP)

/-- How far a requester's number lies from ptr + 1 in rotation order (10 R223). -/
def turnOf (ptr r : Nat) : Nat := (r + 133 - (ptr + 1) % 133) % 133

/-- A request is forced: its class is at most 2 and its wait has reached the limit (10 R223). -/
def IsForced (c : Machine.Chip) (p : Nat) (x : Machine.Burst) : Prop :=
  c.unmasked x = true ∧ c.reqClass x ≤ 2 ∧ c.fld (.mpArb p) Machine.F.MpArb.WAIT_LIMIT ≤ x.wait

/-- Request w wins a round at port p (10 R221, R223): it is eligible, and it is the only forced request; or no request is
forced and it has the lowest level of the eligible ones, ties in rotation order. -/
def Wins (c : Machine.Chip) (p : Nat) (w : Machine.Burst) : Prop :=
  let l := (c.port p).waiting
  w ∈ l ∧ l.Pairwise (fun x y => x.req ≠ y.req) ∧ c.eligible p [] w = true ∧
    ((IsForced c p w ∧ ∀ x ∈ l, IsForced c p x → x = w) ∨
      ((∀ x ∈ l, ¬ IsForced c p x) ∧ ∀ x ∈ l, c.eligible p [] x = true → x ≠ w →
        levelOf c p w < levelOf c p x ∨
          (levelOf c p w = levelOf c p x ∧ turnOf (c.port p).ptr w.req < turnOf (c.port p).ptr x.req)))

/-- A burst's failure is on record (10 R210): the first in ERRAT, the status bit, and nothing else but the black box's
count of events dropped. Codes: 1 target, 2 decode, 3 forced power-down, 4 timeout. -/
def FailureNoted (c d : Machine.Chip) (p code : Nat) (b : Machine.Burst) (addr : Nat) : Prop :=
  let dir := if b.kind = .read then 0 else 1
  d.rd (.mpErrat p) = (if c.fld (.mpErrat p) Machine.F.MpErrat.CODE = 0 then
      BitVec.ofNat 64 (b.req % 256 * 2 ^ 56 + code * 2 ^ 53 + dir * 2 ^ 52 + addr / 64 * 64 % 2 ^ 48)
    else c.rd (.mpErrat p)) ∧
    d.bit (.mpStat p) (if code = 3 then Machine.F.MpStat.FORCED else if code = 4 then Machine.F.MpStat.TMO
      else Machine.F.MpStat.ERR) = true ∧
    KeepsButCounts c d [.mpErrat p, .mpStat p, .bbStat]

/-- The commands that can write pattern, map or spool memory: accesses of the CSR window, edges with their SETAT entries,
spool words, calibration, refills, and the resets that wipe. -/
def mayWriteMemory : Instr → Bool
  | .controlPortRequest .. | .registerWrite .. | .memoryWindowWrite .. | .bclkEdge | .setatEntryApply
  | .timebaseStopComplete | .resyncStep | .freeLoadStep | .spoolWordWrite _ | .calPedWrite | .deepRefillDone _
  | .rwrite .. | .debugWrite .. | .coldReset _ | .coreLossReset | .lifecycleChange .. => true
  | _ => false

/-- The node forwards one message on the eastward lanes, after those that it forwards already (11 R237). -/
def Forwards (c d : Machine.Chip) (ty : Nat) (h : SeamHead) (data : List Word) : Prop :=
  d.seam.fwd = c.seam.fwd ++ [{ ty := ty, h := h, data := data, orig := .node }]

/-- The node queues one message of its own, with its ID as SRC (11 R234). -/
def Sends (c d : Machine.Chip) (ty dest : Nat) (bc : Bool) (data : List Word) : Prop :=
  ∃ m : Machine.SMsg, d.seam.tx = c.seam.tx ++ [m] ∧ m.ty = ty ∧ m.h.src = BitVec.ofNat 12 c.nodeId ∧
    m.h.dest = BitVec.ofNat 12 dest ∧ m.h.bc = bc ∧ m.data = data

/-- Of the block, only the Seam node and the listed registers change, and what the black box takes of it. -/
def SeamOnly (s t : Machine.State) (l : List Machine.Reg) : Prop :=
  KeepsButCounts s.chip t.chip (.bbStat :: l) ∧
    t.chip = { s.chip with regs := t.chip.regs, seam := t.chip.seam, bb := t.chip.bb, free := t.chip.free } ∧ KeepsOutside s t

/-- A message from another node that this node acts on and, where it is a broadcast, forwards (11 R236, R237, R239): it is in
service, the type is of its ring version, and it is the addressee or the message is a broadcast. -/
def Arrives (c : Machine.Chip) (ty : Nat) (h : SeamHead) : Prop :=
  c.rstate = 5 ∧ (ty ∈ [0x12, 0x48, 0x49] → 3 ≤ c.fld .seamRing Machine.F.SeamRing.VER) ∧ h.src.toNat ≠ c.nodeId ∧
    ((h.bc = false ∧ h.dest.toNat = c.nodeId) ∨ (h.bc = true ∧ ty ∉ [0x20, 0x21, 0x40, 0x41, 0x42, 0x48, 0x49]))

/-- No thread waits for a Seam message: leaving SERVICE ends no wait (11 R249). -/
def NoAsks (c : Machine.Chip) : Prop := c.threads = [] ∧ c.seam.asks = []

/-- An offset lies in pattern, map or spool memory, and no word of the memories has an error mark (01 R21). -/
def CleanWord (s : Machine.State) (a : Nat) : Prop :=
  a % 8 = 0 ∧ ((0x400000 ≤ a ∧ a < 0x480000) ∨ (0x800000 ≤ a ∧ a < 0x900000) ∨ (0x2000000 ≤ a ∧ a < 0x2600000)) ∧
    s.chip.eccUe = [] ∧ s.chip.eccCe = [] ∧ s.chip.lanes = []

end Sys2Proof
end

