-- ==== Sys2Proof/Certificates/Slice0/Obligations.lean ====
section
/-! DEFINITION. The statements for the provers. Each formalises rules of the spec; what rests on a choice of the model
says so and names the log entry. -/

open Sys2Proof Sys2Proof.Machine

/-- A step with a command waiting is that command's effect on the state with the rest of the queue. -/
def Obligations.StepRunsFront : Prop :=
  ∀ (i : Instr) (rest : List Instr) (s : State),
    step { s with pending := i :: rest } = exec i { s with pending := rest }

/-- No command ends a run, and none touches the commands that wait behind it. On an empty queue a step is an idle tick,
which leaves the memories, the sealed tables and the queue alone. That a step on an empty queue is a tick of 10 ns is
the model's choice (log 3). -/
def Obligations.StepsNeverStop : Prop :=
  (∀ (i : Instr) (s : State), Completes i s fun t => t.pending = s.pending) ∧
  (∀ s : State, s.pending = [] → ∃ t, step s = .next t ∧ t.pending = [] ∧ t.mem = s.mem ∧ t.prot = s.prot)

/-- Frame: no other command changes a byte of memory. -/
def Obligations.MemoryFrame : Prop :=
  ∀ (i : Instr) (s : State), mayWriteMemory i = false → Completes i s fun t => t.mem = s.mem

/-- Every step keeps the memories in canonical form. -/
def Obligations.MemoryStaysCanonical : Prop :=
  ∀ s t : State, Safe s → step s = .next t → Safe t

/-- The machine after reset: the memories are in canonical form and hold only 0, as the wipe leaves them; every register
reads its Reset value; nothing waits; the block does not report READY. Clauses rest on log 19, DESIGN CHOICE; log 20,
DESIGN CHOICE; log 21, DESIGN CHOICE. -/
def Obligations.ResetState : Prop :=
  Safe State.reset ∧ (∀ a, Tab.get 0#8 State.reset.mem a = 0#8) ∧
    (∀ r : Reg, State.reset.chip.rd r = r.reset ∧ State.reset.prot.rd r = r.reset) ∧
    State.reset.pending = [] ∧ ¬ Ready State.reset ∧
    (∀ t, (State.reset.chip.thr t).st = .idle) ∧ (∀ n k, State.reset.chip.slot n k = none) ∧
    (∀ m, State.reset.chip.spEn m = .off) ∧ State.reset.chip.rstate = 0

/-- A write of all 8 bytes to a register whose 64 bits are all RW is read back by the next read, and the control port
answers OK to both; no memory byte changes. A write of a register by the REGISTER_WRITE command stores it, and changes
no other register. Accesses that the control port does not carry out: NRDY before READY, ERR off an 8-byte boundary, ERR
for a register write without all 8 byte enables. Nothing but the response changes. The access types of R6 and R10, over
every register that a write changes by its fields alone: an RW field takes the value written where it accepts it, the 1s
of a W1C field are cleared, and every other field and every reserved bit keeps its value, but that BP_HOL stays 1 while
the port's oldest word is blocked with READY 0 (R53). A read answers with what the RW, W1C and RC fields hold and with 0
in a WO field, and it clears the RC fields alone. Reserved bits are 0 after reset. -/
def Obligations.ControlPortAccesses : Prop :=
  (∀ (s : State) (r : Reg) (w : Word), Ready s →
    r ∈ [Reg.otLoad, .hvAt, .bbFrzen, .bbTypeen, .seamSendd0, .seamSendd1] ++ (List.range 8).map Reg.dbgMdata →
    Completes (.controlPortRequest true (BitVec.ofNat 26 r.offset) 255#8 w) s fun t =>
      t.chip.rd r = w ∧ KeepsRegs s.chip t.chip [r] ∧ t.mem = s.mem ∧ t.prot = s.prot ∧
      t.chip.cpRsp.getLast? = some (0#64, rspOk) ∧
      Completes (.controlPortRequest false (BitVec.ofNat 26 r.offset) 255#8 0#64) t fun u =>
        u.chip.cpRsp.getLast? = some (w, rspOk) ∧ u.chip.rd r = w ∧ u.mem = s.mem) ∧
  (∀ (s : State) (r : Reg) (w : Word), Ready s →
    r ∈ [Reg.otLoad, .hvAt, .bbFrzen, .bbTypeen, .seamSendd0, .seamSendd1] ++ (List.range 8).map Reg.dbgMdata →
    Completes (.registerWrite (BitVec.ofNat 26 r.offset) w) s fun t =>
      t.chip.rd r = w ∧ KeepsRegs s.chip t.chip [r] ∧ OnlyRegs s.chip t.chip ∧ KeepsOutside s t) ∧
  (∀ (s : State) (write : Bool) (a : BitVec 26) (be : BitVec 8) (w : Word),
    let answers (code : Nat) := Completes (.controlPortRequest write a be w) s fun t =>
      t = { s with chip := { s.chip with cpRsp := t.chip.cpRsp } } ∧
        (t.chip.cpRsp.getLast?.map (·.2)) = some code
    (¬ Ready s → answers rspNrdy) ∧
    (Ready s → a.toNat % 8 ≠ 0 → answers rspErr) ∧
    (Ready s → a.toNat % 8 = 0 → a.toNat < 0x400000 → write = true → be ≠ 255#8 → answers rspErr) ∧
    (Ready s → a.toNat % 8 = 0 → a.toNat < 0x400000 → Reg.ofOffset a.toNat = none → be = 255#8 → answers rspOk)) ∧
  ((∀ (s : State) (r : Reg) (w : Word), Ready s → Reg.ofOffset r.offset = some r → plainReg r = true →
    Completes (.registerWrite (BitVec.ofNat 26 r.offset) w) s fun t =>
      let held (x : Fld × Acc) := ∃ n, r = .ipStat n ∧ x.1 = F.IpStat.BP_HOL ∧ s.chip.quar n = false ∧
        16 ≤ (s.chip.ip n).fifo.length ∧ s.chip.headBlocked n = true
      (∀ x ∈ r.fields, held x → fget (t.chip.rd r) x.1 = 1) ∧
      (∀ x ∈ r.fields, ¬ held x → fget (t.chip.rd r) x.1 = writtenField r x (s.chip.rd r) w) ∧
      (∀ i, i < 64 → reservedBit r i = true → (t.chip.rd r).getLsbD i = (s.chip.rd r).getLsbD i) ∧
      KeepsRegs s.chip t.chip [r] ∧ OnlyRegs s.chip t.chip ∧ KeepsOutside s t) ∧
  (∀ (s : State) (r : Reg), Ready s → Reg.ofOffset r.offset = some r → plainReg r = true →
    Completes (.controlPortRequest false (BitVec.ofNat 26 r.offset) 255#8 0#64) s fun t =>
      (∃ w : Word, t.chip.cpRsp.getLast? = some (w, rspOk) ∧
        ∀ x ∈ r.fields, (x.2 = .wo → fget w x.1 = 0) ∧
          (x.2 = .rw ∨ x.2 = .w1c ∨ x.2 = .rc → fget w x.1 = fget (s.chip.rd r) x.1)) ∧
      (∀ x ∈ r.fields, fget (t.chip.rd r) x.1 = if x.2 = .rc then 0 else fget (s.chip.rd r) x.1) ∧
      (∀ i, i < 64 → reservedBit r i = true → (t.chip.rd r).getLsbD i = (s.chip.rd r).getLsbD i) ∧
      KeepsRegs s.chip t.chip [r] ∧ KeepsOutside s t) ∧
  (∀ (r : Reg) (i : Nat), i < 64 → reservedBit r i = true → r.reset.getLsbD i = false))

/-- A write of a memory window replaces the enabled bytes of the word and no other byte of memory, and completes with
OK; the reserved bits of the map entries stay 0 (R8). A read of a memory window answers the word with OK and changes no
byte; a word with an uncorrectable error answers ERR; a correctable error is answered corrected, with OK, and its mark
is gone. Writes of the memory windows that meet an error or a thread at work (R19, R81, R87): a write of some bytes of a
unit with an uncorrectable error is turned away with ERR and counted, and a write of all 8 heals it; a thread's record
takes no write, with OK and REC_BUSY, unless the thread is IDLE, HALTED or FAULT. That a thread at work is judged before
the word's error is the model's choice (log 91). The record's words (R80, R81, R92): writing word k and reading it back
gives the written bits of its fields, but KIND keeps its value where the encoding written is not listed; GEN, STATE and
the spare bits are not written. THREAD_RECORD_WRITE (R81): the record of a thread that is IDLE, HALTED or in FAULT takes
the word; that of any other thread is not written, and REC_BUSY is set. Clauses rest on log 141, DESIGN CHOICE. -/
def Obligations.MemoryWindows : Prop :=
  (∀ (s : State) (a : BitVec 26) (be : BitVec 8) (w : Word), Ready s → CleanWord s a.toNat →
    Completes (.memoryWindowWrite a be w) s fun t =>
      memWord t.mem a.toNat = mergeBytes (memWord s.mem a.toNat) w be.toNat &&&
        (if 0x800000 ≤ a.toNat ∧ a.toNat < 0x900000 then mapBits a.toNat else 0xFFFFFFFFFFFFFFFF#64) ∧
      (∀ x, (x < a.toNat ∨ a.toNat + 8 ≤ x) → Tab.get 0#8 t.mem x = Tab.get 0#8 s.mem x) ∧
      t.chip.cpRsp.getLast? = some (0#64, rspOk) ∧ t.prot = s.prot ∧ t.chip.regs = s.chip.regs) ∧
  (∀ (s : State) (a : BitVec 26), Ready s →
    (CleanWord s a.toNat → Completes (.memoryWindowRead a) s fun t =>
      t.chip.cpRsp.getLast? = some (memWord s.mem a.toNat, rspOk) ∧ t.mem = s.mem ∧ t.prot = s.prot ∧
      t.chip.regs = s.chip.regs) ∧
    (a.toNat % 8 = 0 → 0x400000 ≤ a.toNat → a.toNat < 0x480000 → Tab.get false s.chip.eccUe a.toNat = true →
      Completes (.memoryWindowRead a) s fun t =>
        (t.chip.cpRsp.getLast?.map (·.2)) = some rspErr ∧ t.mem = s.mem ∧ t.chip.bit .wdStat F.WdStat.UE = true) ∧
    (a.toNat % 8 = 0 → 0x400000 ≤ a.toNat → a.toNat < 0x480000 → Tab.get false s.chip.eccUe a.toNat = false →
      Tab.get false s.chip.eccCe a.toNat = true →
      Completes (.memoryWindowRead a) s fun t =>
        t.chip.cpRsp.getLast? = some (memWord s.mem a.toNat, rspOk) ∧ t.mem = s.mem ∧
        Tab.get false t.chip.eccCe a.toNat = false ∧ t.chip.bit .wdStat F.WdStat.CE = true)) ∧
  ((∀ (s : State) (a : BitVec 26) (be : BitVec 8) (w : Word), Ready s → a.toNat % 8 = 0 → 0x400000 ≤ a.toNat →
    a.toNat < 0x480000 → Tab.get false s.chip.eccUe a.toNat = true →
    (be ≠ 255#8 → Completes (.memoryWindowWrite a be w) s fun t =>
      (t.chip.cpRsp.getLast?.map (·.2)) = some rspErr ∧ t.mem = s.mem ∧ t.chip.eccUe = s.chip.eccUe ∧
      Counts s.chip t.chip .wdEcc F.WdEcc.PM_UE 1 ∧ t.chip.bit .wdStat F.WdStat.UE = true ∧
      KeepsRegs s.chip t.chip [.wdEcc, .wdStat, .bbStat]) ∧
    (be = 255#8 → Completes (.memoryWindowWrite a be w) s fun t =>
      t.chip.cpRsp.getLast? = some (0#64, rspOk) ∧ memWord t.mem a.toNat = w ∧
      Tab.get false t.chip.eccUe a.toNat = false ∧ Tab.get false t.chip.eccCe a.toNat = false ∧
      t.chip.regs = s.chip.regs)) ∧
  (∀ (s : State) (u k : Nat) (be : BitVec 8) (w : Word), Ready s → u < 2 ^ 18 → k < 8 →
    let a := 0x1000000 + u * 64 + k * 8
    let st := (s.chip.thr u).st
    (st ≠ .idle ∧ st ≠ .halted ∧ st ≠ .fault →
      Completes (.memoryWindowWrite (BitVec.ofNat 26 a) be w) s fun t =>
        t.chip.cpRsp.getLast? = some (0#64, rspOk) ∧ t.chip.bit .thStat F.ThStat.REC_BUSY = true ∧
        t.chip.threads = s.chip.threads ∧ KeepsRegs s.chip t.chip [.thStat] ∧ KeepsOutside s t) ∧
    (st = .idle ∨ st = .halted ∨ st = .fault → be = 255#8 →
      Completes (.memoryWindowWrite (BitVec.ofNat 26 a) be w) s fun t =>
        t.chip.cpRsp.getLast? = some (0#64, rspOk) ∧ t.chip.thr u = (s.chip.thr u).setWord k w ∧
        (∀ v, v ≠ u → t.chip.thr v = s.chip.thr v) ∧ Tab.get false t.chip.eccUe a = false ∧
        t.chip.regs = s.chip.regs ∧ KeepsOutside s t) ∧
    (st = .idle ∨ st = .halted ∨ st = .fault → be ≠ 255#8 → Tab.get false s.chip.eccUe a = true →
      Completes (.memoryWindowWrite (BitVec.ofNat 26 a) be w) s fun t =>
        (t.chip.cpRsp.getLast?.map (·.2)) = some rspErr ∧ t.chip.threads = s.chip.threads ∧
        t.chip.eccUe = s.chip.eccUe ∧ Counts s.chip t.chip .tsEcc F.TsEcc.UE_CNT 1 ∧
        t.chip.bit .thStat F.ThStat.TS_UE = true ∧ KeepsOutside s t))) ∧
  (∀ (th : Thread) (w : Word),
    (∀ k, 4 ≤ k → k < 8 → (th.setWord k w).word k = w) ∧
    fget ((th.setWord 0 w).word 0) ⟨39, 20⟩ = fget w ⟨39, 20⟩ ∧ fget ((th.setWord 0 w).word 0) ⟨15, 0⟩ = fget w ⟨15, 0⟩ ∧
    fget ((th.setWord 0 w).word 0) ⟨55, 40⟩ = th.gen % 2 ^ 16 ∧ (th.setWord 0 w).gen = th.gen ∧
    fget ((th.setWord 0 w).word 0) ⟨19, 16⟩ = th.st.code ∧
    (th.setWord 1 w).word 1 = BitVec.ofNat 64 (fget w ⟨45, 0⟩) ∧
    fget ((th.setWord 2 w).word 2) ⟨55, 32⟩ = fget w ⟨55, 32⟩ ∧ fget ((th.setWord 2 w).word 2) ⟨27, 0⟩ = fget w ⟨27, 0⟩ ∧
    fget ((th.setWord 2 w).word 2) ⟨63, 56⟩ = 0 ∧
    fget ((th.setWord 2 w).word 2) ⟨31, 28⟩ =
      (if fget w ⟨31, 28⟩ ∈ [0, 1, 2, 3, 4, 5, 6, 7, 8, 13, 14] then fget w ⟨31, 28⟩ else th.kind % 2 ^ 4) ∧
    (th.setWord 3 w).word 3 = BitVec.ofNat 64 (fget w ⟨49, 24⟩ * 2 ^ 24 + fget w ⟨23, 0⟩) ∧
    (∀ k, k < 8 → (th.setWord k w).st = th.st ∧ (th.setWord k w).gen = th.gen)) ∧
  (∀ (s : State) (u : Fin 262144) (k : Fin 8) (w : Word), Ready s →
    let th := s.chip.thr u
    ((th.st = .idle ∨ th.st = .halted ∨ th.st = .fault) → Completes (.threadRecordWrite u k 255#8 w) s fun t =>
      t.chip.thr u = th.setWord k w ∧ (∀ v, v ≠ u.val → t.chip.thr v = s.chip.thr v) ∧ t.chip.regs = s.chip.regs ∧
      Tab.get false t.chip.eccUe (Chip.recordAt u k) = false ∧ t.chip.needles = s.chip.needles ∧ KeepsOutside s t) ∧
    (th.st ≠ .idle → th.st ≠ .halted → th.st ≠ .fault → ∀ be, Completes (.threadRecordWrite u k be w) s fun t =>
      t.chip.bit .thStat F.ThStat.REC_BUSY = true ∧ KeepsRegs s.chip t.chip [.thStat] ∧ OnlyRegs s.chip t.chip ∧
      KeepsOutside s t))

/-- The crossing arithmetic of R26: n crossings after a crossing of an orbit of l slots is such a crossing, n crossings
away; and going back gives the crossing again. Crossing operands (R108): MODE 0 names the crossing with the given slot
and low orbit bits that lies nearest the counter, MODE 1 the crossing that many crossings ahead, and MODE 2 has no
operand for a thread that is not bound. -/
def Obligations.Crossings : Prop :=
  (∀ l x n : Nat, 0 < l → l ≤ 4096 → x % 4096 < l →
    advance l x n % 4096 < l ∧ dist l (advance l x n) x = n ∧ dist l x (advance l x n) = -n ∧
    retreat l (advance l x n) n = x ∧ dist l x x = 0 ∧ advance l x 0 = x) ∧
  (∀ (th : Thread) (l n ws rs imm : Nat), imm < 2 ^ 32 →
    let v := if rs = 1 then ((th.reg ws).toNat + imm) % 2 ^ 32 else imm
    (2 ^ 19 ≤ n / 4096 → n / 4096 + 2 ^ 19 < 2 ^ 52 →
      ∃ x, crossingOperand th l n ws 0 rs imm = some x ∧ x % 4096 = v % 4096 ∧ x / 4096 % 2 ^ 20 = v / 4096 ∧
        n / 4096 ≤ x / 4096 + 2 ^ 19 ∧ x / 4096 < n / 4096 + 2 ^ 19) ∧
    (0 < l → l ≤ 4096 → n % 4096 < l →
      ∃ x, crossingOperand th l n ws 1 rs imm = some x ∧ dist l x n = v ∧ x % 4096 < l) ∧
    (th.bv = false → crossingOperand th l n ws 2 rs imm = none))

/-- The beam clock lost, present again, and measured (R23, R43): a loss holds the counter, enters NOCLK with its flag
and clears MEAS; a return enters STOPPED, HOLDOVER or FREE, in ring mode HOLDOVER on the reference too (log 107,
DEDUCED); a measure stores the period. Running and stopping (R29): RUN starts in FREE, or in ACQUIRE in ring mode; a
stop is pending until the end of the orbit, but complete at once in ACQUIRE and NOCLK; MODE changes only while RUN is
OFF, and otherwise GEOM_LOCKED is set. Orbit starts without a marker (R43): MISSED counts them, a node in LOCKED, DRIFT
or MISALIGNED enters HOLDOVER, and HOLD_ORBITS of them make a node in HOLDOVER LOST, with ALIGN_LOST. The counter
stands. That the count stands at its top with one more orbit held beside it, and that DRIFT and MISALIGNED leave so, are
readings of the model (logs 17, 88). Clauses rest on log 14, DEDUCED. -/
def Obligations.ClockAndRun : Prop :=
  ((∀ s : State, coreUp s.chip = true → s.chip.tb.present = true → s.chip.alignSt ≠ 8 →
    Completes .bclkLost s fun t =>
      t.chip.tb.present = false ∧ t.chip.alignSt = 8 ∧ t.chip.bit .otStat F.OtStat.BCLK_LOST = true ∧
      t.chip.fld .otBclk F.OtBclk.MEAS = 0 ∧ t.chip.ctr = s.chip.ctr ∧
      t.chip.runEn = s.chip.runEn.complete true ∧ KeepsOutside s t) ∧
  (∀ s : State, coreUp s.chip = true → s.chip.tb.present = false →
    Completes .bclkPresent s fun t =>
      t.chip.tb.present = true ∧
      t.chip.alignSt = (if s.chip.runEn = .off then 0 else if s.chip.ringMode then 4 else 1) ∧
      t.chip.ctr = s.chip.ctr ∧ t.chip.runEn = s.chip.runEn ∧ KeepsOutside s t) ∧
  (∀ (s : State) (p : BitVec 16), coreUp s.chip = true → s.chip.tb.present = true →
    Completes (.bclkMeasure p) s fun t =>
      t.chip.fld .otBclk F.OtBclk.MEAS = p.toNat ∧ t.chip.fld .otBclk F.OtBclk.NOM = s.chip.fld .otBclk F.OtBclk.NOM ∧
      KeepsRegs s.chip t.chip [.otBclk, .otStat] ∧ OnlyRegs s.chip t.chip ∧ KeepsOutside s t)) ∧
  ((∀ s : State, Ready s → s.chip.runEn = .off →
    Completes .timebaseRun s fun t =>
      t.chip.runEn = .running ∧ t.chip.ctr = s.chip.ctr ∧
      (s.chip.tb.present = true → t.chip.alignSt = if s.chip.ringMode then 2 else 1) ∧
      (s.chip.tb.present = false → t.chip.alignSt = s.chip.alignSt) ∧ KeepsOutside s t) ∧
  (∀ s : State, Ready s → s.chip.runEn = .running → s.chip.alignSt ≠ 2 → s.chip.alignSt ≠ 8 →
    Completes .timebaseStop s fun t =>
      t.chip.runEn = .stopping ∧ t.chip.alignSt = s.chip.alignSt ∧ KeepsRegs s.chip t.chip [.otCtl] ∧
      OnlyRegs s.chip t.chip ∧ KeepsOutside s t) ∧
  (∀ s : State, Ready s → s.chip.runEn = .running → (s.chip.alignSt = 2 ∨ s.chip.alignSt = 8) →
    Completes .timebaseStop s fun t => t.chip.runEn = .off ∧ t.chip.ctr = s.chip.ctr ∧ KeepsOutside s t) ∧
  (∀ (s : State) (m : Fin 2), Ready s → s.chip.runEn = .off →
    Completes (.timebaseModeWrite m) s fun t =>
      t.chip.fld .otCtl F.OtCtl.MODE = m ∧ t.chip.runEn = .off ∧ KeepsRegs s.chip t.chip [.otCtl] ∧
      OnlyRegs s.chip t.chip ∧ KeepsOutside s t) ∧
  (∀ (s : State) (m : Fin 2), Ready s → s.chip.runEn ≠ .off → s.chip.fld .otCtl F.OtCtl.MODE ≠ m →
    Completes (.timebaseModeWrite m) s fun t =>
      t.chip.bit .otStat F.OtStat.GEOM_LOCKED = true ∧ KeepsRegs s.chip t.chip [.otStat] ∧ OnlyRegs s.chip t.chip ∧
      KeepsOutside s t)) ∧
  ((∀ s : State, s.chip.ringMode = true → coreUp s.chip = true → s.chip.isRef = false → 3 ≤ s.chip.alignSt →
    s.chip.alignSt ≤ 7 → Completes .markerMissed s fun t =>
      Counts s.chip t.chip .otAlign F.OtAlign.MISSED 1 ∧
      t.chip.alignSt = (if s.chip.alignSt = 7 then 7 else 4) ∧ t.chip.ctr = s.chip.ctr ∧
      KeepsRegs s.chip t.chip [.otAlign, .calPhase] ∧ KeepsOutside s t) ∧
  (∀ s : State, s.chip.isRef = true → Completes .markerMissed s fun t => t = s) ∧
  (∀ s : State, coreUp s.chip = true → s.chip.alignSt = 4 →
    s.chip.fld .otAlign F.OtAlign.MISSED + b2n s.chip.tb.missedOver < s.chip.fld .otAlignCfg F.OtAlignCfg.HOLD_ORBITS + 1 →
    Completes .holdoverExpire s fun t => t = s) ∧
  (∀ s : State, coreUp s.chip = true → s.chip.alignSt = 4 →
    s.chip.fld .otAlignCfg F.OtAlignCfg.HOLD_ORBITS + 1 ≤
      s.chip.fld .otAlign F.OtAlign.MISSED + b2n s.chip.tb.missedOver →
    Completes .holdoverExpire s fun t =>
      t.chip.alignSt = 7 ∧ t.chip.bit .otStat F.OtStat.ALIGN_LOST = true ∧ t.chip.ctr = s.chip.ctr ∧
      KeepsRegs s.chip t.chip [.otAlign, .otStat, .calPhase, .bbStat] ∧ KeepsOutside s t))

/-- The geometry (R30): a valid write while the timebase is OFF takes all three fields; while it is not OFF the write
sets GEOM_LOCKED, and with a bad L or G it sets GEOM_BAD, and no field changes. A change of L clears the decision
record. LOAD_GO and RESYNC (R45, R48): in STOPPED a load takes the counter at once and keeps the value replaced in
STEP_FROM; in FREE it waits for the next edge; a bad slot, or any other state, sets LOAD_IGNORED and loads nothing.
RESYNC arms in ring mode and does nothing in local mode. -/
def Obligations.GeometryAndLoads : Prop :=
  ((∀ (s : State) (w : Word), Ready s → s.chip.runEn = .off → 15 ≤ fget w F.OtGeom.OLEN → 0 < fget w F.OtGeom.GAP →
    fget w F.OtGeom.GAP ≤ fget w F.OtGeom.OLEN →
    Completes (.otGeomWrite w) s fun t =>
      t.chip.fld .otGeom F.OtGeom.OLEN = fget w F.OtGeom.OLEN ∧ t.chip.fld .otGeom F.OtGeom.GAP = fget w F.OtGeom.GAP ∧
      t.chip.fld .otGeom F.OtGeom.DLAT = fget w F.OtGeom.DLAT ∧
      (s.chip.fld .otGeom F.OtGeom.OLEN ≠ fget w F.OtGeom.OLEN → t.chip.dec = []) ∧
      (s.chip.fld .otGeom F.OtGeom.OLEN = fget w F.OtGeom.OLEN → t.chip.dec = s.chip.dec) ∧ KeepsOutside s t) ∧
  (∀ (s : State) (w : Word), Ready s → s.chip.runEn ≠ .off →
    Completes (.otGeomWrite w) s fun t =>
      t.chip.bit .otStat F.OtStat.GEOM_LOCKED = true ∧ KeepsRegs s.chip t.chip [.otStat] ∧ OnlyRegs s.chip t.chip) ∧
  (∀ (s : State) (w : Word), Ready s → s.chip.runEn = .off →
    (fget w F.OtGeom.OLEN < 15 ∨ fget w F.OtGeom.GAP = 0 ∨ fget w F.OtGeom.OLEN < fget w F.OtGeom.GAP) →
    Completes (.otGeomWrite w) s fun t =>
      t.chip.bit .otStat F.OtStat.GEOM_BAD = true ∧ KeepsRegs s.chip t.chip [.otStat] ∧ OnlyRegs s.chip t.chip)) ∧
  ((∀ s : State, Ready s → s.chip.alignSt = 0 → (s.chip.rd .otLoad).toNat % 4096 < s.chip.olen →
    Completes .loadGo s fun t =>
      t.chip.rd .otXing = s.chip.rd .otLoad ∧ t.chip.rd .otStepFrom = s.chip.rd .otXing ∧
      KeepsRegs s.chip t.chip [.otXing, .otStepFrom] ∧ KeepsOutside s t) ∧
  (∀ s : State, Ready s → s.chip.alignSt = 1 → (s.chip.rd .otLoad).toNat % 4096 < s.chip.olen →
    Completes .loadGo s fun t =>
      t.chip.tb.freeLoad = some (s.chip.rd .otLoad).toNat ∧ t.chip.regs = s.chip.regs ∧ KeepsOutside s t) ∧
  (∀ s : State, Ready s →
    (s.chip.olen ≤ (s.chip.rd .otLoad).toNat % 4096 ∨ (s.chip.alignSt ≠ 0 ∧ s.chip.alignSt ≠ 1)) →
    Completes .loadGo s fun t =>
      t.chip.bit .otStat F.OtStat.LOAD_IGNORED = true ∧ KeepsRegs s.chip t.chip [.otStat] ∧ OnlyRegs s.chip t.chip) ∧
  (∀ s : State, Ready s → s.chip.ringMode = true →
    Completes .resyncArm s fun t => t.chip.tb.resync = true ∧ t.chip.regs = s.chip.regs ∧ KeepsOutside s t) ∧
  (∀ s : State, Ready s → s.chip.ringMode = false → Completes .resyncArm s fun t => t = s))

/-- A beam-clock edge advances the counter by one crossing (R24, R28, R35): within the orbit; to slot 0 of the next
orbit, which DXW_OT_SHADOW takes; and past the last crossing to 0, with WRAP. An edge within the orbit puts every SETAT
entry, WAITX wait and lease that it reaches on the agenda, and no WAITX wait with a later target. Memory and the sealed
tables stand. Clauses rest on log 13, DEDUCED; log 24, DEDUCED. -/
def Obligations.EdgeAdvances : Prop :=
  ∀ s : State, (Ready s ∨ s.chip.pwr.phase = .quiesce) → s.chip.tb.present = true → s.chip.tb.agenda = [] →
    s.chip.counting = true → s.chip.tb.opening = false → s.chip.tb.freeLoad = none → s.chip.tb.resync = false →
    s.chip.runEn = .running →
    (s.chip.ctr % 4096 + 1 < s.chip.olen → Completes .bclkEdge s fun t =>
      t.chip.ctr = s.chip.ctr + 1 ∧ t.chip.alignSt = s.chip.alignSt ∧ t.mem = s.mem ∧ t.prot = s.prot ∧
      t.chip.tb.setat = s.chip.tb.setat ∧ t.chip.rd .otGeom = s.chip.rd .otGeom ∧
      t.chip.rd .otShadow = s.chip.rd .otShadow ∧
      (∀ e ∈ s.chip.tb.setat, e.target ≤ s.chip.ctr + 1 → EdgeTask.setat e ∈ t.chip.tb.agenda) ∧
      (∀ p ∈ s.chip.threads, p.2.st = .waiting → p.2.kind = kXing → p.2.target ≤ s.chip.ctr + 1 →
        EdgeTask.wake p.1 p.2.target ∈ t.chip.tb.agenda) ∧
      (∀ u x, EdgeTask.wake u x ∈ t.chip.tb.agenda → x ≤ s.chip.ctr + 1) ∧
      (∀ p ∈ s.chip.locks, p.2.st = .held → p.2.leaseEnd ≤ s.chip.ctr + 1 →
        EdgeTask.lease p.1 p.2.leaseEnd ∈ t.chip.tb.agenda)) ∧
    (s.chip.olen ≤ s.chip.ctr % 4096 + 1 → s.chip.ctr / 4096 + 1 < 2 ^ 52 → Completes .bclkEdge s fun t =>
      t.chip.ctr = (s.chip.ctr / 4096 + 1) * 4096 ∧ t.chip.rd .otShadow = t.chip.rd .otXing ∧
      t.chip.alignSt = s.chip.alignSt ∧ t.mem = s.mem ∧ t.prot = s.prot) ∧
    (s.chip.olen ≤ s.chip.ctr % 4096 + 1 → s.chip.ctr / 4096 + 1 = 2 ^ 52 → QuietEdges s → s.chip.gap < s.chip.olen →
      Completes .bclkEdge s fun t =>
        t.chip.ctr = 0 ∧ t.chip.bit .otStat F.OtStat.WRAP = true ∧ t.mem = s.mem ∧ t.prot = s.prot)

/-- The edges that step the counter or end its run, where nothing is due at the value they reach: a load in FREE (R48)
and a resync (R45) give the counter its new value and keep the value replaced in DXW_OT_STEP_FROM with STEP set; a
resync of OFFSET 0 only disarms; an advance past the last orbit goes on from orbit 0, with STEP set (log 105, DESIGN
CHOICE); the end of the orbit of a stopping timebase stops it, or starts it again (R29). -/
def Obligations.EdgeSteps : Prop :=
  ∀ s : State, Ready s → s.chip.tb.present = true → QuietEdges s → s.chip.gap < s.chip.olen →
    (∀ v : Nat, s.chip.alignSt = 1 → s.chip.tb.freeLoad = some v → v < 2 ^ 64 → v ≠ s.chip.nextCount.1 →
      s.chip.nextCount.2 = false → v % 4096 ≠ s.chip.olen - s.chip.gap → s.chip.runEn = .running →
      Completes .freeLoadStep s fun t =>
        t.chip.ctr = v ∧ (t.chip.rd .otStepFrom).toNat = s.chip.nextCount.1 ∧
        t.chip.bit .otStat F.OtStat.STEP = true ∧ t.chip.tb.freeLoad = none ∧ t.chip.alignSt = 1 ∧ KeepsOutside s t) ∧
    (∀ v : Nat, 3 ≤ s.chip.alignSt → s.chip.alignSt ≤ 7 → s.chip.tb.freeLoad = none →
      s.chip.resyncNow s.chip.nextCount.1 = true → s.chip.nextCount.2 = false → s.chip.otOffset ≠ 0 →
      v = s.chip.shiftX s.chip.nextCount.1 s.chip.otOffset → v < 2 ^ 64 → v % 4096 ≠ s.chip.olen - s.chip.gap →
      s.chip.runEn = .running →
      Completes .resyncStep s fun t =>
        t.chip.ctr = v ∧ (t.chip.rd .otStepFrom).toNat = s.chip.nextCount.1 ∧
        t.chip.bit .otStat F.OtStat.STEP = true ∧ t.chip.tb.resync = false ∧ KeepsOutside s t) ∧
    (3 ≤ s.chip.alignSt → s.chip.alignSt ≤ 7 → s.chip.tb.freeLoad = none → s.chip.tb.opening = false →
      s.chip.resyncNow s.chip.nextCount.1 = true → s.chip.otOffset = 0 →
      s.chip.nextCount.2 = false → s.chip.runEn = .running →
      Completes .resyncStep s fun t =>
        t.chip.ctr = s.chip.nextCount.1 ∧ t.chip.tb.resync = false ∧
        t.chip.rd .otStepFrom = s.chip.rd .otStepFrom ∧ t.chip.bit .otStat F.OtStat.STEP = s.chip.bit .otStat F.OtStat.STEP ∧
        KeepsOutside s t) ∧
    (s.chip.counting = true → s.chip.tb.freeLoad = none → s.chip.tb.resync = false →
      s.chip.olen ≤ s.chip.ctr % 4096 + 1 → s.chip.ctr / 4096 + 1 < 2 ^ 52 →
      (s.chip.runEn = .stopping ∨ s.chip.runEn = .restart) →
      Completes .timebaseStopComplete s fun t =>
        t.chip.ctr = (s.chip.ctr / 4096 + 1) * 4096 ∧ t.chip.rd .otShadow = t.chip.rd .otXing ∧
        t.chip.runEn = s.chip.runEn.complete true ∧
        t.chip.alignSt = (if s.chip.runEn = .stopping then 0 else if s.chip.ringMode then 2 else 1) ∧ KeepsOutside s t)

/-- SETAT_ENTRY_APPLY (R34, R35): the first entry on the agenda leaves the schedule and lands as a write of all 8 bytes,
in map memory, where a reserved bit stays 0 (R8), or in a register; no other byte of memory, or no memory and no other
register, changes. XING_WAIT_WAKE (R35, R40, R92, R110): the first waiting thread on the agenda has its wait completed:
bound to the crossing it waited for, with success reported, it becomes READY on its needle. A thread that waits for
another crossing by then stays as it is. LOCK_LEASE_END (R119): a HELD lock whose lease the edge has reached becomes
BROKEN, with EXPIRED; with no thread waiting for it, it stays BROKEN, and no other lock changes. DECISION_MISSING
(R188): an OPEN entry past its declaration point becomes MISSING, keeping its hint, and is counted. Clauses rest on log
9, DEDUCED; log 13, DEDUCED; log 12, DEDUCED. -/
def Obligations.EdgeTasks : Prop :=
  (∀ (s : State) (e : SetatEntry) (rest : List EdgeTask), Ready s → s.chip.tb.agenda = .setat e :: rest →
    (∀ u ∈ rest, 1 ≤ Chip.rank u) → e ∈ s.chip.tb.setat →
    (e.off % 8 = 0 → 0x800000 ≤ e.off → e.off < 0x900000 → Completes .setatEntryApply s fun t =>
      memWord t.mem e.off = e.value &&& mapBits e.off ∧
      (∀ x, (x < e.off ∨ e.off + 8 ≤ x) → Tab.get 0#8 t.mem x = Tab.get 0#8 s.mem x) ∧
      t.chip.tb.setat = s.chip.tb.setat.erase e ∧ t.chip.tb.agenda = rest ∧ t.prot = s.prot ∧ t.pending = s.pending ∧
      t.chip.regs = s.chip.regs) ∧
    (∀ r ∈ [Reg.otLoad, .hvAt, .bbFrzen, .bbTypeen, .seamSendd0, .seamSendd1], e.off = r.offset →
      Completes .setatEntryApply s fun t =>
        t.chip.rd r = e.value ∧ KeepsRegs s.chip t.chip [r] ∧ t.chip.tb.setat = s.chip.tb.setat.erase e ∧
        t.chip.tb.agenda = rest ∧ KeepsOutside s t)) ∧
  (∀ (s : State) (u : Fin 262144) (x : Nat) (rest : List EdgeTask), coreUp s.chip = true →
    s.chip.tb.agenda = .wake u.val x :: rest → (∀ y ∈ rest, 2 ≤ Chip.rank y) →
    ((s.chip.thr u).target ≠ x → Completes (.xingWaitWake u) s fun t =>
      t = { s with chip := { s.chip with tb := { s.chip.tb with agenda := rest } } }) ∧
    ((s.chip.thr u).st = .waiting → (s.chip.thr u).kind = kXing → (s.chip.thr u).target = x → AtHome s.chip u →
    Completes (.xingWaitWake u) s fun t =>
      let th := s.chip.thr u
      Readied s.chip t.chip u th.aff
        { th with bv := true, bxing := th.arg % 2 ^ 24, fF := false, fZ := true, kind := kNone, arg := 0 } ∧
      t.chip.tb = { s.chip.tb with agenda := rest } ∧ KeepsOutside s t ∧
      KeepsButCounts s.chip t.chip [.ndlStat th.aff] ∧
      t.chip = { s.chip with regs := t.chip.regs, threads := t.chip.threads, needles := t.chip.needles, tb := t.chip.tb,
                             pwr := t.chip.pwr })) ∧
  (∀ (s : State) (l : BitVec 16) (fin : Nat) (rest : List EdgeTask), coreUp s.chip = true → l.toNat < 1024 →
    s.chip.tb.agenda = .lease l.toNat fin :: rest → (∀ u ∈ rest, 3 ≤ Chip.rank u) →
    (s.chip.lockAt l.toNat).st = .held → (s.chip.lockAt l.toNat).leaseEnd = fin →
    s.chip.lockWaiters l.toNat = [] →
    Completes (.lockLeaseEnd l) s fun t =>
      t.chip.lockAt l.toNat = { s.chip.lockAt l.toNat with st := .broken, leaseEnd := 0 } ∧
      (∀ m, m < 1024 → m ≠ l.toNat → t.chip.lockAt m = s.chip.lockAt m) ∧
      t.chip.bit .lkStat F.LkStat.EXPIRED = true ∧ KeepsRegs s.chip t.chip [.lkStat] ∧
      t.chip = { s.chip with regs := t.chip.regs, locks := t.chip.locks, tb := { s.chip.tb with agenda := rest } } ∧
      KeepsOutside s t) ∧
  (∀ (s : State) (k : Fin 1024) (d : DecEntry) (rest : List EdgeTask), coreUp s.chip = true →
    s.chip.tb.agenda = .missing k.val :: rest →
    (∀ u ∈ rest, 3 ≤ Chip.rank u) → Tab.get DecEntry.unused s.chip.dec k = d → d.st = .opened →
    s.chip.decPos d.x = k.val → s.chip.waiters kDec (· == d.x % 2 ^ 24) = [] →
    Completes (.decisionMissing k) s fun t =>
      Tab.get DecEntry.unused t.chip.dec k =
        { st := .missing, x := d.x, word := 0x80000000 + d.word % 2 ^ 28 / 2 ^ 26 * 2 ^ 26 } ∧
      (∀ j, j ≠ k.val → Tab.get DecEntry.unused t.chip.dec j = Tab.get DecEntry.unused s.chip.dec j) ∧
      Counts s.chip t.chip .decCnt1 F.DecCnt1.MISSING 1 ∧
      t.chip.bit .decStat F.DecStat.MISSING = true ∧ KeepsRegs s.chip t.chip [.decCnt1, .decStat, .bbStat] ∧
      t.chip.tb = { s.chip.tb with agenda := rest } ∧ KeepsOutside s t)

/-- CONFIG_SWAP (R267): the other configuration set becomes active, the pending commit is done and counted, and no data
moves. CONFIG_COMMIT (R268, R269): a commit becomes pending for the first orbit, from the named one or the counter's
own, whose gap start lies at least GUARD crossings ahead, with SLIPPED where that is not the orbit named; while one is
pending, a commit for the same orbit is merged and counted, and one for another is refused. COMMIT_CANCEL (R269): a
pending commit is removed only while its gap start lies at least GUARD crossings ahead; later it stays, with
CANCEL_LATE; with none pending nothing changes. -/
def Obligations.ConfigurationSets : Prop :=
  (∀ (s : State) (rest : List EdgeTask), coreUp s.chip = true → s.chip.tb.agenda = .swap :: rest →
    s.chip.commitPending = true →
    Completes .configSwap s fun t =>
      t.chip.activeSet = 1 - s.chip.activeSet ∧ t.chip.commitPending = false ∧
      t.chip.fld .cfgset F.Cfgset.TARGET = s.chip.fld .cfgset F.Cfgset.TARGET ∧
      Counts s.chip t.chip .commitStat F.CommitStat.SWAPS 1 ∧
      t.chip.tb = { s.chip.tb with agenda := rest } ∧ KeepsOutside s t ∧
      KeepsRegs s.chip t.chip [.cfgset, .commitStat, .bbStat] ∧
      t.chip = { s.chip with regs := t.chip.regs, tb := t.chip.tb, free := t.chip.free, bb := t.chip.bb }) ∧
  (∀ (s : State) (named : Bool) (orbit : BitVec 52) (o : Nat), Ready s → 0 < s.chip.gap → s.chip.gap < s.chip.olen →
    s.chip.ctr % 4096 < s.chip.olen → s.chip.ctr / 4096 + 4097 < 2 ^ 52 →
    FirstSafeGap s.chip (if named then orbit.toNat else s.chip.ctr / 4096) o →
    let slips := named && decide (o ≠ orbit.toNat)
    (s.chip.commitPending = false → Completes (.configCommit named orbit) s fun t =>
      t.chip.commitPending = true ∧ t.chip.fld .cfgset F.Cfgset.TARGET = o ∧ t.chip.fld .cfgset F.Cfgset.SRC = 0 ∧
      t.chip.activeSet = s.chip.activeSet ∧
      t.chip.bit .commitStat F.CommitStat.SLIPPED = (s.chip.bit .commitStat F.CommitStat.SLIPPED || slips) ∧
      t.chip.commitOrbit = o ∧ KeepsRegs s.chip t.chip [.cfgset, .commitStat] ∧
      t.chip = { s.chip with regs := t.chip.regs, tb := { s.chip.tb with commitPast := false } } ∧ KeepsOutside s t) ∧
    (s.chip.commitPending = true → s.chip.commitOrbit = o →
      Completes (.configCommit named orbit) s fun t =>
        t.chip.rd .cfgset = s.chip.rd .cfgset ∧ Counts s.chip t.chip .commitStat F.CommitStat.MERGED 1 ∧
        t.chip.bit .commitStat F.CommitStat.SLIPPED = (s.chip.bit .commitStat F.CommitStat.SLIPPED || slips) ∧
        KeepsRegs s.chip t.chip [.commitStat] ∧ OnlyRegs s.chip t.chip ∧ KeepsOutside s t) ∧
    (s.chip.commitPending = true → s.chip.commitOrbit ≠ o →
      Completes (.configCommit named orbit) s fun t =>
        t.chip.rd .cfgset = s.chip.rd .cfgset ∧ t.chip.bit .commitStat F.CommitStat.REFUSED = true ∧
        t.chip.bit .commitStat F.CommitStat.SLIPPED = s.chip.bit .commitStat F.CommitStat.SLIPPED ∧
        KeepsRegs s.chip t.chip [.commitStat] ∧ OnlyRegs s.chip t.chip ∧ KeepsOutside s t)) ∧
  (∀ s : State, Ready s →
    (s.chip.commitPending = true →
      (s.chip.fld .commitCfg F.CommitCfg.GUARD : Int) ≤ dist s.chip.olen s.chip.commitAt s.chip.ctr →
      Completes .commitCancel s fun t =>
        t.chip.commitPending = false ∧ t.chip.activeSet = s.chip.activeSet ∧
        t.chip.fld .cfgset F.Cfgset.TARGET = s.chip.fld .cfgset F.Cfgset.TARGET ∧
        KeepsRegs s.chip t.chip [.cfgset] ∧ KeepsOutside s t ∧
        t.chip = { s.chip with
          regs := t.chip.regs, tb := { s.chip.tb with agenda := s.chip.tb.agenda.erase .swap } }) ∧
    (s.chip.commitPending = true →
      dist s.chip.olen s.chip.commitAt s.chip.ctr < (s.chip.fld .commitCfg F.CommitCfg.GUARD : Int) →
      Completes .commitCancel s fun t =>
        t.chip.rd .cfgset = s.chip.rd .cfgset ∧ t.chip.bit .commitStat F.CommitStat.CANCEL_LATE = true ∧
        KeepsRegs s.chip t.chip [.commitStat] ∧ OnlyRegs s.chip t.chip ∧ KeepsOutside s t) ∧
    (s.chip.commitPending = false → Completes .commitCancel s fun t => t = s))

/-- INGEST_BEAT (R49 to R54), port by port: the first beat of a packet, mapped to a spool that is not OFF, and each
further beat of the packet enter the crossing FIFO; an unmapped beat, a beat mapped to a spool that is OFF, a beat
outside any packet and a beat in quarantine are dropped and counted; a full FIFO holds the beat back. POISON_IN and the
counts of a dropped beat rest on log 37. No other port, spool or thread changes. A port's clock and quarantine (R54,
R57): a clock found good raises CLK_OK with an empty FIFO, and words that it still holds are dropped uncounted (log 99,
DESIGN CHOICE); a clock lost lowers it, sets CLK_LOST and puts the port into quarantine, and EN stays as it is; a
release tick takes the lowest running port with a good clock out of quarantine, and no other. Enabling and stopping a
port (R54, R271, R341): an enable makes an OFF port RUNNING; a stop takes effect at once between packets and at the
packet's end otherwise, the words in the FIFO still leaving; it completes when the FIFO is empty, or at once while the
clock is lost (R57). INGEST_MAP_WRITE (R52): an entry takes its two fields, unless another VALID entry names the same
spool: then nothing is written and MAP_CONFLICT is set. -/
def Obligations.IngestPorts : Prop :=
  (∀ (s : State) (p st : Fin 16) (sop eop : Bool) (tag : BitVec 24) (poison : Bool) (data : W256),
    coreUp s.chip = true → (s.chip.ip p).stopping = false →
    let i := s.chip.ip p
    let beat (P : State → Prop) := Completes (.ingestBeat p st sop eop tag poison data) s fun t =>
      P t ∧ (∀ q, q ≠ p.val → t.chip.ip q = s.chip.ip q) ∧
      KeepsButCounts s.chip t.chip [.ipStat p, .ipDrop p, .ipBp p] ∧
      t.chip = { s.chip with regs := t.chip.regs, ingest := t.chip.ingest } ∧ KeepsOutside s t
    let word (m : Nat) : FWord :=
      { spool := m, stream := st, sop := sop, eop := eop, tag := if sop then tag.toNat else 0, poison := poison, data := data }
    (s.chip.quar p = false → i.fifo.length < 16 → sop = true → i.pkt = none →
      s.chip.bit (.ipMap p st) F.IpMap.VALID = true →
      s.chip.spEn (s.chip.fld (.ipMap p st) F.IpMap.SPOOL) ≠ .off →
      beat fun t =>
        let m := s.chip.fld (.ipMap p st) F.IpMap.SPOOL
        t.chip.ip p = { i with dropRest := false, pkt := if eop then none else some (st.val, some m)
                               fifo := i.fifo ++ [word m] } ∧
        (poison = true → t.chip.bit (.ipStat p) F.IpStat.POISON_IN = true)) ∧
    (∀ m : Nat, s.chip.quar p = false → i.fifo.length < 16 → sop = false → i.dropRest = false →
      i.pkt = some (st.val, some m) → s.chip.spEn m ≠ .off →
      beat fun t =>
        t.chip.ip p = { i with pkt := if eop then none else some (st.val, some m), fifo := i.fifo ++ [word m] }) ∧
    (s.chip.quar p = false → i.fifo.length < 16 → sop = true → i.pkt = none →
      (s.chip.bit (.ipMap p st) F.IpMap.VALID = false ∨
        s.chip.spEn (s.chip.fld (.ipMap p st) F.IpMap.SPOOL) = .off) →
      beat fun t =>
        t.chip.ip p = { i with dropRest := false, pkt := if eop then none else some (st.val, none) } ∧
        Counts s.chip t.chip (.ipDrop p) F.IpDrop.DROP 1 ∧ t.chip.bit (.ipStat p) F.IpStat.UNMAPPED = true) ∧
    (∀ m : Nat, s.chip.quar p = false → i.fifo.length < 16 → sop = false → i.dropRest = false →
      i.pkt = some (st.val, some m) → s.chip.spEn m = .off →
      beat fun t =>
        t.chip.ip p = { i with pkt := if eop then none else some (st.val, none) } ∧
        Counts s.chip t.chip (.ipDrop p) F.IpDrop.DROP 1 ∧ t.chip.bit (.ipStat p) F.IpStat.UNMAPPED = true) ∧
    (s.chip.quar p = false → i.fifo.length < 16 → sop = false → i.dropRest = true →
      beat fun t =>
        t.chip.ip p = { i with dropRest := !eop } ∧ Counts s.chip t.chip (.ipDrop p) F.IpDrop.QDROP 1 ∧
        t.chip.rd (.ipStat p) = s.chip.rd (.ipStat p)) ∧
    (s.chip.quar p = false → i.fifo.length < 16 → sop = false → i.dropRest = false → i.pkt = none →
      beat fun t =>
        t.chip.ip p = i ∧ Counts s.chip t.chip (.ipDrop p) F.IpDrop.DROP 1 ∧
        t.chip.bit (.ipStat p) F.IpStat.PROTO = true) ∧
    (s.chip.quar p = true →
      beat fun t =>
        t.chip.ip p = { i with dropRest := !eop } ∧ Counts s.chip t.chip (.ipDrop p) F.IpDrop.QDROP 1) ∧
    (s.chip.quar p = false → 16 ≤ i.fifo.length →
      beat fun t => t.chip.ip p = i ∧ Counts s.chip t.chip (.ipBp p) F.IpBp.CYCLES 1)) ∧
  (∀ (s : State) (p : Fin 16), coreUp s.chip = true →
    (s.chip.bit (.ipStat p) F.IpStat.CLK_OK = false → Completes (.ingestClkOk p) s fun t =>
      t.chip.bit (.ipStat p) F.IpStat.CLK_OK = true ∧ t.chip.ip p = { s.chip.ip p with fifo := [] } ∧
      (∀ q, q ≠ p.val → t.chip.ip q = s.chip.ip q) ∧ t.chip.quar p = s.chip.quar p ∧
      KeepsRegs s.chip t.chip [.ipStat p] ∧ KeepsOutside s t) ∧
    (s.chip.bit (.ipStat p) F.IpStat.CLK_OK = true → (s.chip.ip p).pkt = none → Completes (.ingestClkLost p) s fun t =>
      t.chip.bit (.ipStat p) F.IpStat.CLK_OK = false ∧ t.chip.bit (.ipStat p) F.IpStat.CLK_LOST = true ∧
      t.chip.quar p = true ∧ t.chip.ip p = { s.chip.ip p with stopping := false } ∧
      (∀ q, q ≠ p.val → t.chip.ip q = s.chip.ip q) ∧ t.chip.ipEn p = s.chip.ipEn p ∧
      KeepsRegs s.chip t.chip [.ipStat p] ∧ KeepsOutside s t) ∧
    (s.chip.bit .spcStat F.SpcStat.WIPE_DONE = true → s.chip.pwr.phase ≠ .quiesce → s.chip.quar p = true →
      s.chip.ipEn p = .running → s.chip.bit (.ipStat p) F.IpStat.CLK_OK = true →
      (∀ q, q < p.val → s.chip.quar q = false ∨ s.chip.ipEn q ≠ .running ∨
        s.chip.bit (.ipStat q) F.IpStat.CLK_OK = false) →
      Completes .quarantineReleaseTick s fun t =>
        t.chip.quar p = false ∧ t.chip.ip p = { s.chip.ip p with pkt := none } ∧
        (∀ q, q ≠ p.val → t.chip.ip q = s.chip.ip q) ∧ KeepsRegs s.chip t.chip [.ipStat p] ∧ KeepsOutside s t)) ∧
  (∀ (s : State) (p : Fin 16),
    let i := s.chip.ip p
    let only (t : State) := (∀ q, q ≠ p.val → t.chip.ip q = s.chip.ip q) ∧
      KeepsRegs s.chip t.chip [.ipStat p, .ipCtl p] ∧
      t.chip = { s.chip with regs := t.chip.regs, ingest := t.chip.ingest } ∧ KeepsOutside s t
    (Ready s → s.chip.ipEn p = .off → Completes (.ingestEnable p) s fun t =>
      t.chip.ipEn p = .running ∧ t.chip.ip p = i ∧ t.chip.quar p = s.chip.quar p ∧ only t) ∧
    (Ready s → s.chip.ipEn p = .running → s.chip.bit (.ipStat p) F.IpStat.CLK_OK = true → i.pkt = none → i.fifo ≠ [] →
      Completes (.ingestStop p) s fun t =>
        t.chip.ipEn p = .stopping ∧ t.chip.quar p = true ∧
        t.chip.ip p = { i with stopping := false } ∧ only t) ∧
    (Ready s → s.chip.ipEn p = .running → s.chip.bit (.ipStat p) F.IpStat.CLK_OK = false →
      Completes (.ingestStop p) s fun t => t.chip.ipEn p = .off ∧ t.chip.quar p = true ∧ only t) ∧
    (Ready s → s.chip.ipEn p = .running → s.chip.bit (.ipStat p) F.IpStat.CLK_OK = true → i.pkt = none → i.fifo = [] →
      Completes (.ingestStop p) s fun t => t.chip.ipEn p = .off ∧ t.chip.quar p = true ∧ only t) ∧
    (Ready s → s.chip.ipEn p = .running → s.chip.bit (.ipStat p) F.IpStat.CLK_OK = true → i.pkt ≠ none →
      s.chip.quar p = false → Completes (.ingestStop p) s fun t =>
        t.chip.ipEn p = .stopping ∧ t.chip.ip p = { i with stopping := true } ∧ t.chip.quar p = false ∧ only t) ∧
    (coreUp s.chip = true → i.stopping = true → i.pkt = none → Completes (.ingestStopEffect p) s fun t =>
      t.chip.quar p = true ∧ t.chip.ip p = { i with stopping := false } ∧ only t) ∧
    (coreUp s.chip = true → (s.chip.ipEn p = .stopping ∨ s.chip.ipEn p = .restart) → i.stopping = false → s.chip.quar p = true → i.fifo = [] →
      Completes (.ingestStopComplete p) s fun t =>
        t.chip.ipEn p = (s.chip.ipEn p).complete true ∧ t.chip.quar p = true ∧ only t)) ∧
  (∀ (s : State) (p st : Fin 16) (w : Word), Ready s →
    let m := fget w F.IpMap.SPOOL
    let clash := fbit w F.IpMap.VALID = true ∧ ∃ q u, q < 16 ∧ u < 16 ∧ (q ≠ p.val ∨ u ≠ st.val) ∧
      s.chip.bit (.ipMap q u) F.IpMap.VALID = true ∧ s.chip.fld (.ipMap q u) F.IpMap.SPOOL = m
    (¬ clash → Completes (.ingestMapWrite p st w) s fun t =>
      t.chip.fld (.ipMap p st) F.IpMap.SPOOL = m ∧ t.chip.bit (.ipMap p st) F.IpMap.VALID = fbit w F.IpMap.VALID ∧
      KeepsRegs s.chip t.chip [.ipMap p st] ∧ OnlyRegs s.chip t.chip ∧ KeepsOutside s t) ∧
    (clash → Completes (.ingestMapWrite p st w) s fun t =>
      t.chip.bit .spcStat F.SpcStat.MAP_CONFLICT = true ∧ KeepsRegs s.chip t.chip [.spcStat] ∧
      OnlyRegs s.chip t.chip ∧ KeepsOutside s t))

/-- SPOOL_WORD_WRITE (R53, R58, R60, R61, R68, R77): the oldest word of a port's FIFO goes to the tail of a RUNNING
spool that can take it: its 32 bytes stand in memory at the granule and word of WP, with its poison as bad parity, WP
goes up by one, and no other byte of memory changes; the tail register holds the word (log 83). A stopping spool drops
and counts it, an OFF spool or a word whose spool has become OFF since is dropped (log 84), a full spool leaves it. The
capacity that ingest meets (R53, R58, R66, R79): a held or deep spool whose level has reached its capacity is full, a
lapping spool never is, and a full spool takes no word. Clauses rest on log 9, DEDUCED; log 38, DESIGN CHOICE; log 122,
DESIGN CHOICE. -/
def Obligations.SpoolWordWrites : Prop :=
  (∀ (s : State) (p : Fin 16) (w : FWord) (rest : List FWord), Ready s → (s.chip.ip p).fifo = w :: rest →
    let en := if w.spool < 256 then s.chip.spEn w.spool else .off
    (en = .running → s.chip.canTake w.spool = true →
      (w.eop = false ∨ s.chip.threads = []) → (w.sop = false ∨ s.chip.svcEn 4 ≠ .running) →
      Completes (.spoolWordWrite p) s fun t =>
        let pl := s.chip.writePlace w.spool
        (∀ k, k < 4 → memWord t.mem (spoolAt pl.1 pl.2 + 8 * k) = lane64 w.data k) ∧
        (∀ x, (x < spoolAt pl.1 pl.2 ∨ spoolAt pl.1 pl.2 + 32 ≤ x) → Tab.get 0#8 t.mem x = Tab.get 0#8 s.mem x) ∧
        t.chip.wp w.spool = (s.chip.wp w.spool + 1) % 2 ^ 48 ∧
        t.chip.lanesAt pl.1 pl.2 = (if w.poison then 15 else 0) ∧
        (t.chip.spool w.spool).tail.head? =
          some { pos := s.chip.wp w.spool, g := pl.1, data := w.data, lanes := if w.poison then 15 else 0 } ∧
        (let level := t.chip.spLevel w.spool
          let high := s.chip.fld (.spWm w.spool) F.SpWm.HIGH
          let armed := s.chip.bit (.spLvl w.spool) F.SpLvl.ARMED
          t.chip.bit (.spLvl w.spool) F.SpLvl.ARMED =
            (decide (level < min (s.chip.fld (.spWm w.spool) F.SpWm.LOW) high) || (armed && decide (level ≤ high))) ∧
          t.chip.bit (.spLvl w.spool) F.SpLvl.NOTICE =
            (s.chip.bit (.spLvl w.spool) F.SpLvl.NOTICE || (armed && decide (high < level)))) ∧
        t.chip.ip p = { s.chip.ip p with fifo := rest } ∧ t.prot = s.prot ∧ t.pending = s.pending) ∧
    (en = .running → s.chip.canTake w.spool = true → w.eop = true → (∀ x ∈ s.chip.threads, s.chip.thr x.1 = x.2) →
      let met (u : Nat) : Bool := (s.chip.thr u).st == .waiting && (s.chip.thr u).kind == kSpool &&
        (s.chip.thr u).arg / 2 ^ 20 == w.spool && Chip.spoolWaitMet (s.chip.thr u).arg ((s.chip.wp w.spool + 1) % 2 ^ 48)
      (∀ u, met u = true → AtHome s.chip u) → (∀ n, (s.chip.ndl n).queues.length = 4) →
      Completes (.spoolWordWrite p) s fun t =>
        (∀ u, t.chip.thr u = if met u then
          { s.chip.thr u with st := .ready, kind := kNone, arg := 0, fF := false, fZ := true } else s.chip.thr u) ∧
        (∀ n q, q < 4 → Chip.queueOf (t.chip.ndl n) q = Chip.queueOf (s.chip.ndl n) q ++
          (s.chip.threads.map (·.1)).filter fun u => met u && (s.chip.thr u).aff == n && (s.chip.thr u).cls == q) ∧
        t.chip.wp w.spool = (s.chip.wp w.spool + 1) % 2 ^ 48 ∧ t.prot = s.prot ∧ t.pending = s.pending) ∧
    (en = .running → s.chip.canTake w.spool = false → Completes (.spoolWordWrite p) s fun t =>
      t.chip.ip p = s.chip.ip p ∧ KeepsRegs s.chip t.chip [.ipStat p] ∧ OnlyRegs s.chip t.chip ∧ KeepsOutside s t) ∧
    (en = .off → Completes (.spoolWordWrite p) s fun t =>
      t.chip.ip p = { s.chip.ip p with fifo := rest } ∧ t.chip.regs = s.chip.regs ∧ KeepsOutside s t) ∧
    ((en = .stopping ∨ en = .restart) → Completes (.spoolWordWrite p) s fun t =>
      t.chip.ip p = { s.chip.ip p with fifo := rest } ∧ Counts s.chip t.chip (.spCnt w.spool) F.SpCnt.DROP 1 ∧
      KeepsRegs s.chip t.chip [.spCnt w.spool] ∧ KeepsOutside s t)) ∧
  (∀ (c : Chip) (m : Nat),
    (c.spFull m = true ↔ c.spMode m ≠ 1 ∧
      (if c.spMode m = 2 then (c.spLen m + 1) * 32 else (c.spCount m + 1) * 32) ≤ c.spLevel m) ∧
    (c.spFull m = true → c.canTake m = false) ∧ (c.spMode m < 2 → c.spFull m = false → c.canTake m = true))

/-- SPOOL_CFG_WRITE (R78): while a spool is OFF a write of one of its three configuration registers takes its fields; at
any other time it leaves the register unchanged and sets CFG_LOCKED. -/
def Obligations.SpoolConfiguration : Prop :=
  ∀ (s : State) (m : Fin 256), Ready s →
    (∀ w : Word, s.chip.spEn m = .off → Completes (.spoolCfgWrite m .cfg w) s fun t =>
      t.chip.spBase m = fget w F.SpCfg.BASE ∧ t.chip.spCount m = fget w F.SpCfg.COUNT ∧
      t.chip.spGuard m = fget w F.SpCfg.LAPGUARD + 1 ∧
      t.chip.spMode m = (if fget w F.SpCfg.MODE = 3 then s.chip.spMode m else fget w F.SpCfg.MODE) ∧
      KeepsRegs s.chip t.chip [.spCfg m] ∧ OnlyRegs s.chip t.chip ∧ KeepsOutside s t) ∧
    (∀ w : Word, s.chip.spEn m = .off → Completes (.spoolCfgWrite m .deepBase w) s fun t =>
      t.chip.fld (.spDeepbase m) F.SpDeepbase.ADDR = fget w F.SpDeepbase.ADDR ∧
      KeepsRegs s.chip t.chip [.spDeepbase m] ∧ OnlyRegs s.chip t.chip ∧ KeepsOutside s t) ∧
    (∀ w : Word, s.chip.spEn m = .off → Completes (.spoolCfgWrite m .deepCfg w) s fun t =>
      (∀ f ∈ [F.SpDeepcfg.LEN, F.SpDeepcfg.PD, F.SpDeepcfg.CLASS, F.SpDeepcfg.NDL],
        t.chip.fld (.spDeepcfg m) f = fget w f) ∧
      KeepsRegs s.chip t.chip [.spDeepcfg m] ∧ OnlyRegs s.chip t.chip ∧ KeepsOutside s t) ∧
    (∀ (which : SpoolCfg) (w : Word), s.chip.spEn m ≠ .off → Completes (.spoolCfgWrite m which w) s fun t =>
      t.chip.bit (.spStat m) F.SpStat.CFG_LOCKED = true ∧ KeepsRegs s.chip t.chip [.spStat m] ∧
      OnlyRegs s.chip t.chip ∧ KeepsOutside s t)

/-- Enabling a spool (R59, R77): it starts only where its region passes the conditions of R59, with WP, FP and HP 0, no
mark and every EPOCH advanced; otherwise it stays OFF with REGION_BAD. Stopping a spool (R77): a stop with nothing to
finish is complete at once, otherwise it is pending until no entry is HELD and no read is in progress; FORCE abandons
the marks and completes it; a restart that comes meanwhile starts it anew. A REWIND that waits for a refill then ends
with DISABLED and the cursor from before it. What becomes of a deep spool's refills and of late answers at OFF is the
model's choice (log 85). Clauses rest on log 118, DESIGN CHOICE; log 36, DEDUCED. -/
def Obligations.SpoolEnables : Prop :=
  (∀ (s : State) (m : Fin 256), Ready s →
    (s.chip.regionOk m = true ↔
      s.chip.spBase m + s.chip.spCount m + 1 ≤ 6144 ∧
      (∀ j, j < 256 → j ≠ m.val → s.chip.spEn j ≠ .off →
        s.chip.spBase m + s.chip.spCount m < s.chip.spBase j ∨ s.chip.spBase j + s.chip.spCount j < s.chip.spBase m) ∧
      (s.chip.spMode m = 1 → s.chip.spGuard m < s.chip.spCap m) ∧
      (s.chip.spMode m = 2 → 4 ≤ s.chip.spCount m + 1 ∧ s.chip.spCount m ≤ s.chip.spLen m)) ∧
    (s.chip.spEn m = .off → s.chip.regionOk m = true → Completes (.spoolEnable m) s fun t =>
      t.chip.spEn m = .running ∧ t.chip.wp m = 0 ∧ t.chip.fp m = 0 ∧ t.chip.hp m = 0 ∧ (t.chip.spool m).q = [] ∧
      (t.chip.spool m).newest = none ∧ (t.chip.spool m).index = [] ∧
      (∀ k, k < 512 → Chip.epochOf (t.chip.spool m) k = (Chip.epochOf (s.chip.spool m) k + 1) % 128) ∧
      (∀ j, j ≠ m.val → t.chip.spool j = s.chip.spool j) ∧
      KeepsRegs s.chip t.chip [.spCtl m, .spWp m, .spFp m, .spHp m, .spLvl m, .spStat m] ∧ KeepsOutside s t) ∧
    (s.chip.spEn m = .off → s.chip.regionOk m = false → Completes (.spoolEnable m) s fun t =>
      t.chip.spEn m = .off ∧ t.chip.bit (.spStat m) F.SpStat.REGION_BAD = true ∧ OnlyRegs s.chip t.chip ∧
      KeepsRegs s.chip t.chip [.spStat m, .spCtl m] ∧ KeepsOutside s t)) ∧
  (∀ (s : State) (m : Fin 256),
    let only (t : State) := (∀ j, j ≠ m.val → t.chip.spool j = s.chip.spool j) ∧ t.chip.wp m = s.chip.wp m ∧
      KeepsRegs s.chip t.chip [.spCtl m] ∧ KeepsOutside s t
    let off : Spool := { s.chip.spool m with refills := [], refillIn := [], wants := [], waits := [],
                                             run := (s.chip.spool m).run + 1 }
    (Ready s → s.chip.spEn m = .running → s.chip.spIdle m = true → Completes (.spoolStop m) s fun t =>
      t.chip.spEn m = .off ∧ t.chip.spool m = off ∧ only t) ∧
    (Ready s → s.chip.spEn m = .running → s.chip.spIdle m = false → Completes (.spoolStop m) s fun t =>
      t.chip.spEn m = .stopping ∧ t.chip.spool m = s.chip.spool m ∧ only t) ∧
    (Ready s → s.chip.spEn m = .stopping → Completes (.spoolForce m) s fun t =>
      t.chip.spEn m = .off ∧ (t.chip.spool m).q = [] ∧ t.chip.wp m = s.chip.wp m ∧
      (s.chip.refillWaiters m = [] → only t)) ∧
    (coreUp s.chip = true → s.chip.spEn m = .stopping → s.chip.spIdle m = true → Completes (.spoolStopComplete m) s fun t =>
      t.chip.spEn m = .off ∧ t.chip.spool m = off ∧ only t) ∧
    (coreUp s.chip = true → s.chip.spEn m = .restart → s.chip.spIdle m = true → s.chip.regionOk m = true →
      Completes (.spoolStopComplete m) s fun t =>
        t.chip.spEn m = .running ∧ t.chip.wp m = 0 ∧ t.chip.fp m = 0 ∧ t.chip.hp m = 0 ∧ (t.chip.spool m).q = [] ∧
        KeepsOutside s t) ∧
    (∀ (u b : Nat) (v : SavedCursor), Ready s → s.chip.spEn m = .stopping → s.chip.refillWaiters m = [(u, b)] →
      (s.chip.thr u).undo = some v → (s.chip.thr u).retReg < 8 → Completes (.spoolForce m) s fun t =>
        t.chip.spEn m = .off ∧ (t.chip.thr u).cursor = v ∧ (t.chip.thr u).reg (s.chip.thr u).retReg = 6#32 ∧
        (t.chip.thr u).fF = true ∧ (t.chip.thr u).undo = none ∧ KeepsOutside s t))

/-- MARK (R64, R69, R70): on a RUNNING spool a mark of WP, of the start of the latest indexed packet with the tag in ws,
or of the position from FP to WP with the bits in ws, gives a handle that is current and names a HELD entry there; the
thread holds the handle, without a cursor, and F reports success. The first failure of DISABLED, NOTFOUND, ORDER and
FULL is the code, and nothing else changes. Memory stands. RELEASE and REWIND (R67, R69, R71, R72, R76): a RELEASE of a
current handle leaves no HELD entry of its slot and ends the cursor that came from it; a REWIND to a position at or
before WP sets the cursor at the mark plus the offset, where the guard of a lapping spool has not overtaken the mark and
a deep spool holds the position on the chip; a handle that is not current, or whose entry is RELEASED, is a BADMARK. A
LAPPED entry answers LAPPED, and so does a HELD one that the guard has overtaken, which becomes LAPPED. On a deep spool
a cursor in host memory waits for the refill of its block, its record keeping the cursor that a failure leaves, and
answers DEEPERR once a spill has failed. Clauses rest on log 33, DEDUCED; log 34, DEDUCED; log 36, DEDUCED. -/
def Obligations.MarksAndRewinds : Prop :=
  (∀ (s : State) (n : Fin 128) (k : Fin 8) (pick : Nat) (sl : Slot) (wd ws mode m : Nat), m < 256 → wd < 8 → mode < 3 →
    Issues s n k sl (.mark wd ws mode m) →
    let i : WInstr := .mark wd ws mode m
    let v := (sl.live.reg ws).toNat
    let q := s.chip.spool m
    let wp := s.chip.wp m
    let fp := s.chip.fp m
    let names (p : Nat) := (mode = 0 ∧ p = wp) ∨
      (mode = 1 ∧ ∃ pre post, q.index = pre ++ (v % 2 ^ 24, p) :: post ∧ ∀ x ∈ pre, x.1 ≠ v % 2 ^ 24) ∨
      (mode = 2 ∧ fp ≤ p ∧ p ≤ wp ∧ p % 2 ^ 32 = v)
    let taken := ∀ j, j < 512 → ∃ x ∈ q.q, x.slot = j
    let fails (code : Nat) := Completes (.mark n k pick) s fun t =>
      IssuedOnly s t n k (issuedSlot sl i (((stepped sl.live).setReg wd (BitVec.ofNat 32 (2 ^ 31 + code))).report true))
    (s.chip.spEn m ≠ .running → fails 6) ∧
    (s.chip.spEn m = .running → (mode = 2 → fp ≤ wp ∧ wp < 2 ^ 47 ∧ wp < fp + 2 ^ 32) →
      ((∀ p, ¬ names p) → fails 3) ∧
      (∀ p, names p →
        (∀ x, q.newest = some x → posDiff p x < 0 → fails 5) ∧
        ((∀ x, q.newest = some x → 0 ≤ posDiff p x) →
          (taken → fails 4) ∧
          (¬ taken → (∀ j, Chip.epochOf q j < 128) → Completes (.mark n k pick) s fun t =>
            ∃ h j, h < 2 ^ 24 ∧ h / 2 ^ 16 = m ∧ t.chip.markOf h = some { slot := j, pos := p, st := .held } ∧
              (t.chip.spool m).newest = some p ∧ t.chip.wp m = wp ∧
              t.chip.slot n k = some (issuedSlot sl i (({ stepped sl.live with
                hv := true, handle := h, cv := false }.setReg wd (BitVec.ofNat 32 h)).report false)) ∧
              KeepsOutside s t))))) ∧
  (∀ (s : State) (n : Fin 128) (k : Fin 8) (sl : Slot) (wd ws : Nat), wd < 8 → ws < 8 →
    let h := (sl.live.reg ws).toNat
    let m := h / 2 ^ 16 % 256
    let code (v : Nat) (th : Thread) : Thread := (th.setReg wd (BitVec.ofNat 32 v)).report (v ≠ 0)
    (Issues s n k sl (.release wd ws) → s.chip.spEn m ≠ .off → (s.chip.spool m).refills = [] →
      (∀ x, s.chip.markOf h = some x → x.st ≠ .released → Completes (.release n k) s fun t =>
        (∀ y ∈ (t.chip.spool m).q, y.slot = h % 512 → y.st = .released) ∧ t.chip.wp m = s.chip.wp m ∧
        t.chip.slot n k = some (issuedSlot sl (.release wd ws)
          (code 0 { stepped sl.live with cv := sl.live.cv && decide (sl.live.handle ≠ h) })) ∧
        KeepsOutside s t) ∧
      ((s.chip.markOf h = none ∨ ∃ x, s.chip.markOf h = some x ∧ x.st = .released) → Completes (.release n k) s fun t =>
        t.chip.slot n k = some (issuedSlot sl (.release wd ws) (code 2 (stepped sl.live))) ∧ KeepsOutside s t)) ∧
    (∀ off, Issues s n k sl (.rewind wd ws off) → s.chip.spEn m ≠ .off → (s.chip.spool m).refills = [] →
      let i : WInstr := .rewind wd ws off
      let fails (v : Nat) := Completes (.rewind n k) s fun t => IssuedOnly s t n k (issuedSlot sl i (code v (stepped sl.live)))
      let moved (th : Thread) : Thread := { th with hv := true, handle := h, cv := true, curoff := off }
      (s.chip.markOf h = none → fails 2) ∧
      (∀ x, s.chip.markOf h = some x →
        let p := (x.pos + off) % 2 ^ 48
        let d := posDiff p (s.chip.wp m)
        (x.st = .released → fails 2) ∧
        (x.st = .lapped → fails 1) ∧
        (x.st = .held → s.chip.spMode m = 1 → x.pos ≤ s.chip.wp m → s.chip.wp m < 2 ^ 47 →
          s.chip.spCap m < s.chip.wp m - x.pos + s.chip.spGuard m → Completes (.rewind n k) s fun t =>
            t.chip.slot n k = some (issuedSlot sl i (code 1 (stepped sl.live))) ∧
            (∀ y ∈ (t.chip.spool m).q, y.slot = x.slot → y.st = .lapped) ∧
            Counts s.chip t.chip (.spCnt m) F.SpCnt.LAP_CNT 1 ∧ t.chip.fld (.spLapat m) F.SpLapat.POS = x.pos ∧
            t.chip.bit (.spStat m) F.SpStat.LAP = true ∧ t.chip.wp m = s.chip.wp m ∧ KeepsOutside s t) ∧
        (x.st = .held → s.chip.spMode m ≠ 1 → 0 < d → fails 7) ∧
        (x.st = .held → d ≤ 0 → (s.chip.spMode m = 1 → x.pos ≤ s.chip.wp m ∧ s.chip.wp m < 2 ^ 47 ∧
            s.chip.wp m - x.pos + s.chip.spGuard m ≤ s.chip.spCap m) →
          (s.chip.spMode m = 2 → d < 0 → s.chip.hostResident m p = false) → Completes (.rewind n k) s fun t =>
          t.chip.slot n k = some (issuedSlot sl i (code 0 (moved (stepped sl.live)))) ∧
          t.chip.cursorPos (t.chip.live n k) = some p ∧ KeepsOutside s t) ∧
        (x.st = .held → s.chip.hostResident m p = true → d < 0 →
          ((s.chip.spool m).deepBad = true → fails 8) ∧
          ((s.chip.spool m).deepBad = false → Completes (.rewind n k) s fun t =>
            t.chip.slot n k = none ∧
            t.chip.thr sl.t = { moved (leaving sl) with
              st := .waiting, kind := kRefill, arg := m, retReg := wd, undo := some sl.live.cursor } ∧
            (sl.t, p / 32) ∈ (t.chip.spool m).waits ∧
            (t.chip.spool m).refills = [{ g := 0, block := p / 32, owner := sl.t, ready := false }] ∧ KeepsOutside s t)))))

/-- PEEK (R58, R61, R67, R73): MODE 0 answers 32 bits of the word K after HP, with F where it is poisoned, where no such
word has come yet, and where it can no longer be read, which takes HP to WP; MODE 1 the level, at most 2^32 - 1, and
MODE 3 HP; MODE 2 the crossing tag of the indexed packet that holds HP, F where none does. A PEEK that leaves F clear
advances HP by ADV words but not beyond WP. On a spool that is OFF it answers DISABLED, which is the model's reading
(log 35). Deep spools (R75, R76): the oldest complete block is presented as one acknowledged burst of 16 lines to its
place in host memory; its good answer frees its granule and a bad one sets DEEP_ERR; a refill's answer lands in its
granule, word by word, and no other byte of memory changes. Clauses rest on log 36, DEDUCED; log 83, DESIGN CHOICE. -/
def Obligations.PeeksAndDeepMoves : Prop :=
  (∀ (s : State) (n : Fin 128) (k : Fin 8) (sl : Slot) (wd mode m kk j adv : Nat),
    m < 256 → wd < 8 → mode < 4 → kk < 4 → j < 8 → adv < 5 → Issues s n k sl (.peek wd mode m kk j adv) →
    let i : WInstr := .peek wd mode m kk j adv
    let q := s.chip.spool m
    let wp := s.chip.wp m
    let fp := s.chip.fp m
    let hp := s.chip.hp m
    let p := hp + kk
    let on := min (hp + adv) wp
    let gives (v : W32) (failed : Bool) (h : Nat) (regs : List Reg) := Completes (.peek n k) s fun t =>
      t.chip.slot n k = some (issuedSlot sl i (((stepped sl.live).setReg wd v).report failed)) ∧ t.chip.hp m = h ∧
      KeepsButCounts s.chip t.chip (.isStat :: .spHp m :: regs) ∧ KeepsOutside s t
    let lost := p < fp ∨ (s.chip.spMode m = 1 ∧ s.chip.spCap m < wp - p + s.chip.spGuard m) ∨ s.chip.granuleOf m p = none
    (s.chip.spEn m = .off → Completes (.peek n k) s fun t =>
      IssuedOnly s t n k (issuedSlot sl i (((stepped sl.live).setReg wd 6#32).report true))) ∧
    (s.chip.spEn m ≠ .off → hp ≤ wp → wp + 8 < 2 ^ 47 →
      (mode = 1 → gives (BitVec.ofNat 32 (min (wp - hp) 0xFFFFFFFF)) false on []) ∧
      (mode = 3 → gives (BitVec.ofNat 32 hp) false on []) ∧
      (mode = 0 → wp ≤ p → gives 0#32 true hp []) ∧
      (mode = 0 → p < wp → fp ≤ wp → lost → gives 0#32 true wp [.spStat m] ∧
        Completes (.peek n k) s fun t => t.chip.bit (.spStat m) F.SpStat.HEAD_LAP = true) ∧
      (∀ (data : W256) (lanes g : Nat), mode = 0 → p < wp → fp ≤ wp → ¬ lost → s.chip.granuleOf m p = some g →
        (match (q.head ++ q.tail).find? fun r => r.pos == p with
          | some r => data = r.data ∧ lanes = r.lanes
          | none => data = spoolWord s.mem g (p % 32) ∧ lanes = s.chip.lanesAt g (p % 32)) →
        gives (BitVec.ofNat 32 (data.toNat / 2 ^ (32 * j))) (decide (lanes ≠ 0)) (if lanes = 0 then on else hp)
          [.spcStat, .spcPerrAt, .wdStat, .bbStat]) ∧
      (mode = 2 → (∀ x ∈ q.index, x.2 < 2 ^ 47) →
        (∀ tag a pre post, q.index = pre ++ (tag, a) :: post → (∀ x ∈ pre, hp < x.2) → a ≤ hp → hp < wp →
          gives (BitVec.ofNat 32 tag) false on []) ∧
        ((hp = wp ∨ ∀ x ∈ q.index, hp < x.2) → gives 0#32 true hp [])))) ∧
  ((∀ (s : State) (m : Fin 256) (b w : Nat) (rest : List Nat), coreUp s.chip = true → (s.chip.spool m).unspilled = b :: rest →
    s.prot.check (s.chip.deepPd m) (s.chip.blockAddr m b) 1024 .ackWrite = .ok w →
    NoneWaits s.chip (s.prot.home w) (s.chip.fld (.spDeepcfg m) F.SpDeepcfg.NDL) →
    Completes (.deepSpill m) s fun t =>
      (t.chip.spool m).unspilled = rest ∧ (t.chip.spool m).spilling = (s.chip.spool m).spilling ++ [b] ∧
      (∃ x, (t.chip.port (s.prot.home w)).waiting = (s.chip.port (s.prot.home w)).waiting ++ [x] ∧
        x.use = .spill m b (s.chip.spool m).run ∧ x.kind = .ack ∧ x.addr = s.chip.blockAddr m b ∧ x.len = 16 ∧ x.data.length = 16 ∧
        x.tdom = s.prot.tdom w) ∧ KeepsOutside s t) ∧
  (∀ (s : State) (m : Fin 256) (b : Nat) (bad : Bool) (rest : List (Nat × Bool)),
    coreUp s.chip = true → (s.chip.spool m).spillIn = (b, bad) :: rest → Completes (.deepSpillAck m) s fun t =>
      (t.chip.spool m).spillIn = rest ∧ (t.chip.spool m).spilling = (s.chip.spool m).spilling.filter (· ≠ b) ∧
      (bad = true → t.chip.bit (.spStat m) F.SpStat.DEEP_ERR = true ∧ (t.chip.spool m).deepBad = true) ∧
      (bad = false → t.chip.regs = s.chip.regs ∧ (t.chip.spool m).deepBad = (s.chip.spool m).deepBad) ∧
      KeepsRegs s.chip t.chip [.spStat m] ∧ KeepsOutside s t) ∧
  (∀ (s : State) (m : Fin 256) (b : Nat) (lines : List (Line × Bool)) (rest : List (Nat × List (Line × Bool) × Bool))
    (r : Refill), coreUp s.chip = true → (s.chip.spool m).refillIn = (b, lines, false) :: rest → lines.length = 16 →
    (s.chip.spool m).refills.find? (fun x => x.block == b && !x.ready) = some r →
    Completes (.deepRefillDone m) s fun t =>
      let g := s.chip.spBase m + s.chip.nearCount m + r.g
      (∀ i j, i < 16 → j < 8 → memWord t.mem (spoolAt g 0 + 64 * i + 8 * j) =
        BitVec.ofNat 64 ((lines.getD i (0#512, true)).1.toNat / 2 ^ (64 * j))) ∧
      (∀ x, (x < spoolAt g 0 ∨ spoolAt g 0 + 1024 ≤ x) → Tab.get 0#8 t.mem x = Tab.get 0#8 s.mem x) ∧
      (∀ i, i < 32 → t.chip.lanesAt g i = if (lines.getD (i / 2) (0#512, true)).2 then 15 else 0) ∧
      t.prot = s.prot ∧ t.pending = s.pending))

/-- Every well-formed instruction is read back from its own word, with every operand as it was, and the words that are
read are exactly the words of well-formed instructions (R97, R98). -/
def Obligations.WorrynRoundTrip : Prop :=
  (∀ i : WInstr, i.ok = true → WInstr.decode i.encode = some i) ∧
  (∀ (w : Word) (i : WInstr), WInstr.decode w = some i → i.ok = true ∧ i.encode = w) ∧
  (∀ i j : WInstr, i.ok = true → j.ok = true → i.encode = j.encode → i = j)

/-- The words of pattern memory (R97, R98): each of these words, written out from its encoding table, is read as its
instruction, and a word with a reserved opcode, a set bit of a dash or a field that must be 0 is none. A word that
cannot run (R98, R99, R103, R291, R292, R296): the thread goes to FAULT with its PC at the word, its slot is free where
no write of it and no result is owed, and an entry joins the fault queue: OPCODE for a word R98 refuses, ECC with bit 15
of DETAIL for a word with an uncorrectable error, ISAVER for a HDR of another ISA. The fields of a fault entry (R296).
-/
def Obligations.WorrynWords : Prop :=
  (WInstr.decode 0x0000000000000000#64 = some .nop ∧
  WInstr.decode 0x1F20000000000031#64 = some (.hdr 2 0x31) ∧
  WInstr.decode 0x236900000000FFFF#64 = some (.alu .and 3 2 1 0 0xFFFF) ∧
  WInstr.decode 0x280D0000000000C8#64 = some (.alu .cmpi 0 3 1 0 200) ∧
  WInstr.decode 0x4340110100000000#64 = some (.peek 2 0 0x11 0 0 1) ∧
  WInstr.decode 0x822A200000000000#64 = some (.patch 1 2 2 0 0 4) ∧
  WInstr.decode 0x8520040001100004#64 =
    some (.pedsub { wd := 1, ws := 0, mode := 0, spec := 0, rc := 0, wc := 0 } 2 0 0 0x110 4) ∧
  WInstr.decode 0x0700000000000000#64 = none ∧ WInstr.decode 0x0000000000000001#64 = none ∧
  WInstr.decode 0x0504000000000000#64 = none ∧ WInstr.decode 0x2109000000000001#64 = some (.alu .add 0 2 1 0 1) ∧
  WInstr.decode 0x2108000000000001#64 = none) ∧
  (∀ (s : State) (n : Fin 128) (k : Fin 8) (sl : Slot) (i : Instr) (cause detail : Nat),
    NoLocks s.chip → s.chip.slotOwed n sl = false → s.chip.faults.length < 256 → sl.live.pc < 2 ^ 16 →
    (i = .illegalInstruction n k ∧ Meets s n k sl .illegal ∧ cause = cOpcode ∧ detail = 0 ∨
      i = .illegalInstruction n k ∧ Meets s n k sl .bad ∧ cause = cEcc ∧ detail = 2 ^ 15 ∨
      i = .hdr n k ∧ (∃ isa id, isa ≠ 1 ∧ isa ≠ 2 ∧ Meets s n k sl (.instr (.hdr isa id))) ∧ cause = cIsaver ∧ detail = 0) →
    Completes i s fun t =>
      t.chip.slot n k = none ∧
      t.chip.thr sl.t = { leaving sl with
        pc := sl.live.pc, st := .fault, kind := kFault, arg := cause + n.val * 2 ^ 8, sealing := false, undo := none } ∧
      (∀ u, u ≠ sl.t → t.chip.thr u = s.chip.thr u) ∧
      t.chip.faults = s.chip.faults ++
        [Chip.faultWords s.chip sl.t sl.live.gen ((s.chip.faultSeq + 1) % 2 ^ 32)
          (Chip.FaultInfo.plain cause n sl.live.pc detail)] ∧
      t.chip.faultSeq = (s.chip.faultSeq + 1) % 2 ^ 32 ∧ t.chip.bit .fltStat F.FltStat.FAULT = true ∧ KeepsOutside s t) ∧
  (∀ (c : Chip) (t gen seq : Nat) (i : Chip.FaultInfo), t < 2 ^ 18 → gen < 2 ^ 16 → seq < 2 ^ 32 → i.cause < 2 ^ 8 →
    i.ndl < 2 ^ 7 → i.pc < 2 ^ 16 → i.detail < 2 ^ 16 →
    let e := Chip.faultWords c t gen seq i
    fget e.e0 ⟨63, 56⟩ = i.cause ∧ fbit e.e0 ⟨55, 55⟩ = i.av ∧ fbit e.e0 ⟨54, 54⟩ = i.dir ∧ fbit e.e0 ⟨53, 53⟩ = i.dv ∧
    fget e.e0 ⟨52, 46⟩ = i.ndl ∧ fget e.e0 ⟨33, 18⟩ = i.pc ∧ fget e.e0 ⟨17, 0⟩ = t ∧
    fget e.e1 ⟨63, 48⟩ = gen ∧ fget e.e1 ⟨47, 0⟩ = i.addr % 2 ^ 48 ∧
    fget e.e2 ⟨63, 48⟩ = i.detail ∧ fget e.e2 ⟨47, 0⟩ = i.daddr % 2 ^ 48 ∧
    fget e.e3 ⟨63, 40⟩ = c.ctr % 2 ^ 24 ∧ fget e.e3 ⟨31, 0⟩ = seq)

/-- NOP, HDR of ISA 1 and 2, LDI, JMP, BRCC, CALL and RET (R100, R103, R104, R106, R122): the PC they leave, the one
register they write, and no flag; nothing but the slot changes. After a branch that is taken, a jump, call and return
among them, the thread is unable to issue for 2 needle cycles (R88); after the others it is not. A thread able for
certain for longer than another is past its branch issues first, which is the model's reading (log 6, DEDUCED). HALT and
YIELD (R91, R105, R340): HALT leaves the slot HALTED with the PC after it; YIELD with a delay leaves it WAITING on the
timer; YIELD without one stays where no thread is queued on the needle. -/
def Obligations.ControlFlow : Prop :=
  (∀ (s : State) (n : Fin 128) (k : Fin 8) (sl : Slot),
    let th := sl.live
    let next := stepped th
    let jumps (i : WInstr) (x : Thread) (pc : Nat) (t : State) : Prop :=
      Branches s t n k (issuedSlot sl i { x with pc := pc % 2 ^ 16 })
    let stays (i : WInstr) (x : Thread) (t : State) : Prop := GoesOn s t n k (issuedSlot sl i x)
    let goal (ws mode target : Nat) : Nat := if mode = 0 then target else (th.reg ws).toNat
    (Issues s n k sl .nop → Completes (.nop n k) s (stays .nop next)) ∧
    (∀ isa id, isa = 1 ∨ isa = 2 → Issues s n k sl (.hdr isa id) →
      Completes (.hdr n k) s (stays (.hdr isa id) next)) ∧
    (∀ wd imm, Issues s n k sl (.ldi wd imm) →
      Completes (.ldi n k) s (stays (.ldi wd imm) (next.setReg wd (BitVec.ofNat 32 imm)))) ∧
    (∀ ws mode target, Issues s n k sl (.jmp ws mode target) →
      Completes (.jmp n k) s (jumps (.jmp ws mode target) th (goal ws mode target))) ∧
    (∀ cc target, Issues s n k sl (.brcc cc target) →
      let holds := [th.fZ, !th.fZ, th.fC, !th.fC, th.fN, !th.fN, th.fF, !th.fF, th.fC || th.fZ, !th.fC && !th.fZ,
        th.fN || th.fZ, !th.fN && !th.fZ].getD cc false
      Completes (.brcc n k) s fun t => if holds then jumps (.brcc cc target) th target t else stays (.brcc cc target) next t) ∧
    (∀ ws mode target, Issues s n k sl (.call ws mode target) →
      Completes (.call n k) s
        (jumps (.call ws mode target) (th.setReg 7 (BitVec.ofNat 32 next.pc)) (goal ws mode target))) ∧
    (Issues s n k sl .ret → Completes (.ret n k) s (jumps .ret th (th.reg 7).toNat)) ∧
    (∀ j, j < 8 → s.chip.surelyAble s.env n j = true → (s.chip.ndl n).sure.contains j = true →
      (s.chip.gapOf n j).2 < (s.chip.gapOf n k).1 → s.chip.issues s.env n k = false)) ∧
  (∀ (s : State) (n : Fin 128) (k : Fin 8) (sl : Slot),
    (Issues s n k sl .halt → Completes (.halt n k) s fun t =>
      LeftOnly s t n k sl.t { leaving sl with st := .halted, kind := kNone, arg := 0, cmd := none }) ∧
    (∀ ws mode delay, Issues s n k sl (.yield ws mode delay) →
      let d := if mode = 0 then delay else (sl.live.reg ws).toNat % 2 ^ 24
      (0 < d → d < 2 ^ 24 → Completes (.yield n k) s fun t =>
        LeftOnly s t n k sl.t { leaving sl with
          st := .waiting, kind := kTimer, arg := ((s.chip.rd .thTimer).toNat + d) % 2 ^ 28 }) ∧
      (d = 0 → (∀ q, Chip.queueOf (s.chip.ndl n) q = []) → Completes (.yield n k) s fun t =>
        IssuedOnly s t n k (issuedSlot sl (.yield ws mode delay) (stepped sl.live)))))

/-- ADD, SUB, AND, OR, XOR, SHL, SHR and CMPI (R106, R107): the result, Z, N and C; F and every other register stand,
and nothing but the slot changes. A work register reads as it was last written, and no other changes (R101). -/
def Obligations.AluInstructions : Prop :=
  (∀ (s : State) (n : Fin 128) (k : Fin 8) (sl : Slot) (op : AluOp) (wd ws mode wt imm : Nat),
    Issues s n k sl (.alu op wd ws mode wt imm) →
    let th := sl.live
    let a := th.reg ws
    let b := if mode % 2 = 0 then th.reg wt else BitVec.ofNat 32 imm
    let sh := b.toNat % 32
    let res : W32 := match op with
      | .add => a + b
      | .sub | .cmpi => a - b
      | .and => a &&& b
      | .or => a ||| b
      | .xor => a ^^^ b
      | .shl => a <<< sh
      | .shr => if 2 ≤ mode then a.sshiftRight sh else a >>> sh
    let z := decide (res = 0#32)
    let nf := match op with
      | .sub | .cmpi => decide (a.toInt < b.toInt)
      | _ => res.msb
    let cf := match op with
      | .add => decide (2 ^ 32 ≤ a.toNat + b.toNat)
      | .sub | .cmpi => decide (a.toNat < b.toNat)
      | .and | .or | .xor => th.fC
      | .shl => if sh = 0 then th.fC else a.getLsbD (32 - sh)
      | .shr => if sh = 0 then th.fC else a.getLsbD (sh - 1)
    Completes (aluCommand op n k) s fun t =>
      IssuedOnly s t n k (issuedSlot sl (.alu op wd ws mode wt imm) { stepped th with
        w := if op = .cmpi then th.w else (th.setReg wd res).w, fZ := z, fN := nf, fC := cf })) ∧
  (∀ (th : Thread) (i j : Nat) (v : W32), i < 8 → j < 8 →
    (th.setReg i v).reg j = (if j = i then v else th.reg j) ∧ th.setReg i v = { th with w := (th.setReg i v).w })

/-- WAITX (R109, R110): with no operand, or with a target 2^15 orbits or more ahead, F reports failure; a target at or
before the counter binds the thread at once; any other leaves it WAITING in an XING wait. WAITD (R111, R186, R190): a
decision that is KNOWN comes back in wd with F 0, one that is MISSING with F 1, a crossing outside the kept window as
EXP with F 1; for an OPEN entry the thread waits. -/
def Obligations.CrossingWaits : Prop :=
  (∀ (s : State) (n : Fin 128) (k : Fin 8) (sl : Slot) (ws mode rs imm : Nat), Issues s n k sl (.waitx ws mode rs imm) →
    let at_ := crossingOperand sl.live s.chip.olen s.chip.ctr ws mode rs imm
    let go (th : Thread) : Slot := issuedSlot sl (.waitx ws mode rs imm) th
    (at_ = none → Completes (.waitx n k) s fun t => IssuedOnly s t n k (go ((stepped sl.live).report true))) ∧
    (∀ x, at_ = some x → s.chip.ctr / 4096 + 2 ^ 15 ≤ x / 4096 →
      Completes (.waitx n k) s fun t => IssuedOnly s t n k (go ((stepped sl.live).report true))) ∧
    (∀ x, at_ = some x → x ≤ s.chip.ctr → Completes (.waitx n k) s fun t =>
      IssuedOnly s t n k (go ({ stepped sl.live with bv := true, bxing := x % 2 ^ 24 }.report false))) ∧
    (∀ x, at_ = some x → s.chip.ctr < x → x / 4096 < s.chip.ctr / 4096 + 2 ^ 15 →
      Completes (.waitx n k) s fun t =>
        LeftOnly s t n k sl.t { leaving sl with st := .waiting, kind := kXing, arg := x % 2 ^ 28, target := x })) ∧
  (∀ (s : State) (n : Fin 128) (k : Fin 8) (sl : Slot) (wd ws mode rs imm x : Nat),
    Issues s n k sl (.waitd wd ws mode rs imm) →
    crossingOperand sl.live s.chip.olen s.chip.ctr ws mode rs imm = some x →
    let d := dist s.chip.olen s.chip.ctr x
    let e := s.chip.decAt x
    let got (word : Nat) (failed : Bool) : Slot :=
      issuedSlot sl (.waitd wd ws mode rs imm) (((stepped sl.live).setReg wd (BitVec.ofNat 32 word)).report failed)
    let run (P : State → Prop) := Completes (.waitd n k) s P
    ((d < -16 ∨ 1007 < d ∨ e.st = .unused ∨ e.x % 2 ^ 24 ≠ x % 2 ^ 24) →
      run fun t => IssuedOnly s t n k (got 0x90000000 true)) ∧
    (-16 ≤ d → d ≤ 1007 → e.x % 2 ^ 24 = x % 2 ^ 24 → e.st = .known → run fun t => IssuedOnly s t n k (got e.word false)) ∧
    (-16 ≤ d → d ≤ 1007 → e.x % 2 ^ 24 = x % 2 ^ 24 → e.st = .missing → run fun t => IssuedOnly s t n k (got e.word true)) ∧
    (-16 ≤ d → d ≤ 1007 → e.x % 2 ^ 24 = x % 2 ^ 24 → e.st = .opened → s.chip.nearestX (x % 2 ^ 24) = x → run fun t =>
      LeftOnly s t n k sl.t { leaving sl with st := .waiting, kind := kDec, arg := x % 2 ^ 24, retReg := wd }))

/-- WAITS and WAITR (R112, R113): the two modes of a wait for a spool packet and its refusals; a wait for a request
line, whose ARG holds the line, whether there is a deadline, and bits 18:0 of TIMER + TMO; a line already requested
makes the thread READY at once. The deadlines of TIMER and WAITR waits (R113, R340): the thread becomes READY, after a
WAITR with F reporting failure; before the deadline nothing changes. Clauses rest on log 9, DEDUCED; log 10, DEDUCED. -/
def Obligations.SpoolAndTimedWaits : Prop :=
  (∀ (s : State) (n : Fin 128) (k : Fin 8) (sl : Slot),
    let go (i : WInstr) (failed : Bool) : Slot := issuedSlot sl i ((stepped sl.live).report failed)
    (∀ ws mode m, Issues s n k sl (.waits ws mode m) → m < 256 →
      let d := signed 32 (unsigned 32 (((sl.live.reg ws).toNat : Int) - s.chip.wp m))
      (s.chip.spEn m = .off → Completes (.waits n k) s fun t => IssuedOnly s t n k (go (.waits ws mode m) true)) ∧
      (s.chip.spEn m ≠ .off → mode = 1 → Completes (.waits n k) s fun t =>
        LeftOnly s t n k sl.t { leaving sl with
          st := .waiting, kind := kSpool, arg := m * 2 ^ 20 + s.chip.wp m % 2 ^ 20 }) ∧
      (s.chip.spEn m ≠ .off → mode = 0 → 2 ^ 19 ≤ d.natAbs → Completes (.waits n k) s fun t =>
        IssuedOnly s t n k (go (.waits ws mode m) true)) ∧
      (s.chip.spEn m ≠ .off → mode = 0 → d < 0 → d.natAbs < 2 ^ 19 → Completes (.waits n k) s fun t =>
        IssuedOnly s t n k (go (.waits ws mode m) false)) ∧
      (s.chip.spEn m ≠ .off → mode = 0 → 0 ≤ d → d.natAbs < 2 ^ 19 → Completes (.waits n k) s fun t =>
        LeftOnly s t n k sl.t { leaving sl with
          st := .waiting, kind := kSpool, arg := m * 2 ^ 20 + (s.chip.wp m + d.toNat) % 2 ^ 20 })) ∧
    (∀ line tmo, Issues s n k sl (.waitr line tmo) → line < 256 → tmo < 2 ^ 18 →
      (s.chip.bit (.rlCfg line) F.RlCfg.EN = false → Completes (.waitr n k) s fun t =>
        IssuedOnly s t n k (go (.waitr line tmo) true)) ∧
      (s.chip.bit (.rlCfg line) F.RlCfg.EN = true → s.chip.reqLevel line = false → Completes (.waitr n k) s fun t =>
        LeftOnly s t n k sl.t { leaving sl with
          st := .waiting, kind := kReq
          arg := line + (if tmo = 0 then 0 else 2 ^ 8) + ((s.chip.rd .thTimer).toNat + tmo) % 2 ^ 19 * 2 ^ 9 }) ∧
      (s.chip.bit (.rlCfg line) F.RlCfg.EN = true → s.chip.reqLevel line = true → s.chip.pwr.wakeQ = [] →
        (leaving sl).aff < 128 → s.chip.needleOn (leaving sl).aff = true → Completes (.waitr n k) s fun t =>
          t.chip.slot n k = none ∧
          t.chip.thr sl.t = { (leaving sl).report false with st := .ready, kind := kNone, arg := 0 } ∧ KeepsOutside s t))) ∧
  (∀ (s : State) (u : Fin 262144), coreUp s.chip = true → (s.chip.thr u).st = .waiting →
    let th := s.chip.thr u
    let only (t : State) := KeepsButCounts s.chip t.chip [.ndlStat th.aff] ∧ KeepsOutside s t
    (th.kind = kTimer → deadlineReached 28 th.arg s.chip.timer = true → AtHome s.chip u →
      Completes (.timerWaitExpire u) s fun t =>
        Readied s.chip t.chip u th.aff { th with kind := kNone, arg := 0 } ∧ only t) ∧
    (th.kind = kTimer → deadlineReached 28 th.arg s.chip.timer = false →
      Completes (.timerWaitExpire u) s fun t => t = s) ∧
    (th.kind = kReq → th.arg / 256 % 2 = 1 → deadlineReached 19 (th.arg / 512) s.chip.timer = true → AtHome s.chip u →
      Completes (.waitrTimeout u) s fun t =>
        Readied s.chip t.chip u th.aff { th with kind := kNone, arg := 0, fF := true, fZ := false } ∧ only t))

/-- CROSS and SETAT (R34, R114, R115, R262): CROSS reads the counter or the bound crossing; SETAT enters the schedule
with the value of its register pair, or reports a target already reached or a full schedule. What a domain may SETAT
(R262): with SETAT 0 nothing, with 1 map memory, with 2 also the registers, but for those of the regions 0x3_0000 and
0x6_0000; a SETAT it may not issue faults with PROT and DETAIL 0xFF05, which is the model's reading of the DETAIL (log
30). -/
def Obligations.CrossAndSetat : Prop :=
  (∀ (s : State) (n : Fin 128) (k : Fin 8) (sl : Slot),
    let next := stepped sl.live
    (∀ wd we, Issues s n k sl (.cross wd we 0) → Completes (.cross n k) s fun t =>
      IssuedOnly s t n k (issuedSlot sl (.cross wd we 0)
        ((next.setReg we (BitVec.ofNat 32 (s.chip.ctr / 2 ^ 32))).setReg wd (BitVec.ofNat 32 s.chip.ctr)))) ∧
    (∀ wd, Issues s n k sl (.cross wd 0 1) → Completes (.cross n k) s fun t =>
      IssuedOnly s t n k (issuedSlot sl (.cross wd 0 1)
        ((next.setReg wd (BitVec.ofNat 32 sl.live.bxing)).report (!sl.live.bv)))) ∧
    (∀ wv ws mode rs off imm, Issues s n k sl (.setat wv ws mode rs off imm) →
      Chip.setatAllowed s.prot sl.live.pd (off * 8) = true →
      let operand := crossingOperand sl.live s.chip.olen s.chip.ctr ws mode rs imm
      let go (th : Thread) : Slot := issuedSlot sl (.setat wv ws mode rs off imm) th
      let v := BitVec.ofNat 64 ((sl.live.reg wv).toNat + 2 ^ 32 * (sl.live.reg (wv + 1)).toNat)
      let run (P : State → Prop) := Completes (.setat n k) s fun t =>
        P t ∧ KeepsButCounts s.chip t.chip [.isStat, .otSetat, .otStat] ∧ KeepsOutside s t ∧
        t.chip = { s.chip with regs := t.chip.regs, needles := t.chip.needles, tb := t.chip.tb }
      (operand = none → run fun t => SlotBecomes s.chip t.chip n k (some (go (next.report true))) ∧ t.chip.tb = s.chip.tb) ∧
      (∀ x, operand = some x → s.chip.ctr < x → s.chip.tb.setat.length < 256 → run fun t =>
        SlotBecomes s.chip t.chip n k (some (go (next.report false))) ∧
        t.chip.tb = { s.chip.tb with setat := s.chip.tb.setat ++ [{ target := x, off := off * 8, value := v }] } ∧
        t.chip.fld .otSetat F.OtSetat.HWM = max (s.chip.fld .otSetat F.OtSetat.HWM) (s.chip.tb.setat.length + 1)) ∧
      (∀ x, operand = some x → x ≤ s.chip.ctr → run fun t =>
        SlotBecomes s.chip t.chip n k (some (go (next.report true))) ∧ t.chip.tb = s.chip.tb ∧
        Counts s.chip t.chip .otSetat F.OtSetat.LATE_CNT 1 ∧ t.chip.bit .otStat F.OtStat.SETAT_LATE = true) ∧
      (∀ x, operand = some x → s.chip.ctr < x → 256 ≤ s.chip.tb.setat.length → run fun t =>
        SlotBecomes s.chip t.chip n k (some (go (next.report true))) ∧ t.chip.tb = s.chip.tb ∧
        Counts s.chip t.chip .otSetat F.OtSetat.FULL_CNT 1 ∧ t.chip.bit .otStat F.OtStat.SETAT_FULL = true))) ∧
  ((∀ (p : Prot) (d off : Nat),
    let field := fget (p.rd (.pdCfg d)) F.PdCfg.SETAT
    let map := 0x800000 ≤ off ∧ off ≤ 0x8FFFF8
    (Chip.setatAllowed p d off = true ↔
      (field = 1 ∧ map) ∨ (field = 2 ∧ (map ∨ (off ≤ 0x3FFFF8 ∧ off / 0x10000 ≠ 3 ∧ off / 0x10000 ≠ 6))))) ∧
  (∀ (s : State) (n : Fin 128) (k : Fin 8) (sl : Slot) (wv ws mode rs off imm : Nat),
    Issues s n k sl (.setat wv ws mode rs off imm) → Chip.setatAllowed s.prot sl.live.pd (off * 8) = false →
    NoLocks s.chip → s.chip.slotOwed n sl = false → s.chip.faults.length < 256 → sl.live.pc < 2 ^ 16 →
    Completes (.setat n k) s fun t =>
      t.chip.slot n k = none ∧ (t.chip.thr sl.t).st = .fault ∧ (t.chip.thr sl.t).pc = sl.live.pc ∧
      (t.chip.thr sl.t).arg = cProt + n.val * 2 ^ 8 ∧ t.chip.tb = s.chip.tb ∧
      t.chip.faults = s.chip.faults ++
        [Chip.faultWords s.chip sl.t sl.live.gen ((s.chip.faultSeq + 1) % 2 ^ 32)
          (Chip.FaultInfo.plain cProt n sl.live.pc 0xFF05)] ∧ KeepsOutside s t))

/-- LOCK in try mode and UNLOCK (R116, R117, R118) on a local lock: FREE, BROKEN, held by the thread and held by another
each have their code and their effect; a number that names no lock has code 4. LOCK in wait mode (R117, R120) on a local
lock: held by another thread, the thread waits with its lease; and a lock that is broken by LOCK_BREAK goes at once to
the one thread that waits for it, with code 1 (R119, R120). A lock with no waiter stays BROKEN until LOCK_CLEAR frees
it. Clauses rest on log 9, DEDUCED. -/
def Obligations.LocalLocks : Prop :=
  (∀ (s : State) (n : Fin 128) (k : Fin 8) (sl : Slot) (wd ws rs lease lockno : Nat), wd < 8 →
    let l := if rs = 1 then (sl.live.reg ws).toNat % 2 ^ 16 else lockno
    let v := s.chip.lockAt l
    let fin := advance s.chip.olen s.chip.ctr (lease + 1)
    let ends (w : WInstr) (i : Instr) (code : Nat) (lk : Lock) := Completes i s fun t =>
      SlotBecomes s.chip t.chip n k (some (issuedSlot sl w
        (((stepped sl.live).setReg wd (BitVec.ofNat 32 code)).report (decide (code ≠ 0))))) ∧
      (l < 1024 → t.chip.lockAt l = lk) ∧ (∀ m, m < 1024 → m ≠ l → t.chip.lockAt m = s.chip.lockAt m) ∧
      KeepsButCounts s.chip t.chip [.isStat, .lkStat] ∧ KeepsOutside s t ∧
      t.chip = { s.chip with regs := t.chip.regs, needles := t.chip.needles, locks := t.chip.locks }
    (let i : WInstr := .lock wd ws 1 rs lease lockno
     let ends := ends i (.lock n k)
     Issues s n k sl i →
      (l < 1024 → v.st = .free → ends 0 { v with st := .held, owner := sl.t, leaseEnd := fin }) ∧
      (l < 1024 → v.st = .broken → ends 1 { v with st := .held, owner := sl.t, leaseEnd := fin }) ∧
      (l < 1024 → v.st = .held → v.owner = sl.t → ends 0 { v with leaseEnd := fin }) ∧
      (l < 1024 → v.st = .held → v.owner ≠ sl.t → ends 2 v) ∧
      (1024 ≤ l → (l < 0x8000 ∨ 0x80FF < l) → ends 4 v) ∧
      (0x8000 ≤ l → l ≤ 0x80FF → s.chip.inService = false → ends 5 v)) ∧
    (let i : WInstr := .unlock wd ws rs lockno
     let ends := ends i (.unlock n k)
     Issues s n k sl i →
      (l < 1024 → v.st = .held → v.owner = sl.t → s.chip.lockWaiters l = [] →
        ends 0 { v with st := .free, owner := 0, leaseEnd := 0 }) ∧
      (l < 1024 → v.st = .broken → v.owner = sl.t → ends 1 v) ∧
      (l < 1024 → (v.st = .free ∨ v.owner ≠ sl.t) → ends 3 v) ∧
      (1024 ≤ l → (l < 0x8000 ∨ 0x80FF < l) → ends 4 v) ∧
      (0x8000 ≤ l → l ≤ 0x80FF → s.chip.inService = false → ends 5 v))) ∧
  ((∀ (s : State) (n : Fin 128) (k : Fin 8) (sl : Slot) (wd ws rs lease lockno : Nat),
    Issues s n k sl (.lock wd ws 0 rs lease lockno) →
    let l := if rs = 1 then (sl.live.reg ws).toNat % 2 ^ 16 else lockno
    l < 1024 → (s.chip.lockAt l).st = .held → (s.chip.lockAt l).owner ≠ sl.t →
    Completes (.lock n k) s fun t =>
      LeftOnly s t n k sl.t { leaving sl with
        st := .waiting, kind := kLock, arg := l, retReg := wd, lease := lease }) ∧
  (∀ (s : State) (l : Fin 1024), Ready s → (s.chip.lockAt l).st = .held →
    (s.chip.lockWaiters l = [] → Completes (.lockBreak l) s fun t =>
      t.chip.lockAt l = { s.chip.lockAt l with st := .broken, leaseEnd := 0 } ∧
      (∀ m, m < 1024 → m ≠ l.val → t.chip.lockAt m = s.chip.lockAt m) ∧ KeepsRegs s.chip t.chip [.lkStat] ∧
      t.chip = { s.chip with regs := t.chip.regs, locks := t.chip.locks } ∧ KeepsOutside s t) ∧
    (∀ u, s.chip.waiters kLock (· == l.val) = [u] → AtHome s.chip u → Completes (.lockBreak l) s fun t =>
      let th := s.chip.thr u
      t.chip.lockAt l = { s.chip.lockAt l with
        st := .held, owner := u, leaseEnd := advance s.chip.olen s.chip.ctr (th.lease + 1)
        waiters := (s.chip.lockAt l).waiters.filter fun w => w.1 ≠ u } ∧
      Readied s.chip t.chip u th.aff { (th.setReg th.retReg 1#32).report true with kind := kNone, arg := 0 } ∧
      t.chip.bit .lkStat F.LkStat.GRANT_BROKEN = true ∧ KeepsOutside s t)) ∧
  (∀ (s : State) (l : Fin 1024), Ready s → (s.chip.lockAt l).st = .broken → s.chip.lockWaiters l = [] →
    Completes (.lockClear l) s fun t =>
      t.chip.lockAt l = Lock.free ∧ (∀ m, m < 1024 → m ≠ l.val → t.chip.lockAt m = s.chip.lockAt m) ∧
      t.chip.regs = s.chip.regs ∧ t.chip = { s.chip with locks := t.chip.locks } ∧ KeepsOutside s t))

/-- THREAD_START (R83, R90): an IDLE thread whose generation matches becomes READY with its flags, binding, cursor and
wait cleared; a command with the wrong generation, or on a thread that is not IDLE, sets its status bit and does nothing
else. A command still owed to a FAULT thread is settled first (log 77, DEDUCED), and is none here. THREAD_HALT and
THREAD_KILL of a thread that holds no slot (R82, R83): HALTED keeps its wait or park; KILL makes the thread IDLE and
gives it its next generation; either takes it out of every ready queue. A HALT of an IDLE or FAULT thread sets
CMD_STATE. -/
def Obligations.ThreadCommands : Prop :=
  (∀ (s : State) (u : Fin 262144) (gchk : Bool) (gen : BitVec 16), Ready s →
    ((s.chip.thr u).st = .fault → (s.chip.thr u).cmd = none) →
    let th := s.chip.thr u
    let fresh := gchk = false ∨ gen.toNat = (s.chip.copyOf u).gen
    (fresh → th.st = .idle → AtHome s.chip u → Completes (.threadStart u gchk gen) s fun t =>
      Readied s.chip t.chip u th.aff { th with
        fF := false, fC := false, fN := false, fZ := false, bv := false, hv := false, cv := false
        kind := kNone, arg := 0 } ∧ KeepsButCounts s.chip t.chip [.ndlStat th.aff] ∧ KeepsOutside s t) ∧
    (fresh → th.st ≠ .idle → Completes (.threadStart u gchk gen) s fun t =>
      t.chip.bit .thStat F.ThStat.CMD_STATE = true ∧ KeepsRegs s.chip t.chip [.thStat] ∧ OnlyRegs s.chip t.chip ∧
      KeepsOutside s t) ∧
    (¬ fresh → ∀ i ∈ [Instr.threadStart u gchk gen, .threadHalt u gchk gen, .threadResume u gchk gen,
        .threadKill u gchk gen, .threadDoorbell u gchk gen], Completes i s fun t =>
      t.chip.bit .thStat F.ThStat.CMD_STALE = true ∧ KeepsRegs s.chip t.chip [.thStat] ∧ OnlyRegs s.chip t.chip ∧
      KeepsOutside s t)) ∧
  (∀ (s : State) (u : Fin 262144), Ready s → ((s.chip.thr u).st = .fault → (s.chip.thr u).cmd = none) →
    let th := s.chip.thr u
    let others (t : State) := (∀ v, v ≠ u.val → t.chip.thr v = s.chip.thr v) ∧ KeepsOutside s t
    ((th.st = .ready ∨ th.st = .waiting ∨ th.st = .parked) → Completes (.threadHalt u false 0) s fun t =>
      t.chip.thr u = { th with st := .halted } ∧ (∀ n q, u.val ∉ Chip.queueOf (t.chip.ndl n) q) ∧
      t.chip.regs = s.chip.regs ∧ others t) ∧
    ((th.st = .idle ∨ th.st = .fault) → Completes (.threadHalt u false 0) s fun t =>
      t.chip.bit .thStat F.ThStat.CMD_STATE = true ∧ KeepsRegs s.chip t.chip [.thStat] ∧ OnlyRegs s.chip t.chip ∧
      KeepsOutside s t) ∧
    (th.st = .halted → Completes (.threadHalt u false 0) s fun t => t = s) ∧
    (th.st ≠ .idle → th.st ≠ .running → th.hv = false → s.chip.suspendedOn u = none → NoLocks s.chip →
      Completes (.threadKill u false 0) s fun t =>
        t.chip.thr u = { th with
          st := .idle, kind := kNone, arg := 0, gen := (th.gen + 1) % 2 ^ 16, cmd := none, sealing := false, undo := none } ∧
        (∀ n q, u.val ∉ Chip.queueOf (t.chip.ndl n) q) ∧ t.chip.regs = s.chip.regs ∧ others t) ∧
    (th.st = .idle → Completes (.threadKill u false 0) s fun t => t = s))

/-- THREAD_RESUME and RESUME_SEAL_COMPLETE (R82, R84): a HALTED thread goes back to READY, or to the wait that its
record holds; a FAULT thread becomes READY once every write it issued has been answered and no slot waits for one, and
until then waits for that. THREAD_CMD_BOUNDARY (R85, R95, R294): a resident thread with nothing pending obeys its HALT
or KILL: it leaves its slot HALTED, its wait fields as they are, or IDLE with its next generation; with nothing asked it
stays while its needle is on, and otherwise leaves for a needle that is (log 77, DEDUCED). A command that waited when
its thread faulted is judged after the fault, at its next boundary (log 77): HALT is refused with CMD_STATE, KILL
succeeds. A record that is written back has fresh check bits; that one whose fetch is in flight has not is log 113,
DESIGN CHOICE. -/
def Obligations.ThreadResumesAndBoundaries : Prop :=
  (∀ (s : State) (u : Fin 262144),
    let th := s.chip.thr u
    (Ready s → th.st = .halted → th.kind = kNone → AtHome s.chip u → Completes (.threadResume u false 0) s fun t =>
      Readied s.chip t.chip u th.aff th ∧ KeepsButCounts s.chip t.chip [.ndlStat th.aff] ∧ KeepsOutside s t) ∧
    (Ready s → th.st = .halted → th.kind = kXing → xingReached th.arg s.chip.ctr = false →
      Completes (.threadResume u false 0) s fun t =>
        t.chip.thr u = { th with st := .waiting, target := xingTarget th.arg s.chip.ctr } ∧
        (∀ v, v ≠ u.val → t.chip.thr v = s.chip.thr v) ∧
        t.chip = { s.chip with threads := t.chip.threads } ∧ KeepsOutside s t) ∧
    (Ready s → th.st = .fault → th.cmd = none → s.chip.writesOut u = true → Completes (.threadResume u false 0) s fun t =>
      t.chip.thr u = { th with sealing := true } ∧ (∀ v, v ≠ u.val → t.chip.thr v = s.chip.thr v) ∧
      t.chip = { s.chip with threads := t.chip.threads } ∧ KeepsOutside s t) ∧
    (coreUp s.chip = true → th.st = .fault → th.sealing = true → s.chip.writesOut u = false → s.chip.deadSlot u = false → AtHome s.chip u →
      Completes (.resumeSealComplete u) s fun t =>
        Readied s.chip t.chip u th.aff { th with sealing := false, kind := kNone, arg := 0 } ∧
        KeepsButCounts s.chip t.chip [.ndlStat th.aff] ∧ KeepsOutside s t) ∧
    (th.st = .fault → s.chip.writesOut u = true → Completes (.resumeSealComplete u) s fun t => t = s)) ∧
  ((∀ (s : State) (u : Fin 262144), coreUp s.chip = true → s.chip.findSlot u = none → (s.chip.thr u).st = .fault →
    let th := s.chip.thr u
    (th.cmd = some .halt → Completes (.threadCmdBoundary u) s fun t =>
      t.chip.thr u = { th with cmd := none } ∧ t.chip.bit .thStat F.ThStat.CMD_STATE = true ∧
      (∀ v, v ≠ u.val → t.chip.thr v = s.chip.thr v) ∧ KeepsRegs s.chip t.chip [.thStat] ∧ KeepsOutside s t) ∧
    (th.cmd = some .kill → th.hv = false → s.chip.suspendedOn u = none → NoLocks s.chip →
      Completes (.threadCmdBoundary u) s fun t =>
        t.chip.thr u = { th with
          st := .idle, kind := kNone, arg := 0, gen := (th.gen + 1) % 2 ^ 16, cmd := none, sealing := false, undo := none } ∧
        (∀ v, v ≠ u.val → t.chip.thr v = s.chip.thr v) ∧ t.chip.regs = s.chip.regs ∧ KeepsOutside s t)) ∧
  ∀ (s : State) (u : Fin 262144) (n k : Nat) (sl : Slot), coreUp s.chip = true → s.chip.findSlot u = some (n, k) →
    s.chip.slot n k = some sl → sl.t = u.val → s.chip.busySlot n k = false → sl.dead = false →
    (sl.live.cmd = some .halt → Completes (.threadCmdBoundary u) s fun t =>
      t.chip.slot n k = none ∧ t.chip.thr u = { Chip.writeBack sl with st := .halted, cmd := none } ∧
      (∀ v, v ≠ u.val → t.chip.thr v = s.chip.thr v) ∧ (∀ m, m ≠ n → t.chip.ndl m = s.chip.ndl m) ∧
      KeepsButCounts s.chip t.chip [] ∧ (sl.fetching = false → FreshRecord s.chip t.chip u) ∧
      (sl.fetching = true → t.chip.eccCe = s.chip.eccCe ∧ t.chip.eccUe = s.chip.eccUe) ∧
      t.chip = { s.chip with regs := t.chip.regs, needles := t.chip.needles, threads := t.chip.threads,
                             eccCe := t.chip.eccCe, eccUe := t.chip.eccUe } ∧
      KeepsOutside s t) ∧
    (sl.live.cmd = some .kill → sl.live.hv = false → s.chip.suspendedOn u = none → NoLocks s.chip →
      Completes (.threadCmdBoundary u) s fun t =>
        t.chip.slot n k = none ∧
        t.chip.thr u = { Chip.writeBack sl with
          st := .idle, kind := kNone, arg := 0, gen := (sl.live.gen + 1) % 2 ^ 16, cmd := none, sealing := false, undo := none } ∧
        (∀ v, v ≠ u.val → t.chip.thr v = s.chip.thr v) ∧ KeepsOutside s t) ∧
    (sl.live.cmd = none → s.chip.needleOn n = false → s.chip.suspendedOn u = none →
      s.chip.needleOn (Chip.writeBack sl).aff = true → Completes (.threadCmdBoundary u) s fun t =>
        t.chip.slot n k = none ∧ t.chip.thr u = { Chip.writeBack sl with st := .ready } ∧
        (∀ v, v ≠ u.val → t.chip.thr v = s.chip.thr v) ∧ KeepsOutside s t) ∧
    (sl.live.cmd = none → s.chip.needleOn n = true → Completes (.threadCmdBoundary u) s fun t => t = s))

/-- THREAD_DOORBELL and DESC_WAIT_READ_DONE (R94): a doorbell to a thread in a DESC wait presents the read of its
descriptor's line on the port of the window that holds it; when the read has returned, a descriptor with OWN makes the
thread READY, and one without leaves it waiting. A doorbell to any other thread does nothing. THREAD_FETCH_START,
THREAD_FETCH_DONE and IB_LINE_FILL (R89, R90): a needle takes the head of the queue of the class it may fetch into a
free slot, RUNNING; the fetch of a record without errors makes it able to issue; a line fill puts the line of the PC
into the buffer, which keeps at most two lines of a set. Clauses rest on log 7, DESIGN CHOICE; log 9, DEDUCED; log 10,
DEDUCED; log 110, DESIGN CHOICE. -/
def Obligations.FetchesAndDoorbells : Prop :=
  (∀ (s : State) (u : Fin 262144),
    let th := s.chip.thr u
    (∀ w, Ready s → th.st = .waiting → th.kind = kDesc →
      s.prot.check th.pd (th.dptr * 32) 32 .read = .ok w →
      NoneWaits s.chip (s.prot.home w) (th.arg % 128) → s.chip.pwr.wakeQ = [] →
      Completes (.threadDoorbell u false 0) s fun t =>
        (∃ x, (t.chip.port (s.prot.home w)).waiting = (s.chip.port (s.prot.home w)).waiting ++ [x] ∧
          x.use = .dwait u ∧ x.kind = .read ∧ x.addr = th.dptr / 2 * 64 ∧ x.len = 1 ∧ x.req = th.arg % 128 ∧
          x.tdom = s.prot.tdom w) ∧
        (∀ v, t.chip.thr v = s.chip.thr v) ∧ KeepsButCounts s.chip t.chip [.ndlStat (th.arg % 128)] ∧ KeepsOutside s t) ∧
    (Ready s → (th.st ≠ .waiting ∨ th.kind ≠ kDesc) → (th.st = .fault → th.cmd = none) → Completes (.threadDoorbell u false 0) s fun t => t = s) ∧
    (∀ l : Line, coreUp s.chip = true → s.chip.dwaitIn.find? (fun x => x.1 == u.val) = some (u.val, th.dptr * 32, l, false) →
      th.st = .waiting → th.kind = kDesc →
      ((Desc.ofLine (th.dptr * 32) l).own = true → AtHome s.chip u → Completes (.descWaitReadDone u) s fun t =>
        Readied s.chip t.chip u th.aff { th with kind := kNone, arg := 0 } ∧
        t.chip.dwaitIn = s.chip.dwaitIn.erase (u.val, th.dptr * 32, l, false) ∧ KeepsOutside s t) ∧
      ((Desc.ofLine (th.dptr * 32) l).own = false → Completes (.descWaitReadDone u) s fun t =>
        t.chip = { s.chip with dwaitIn := s.chip.dwaitIn.erase (u.val, th.dptr * 32, l, false) } ∧ KeepsOutside s t))) ∧
  (∀ (s : State) (n : Fin 128),
    (∀ (k q u : Nat) (rest : List Nat), Ready s → s.chip.needleOn n = true → s.chip.pllLocked n = true →
      s.chip.npwr n = 0 → s.chip.fetches n < 4 → s.chip.freeSlot n = some k → s.chip.fetchClass n = some q →
      Chip.queueOf (s.chip.ndl n) q = u :: rest → Completes (.threadFetchStart n) s fun t =>
        (∃ x, t.chip.slot n k = some x ∧ x.t = u ∧ x.fetching = true ∧ x.dead = false ∧ x.act = none) ∧
        t.chip.thr u = { s.chip.thr u with st := .running } ∧ (∀ v, v ≠ u → t.chip.thr v = s.chip.thr v) ∧
        (t.chip.ndl n).queues = (s.chip.ndl n).queues.set q rest ∧ (∀ m, m ≠ n.val → t.chip.ndl m = s.chip.ndl m) ∧
        KeepsButCounts s.chip t.chip [] ∧ KeepsOutside s t) ∧
    (∀ (k : Fin 8) (sl : Slot), coreUp s.chip = true → s.chip.npwr n = 0 → s.chip.slot n k = some sl → sl.fetching = true →
      (∀ j, j < 8 → Tab.get false s.chip.eccUe (Chip.recordAt sl.t j) = false ∧
        Tab.get false s.chip.eccCe (Chip.recordAt sl.t j) = false) →
      (s.chip.ndl n).shadow = none → (s.chip.ndl n).susp = [] → Completes (.threadFetchDone n k) s fun t =>
        t.chip.slot n k = some { sl with
          fetching := false, live := { s.chip.thr sl.t with st := .running, cmd := sl.live.cmd } } ∧
        (∀ j, j ≠ k.val → t.chip.slot n j = s.chip.slot n j) ∧
        t.chip = { s.chip with needles := t.chip.needles } ∧ KeepsOutside s t) ∧
    (∀ (k : Fin 8) (sl : Slot), coreUp s.chip = true → s.chip.slot n k = some sl → sl.fetching = false → sl.dead = false →
      s.chip.npwr n = 0 → (s.chip.ndl n).ib.contains (Chip.lineOf sl.live.pc) = false → Completes (.ibLineFill n k) s fun t =>
        Chip.lineOf sl.live.pc ∈ (t.chip.ndl n).ib ∧
        (∀ x ∈ (t.chip.ndl n).ib, x = Chip.lineOf sl.live.pc ∨ x ∈ (s.chip.ndl n).ib) ∧
        ((∀ j, ((s.chip.ndl n).ib.filter fun x => x % 32 == j).length ≤ 2) →
          ∀ j, ((t.chip.ndl n).ib.filter fun x => x % 32 == j).length ≤ 2) ∧
        t.chip.slot n k = some sl ∧ t.chip.threads = s.chip.threads ∧ KeepsOutside s t))

/-- Enabling and stopping a needle (R95, R271): a needle that is OFF and not powered down becomes RUNNING; a stop with
every slot empty and nothing queued is complete at once; a pending stop completes when every slot is empty, and a
pending restart then starts it. A needle's clock and power (R96, R277): an idle needle's clock stops; a stopped needle
with PG_IDLE set that holds no thread and no transfer is gated and loses its instruction buffer, and one that holds
something, as the loss of its PLL's lock leaves it, is not; a wake that completes, for which the PLL must be locked,
runs the clock and, where eight are waking, lets the needle that has waited longest begin its own. No thread changes.
Needle PLLs (R274): MULT is written only while the 32 needles are OFF and stopped or gated, within 20 to 80, and a new
value drops LOCK; loss of lock stops every running clock, and lock starts again those that the loss stopped, and a
needle that waits for its PLL to wake. -/
def Obligations.Needles : Prop :=
  (∀ (s : State) (n : Fin 128), (∀ q ∈ s.chip.threads, q.2.st ≠ .parked) →
    let en (c : Chip) := c.en (.ndlCtl n) F.NdlCtl.EN
    let only (t : State) := KeepsRegs s.chip t.chip [.ndlCtl n] ∧ t.chip.threads = s.chip.threads ∧
      (∀ m, m ≠ n.val → t.chip.ndl m = s.chip.ndl m) ∧ KeepsOutside s t
    (Ready s → en s.chip = .off → Completes (.needleEnable n) s fun t =>
      en t.chip = .running ∧ t.chip.ndl n = s.chip.ndl n ∧ only t) ∧
    (Ready s → en s.chip = .running → s.chip.slotsEmpty n = true → (s.chip.ndl n).queues.flatten = [] →
      Completes (.needleStop n) s fun t => en t.chip = .off ∧ t.chip.slotsEmpty n = true ∧ only t) ∧
    (Ready s → en s.chip = .stopping → Completes (.needleEnable n) s fun t =>
      en t.chip = .restart ∧ t.chip.ndl n = s.chip.ndl n ∧ only t) ∧
    (coreUp s.chip = true → (en s.chip = .stopping ∨ en s.chip = .restart) → s.chip.slotsEmpty n = true →
      Completes (.needleStopComplete n) s fun t =>
        en t.chip = (en s.chip).complete true ∧ t.chip.ndl n = s.chip.ndl n ∧ only t) ∧
    (s.chip.slotsEmpty n = false → Completes (.needleStopComplete n) s fun t => t = s)) ∧
  (∀ (s : State) (n : Fin 128), coreUp s.chip = true →
    let only (t : State) := t.chip.threads = s.chip.threads ∧ (∀ m, m ≠ n.val → t.chip.ndl m = s.chip.ndl m) ∧ KeepsOutside s t
    let idle := s.chip.slotsEmpty n = true ∧ (s.chip.ndl n).active = none ∧ (s.chip.ndl n).shadow = none ∧
      Chip.rdyq (s.chip.ndl n) = 0 ∧ Chip.suspCount (s.chip.ndl n) = 0
    (s.chip.npwr n = 0 → s.chip.slotsEmpty n = true → (s.chip.ndl n).active = none → (s.chip.ndl n).shadow = none →
      Chip.rdyq (s.chip.ndl n) = 0 → Completes (.needleClockStop n) s fun t =>
        t.chip.npwr n = 1 ∧ t.chip.ndl n = s.chip.ndl n ∧ KeepsRegs s.chip t.chip [.ndlStat n] ∧ only t) ∧
    (¬ idle → Completes (.needlePowerGate n) s fun t => t = s) ∧
    (s.chip.npwr n = 1 → s.chip.fld (.ndlCfg n) F.NdlCfg.PG_IDLE ≠ 0 → idle →
      Completes (.needlePowerGate n) s fun t =>
        t.chip.npwr n = 2 ∧ t.chip.ndl n = { s.chip.ndl n with ib := [] } ∧ KeepsRegs s.chip t.chip [.ndlStat n] ∧ only t) ∧
    (s.chip.npwr n = 3 → s.chip.pllLocked n = true → s.chip.pwr.wakeQ = [] → Completes (.needleWakeDone n) s fun t =>
      t.chip.npwr n = 0 ∧ t.chip.ndl n = s.chip.ndl n ∧ KeepsButCounts s.chip t.chip [.ndlStat n] ∧ only t) ∧
    (s.chip.npwr n = 3 → s.chip.pllLocked n = false → Completes (.needleWakeDone n) s fun t => t = s) ∧
    (∀ (m : Fin 128) (rest : List Nat), m ≠ n → s.chip.npwr n = 3 → s.chip.pllLocked n = true → s.chip.wakingNow = 8 →
      s.chip.pwr.wakeQ = m.val :: rest → m.val ∉ rest → (∀ x ∈ rest, s.chip.npwr x = 2) →
      s.chip.npwr m = 2 → s.chip.pllLocked m = true → s.chip.bdDown m = false → Completes (.needleWakeDone n) s fun t =>
        t.chip.npwr n = 0 ∧ t.chip.npwr m = 3 ∧ t.chip.pwr.wakeQ = rest ∧
        KeepsButCounts s.chip t.chip [.ndlStat n, .ndlStat m] ∧ only t)) ∧
  (∀ (s : State) (q : Fin 4),
    let mine (n : Nat) := n / 32 = q.val
    let off := ∀ n, mine n → s.chip.fld (.ndlCtl n) F.NdlCtl.EN = 0 ∧ (s.chip.npwr n = 1 ∨ s.chip.npwr n = 2)
    let old := s.chip.fld (.clkNpll q) F.ClkNpll.MULT
    (∀ data : Word, Ready s →
      let m := fget data F.ClkNpll.MULT
      (off → 20 ≤ m → m ≤ 80 → m ≠ old → Completes (.npllMultWrite q data) s fun t =>
        t.chip.rd (.clkNpll q) = fset (fset (s.chip.rd (.clkNpll q)) F.ClkNpll.MULT m) F.ClkNpll.LOCK 0 ∧
        KeepsRegs s.chip t.chip [.clkNpll q] ∧ OnlyRegs s.chip t.chip ∧ KeepsOutside s t) ∧
      (off → (m < 20 ∨ 80 < m ∨ m = old) → Completes (.npllMultWrite q data) s fun t => t = s) ∧
      (¬ off → Completes (.npllMultWrite q data) s fun t =>
        t.chip.rd .pwrStat = fset (s.chip.rd .pwrStat) F.PwrStat.CLK_LOCKED 1 ∧
        KeepsRegs s.chip t.chip [.pwrStat] ∧ OnlyRegs s.chip t.chip ∧ KeepsOutside s t)) ∧
    (s.chip.bit (.clkNpll q) F.ClkNpll.LOCK = false → s.chip.pwr.wakeQ = [] → Completes (.npllLock q) s fun t =>
      t.chip.bit (.clkNpll q) F.ClkNpll.LOCK = true ∧
      (∀ n, n < 128 → t.chip.npwr n =
        if mine n ∧ n ∈ s.chip.pwr.clkLost ∧ s.chip.npwr n = 1 then 0 else s.chip.npwr n) ∧
      t.chip.pwr = { s.chip.pwr with clkLost := t.chip.pwr.clkLost } ∧
      (∀ n, n ∈ t.chip.pwr.clkLost ↔ n ∈ s.chip.pwr.clkLost ∧ ¬ mine n) ∧
      t.chip = { s.chip with regs := t.chip.regs, pwr := t.chip.pwr } ∧ KeepsOutside s t) ∧
    (∀ n, n < 128 → mine n → s.chip.bit (.clkNpll q) F.ClkNpll.LOCK = false → s.chip.bdDown n = false → s.chip.pwr.wakeQ = [n] →
      s.chip.npwr n = 2 → s.chip.wakingNow < 8 → (∀ m, mine m → s.chip.npwr m ≠ 1) → Completes (.npllLock q) s fun t =>
        t.chip.npwr n = 3 ∧ t.chip.pwr.wakeQ = [] ∧ KeepsRegs s.chip t.chip [.clkNpll q, .ndlStat n] ∧ KeepsOutside s t) ∧
    (s.chip.bit (.clkNpll q) F.ClkNpll.LOCK = true → Completes (.npllUnlock q) s fun t =>
      t.chip.bit (.clkNpll q) F.ClkNpll.LOCK = false ∧ t.chip.bit .pwrStat F.PwrStat.NPLL_UNLOCK = true ∧
      (∀ n, n < 128 → t.chip.npwr n = if mine n ∧ s.chip.npwr n = 0 then 1 else s.chip.npwr n) ∧
      (∀ n, n ∈ t.chip.pwr.clkLost ↔ n ∈ s.chip.pwr.clkLost ∨ mine n ∧ s.chip.npwr n = 0) ∧
      t.chip = { s.chip with regs := t.chip.regs, pwr := { s.chip.pwr with clkLost := t.chip.pwr.clkLost } } ∧
      KeepsOutside s t))

/-- The transfer and in-flight instructions at issue (R94, R100, R132, R134, R150, R154): with good operands a transfer
with the operands as they stand enters the active set, or the shadow set behind one that is active; a host-memory source
that is not aligned ends with ALIGN, code 11, a bad shape with SHAPE, code 13, and a staged group with STAGED, code 9,
with no transfer. What a transfer of CSTEP 0 finds wrong in the map entries that it reads on entry is counted (R156). -/
def Obligations.TransfersStart : Prop :=
  ∀ (s : State) (n : Fin 128) (k : Fin 8) (sl : Slot) (i : WInstr), isXfer i = true → Issues s n k sl i →
    sl.live.pc < 2 ^ 16 →
    let aligned := hostSource i = false ∨ sl.live.addressOk (headFields i).ws = true
    let shaped := ∀ wd ws mode spec chain wp, i = .patch wd ws mode spec chain wp →
      (Shape.of (sl.live.reg wp).toNat (sl.live.reg (wp + 1)).toNat).ok (mode == 2) = true
    let staged := ∃ g, sl.grp = some g ∧ g.descs ≠ []
    let frame (t : State) := (∀ j, j ≠ k.val → t.chip.slot n j = s.chip.slot n j) ∧
      (∀ m, m ≠ n.val → t.chip.ndl m = s.chip.ndl m) ∧ (t.chip.ndl n).cq = (s.chip.ndl n).cq ∧
      (t.chip.ndl n).queues = (s.chip.ndl n).queues ∧
      KeepsButCounts s.chip t.chip [.isStat, .wdEcc, .wdStat, .bbStat] ∧
      (s.chip.eccCe = [] → s.chip.eccUe = [] → KeepsButCounts s.chip t.chip [.isStat] ∧ t.chip.bb = s.chip.bb) ∧
      t.chip = { s.chip with regs := t.chip.regs, needles := t.chip.needles, xid := t.chip.xid, free := t.chip.free,
                             eccCe := t.chip.eccCe, bb := t.chip.bb } ∧
      KeepsOutside s t
    (aligned → shaped → (¬ staged ∨ Chip.isSpec i = true ∨ noDesc i = true) → Completes (xferCommand i n k) s fun t =>
      t.chip.slot n k = some (issuedSlot sl i (stepped sl.live)) ∧ frame t ∧
      ∃ x : Xfer, x.id = s.chip.xid ∧ x.t = sl.t ∧ x.slot = k.val ∧ x.instr = i ∧ x.pc = sl.live.pc ∧ x.pd = sl.live.pd ∧
        x.gen = sl.live.gen ∧ x.cls = sl.live.cls ∧ x.stage = .fetch ∧ x.set = s.chip.activeSet ∧
        x.n = countOf sl.live i ∧ x.a = (if hostSource i then sl.live.address (headFields i).ws else 0) ∧ x.total = 0 ∧
        ((s.chip.ndl n).active = none →
          (t.chip.ndl n).active = some x ∧ (t.chip.ndl n).shadow = (s.chip.ndl n).shadow) ∧
        ((s.chip.ndl n).active ≠ none →
          (t.chip.ndl n).active = (s.chip.ndl n).active ∧ (t.chip.ndl n).shadow = some x)) ∧
    (∀ code, (code = 11 ∧ ¬ aligned ∨ code = 13 ∧ aligned ∧ ¬ shaped ∨ code = 9 ∧ aligned ∧ shaped ∧ staged ∧ Chip.isSpec i = false ∧ noDesc i = false) →
      Completes (xferCommand i n k) s fun t =>
        (∃ th, t.chip.slot n k = some (issuedSlot sl i th) ∧ th.fF = true ∧ th.fZ = false ∧
          th.pc = (sl.live.pc + 1) % 2 ^ 16 ∧ (th.reg (headFields i).wd).toNat / 2 ^ 24 = code) ∧
        (t.chip.ndl n).active = (s.chip.ndl n).active ∧ (t.chip.ndl n).shadow = (s.chip.ndl n).shadow ∧ frame t)

/-- TRANSFER_BURST (R137, R138, R145, R215, R260): the oldest burst formed is checked in the transfer's domain and
presented at the home port of its window: a read of the source; the read of a descriptor; a data burst, or the STATUS
with the crossing of now, whose descriptor then has one more write outstanding. A write keeps the request line that it
was bound to as it was formed: the line whose window holds its first line then; words that span more lines than the line
enabled since lets a burst have become several bursts. That each command presents one burst is log 40, DEDUCED; that
STATUS.XING is the crossing at the presentation is log 42, DEDUCED. Nothing is written to the block's memories.
COMPLETION_OWN_CLEAR (R139): for the entry and descriptor whose turn it is, byte 7 of its CTL with OWN 0 is presented as
an acknowledged write of one line and the descriptor is marked; an entry whose clear goes to a domain under PDREQ waits
while those of other threads go on (R141), and where no descriptor's turn has come nothing happens; DPTR passes the
descriptor only as the clear is granted (log 42, DEDUCED). The one entry of a needle has the turn for its first
descriptor once that one's writes have arrived, and not before. -/
def Obligations.TransferBursts : Prop :=
  ((∀ (x : Xfer) (r : DRec) (n : Nat) (w : Nat × PWord) (ws : List (Nat × PWord)) (bind : Nat → Option Nat) (cap : Nat → Nat),
    x.cur = some r → x.forming = w :: ws →
    ∃ bs a, (x.flush n bind cap).queue = x.queue ++ bs ∧ a % 64 = 0 ∧ (∃ v ∈ w :: ws, v.1 / 64 * 64 = a) ∧
      (∀ v ∈ w :: ws, a ≤ v.1 ∧ ∃ b ∈ bs, b.addr ≤ v.1 ∧ v.1 / 64 < b.addr / 64 + b.len) ∧
      (∀ b ∈ bs, b.bound = bind b.addr ∧ b.use = .xData n x.id r.desc.addr ∧ b.kind = .ack ∧ b.desc = r.desc.addr ∧
        b.req = n ∧ b.len = b.data.length ∧ 1 ≤ b.len ∧ b.len ≤ max 1 (cap a) ∧ b.addr % 64 = 0) ∧
      ((∀ v ∈ w :: ws, v.1 / 64 < a / 64 + max 1 (cap a)) → bs.length = 1)) ∧
  ∀ (s : State) (n : Fin 128) (x : Xfer) (b : Burst) (rest : List Burst) (w : Nat),
    coreUp s.chip = true → s.chip.npwr n = 0 → (s.chip.ndl n).active = some x → x.queue = b :: rest → x.stage ≠ .held → AllUp s.chip →
    NoneWaits s.chip (s.prot.home w) b.req →
    (∀ id i, b.use = .xSrc n id i → b.kind = .read → s.prot.check x.pd b.addr 64 .read = .ok w →
      Completes (.transferBurst n) s fun t =>
        Presented s.chip t.chip (s.prot.home w)
          { b with tdom := s.prot.tdom w, bound := none, wait := 0, starved := false } ∧
        t.chip.ndl n = { s.chip.ndl n with active := some { x with queue := rest } } ∧
        t.chip.regs = s.chip.regs ∧ t.chip.threads = s.chip.threads ∧ KeepsOutside s t) ∧
    (∀ (id : Nat) (r : DRec), b.use = .xData n id b.desc → b.kind = .ack → NoFence s.chip → x.cur = some r →
      r.desc.addr = b.desc → x.closed = [] → s.prot.check x.pd b.addr (64 * b.len) .ackWrite = .ok w →
      Completes (.transferBurst n) s fun t =>
        Presented s.chip t.chip (s.prot.home w)
          { b with tdom := s.prot.tdom w, wait := 0, starved := false } ∧
        t.chip.ndl n = { s.chip.ndl n with active := some { x with
          queue := rest, cur := some { r with pend := r.pend + 1 } } } ∧
        t.chip.regs = s.chip.regs ∧ t.chip.threads = s.chip.threads ∧ KeepsOutside s t) ∧
    (∀ (id : Nat) (r : DRec), b.use = .xStatus n id b.desc → b.kind = .ack → NoFence s.chip → x.cur = none →
      x.closed = [r] → r.desc.addr = b.desc → s.prot.check x.pd b.addr 64 .ackWrite = .ok w →
      let st := fset r.status ⟨23, 0⟩ s.chip.ctr
      Completes (.transferBurst n) s fun t =>
        Presented s.chip t.chip (s.prot.home w)
          { b with data := [wordLine (b.desc + 24) st], tdom := s.prot.tdom w, wait := 0, starved := false } ∧
        t.chip.ndl n = { s.chip.ndl n with active := some { x with
          queue := rest, closed := [{ r with pend := r.pend + 1, status := st, statusSent := true }] } } ∧
        t.chip.regs = s.chip.regs ∧ t.chip.threads = s.chip.threads ∧ KeepsOutside s t) ∧
    (∀ id, b.use = .xDesc n id → b.kind = .read → s.prot.check x.pd b.desc 32 .read = .ok w →
      Completes (.transferBurst n) s fun t =>
        Presented s.chip t.chip (s.prot.home w)
          { b with tdom := s.prot.tdom w, bound := none, wait := 0, starved := false } ∧
        t.chip.ndl n = { s.chip.ndl n with active := some { x with queue := rest, fetching := true } } ∧
        KeepsButCounts s.chip t.chip [] ∧ t.chip.threads = s.chip.threads ∧ KeepsOutside s t)) ∧
  (∀ (s : State) (n : Fin 128),
    let ready := Chip.readyEntry s.env (s.chip.clearFree s.env) [] (s.chip.ndl n).cq
    let clean (e : CqEntry) (r : DRec) := e.spec = false ∧ e.stopped = false ∧ (∃ rest, e.descs = r :: rest) ∧ r.own = 0
    let goes (e : CqEntry) (r : DRec) (w : Nat) :=
      s.prot.check e.pd (r.desc.addr / 64 * 64) 64 .ackWrite = .ok w ∧ r.pend = 0 ∧ r.statusSent = true
    (∀ (e : CqEntry) (r : DRec) (w : Nat), ready = some (e, r) →
      let a := r.desc.addr
      coreUp s.chip = true → s.chip.npwr n = 0 → s.prot.check e.pd (a / 64 * 64) 64 .ackWrite = .ok w →
      NoneWaits s.chip (s.prot.home w) n → Completes (.completionOwnClear n) s fun t =>
        (∃ b, Presented s.chip t.chip (s.prot.home w) b ∧ b.use = .own n e.id a ∧ b.kind = .ack ∧ b.addr = a / 64 * 64 ∧
          b.len = 1 ∧ b.req = n.val ∧ b.tdom = s.prot.tdom w ∧
          b.data = [byteLine (a + 7) (r.desc.ver * 8 + r.desc.kind)]) ∧
        (t.chip.ndl n).cq = (s.chip.ndl n).cq.map (fun x =>
          if x.id = e.id then x.mapRec a fun r => { r with own := 1 } else x) ∧
        (∀ k, t.chip.slot n k = s.chip.slot n k) ∧ t.chip.threads = s.chip.threads ∧
        KeepsButCounts s.chip t.chip [] ∧ KeepsOutside s t) ∧
    (∀ (e : CqEntry) (r : DRec), (s.chip.ndl n).cq = [e] → clean e r →
      (∀ w, goes e r w → ready = if s.chip.tdDown (s.prot.tdom w) then none else some (e, r)) ∧
      (r.pend ≠ 0 → ready = none)) ∧
    (∀ (e f : CqEntry) (r q : DRec) (v w : Nat), (s.chip.ndl n).cq = [e, f] → clean e r → clean f q → e.t ≠ f.t →
      goes e r v → s.chip.tdDown (s.prot.tdom v) = true → goes f q w → s.chip.tdDown (s.prot.tdom w) = false →
      ready = some (f, q)) ∧
    (ready = none → Completes (.completionOwnClear n) s fun t => t = s))

/-- DESC_FETCH_DONE (R127, R128, R130): the read of a MOVE's descriptor has returned: with OWN, well formed, in windows
that let the transfer write and named by no fence, the transfer goes on to DATA with it; without OWN the thread leaves
its slot for a DESC wait with its PC at the MOVE, or, once words have been written, the transfer ends with code 6. For
every transfer and in-flight instruction, a read that returns poisoned, a descriptor that a fence names, a malformed
one, and one whose buffer or own words lie in no window that lets the transfer write them fault the thread with DESC,
STALE, DESC and PROT, in that order, and nothing is written; that the PROT of a buffer or of the descriptor's own words
has DIR 1 and access 0 in DETAIL is log 43, DEDUCED. TRANSFER_LEAVE_ACTIVE (R134, R136, R139, R154): a transfer or
in-flight instruction in CLOSE with nothing left to issue leaves the active set: wd takes its code and count, the next
register what COMPARE, EXPAND, PEDSUB, SUM and MAX give beside it, C the saturation of a SUM, F its failure, and its
descriptors an entry of the completion queue. That a transfer which closed no descriptor takes no entry, and needs no
room for one, is the model's choice (log 98). Clauses rest on log 124, DESIGN CHOICE; log 136, DESIGN CHOICE; log 137,
DESIGN CHOICE. -/
def Obligations.TransferEnds : Prop :=
  ((∀ (s : State) (n : Fin 128) (x : Xfer) (a : Nat) (l : Line) (bad : Bool) (sl : Slot),
    coreUp s.chip = true → s.chip.npwr n = 0 → (s.chip.ndl n).active = some x → isXfer x.instr = true → x.stage = .fetch →
    x.fetching = true → x.fetch = some a → x.search = none → (s.chip.ndl n).descIn = [(none, a, l, bad)] →
    s.chip.findSlot x.t = some (n.val, x.slot) → s.chip.slot n x.slot = some sl → sl.t = x.t → NoLocks s.chip →
    (s.chip.ndl n).shadow = none → (s.chip.ndl n).susp = [] → s.chip.faults.length < 256 → s.chip.heldBursts (fun b => b.thr == x.t && Chip.threadUse b.use) = [] →
    let d := Desc.ofLine a l
    let info (cause detail : Nat) : Chip.FaultInfo :=
      { Chip.FaultInfo.plain cause n x.pc detail with dv := true, daddr := a }
    let fails (i : Chip.FaultInfo) := Completes (.descFetchDone n) s fun t =>
      (t.chip.thr x.t).st = .fault ∧ (t.chip.thr x.t).kind = kFault ∧ (t.chip.thr x.t).arg = i.cause + n.val * 2 ^ 8 ∧
      t.chip.faults = s.chip.faults ++ [Chip.faultWords s.chip x.t sl.live.gen ((s.chip.faultSeq + 1) % 2 ^ 32) i] ∧
      (t.chip.ndl n).active = none ∧ (∀ p, t.chip.port p = s.chip.port p) ∧ KeepsOutside s t
    (bad = true → fails (info cDesc 1)) ∧
    (bad = false → d.own = true →
      (∀ f, f < 64 → s.chip.bit (.xfFence f) F.XfFence.VALID = true → (d.ver = 1 ∨ d.ver = 2) →
        s.chip.fld (.xfFence f) F.XfFence.ADDR = a / 32 →
        (∀ g, d.fenceGen = some g → s.chip.fld (.xfFence f) F.XfFence.GEN = g) →
        (∀ j, j < f → s.chip.bit (.xfFence j) F.XfFence.VALID = false) → fails (info cStale f)) ∧
      (NoFence s.chip →
        (d.malformed (kindsOf x.instr) = true → fails (info cDesc 0)) ∧
        (d.malformed (kindsOf x.instr) = false →
          let prot (p : Nat) (w : Option Nat) :=
            fails { info cProt (w.getD 255 * 256) with av := true, dir := true, addr := p }
          (∀ w, s.prot.check x.pd d.base d.span .ackWrite = .fail w → prot d.base w) ∧
          (∀ v w, s.prot.check x.pd d.base d.span .ackWrite = .ok v → s.prot.check x.pd a 32 .ackWrite = .fail w →
            prot a w))))) ∧
  ∀ (s : State) (n : Fin 128) (x : Xfer) (h : XHead) (cnt a : Nat) (l : Line), coreUp s.chip = true → s.chip.npwr n = 0 →
    (s.chip.ndl n).active = some x → x.instr = .move h cnt → h.spec = 0 → x.stage = .fetch → x.fetching = true → x.fetch = some a → x.search = none →
    (s.chip.ndl n).descIn = [(none, a, l, false)] →
    let d := Desc.ofLine a l
    (d.own = true → NoFence s.chip → d.malformed [0, 1] = false → Chip.bufferFail s.env x.pd d = none →
      Completes (.descFetchDone n) s fun t =>
        t.chip.ndl n = { s.chip.ndl n with
          descIn := []
          active := some { x with
            fetch := none, fetching := false, stage := .data, cur := some (DRec.of d), dwords := 0, pcnt := 0
            reverse := false } } ∧
        (∀ m, m ≠ n.val → t.chip.ndl m = s.chip.ndl m) ∧ t.chip.regs = s.chip.regs ∧ KeepsOutside s t) ∧
    (d.own = false → 0 < x.total → Completes (.descFetchDone n) s fun t =>
      t.chip.ndl n = { s.chip.ndl n with
        descIn := []
        active := some { x with res := 6, stage := .close, cur := none, forming := [], fetch := none, fetching := false } } ∧
      (∀ m, m ≠ n.val → t.chip.ndl m = s.chip.ndl m) ∧ t.chip.regs = s.chip.regs ∧ KeepsOutside s t) ∧
    (∀ (sl : Slot) (w : Nat), d.own = false → x.total = 0 → x.glen = 0 → s.chip.slot n x.slot = some sl →
      sl.live.cmd = none → Chip.hasCq (s.chip.ndl n) x.t = false → (s.chip.ndl n).shadow = none → (s.chip.ndl n).susp = [] →
      s.prot.check sl.live.pd (sl.live.dptr * 32) 32 .read = .ok w →
      Completes (.descFetchDone n) s fun t =>
        t.chip.slot n x.slot = none ∧ (t.chip.thr sl.t).st = .waiting ∧ (t.chip.thr sl.t).kind = kDesc ∧
        (t.chip.thr sl.t).arg = n.val ∧ (t.chip.thr sl.t).pc = x.pc ∧ (t.chip.ndl n).active = none ∧ KeepsOutside s t)) ∧
  (∀ (s : State) (n : Fin 128) (x : Xfer) (sl : Slot), coreUp s.chip = true → s.chip.npwr n = 0 →
    (s.chip.ndl n).active = some x → x.stage = .close → x.queue = [] →
    s.chip.unsent n x.t = false → ((s.chip.ndl n).cq.length < 8 ∨ x.closed = []) → (s.chip.ndl n).shadow = none → (s.chip.ndl n).susp = [] →
    s.chip.slot n x.slot = some sl →
    let wd := (headFields x.instr).wd
    let spec := Chip.isSpec x.instr
    let ends (code count : Nat) (second : Option W32) (carry : Option Bool) := Completes (.transferLeaveActive n) s fun t =>
      (let th := match second with | some v => sl.live.setReg (wd + 1) v | none => sl.live
        let th := (th.setReg wd (BitVec.ofNat 32 (code * 2 ^ 24 + min count 0xFFFFFF))).report (decide (code ≠ 0))
        t.chip.slot n x.slot = some { sl with live := match carry with | some b => { th with fC := b } | none => th }) ∧
      (∀ j, j ≠ x.slot → t.chip.slot n j = s.chip.slot n j) ∧ (t.chip.ndl n).active = none ∧
      ((∃ r ∈ x.closed, if spec then r.pend ≠ 0 else r.own ≠ 2) →
        ∃ e, (t.chip.ndl n).cq = (s.chip.ndl n).cq ++ [e] ∧ e.id = x.id ∧ e.t = x.t ∧ e.descs = x.closed ∧ e.spec = spec) ∧
      (x.closed = [] → (t.chip.ndl n).cq = (s.chip.ndl n).cq) ∧
      (∀ m, m ≠ n.val → t.chip.ndl m = s.chip.ndl m) ∧ t.chip.regs = s.chip.regs ∧ KeepsOutside s t
    let number (v : Nat) : Option W32 := some (BitVec.ofNat 32 v)
    ((∃ h cnt, x.instr = .move h cnt ∨ x.instr = .movec h cnt) ∨ (∃ h whole cnt, x.instr = .fill h whole cnt) ∨
      (∃ d ws mode sp chain wp, x.instr = .patch d ws mode sp chain wp) → ends x.res x.total none none) ∧
    (∀ h mask cnt, x.instr = .compare h mask cnt →
      (x.acc.firstDiff = none → ends x.res x.total (some 0xFFFFFFFF#32) none) ∧
      (∀ i, x.acc.firstDiff = some i → ends (if x.res = 0 then 14 else x.res) x.total (number i) none)) ∧
    (∀ h em chain val cb cnt, x.instr = .expand h em chain val cb cnt →
      ends x.res x.total (number (if em = 1 then x.acc.hits else x.n * 256)) none) ∧
    (∀ h zs cstep chain ch0 cnt, x.instr = .pedsub h zs cstep chain ch0 cnt →
      ends x.res x.total (number (if zs = 0 then x.n * 16 else x.acc.hits)) none) ∧
    (∀ h rop sgn tsrc wq mask cstep cnt, x.instr = .reduce h rop sgn tsrc wq mask cstep cnt →
      let code := if x.res = 0 ∧ x.acc.tainted = true then 15 else x.res
      let lo : Int := if sgn = 1 then -2147483648 else 0
      let hi : Int := if sgn = 1 then 2147483647 else 4294967295
      (∀ v, rop = 0 → x.acc.acc = [v] →
        ends code x.read (some (BitVec.ofInt 32 (max lo (min hi v)))) (some (decide (v < lo ∨ hi < v)))) ∧
      (∀ v j, rop = 1 → x.acc.best = some (v, j) → ends code j (some (BitVec.ofInt 32 v)) none) ∧
      (2 ≤ rop → ends x.res x.total none none)))

/-- POST (R129, R142): a COMMIT of an empty group waits for nothing; one of a group of one descriptor presents its
STATUS, with bit 7 of CODE cleared and the crossing of the post; a POST completes with the number of descriptors in wd,
and a COMMIT moves DPTR to the next of the last. A COMMIT takes an entry of the completion queue once its STATUS writes
are acknowledged (log 79, DEDUCED). The post of a bound thread whose class has its crossing watermark on sets LEVEL to
its lag in crossings, counts it late past HIGH, and raises NOTICE where it passes HIGH while armed; below LOW it arms
again (R39 to R41); any other post measures nothing. -/
def Obligations.Posts : Prop :=
  (∀ (s : State) (n : Fin 128) (k : Fin 8) (sl : Slot) (wd mode : Nat) (g : Grp), Issues s n k sl (.post wd mode) →
    mode < 2 → sl.grp = some g → sl.live.pc < 2 ^ 16 →
    let i : Instr := if mode = 0 then .postCommit n k else .postDiscard n k
    let act (l : List DRec) : Act :=
      { kind := (if mode = 0 then .commit else .discard), wd := wd, pc := sl.live.pc, descs := l, fetch := none,
        fetching := false, redo := false, go := true, arg := 0 }
    (g.descs = [] → Completes i s fun t =>
      IssuedOnly s t n k { issuedSlot sl (.post wd mode) (stepped sl.live) with act := some (act []) }) ∧
    (∀ (r : DRec) (w : Nat), g.descs = [r] → NoFence s.chip →
      s.prot.check sl.live.pd (r.desc.addr / 64 * 64) 64 .ackWrite = .ok w → NoneWaits s.chip (s.prot.home w) n →
      Completes i s fun t =>
        t.chip.slot n k = some { issuedSlot sl (.post wd mode) (stepped sl.live) with
          act := some (act [{ r with pend := 1, statusSent := true }]) } ∧
        (∃ b, Presented s.chip t.chip (s.prot.home w) b ∧ b.use = .actStatus n k r.desc.addr ∧ b.kind = .ack ∧
          b.addr = r.desc.addr / 64 * 64 ∧ b.len = 1 ∧
          b.data = [wordLine (r.desc.addr + 24)
            (if mode = 0 then fset (fset r.status ⟨63, 63⟩ 0) ⟨23, 0⟩ s.chip.ctr else 0#64)]) ∧
        KeepsOutside s t)) ∧
  (∀ (s : State) (n : Fin 128) (k : Fin 8) (sl : Slot) (a : Act), coreUp s.chip = true → s.chip.npwr n = 0 →
    s.chip.slot n k = some sl → sl.dead = false → sl.act = some a → (a.kind = .commit ∨ a.kind = .discard) → s.chip.postReady n sl.t a = true → Completes (.postComplete n k) s fun t =>
      let dptr := if a.kind = .commit then ((a.descs.getLast?.map fun r => r.desc.nextAddr / 32).getD sl.live.dptr)
        else sl.live.dptr
      t.chip.slot n k = some { landedSlot sl a { sl.live.setReg a.wd (BitVec.ofNat 32 a.descs.length) with
          fF := false, fZ := decide (a.descs.length = 0), dptr := dptr } with
        base := some (dptr * 32), grp := some { descs := [], fill := dptr * 32 } } ∧
      (∀ j, j ≠ k.val → t.chip.slot n j = s.chip.slot n j) ∧ t.chip.threads = s.chip.threads ∧
      t.chip.ports = s.chip.ports ∧ KeepsOutside s t ∧
      (let q := sl.live.cls
       let x := sl.live.bxing
       let lag : Int := signed 12 (unsigned 12 ((s.chip.ctr / 4096 : Nat) - ((x / 4096 : Nat) : Int))) * s.chip.olen +
         ((s.chip.ctr % 4096 : Nat) - ((x % 4096 : Nat) : Int))
       let high := s.chip.fld (.otWmCfg q) F.OtWmCfg.HIGH
       let low := s.chip.fld (.otWmCfg q) F.OtWmCfg.LOW
       let armed := s.chip.bit (.otWmLvl q) F.OtWmLvl.ARMED
       q < 4 → if a.kind = .commit ∧ sl.live.bv = true ∧ s.chip.bit (.otWmCfg q) F.OtWmCfg.EN = true then
           signed 16 (t.chip.fld (.otWmLvl q) F.OtWmLvl.LEVEL) = max (-32768) (min 32767 lag) ∧
           Counts s.chip t.chip (.otWmLvl q) F.OtWmLvl.LATE_CNT (b2n (decide ((high : Int) < lag))) ∧
           t.chip.bit (.otWmLvl q) F.OtWmLvl.NOTICE =
             (s.chip.bit (.otWmLvl q) F.OtWmLvl.NOTICE || (armed && decide ((high : Int) < lag))) ∧
           t.chip.bit (.otWmLvl q) F.OtWmLvl.ARMED =
             (decide (lag < min (low : Int) high) || (armed && decide (lag ≤ (high : Int))))
         else ∀ r, r < 4 → t.chip.rd (.otWmLvl r) = s.chip.rd (.otWmLvl r))) ∧
  (∀ (s : State) (n : Fin 128) (k : Fin 8) (sl : Slot) (a : Act), coreUp s.chip = true → s.chip.npwr n = 0 →
    s.chip.slot n k = some sl → sl.act = some a → a.kind = .commit → a.go = true → a.arg = 0 → a.descs ≠ [] → a.descs.all (fun r => r.pend == 0) = true →
    (s.chip.ndl n).cq.length < 8 → Completes (.postComplete n k) s fun t =>
      ∃ e, (t.chip.ndl n).cq = (s.chip.ndl n).cq ++ [e] ∧ e.t = sl.t ∧ e.slot = k.val ∧ e.post = true ∧ e.descs = a.descs ∧
        t.chip.slot n k = some { sl with act := some { a with arg := e.id + 1 } } ∧ t.chip.regs = s.chip.regs ∧
        t.chip.threads = s.chip.threads ∧ KeepsOutside s t)

/-- SEAL and DSET (R143, R144): a SEAL stands in its slot, beside what the thread still awaits, until no write of the
thread is unanswered and no POST of it is pending; DSET gives the thread a descriptor address, where its group is to be
found anew by reading (R129), or reads it; an address that is not aligned, or a group that is not empty, is refused; a
group that is not known is looked for by reading from DPTR first. FENCE_WRITE and FENCE_EXPIRE (R145, R146): a write of
VALID 1 takes the fields and starts the expiry at the counter; a write of VALID 0 while LIVE is 1 is discarded with
FENCE_LIVE; a fence whose expiry has come and which holds nothing is no longer valid, and one whose expiry has not come
stands. Clauses rest on log 92, DESIGN CHOICE. -/
def Obligations.SealsDsetsAndFences : Prop :=
  (∀ (s : State) (n : Fin 128) (k : Fin 8) (sl : Slot), sl.live.pc < 2 ^ 16 →
    let next := stepped sl.live
    (Issues s n k sl .seal → Completes (.seal n k) s fun t =>
      IssuedOnly s t n k { issuedSlot sl .seal next with sealing := some sl.live.pc }) ∧
    (sl.sealing ≠ none → s.chip.slot n k = some sl → s.chip.ableSlot s.env n k = false) ∧
    (coreUp s.chip = true → s.chip.npwr n = 0 → s.chip.slot n k = some sl → sl.sealing ≠ none →
      s.chip.writesOut sl.t = false → Chip.hasCq (s.chip.ndl n) sl.t = false →
      (∀ a, sl.act = some a → a.kind ≠ .commit ∧ a.kind ≠ .discard) → Completes (.sealComplete n k) s fun t =>
        t.chip.slot n k = some { sl with sealing := none } ∧ (∀ j, j ≠ k.val → t.chip.slot n j = s.chip.slot n j) ∧
        t.chip = { s.chip with needles := t.chip.needles } ∧ KeepsOutside s t) ∧
    (s.chip.slot n k = some sl →
      (s.chip.writesOut sl.t = true ∨ ∃ a, sl.act = some a ∧ (a.kind = .commit ∨ a.kind = .discard)) →
      Completes (.sealComplete n k) s fun t => t = s) ∧
    (∀ ws g, Issues s n k sl (.dset 0 ws 0) → sl.live.addressOk ws = true → sl.grp = some g →
      let addr := sl.live.address ws
      let slot (th : Thread) : Slot := { issuedSlot sl (.dset 0 ws 0) th with
        act := none, pend := (nextPend sl.pend (.dset 0 ws 0)).filter fun r => r.isSome }
      Completes (.dsetSet n k) s fun t => IssuedOnly s t n k (if g.descs = [] then
          { slot ({ next with dptr := addr / 32 % 2 ^ 43 }.report false) with
            base := some addr, grp := none }
        else slot (next.report true))) ∧
    (∀ ws, Issues s n k sl (.dset 0 ws 0) → sl.live.addressOk ws = false → Completes (.dsetSet n k) s fun t =>
      IssuedOnly s t n k (issuedSlot sl (.dset 0 ws 0) (next.report true))) ∧
    (∀ wd, Issues s n k sl (.dset wd 0 1) → Completes (.dsetGet n k) s fun t =>
      IssuedOnly s t n k (issuedSlot sl (.dset wd 0 1)
        (((next.setReg (wd + 1) (BitVec.ofNat 32 (sl.live.dptr * 32 / 2 ^ 32 % 2 ^ 16))).setReg wd
          (BitVec.ofNat 32 (sl.live.dptr * 32))).report false))) ∧
    (∀ ws w, Issues s n k sl (.dset 0 ws 0) → sl.live.addressOk ws = true → sl.grp = none →
      let at0 := sl.base.getD (sl.live.dptr * 32)
      s.prot.check sl.live.pd at0 32 .read = .ok w → NoneWaits s.chip (s.prot.home w) n →
      Completes (.dsetSet n k) s fun t =>
        t.chip.slot n k = some { issuedSlot sl (.dset 0 ws 0) next with
          act := some { kind := .dset, wd := 0, pc := sl.live.pc, descs := [], fetch := some at0, fetching := true,
                        redo := false, go := false, arg := sl.live.address ws } } ∧
        (∃ b, Presented s.chip t.chip (s.prot.home w) b ∧ b.use = .actDesc n k ∧ b.kind = .read ∧
          b.addr = at0 / 64 * 64 ∧ b.len = 1) ∧ KeepsOutside s t)) ∧
  (∀ (s : State) (k : Fin 64) (w : Word),
    let stored (t : State) := t.chip.fld (.xfFence k) F.XfFence.GEN = fget w F.XfFence.GEN ∧
      t.chip.fld (.xfFence k) F.XfFence.ADDR = fget w F.XfFence.ADDR ∧
      t.chip.bit (.xfFence k) F.XfFence.VALID = fbit w F.XfFence.VALID ∧ KeepsRegs s.chip t.chip [.xfFence k] ∧
      (∀ j, j ≠ k.val → t.chip.fenceSt j = s.chip.fenceSt j) ∧ t.chip.threads = s.chip.threads ∧ KeepsOutside s t
    (Ready s → fbit w F.XfFence.VALID = true → Completes (.fenceWrite k w) s fun t =>
      stored t ∧ t.chip.fenceSt k = { since := some s.chip.ctr, due := false }) ∧
    (Ready s → fbit w F.XfFence.VALID = false → s.chip.fenceLive k = false → Completes (.fenceWrite k w) s fun t =>
      stored t ∧ t.chip.fenceSt k = FenceSt.none ∧ t.chip.needles = s.chip.needles) ∧
    (Ready s → fbit w F.XfFence.VALID = false → s.chip.fenceLive k = true → Completes (.fenceWrite k w) s fun t =>
      t.chip.bit .xfStat F.XfStat.FENCE_LIVE = true ∧ KeepsRegs s.chip t.chip [.xfStat] ∧ OnlyRegs s.chip t.chip ∧
      KeepsOutside s t) ∧
    (coreUp s.chip = true → (s.chip.fenceSt k).due = true → s.chip.fenceLive k = false → Completes (.fenceExpire k) s fun t =>
      t.chip.bit (.xfFence k) F.XfFence.VALID = false ∧ t.chip.fenceSt k = FenceSt.none ∧
      KeepsRegs s.chip t.chip [.xfFence k] ∧ t.chip.needles = s.chip.needles ∧ KeepsOutside s t) ∧
    (((s.chip.fenceSt k).due = false ∨ s.chip.fenceLive k = true) → Completes (.fenceExpire k) s fun t => t = s))

/-- What the in-flight operations make of a source word (R157, R163, R166, R169 to R171): a row of PATCH is the samples
from C0 on in any format, padded; EXPAND DENSE gives 16 words of the value where the map bit is 1; EXPAND LIST and
PEDSUB of ZS 2 add a record per bit or survivor, a full word leaving, and end with terminators; PEDSUB of ZS 0 and 1
subtracts each lane's pedestal, held within 16 signed bits, ZS 1 giving 0 where a sample does not survive. Poison
reaches every word that holds what came of a poisoned word, in a later output word too where records of it are carried
over, and a poisoned word suppresses nothing. -/
def Obligations.InFlightOperations : Prop :=
  (∀ (p : Shape) (ws : List PWord) (q j : Nat), p.sf < 3 → q < p.w → j < p.spw → p.pad < 2 ^ 16 →
    ∃ o, (p.row ws)[q]? = some o ∧
      o.data.toNat / 2 ^ (p.b * j) % 2 ^ p.b =
        (if q * p.spw + j < p.cw then p.sample ws (p.c0 + (q * p.spw + j)) else p.pad % 2 ^ p.b) ∧
      (o.poison = true ↔ ∃ i, i < p.spw ∧ q * p.spw + i < p.cw ∧
        ∃ w, ws[(p.c0 + (q * p.spw + i)) / p.spw]? = some w ∧ w.poison = true)) ∧
  (∀ (a : OpAcc) (val j q k : Nat) (w : PWord), val < 2 ^ 16 → q < 16 → k < 16 →
    ∃ o, (opExpand a 0 val 0 j w).out[q]? = some o ∧ o.poison = w.poison ∧
      sample16 o.data k = if w.data.getLsbD (16 * q + k) then val else 0) ∧
  (∀ (a : OpAcc) (val cb j : Nat) (w : PWord), val < 2 ^ 16 → a.recs.length < 8 →
    let ks := (List.range 256).filter fun k => w.poison || w.data.getLsbD k
    let l := a.recs ++ ks.map fun k => (cb + j * 256 + k) % 2 ^ 16 * 2 ^ 16 + val
    let r := opExpand a 1 val cb j w
    r.acc.recs = l.drop (8 * (l.length / 8)) ∧ r.acc.hits = a.hits + ks.length ∧ r.out.length = l.length / 8 ∧
      (∀ q o, r.out[q]? = some o → (∀ i, i < 8 → o.data.toNat / 2 ^ (32 * i) % 2 ^ 32 = l.getD (8 * q + i) 0 % 2 ^ 32) ∧
        (o.poison = true ↔ w.poison = true ∨ q = 0 ∧ a.recPoison = true)) ∧
      (r.acc.recPoison = true ↔ (r.out = [] ∧ a.recPoison = true) ∨ (w.poison = true ∧ r.acc.recs ≠ []))) ∧
  (∀ (a : OpAcc) (zs ch0 cstep j k : Nat) (ent : Nat → Nat × Int × Bool) (w : PWord), k < 16 → zs < 2 →
    let v : Int := max (-32768) (min 32767 ((sample16 w.data k : Int) - (ent k).1))
    let kept := w.poison = true ∨ (ent k).2.2 = true ∨ (ent k).2.1 < v
    ∃ o, (opPedsub a zs ch0 cstep j ent w).out = [o] ∧ (zs = 0 ∨ kept → signed 16 (sample16 o.data k) = v) ∧
      (zs = 1 ∧ ¬ kept → sample16 o.data k = 0) ∧
      (o.poison = true ↔ w.poison = true ∨ ∃ i, i < 16 ∧ (ent i).2.2 = true)) ∧
  (∀ (a : OpAcc) (ch0 cstep j : Nat) (ent : Nat → Nat × Int × Bool) (w : PWord), a.recs.length < 4 →
    let v (k : Nat) : Int := max (-32768) (min 32767 ((sample16 w.data k : Int) - (ent k).1))
    let ks := (List.range 16).filter fun k => w.poison || (ent k).2.2 || decide ((ent k).2.1 < v k)
    let l := a.recs ++ ks.map fun k =>
      j % 2 ^ 16 * 2 ^ 48 + channelOf ch0 cstep j k * 2 ^ 32 + sample16 w.data k * 2 ^ 16 + unsigned 16 (v k)
    let r := opPedsub a 2 ch0 cstep j ent w
    let bad (i : Nat) := a.recs.length ≤ i ∧ ∃ k, ks[i - a.recs.length]? = some k ∧ (w.poison = true ∨ (ent k).2.2 = true)
    r.acc.recs = l.drop (4 * (l.length / 4)) ∧ r.acc.hits = a.hits + ks.length ∧ r.out.length = l.length / 4 ∧
      (∀ q o, r.out[q]? = some o → (∀ i, i < 4 → o.data.toNat / 2 ^ (64 * i) % 2 ^ 64 = l.getD (4 * q + i) 0 % 2 ^ 64) ∧
        (o.poison = true ↔ (q = 0 ∧ a.recPoison = true) ∨ ∃ i, i < 4 ∧ bad (4 * q + i))) ∧
      (r.acc.recPoison = true ↔ (r.out = [] ∧ a.recPoison = true) ∨ ∃ i, 4 * (l.length / 4) ≤ i ∧ bad i)) ∧
  (∀ (i : WInstr) (b per read : Nat) (a : OpAcc), a.recs.length < per →
    ((b = 32 ∧ per = 8 ∧ ∃ h chain val cb cnt, i = .expand h 1 chain val cb cnt) ∨
      (b = 64 ∧ per = 4 ∧ ∃ h cstep chain ch0 cnt, i = .pedsub h 2 cstep chain ch0 cnt)) →
    ∃ o, (opFlush i read a).out = [o] ∧ o.poison = a.recPoison ∧ ∀ j, j < per →
      o.data.toNat / 2 ^ (b * j) % 2 ^ b = if j < a.recs.length then a.recs.getD j 0 % 2 ^ b else 2 ^ b - 1)

/-- FILL, COMPARE and REDUCE (R158, R160, R161, R167, R168, R171): FILL repeats its 64-bit pattern; COMPARE finds a
difference in a lane of its mask or in poison, records the first index of one, counts a poisoned position once (log 127,
DESIGN CHOICE), and answers that index with code 14; SUM adds the lanes of its mask, signed or not, its result
saturating with C; MAX keeps the greatest and of equals the lowest index; LSUM adds lane by lane into two words; TMAP
gathers one bit per sample above its threshold, THR or the hit threshold of its channel, 256 to a word and the last
filled with 0 bits. Poison makes SUM and MAX TAINTED, code 15, and poisons what LSUM and TMAP write. Clauses rest on log
124, DESIGN CHOICE. -/
def Obligations.Reductions : Prop :=
  (∀ (c : Chip) (n k whole cnt q : Nat) (h : XHead), q < 4 →
    lane64 (c.makeXfer n k (.fill h whole cnt)).reg q = (if h.mode = 0 then (c.live n k).pair h.ws else 0#64)) ∧
  (∀ (mask : Nat) (a b : PWord), differs mask a b = true ↔
    a.poison = true ∨ b.poison = true ∨ ∃ k, k < 16 ∧ mask.testBit k = true ∧ sample16 a.data k ≠ sample16 b.data k) ∧
  (∀ (x : Xfer) (h : XHead) (mask cnt u : Nat), x.instr = .compare h mask cnt →
    (∀ i, x.acc.firstDiff = some i → (xferResult x u).second = some (BitVec.ofNat 32 i) ∧
      (xferResult x u).code = (if x.res = 0 then 14 else x.res)) ∧
    (x.acc.firstDiff = none → (xferResult x u).second = some 0xFFFFFFFF#32 ∧ (xferResult x u).code = x.res)) ∧
  (∀ (a : OpAcc) (v : Int) (sgn mask j : Nat) (thr : Nat → Int × Bool) (w : PWord), sgn < 2 → a.acc = [v] →
    let lane (k : Nat) : Int := if sgn = 1 then signed 16 (sample16 w.data k) else (sample16 w.data k : Int)
    let r := opReduce a 0 sgn mask j thr w
    r.out = [] ∧ r.acc.tainted = (a.tainted || w.poison) ∧
      r.acc.acc = [v + ((List.range 16).map fun k => if mask.testBit k then lane k else 0).sum]) ∧
  (∀ (x : Xfer) (h : XHead) (sgn tsrc wq mask cstep cnt u : Nat) (v : Int),
    x.instr = .reduce h 0 sgn tsrc wq mask cstep cnt → sgn < 2 → x.acc.acc = [v] →
    let lo : Int := if sgn = 1 then -2147483648 else 0
    let hi : Int := if sgn = 1 then 2147483647 else 4294967295
    let r := xferResult x u
    r.count = x.read ∧ r.second = some (BitVec.ofInt 32 (max lo (min hi v))) ∧
      r.carry = some (decide (v < lo ∨ hi < v)) ∧ r.code = if x.res = 0 ∧ x.acc.tainted = true then 15 else x.res) ∧
  (∀ (a : OpAcc) (sgn mask j : Nat) (thr : Nat → Int × Bool) (w : PWord), sgn < 2 →
    (a.best ≠ none ∨ ∃ k, k < 16 ∧ mask.testBit k = true) →
    let lane (k : Nat) : Int := if sgn = 1 then signed 16 (sample16 w.data k) else (sample16 w.data k : Int)
    ∃ v i, (opReduce a 1 sgn mask j thr w).acc.best = some (v, i) ∧
      (opReduce a 1 sgn mask j thr w).acc.tainted = (a.tainted || w.poison) ∧
      (∀ k, k < 16 → mask.testBit k = true → lane k ≤ v) ∧ (∀ u m, a.best = some (u, m) → u ≤ v) ∧
      (a.best = some (v, i) ∨ ∃ k, k < 16 ∧ mask.testBit k = true ∧ i = j * 16 + k ∧ v = lane k ∧
        (∀ k', k' < k → mask.testBit k' = true → lane k' < v) ∧ ∀ u m, a.best = some (u, m) → u < v)) ∧
  (∀ (a : OpAcc) (sgn mask j k : Nat) (thr : Nat → Int × Bool) (w : PWord), sgn < 2 → k < 16 →
    let lane : Int := if sgn = 1 then signed 16 (sample16 w.data k) else (sample16 w.data k : Int)
    (opReduce a 2 sgn mask j thr w).acc.acc.getD k 0 = a.acc.getD k 0 + (if mask.testBit k then lane else 0) ∧
      (opReduce a 2 sgn mask j thr w).acc.tainted = (a.tainted || w.poison)) ∧
  (∀ (h : XHead) (sgn tsrc wq mask cstep cnt read q k : Nat) (a : OpAcc), 0 < read → q < 2 → k < 8 →
    ∃ o, (opFlush (.reduce h 2 sgn tsrc wq mask cstep cnt) read a).out[q]? = some o ∧ o.poison = a.tainted ∧
      o.data.toNat / 2 ^ (32 * k) % 2 ^ 32 = unsigned 32 (a.acc.getD (8 * q + k) 0)) ∧
  (∀ (a : OpAcc) (sgn mask j : Nat) (thr : Nat → Int × Bool) (w : PWord), sgn < 2 → a.recs.length ≤ 240 →
    let lane (k : Nat) : Int := if sgn = 1 then signed 16 (sample16 w.data k) else (sample16 w.data k : Int)
    let l := a.recs ++ (List.range 16).map fun k => if mask.testBit k ∧ (thr k).1 < lane k then 1 else 0
    let bad := a.recPoison = true ∨ w.poison = true ∨ ∃ k, k < 16 ∧ mask.testBit k = true ∧ (thr k).2 = true
    let r := opReduce a 3 sgn mask j thr w
    (a.recs.length < 240 → r.out = [] ∧ r.acc.recs = l ∧ (r.acc.recPoison = true ↔ bad)) ∧
      (a.recs.length = 240 → r.acc.recs = [] ∧ r.acc.recPoison = false ∧ ∃ o, r.out = [o] ∧ (o.poison = true ↔ bad) ∧
        ∀ i, i < 256 → o.data.getLsbD i = decide (l.getD i 0 % 2 = 1))) ∧
  (∀ (h : XHead) (sgn tsrc wq mask cstep cnt read : Nat) (a : OpAcc), a.recs.length < 256 →
    let flush := opFlush (.reduce h 3 sgn tsrc wq mask cstep cnt) read a
    (a.recs = [] → flush.out = []) ∧
    (a.recs ≠ [] → ∃ o, flush.out = [o] ∧ o.poison = a.recPoison ∧
      ∀ i, i < 256 → o.data.getLsbD i = (decide (i < a.recs.length) && decide (a.recs.getD i 0 % 2 = 1)))) ∧
  (∀ (e : Env) (c : Chip) (x : Xfer) (h : XHead) (sgn tsrc wq mask cstep cnt : Nat) (ent : List (Nat × Nat × Bool))
    (w : PWord), x.instr = .reduce h 3 sgn tsrc wq mask cstep cnt → tsrc < 2 →
    let number (v : Nat) : Int := if sgn = 1 then signed 16 v else (v : Int)
    let one (k : Nat) := ent.getD k (0, 0, false)
    Chip.applyOp x ent w = opReduce x.acc 3 sgn mask x.read
      (fun k => if tsrc = 0 then (number (x.opA % 2 ^ 16), false) else (number (one k).2.1, (one k).2.2)) w ∧
    (∀ k, k < 16 → tsrc = 1 → (cstep ≠ 0 ∨ x.entries = []) →
      let ch := (x.opA / 2 ^ 16 + (if cstep = 1 then 16 * x.read else 0) + k) % 2 ^ 16
      let a := 0x800000 + x.set * 0x80000 + 0x40000 + ch / 4 * 8
      ((c.entriesFor e x).2.getD k (0, 0, false)).2 =
        ((memWord e.mem a).toNat / 2 ^ (16 * (ch % 4)) % 2 ^ 16, Tab.get false c.eccUe a))) ∧
  (∀ (e : Env) (c : Chip) (n : Nat) (x : Xfer) (r : DRec) (h : XHead) (mask cnt : Nat) (src ref : PWord),
    x.instr = .compare h mask cnt → x.read < x.n → x.dwords ≤ r.desc.len →
    Xfer.lineGot x.refs (r.desc.base + x.read * 32) = some ref → (c.srcWord e n x).2 = .word src →
    (r.desc.abortPoison = false ∨ src.poison = false ∧ ref.poison = false) →
    ∃ y, ((c.stepCompare e n x r mask).1.ndl n).active = some y ∧ y.read = x.read + 1 ∧ y.total = x.total + 1 ∧
      y.pcnt = x.pcnt + (if src.poison = true ∨ ref.poison = true then 1 else 0) ∧
      y.acc.firstDiff = (match x.acc.firstDiff with
        | some i => some i
        | none => if differs mask src ref then some x.read else none))

/-- ARBITRATION_ROUND (R216, R221, R223): the winner is granted and the pointer moves to it; the other requests wait one
round more; an unbound burst leaves with a free tag and its credits, a bound one waits for its first beat. Where no
request is eligible nobody wins. As an OWN clear leaves, DPTR passes its descriptor, in the slot or in the record of a
thread that has faulted (log 42, DEDUCED). After a message the next round, with a winner or without, is for the requests
(R230; log 56, DEDUCED). Clauses rest on log 134, DESIGN CHOICE. -/
def Obligations.ArbitrationRounds : Prop :=
  ∀ (s : State) (p : Fin 16) (pick : Nat), Live s → BetweenGrants s.chip p → (s.chip.irqWaits s.env p = false ∨ (s.chip.port p).msgTurn = true) →
    let q := s.chip.port p
    (∀ w : Burst, Wins s.chip p w → w.use ≠ .sample → NoFence s.chip → (∀ x ∈ s.chip.backlog, x.1 = p → x.2.req ≠ w.req) →
      Completes (.arbitrationRound p pick) s fun t =>
        (t.chip.port p).ptr = w.req ∧ (t.chip.port p).msgTurn = false ∧ (t.chip.port p).lastLine = none ∧
        (∀ y ∈ (t.chip.port p).waiting, y.req ≠ w.req) ∧
        (∀ x ∈ q.waiting, x.req ≠ w.req → ∃ y ∈ (t.chip.port p).waiting, y = { x with
          wait := if s.chip.unmasked x then min (x.wait + 1) 1023 else x.wait, starved := y.starved }) ∧
        (∃ tag ∈ Chip.freeTags q w.kind,
          (w.bound = none → (t.chip.port p).last = some (tag, { w with wait := 0 }) ∧ (t.chip.port p).granted = none ∧
            (t.chip.port p).outst = q.outst ++ (if w.kind = .posted then [] else [(tag, { w with wait := 0 }, [])]) ∧
            t.chip.rqHeld p + 1 = s.chip.rqHeld p ∧
            t.chip.wdHeld p + (if w.kind = .read then 0 else w.len) = s.chip.wdHeld p ∧
            (∀ (n id a : Nat) (e : CqEntry) (r : DRec) (sl : Slot), w.use = .own n id a →
              (s.chip.ndl n).cq.find? (·.id == id) = some e → e.descs.find? (·.desc.addr == a) = some r →
              s.chip.slot n e.slot = some sl → sl.t = e.t →
              let pass (th : Thread) : Thread := if th.dptr * 32 = a then { th with dptr := r.desc.nextAddr / 32 } else th
              (sl.dead = false → t.chip.slot n e.slot = some { sl with live := pass sl.live }) ∧
              (sl.dead = true → (s.chip.thr e.t).st = .fault → (s.chip.thr e.t).gen = e.gen →
                t.chip.thr e.t = pass (s.chip.thr e.t) ∧ t.chip.slot n e.slot = some sl))) ∧
          (w.bound ≠ none → (t.chip.port p).granted = some
              { burst := { w with wait := 0 }, tag := tag, waitBefore := w.wait } ∧
            (t.chip.port p).outst = q.outst ∧ t.chip.rd (.mpCred p) = s.chip.rd (.mpCred p))) ∧
        (∀ m, m ≠ p.val → t.chip.port m = s.chip.port m) ∧ (Chip.isOwn w.use = false → t.chip.threads = s.chip.threads) ∧
        KeepsButCounts s.chip t.chip [.mpCred p, .mpCnt p, .mpWait p, .mpStat p] ∧ KeepsOutside s t) ∧
    ((∀ x ∈ q.waiting, s.chip.eligible p [] x = false) → Completes (.arbitrationRound p pick) s fun t =>
      PortBecomes s.chip t.chip p { q with lastLine := none, msgTurn := false } ∧ KeepsButCounts s.chip t.chip [] ∧
      KeepsOutside s t)

/-- Trains (R218, R226, R229): the next burst of a train is granted while REQn is 1, and the train breaks where it is 0;
a train past the hold limit is revoked as HOLDACT says; FREEZE ends a train without an overrun. LASTn is 0 again once
the burst before has ended (R214). CREDIT_RETURN (R206): a credit counts up to 32 requests or 64 data beats; one beyond
is discarded and sets CROVF. Without READY a credit pulse is ignored (13 R284). -/
def Obligations.TrainsAndCredits : Prop :=
  ((∀ (s : State) (p : Fin 16) (b : Burst) (l n id a : Nat), Live s → (s.chip.port p).granted = none →
    (s.chip.port p).holder = some (b.req, l, id) → (s.chip.port p).waiting = [b] → b.bound = some l →
    b.use = .xData n id a → b.req < 133 → l < 256 →
    let q := s.chip.port p
    let revoked (t : State) := PortBecomes s.chip t.chip p 
        { q with holder := none, lastLine := none, waiting := [{ b with wait := 0 }] } ∧
      t.chip = { s.chip with regs := t.chip.regs, ports := t.chip.ports } ∧ KeepsOutside s t
    (s.chip.reqLevel l = true → s.chip.openTo p b = true → s.chip.lacking p b = [] → NoFence s.chip →
      Completes (.trainNextBurst p) s fun t => ∃ tag ∈ Chip.freeTags q b.kind,
        PortBecomes s.chip t.chip p { q with
          lastLine := none, waiting := [],
          granted := some { burst := { b with wait := 0 }, tag := tag, waitBefore := 0 } } ∧
        t.chip = { s.chip with ports := t.chip.ports } ∧ KeepsOutside s t) ∧
    (s.chip.reqLevel l = false → Completes (.trainNextBurst p) s fun t => revoked t ∧
      Counts s.chip t.chip (.rlStat l) F.RlStat.BREAKS 1 ∧ KeepsRegs s.chip t.chip [.rlStat l]) ∧
    (0 < s.chip.fld (.mpArb p) F.MpArb.HOLD_LIMIT → s.chip.fld (.arbRq b.req) F.ArbRq.HOLDACT < 2 →
      Completes (.holdLimitOverrun p) s fun t => revoked t ∧
        Counts s.chip t.chip (.arbRq b.req) F.ArbRq.HOLD_CNT 1 ∧ t.chip.bit (.mpStat p) F.MpStat.HOLD = true ∧
        (s.chip.fld (.arbRq b.req) F.ArbRq.HOLDACT = 1 → t.chip.bit (.arbRq b.req) F.ArbRq.MASK = true) ∧
        (s.chip.fld (.arbRq b.req) F.ArbRq.HOLDACT = 0 →
          t.chip.bit (.arbRq b.req) F.ArbRq.MASK = s.chip.bit (.arbRq b.req) F.ArbRq.MASK) ∧
        KeepsRegs s.chip t.chip [.arbRq b.req, .mpStat p]) ∧
    ((s.chip.fld (.mpArb p) F.MpArb.HOLD_LIMIT = 0 ∨ s.chip.fld (.arbRq b.req) F.ArbRq.HOLDACT = 2) →
      Completes (.holdLimitOverrun p) s fun t => PortBecomes s.chip t.chip p { q with lastLine := none } ∧
        t.chip = { s.chip with ports := t.chip.ports } ∧ KeepsOutside s t)) ∧
  (∀ (s : State) (p : Fin 16) (on : Bool), Ready s → Completes (.meshFreeze p on) s fun t =>
    t.chip.rd (.mpArb p) = fset (s.chip.rd (.mpArb p)) F.MpArb.FREEZE (if on then 1 else 0) ∧
    PortBecomes s.chip t.chip p { s.chip.port p with holder := if on then none else (s.chip.port p).holder } ∧
    KeepsRegs s.chip t.chip [.mpArb p] ∧ t.chip = { s.chip with regs := t.chip.regs, ports := t.chip.ports } ∧
    KeepsOutside s t)) ∧
  (∀ (s : State) (p : Fin 16) (data : Bool),
    let f := if data then F.MpCred.WD_HELD else F.MpCred.RQ_HELD
    let most := if data then 64 else 32
    (¬ Ready s → Completes (.creditReturn p data) s fun t => t = s) ∧
    (Ready s → s.chip.fld (.mpCred p) f < most → Completes (.creditReturn p data) s fun t =>
      t.chip.rd (.mpCred p) = fset (s.chip.rd (.mpCred p)) f (s.chip.fld (.mpCred p) f + 1) ∧
      KeepsRegs s.chip t.chip [.mpCred p] ∧ OnlyRegs s.chip t.chip ∧ KeepsOutside s t) ∧
    (Ready s → most ≤ s.chip.fld (.mpCred p) f → Completes (.creditReturn p data) s fun t =>
      t.chip.rd (.mpStat p) = fset (s.chip.rd (.mpStat p)) F.MpStat.CROVF 1 ∧
      KeepsRegs s.chip t.chip [.mpStat p] ∧ OnlyRegs s.chip t.chip ∧ KeepsOutside s t))

/-- MESH_READ_RESPONSE, MESH_WRITE_ACK and MESH_TIMEOUT (R207, R210, R211): beats gather under their tag; a read
answered whole goes to its requester, and so does an acknowledgement; an error or a timeout is recorded and reported.
The tag of a failed read stays outstanding while its other beats come, which are discarded (log 58, DESIGN CHOICE: the
order of the beats of one command). A late response of a retired tag frees it, unless it was retired by force or its
domain is forced down (R212, R281); a beat of a tag that is not outstanding sets UNEXP. Clauses rest on log 24, DEDUCED.
-/
def Obligations.MeshAnswers : Prop :=
  ∀ (s : State) (p : Fin 16) (tag : BitVec 7), Live s →
    let q := s.chip.port p
    let closed : Port := { q with
      outst := q.outst.filter fun o => o.1 ≠ tag.toNat, failing := q.failing.filter fun x => x ≠ tag.toNat }
    (∀ (b : Burst) (got : List (Line × Bool)), q.outst.find? (fun o => o.1 == tag.toNat) = some (tag.toNat, b, got) →
      (∀ ls : List (Line × Bool), b.kind = .read → ls ≠ [] →
        (got.length + ls.length < b.len → Completes (.meshReadResponse p tag ls 0) s fun t =>
          PortBecomes s.chip t.chip p { q with
            outst := q.outst.map fun o => if o.1 = tag.toNat then (tag.toNat, b, got ++ ls) else o } ∧
          t.chip = { s.chip with ports := t.chip.ports } ∧ KeepsOutside s t) ∧
        (got.length + ls.length = b.len → tag.toNat ∈ q.failing → Completes (.meshReadResponse p tag ls 0) s fun t =>
          PortBecomes s.chip t.chip p closed ∧ KeepsButCounts s.chip t.chip [] ∧
          t.chip = { s.chip with ports := t.chip.ports, regs := t.chip.regs, free := t.chip.free } ∧ KeepsOutside s t) ∧
        (∀ (u : Nat) (l : Line × Bool), b.use = .dwait u → (got ++ ls).head? = some l → got.length + ls.length = b.len →
          tag.toNat ∉ q.failing → Completes (.meshReadResponse p tag ls 0) s fun t =>
            PortBecomes s.chip t.chip p closed ∧ t.chip.dwaitIn = s.chip.dwaitIn ++ [(u, b.desc, l.1, l.2)] ∧
            KeepsButCounts s.chip t.chip [] ∧ KeepsOutside s t)) ∧
      (∀ (err : BitVec 2) (m blk : Nat), b.kind = .read → b.use = .refill m blk (s.chip.spool m).run → err ≠ 0 →
        tag.toNat ∉ q.failing → got.length < b.len → Completes (.meshReadResponse p tag [] err) s fun t =>
          PortBecomes s.chip t.chip p (if got.length + 1 = b.len then closed else { q with
            outst := q.outst.map fun o => if o.1 = tag.toNat then (tag.toNat, b, got ++ [(0#512, false)]) else o,
            failing := q.failing ++ [tag.toNat] }) ∧
          FailureNoted s.chip t.chip p err.toNat b (b.addr + 64 * got.length) ∧
          (t.chip.spool m).refillIn = (s.chip.spool m).refillIn ++ [(blk, [], true)] ∧ KeepsOutside s t) ∧
      (∀ m blk : Nat, b.kind = .ack → b.use = .spill m blk (s.chip.spool m).run →
        Completes (.meshWriteAck p tag 0) s (fun t =>
          PortBecomes s.chip t.chip p closed ∧ (t.chip.spool m).spillIn = (s.chip.spool m).spillIn ++ [(blk, false)] ∧
          KeepsButCounts s.chip t.chip [] ∧ KeepsOutside s t) ∧
        (∀ err : BitVec 2, err ≠ 0 → Completes (.meshWriteAck p tag err) s fun t =>
          PortBecomes s.chip t.chip p closed ∧ FailureNoted s.chip t.chip p err.toNat b b.addr ∧
          (t.chip.spool m).spillIn = (s.chip.spool m).spillIn ++ [(blk, true)] ∧ KeepsOutside s t) ∧
        (s.chip.fld (.mpCtl p) F.MpCtl.TMO ≠ 0 → tag.toNat ∉ q.failing → Completes (.meshTimeout p tag) s fun t =>
          PortBecomes s.chip t.chip p { closed with retired := q.retired ++ [(tag.toNat, b.tdom, false)] } ∧
          FailureNoted s.chip t.chip p 4 b b.addr ∧
          (t.chip.spool m).spillIn = (s.chip.spool m).spillIn ++ [(blk, true)] ∧ KeepsOutside s t)) ∧
      (s.chip.fld (.mpCtl p) F.MpCtl.TMO ≠ 0 → tag.toNat ∈ q.failing → Completes (.meshTimeout p tag) s fun t =>
        PortBecomes s.chip t.chip p { closed with retired := q.retired ++ [(tag.toNat, b.tdom, false)] } ∧
        t.chip = { s.chip with ports := t.chip.ports } ∧ KeepsOutside s t) ∧
      (s.chip.fld (.mpCtl p) F.MpCtl.TMO = 0 → Completes (.meshTimeout p tag) s fun t => t = s)) ∧
    ((∀ o ∈ q.outst, o.1 ≠ tag.toNat) → (∀ o ∈ q.undrained, o.1 ≠ tag.toNat) → ∀ err : BitVec 2,
      ((∀ o ∈ q.retired, o.1 ≠ tag.toNat) → Completes (.meshWriteAck p tag err) s fun t =>
        t.chip.rd (.mpStat p) = fset (s.chip.rd (.mpStat p)) F.MpStat.UNEXP 1 ∧
        KeepsRegs s.chip t.chip [.mpStat p] ∧ OnlyRegs s.chip t.chip ∧ KeepsOutside s t) ∧
      (∀ (d : Nat) (forced : Bool), q.retired.find? (fun o => o.1 == tag.toNat) = some (tag.toNat, d, forced) →
        (Tab.get false s.chip.pwr.tdForce d = true → Completes (.meshWriteAck p tag err) s fun t => t = s) ∧
        (Tab.get false s.chip.pwr.tdForce d = false → Completes (.meshWriteAck p tag err) s fun t =>
          PortBecomes s.chip t.chip p { q with
            retired := if forced then q.retired else q.retired.filter fun o => o.1 ≠ tag.toNat } ∧
          t.chip.rd (.mpStat p) = fset (s.chip.rd (.mpStat p)) F.MpStat.LATE_RSP 1 ∧
          KeepsRegs s.chip t.chip [.mpStat p] ∧ KeepsOutside s t)))

/-- REQ_RISE and REQ_FALL (R217, R219): a rise ends the REQ waits on an enabled line with F 0; a fall before the first
beat of a granted burst sends it back to waiting with its wait, a later one lets it complete and marks the line (log 55,
DEDUCED: the place of a burst sent back). RL_CFG_WRITE and ARB_RQ_WRITE (R215, R226, R228): a line's range and burst
length change only while it is disabled, and a write of them while it is enabled sets CFG_LOCKED (log 39, DEDUCED), but
takes EN, and EN 0 ends the line's REQ waits with F 1 (R219); a requester's register takes its mask, class override and
HOLDACT, but HOLDACT keeps its value where 3 is written, and a request of it whose class changes waits from 0 again.
Clauses rest on log 9, DEDUCED. -/
def Obligations.RequestLines : Prop :=
  (∀ (s : State) (l : Fin 256),
    let raised (t : State) (v : Bool) := (∀ m, t.chip.reqLevel m = if m = l.val then v else s.chip.reqLevel m) ∧ KeepsOutside s t
    (s.chip.bit (.rlCfg l) F.RlCfg.EN = false → Completes (.reqRise l) s fun t =>
      raised t true ∧ t.chip = { s.chip with reqn := t.chip.reqn }) ∧
    (∀ (u : Nat) (th : Thread), coreUp s.chip = true → s.chip.bit (.rlCfg l) F.RlCfg.EN = true → s.chip.threads = [(u, th)] → th.st = .waiting →
      th.kind = kReq → th.arg % 256 = l.val → AtHome s.chip u → Completes (.reqRise l) s fun t =>
        raised t true ∧ Readied s.chip t.chip u th.aff { th with kind := kNone, arg := 0, fF := false, fZ := true } ∧
        KeepsButCounts s.chip t.chip [.ndlStat th.aff]) ∧
    (∀ (p : Fin 16) (q : Port) (g : Train), s.chip.ports = [(p.val, q)] → q.granted = some g → g.burst.bound = some l.val →
      ((∀ x ∈ q.waiting, x.req ≠ g.burst.req) → Completes (.reqFall l false) s fun t =>
        raised t false ∧ PortBecomes s.chip t.chip p { q with
          granted := none, holder := none, waiting := q.waiting ++ [{ g.burst with wait := g.waitBefore }] } ∧
        Counts s.chip t.chip (.rlStat l) F.RlStat.EARLY 1 ∧ KeepsButCounts s.chip t.chip [.rlStat l]) ∧
      ((∃ x ∈ q.waiting, x.req = g.burst.req) → Completes (.reqFall l false) s fun t =>
        raised t false ∧ PortBecomes s.chip t.chip p { q with granted := none, holder := none } ∧
        t.chip.backlog = (p.val, { g.burst with wait := g.waitBefore }) :: s.chip.backlog ∧
        Counts s.chip t.chip (.rlStat l) F.RlStat.EARLY 1 ∧ KeepsButCounts s.chip t.chip [.rlStat l]) ∧
      (∀ st, g.burst.use = .harvest st → g.burst.kind = .ack → s.chip.backlog = [] → Completes (.reqFall l true) s fun t =>
        raised t false ∧ PortBecomes s.chip t.chip p { q with
          granted := none, holder := none, lastLine := some l.val,
          outst := q.outst ++ [(g.tag, g.burst, [])], last := some (g.tag, g.burst) } ∧
        Counts s.chip t.chip (.rlStat l) F.RlStat.WDRAW 1 ∧ t.chip.bit (.rlStat l) F.RlStat.REQ_WITHDRAWN = true ∧
        KeepsButCounts s.chip t.chip [.rlStat l, .mpCred p, .mpCnt p]))) ∧
  ((∀ (s : State) (l : Fin 256) (data : Word), Ready s →
    let same (t : State) (r : Reg) := KeepsRegs s.chip t.chip [r] ∧ KeepsOutside s t
    (s.chip.bit (.rlCfg l) F.RlCfg.EN = false →
      Completes (.rlCfgWrite l true data) s (fun t =>
        t.chip.fld (.rlBase l) F.RlBase.ADDR = fget data F.RlBase.ADDR ∧ same t (.rlBase l)) ∧
      Completes (.rlCfgWrite l false data) s (fun t =>
        (∀ f ∈ [F.RlCfg.EN, F.RlCfg.SIZE, F.RlCfg.MAXB], t.chip.fld (.rlCfg l) f = fget data f) ∧ same t (.rlCfg l))) ∧
    (s.chip.bit (.rlCfg l) F.RlCfg.EN = true →
      Completes (.rlCfgWrite l true data) s (fun t =>
        t.chip.rd (.rlStat l) = fset (s.chip.rd (.rlStat l)) F.RlStat.CFG_LOCKED 1 ∧ same t (.rlStat l)) ∧
      (∀ (u : Nat) (th : Thread), fget data F.RlCfg.EN = 0 → s.chip.threads = [(u, th)] → th.st = .waiting → th.kind = kReq →
        th.arg % 256 = l.val → AtHome s.chip u → Completes (.rlCfgWrite l false data) s fun t =>
          Readied s.chip t.chip u th.aff { th with kind := kNone, arg := 0, fF := true, fZ := false } ∧
          t.chip.rd (.rlCfg l) = fset (s.chip.rd (.rlCfg l)) F.RlCfg.EN 0 ∧
          KeepsButCounts s.chip t.chip [.rlCfg l, .rlStat l, .ndlStat th.aff] ∧ KeepsOutside s t) ∧
      (s.chip.threads = [] ∨ fget data F.RlCfg.EN = 1 → Completes (.rlCfgWrite l false data) s fun t =>
        t.chip.rd (.rlCfg l) = fset (s.chip.rd (.rlCfg l)) F.RlCfg.EN (fget data F.RlCfg.EN) ∧
        t.chip.rd (.rlStat l) = fset (s.chip.rd (.rlStat l)) F.RlStat.CFG_LOCKED 1 ∧
        KeepsRegs s.chip t.chip [.rlCfg l, .rlStat l] ∧ KeepsOutside s t))) ∧
  (∀ (s : State) (r : Fin 133) (data : Word), Ready s → Completes (.arbRqWrite r data) s fun t =>
    let before (b : Burst) := if s.chip.bit (.arbRq r) F.ArbRq.OVR then s.chip.fld (.arbRq r) F.ArbRq.OCLASS else b.cls
    let after (b : Burst) := if fbit data F.ArbRq.OVR then fget data F.ArbRq.OCLASS else b.cls
    let judged (b : Burst) : Burst := if b.req = r ∧ before b ≠ after b then { b with wait := 0 } else b
    (∀ p, t.chip.port p = { s.chip.port p with waiting := (s.chip.port p).waiting.map judged }) ∧
    (∀ f ∈ [F.ArbRq.MASK, F.ArbRq.OVR, F.ArbRq.OCLASS], t.chip.fld (.arbRq r) f = fget data f) ∧
    t.chip.fld (.arbRq r) F.ArbRq.HOLDACT =
      (if fget data F.ArbRq.HOLDACT = 3 then s.chip.fld (.arbRq r) F.ArbRq.HOLDACT else fget data F.ArbRq.HOLDACT) ∧
    KeepsRegs s.chip t.chip [.arbRq r] ∧ t.chip = { s.chip with regs := t.chip.regs, ports := t.chip.ports } ∧
    KeepsOutside s t))

/-- IRQ_MESSAGE and IRQ_ACK (R302): a line with MSI and ARMED whose level is 1 sends its data to its address and clears
ARMED; a message that its domain may not write is counted as failed; ACK sets ARMED, which stays 1 while the level is 0.
After a message the port's next turn is for a request that can win a round (R230; log 56, DEDUCED). -/
def Obligations.InterruptMessages : Prop :=
  (∀ (s : State) (k : Fin 64), Ready s →
    (∀ src, src < 1024 → s.chip.bit (.irqRt src) F.IrqRt.EN = true → s.chip.fld (.irqRt src) F.IrqRt.LINE = k.val →
      s.chip.asserted s.env src = false) →
    Completes (.irqMessage k) s (fun t => t = s) ∧
    Completes (.irqAck k) s fun t =>
      t.chip.rd (.irqLnCfg k) = fset (s.chip.rd (.irqLnCfg k)) F.IrqLnCfg.ARMED 1 ∧
      KeepsRegs s.chip t.chip [.irqLnCfg k] ∧ OnlyRegs s.chip t.chip ∧ KeepsOutside s t) ∧
  (∀ (s : State) (k : Fin 64) (src : Nat), Ready s → src < 1024 →
    s.chip.bit (.irqRt src) F.IrqRt.EN = true → s.chip.fld (.irqRt src) F.IrqRt.LINE = k.val →
    s.chip.asserted s.env src = true → s.chip.bit (.irqLnCfg k) F.IrqLnCfg.MSI = true →
    let a := s.chip.fld (.irqLnAddr k) F.IrqLnAddr.ADDR * 8
    let c := s.prot.check (s.chip.fld (.irqLnCfg k) F.IrqLnCfg.PD) a 8 .postedWrite
    let disarmed (t : State) := t.chip.rd (.irqLnCfg k) = fset (s.chip.rd (.irqLnCfg k)) F.IrqLnCfg.ARMED 0 ∧ KeepsOutside s t
    ∀ i, (i = Instr.irqMessage k ∧ s.chip.bit (.irqLnCfg k) F.IrqLnCfg.ARMED = true) ∨ i = Instr.irqAck k →
      (∀ w, c = .ok w → AllUp s.chip →
        let p := s.prot.home w
        BetweenGrants s.chip p → s.chip.bit (.mpArb p) F.MpArb.FREEZE = false → 0 < s.chip.rqHeld p → 0 < s.chip.wdHeld p →
        ((s.chip.port p).msgTurn = false ∨ (s.chip.port p).waiting = []) →
        Completes i s fun t =>
          (∃ b, (t.chip.port p).last = some (0, b) ∧ b.use = .irq k ∧ b.kind = .posted ∧ b.req = 255 ∧ b.addr = a / 64 * 64 ∧
            b.data = [wordLine a (BitVec.ofNat 64 (s.chip.fld (.irqLnCfg k) F.IrqLnCfg.DATA + k * 2 ^ 32))]) ∧
          (t.chip.port p).outst = (s.chip.port p).outst ∧ (t.chip.port p).ptr = (s.chip.port p).ptr ∧
          (t.chip.port p).waiting = (s.chip.port p).waiting ∧ (t.chip.port p).msgTurn = true ∧ (∀ m, m ≠ p → t.chip.port m = s.chip.port m) ∧ disarmed t ∧
          Counts s.chip t.chip (.irqLnStat k) F.IrqLnStat.MSI_SENT 1 ∧
          KeepsButCounts s.chip t.chip [.irqLnCfg k, .irqLnStat k, .mpCred p, .mpCnt p]) ∧
      (∀ w, c = .fail w → Completes i s fun t => disarmed t ∧
        Counts s.chip t.chip (.irqLnStat k) F.IrqLnStat.MSI_FAIL 1 ∧
        KeepsRegs s.chip t.chip [.irqLnCfg k, .irqLnStat k] ∧ OnlyRegs s.chip t.chip))

/-- The power-down of a mesh target domain (R212, R280, R281): PDREQ is acknowledged once nothing to the domain is left;
its fall, or FORCE's, frees the tags that FORCE retired and wakes the threads parked on the domain; FORCE fails what is
outstanding with FORCED_PD, keeps the tags and raises PDACK at once. An OWN clear that waits for the domain comes back
to its entry, which waits (R141; log 42, DEDUCED). A port comes to a break point as PDACK rises and as FORCE does; where
no round can be held there, the turn after a message ends (R230; log 56, DEDUCED). Block power domains (R282): a needle
that holds nothing is gated and acknowledged; its return begins a wake; FORCE gates it at once, in retention and the
quiesce before it too, and takes SEAM down there; SEAM is acknowledged once it is OFF; CORE's PDREQ begins the quiesce
of retention, and its FORCE turns CORE off (log 25, DEDUCED). Each rise or fall of PDREQ, PDACK and FORCE is a POWER
entry of the black box (R304): the kind of a falling PDACK is free, and a falling FORCE has FORCE's (log 114, DESIGN
CHOICE). Clauses rest on log 9, DEDUCED. -/
def Obligations.PowerDomains : Prop :=
  (∀ (s : State) (d : Fin 64),
    let lines (t : State) (req force ack : Bool) := Tab.get false t.chip.pwr.tdReq d = req ∧
      Tab.get false t.chip.pwr.tdForce d = force ∧ Tab.get false t.chip.pwr.tdAck d = ack ∧
      (∀ e, e ≠ d.val → t.chip.tdDown e = s.chip.tdDown e ∧
        Tab.get false t.chip.pwr.tdAck e = Tab.get false s.chip.pwr.tdAck e) ∧ KeepsOutside s t
    let req := Tab.get false s.chip.pwr.tdReq d
    let force := Tab.get false s.chip.pwr.tdForce d
    let ack := Tab.get false s.chip.pwr.tdAck d
    let waits (b : Burst) : Bool := Chip.isOwn b.use && b.tdom == d.val
    let turn (p : Nat) : Bool := (s.chip.port p).msgTurn && !s.chip.bit (.mpArb p) F.MpArb.FREEZE && (s.chip.arbPick p).isSome
    ((s.chip.heldBursts waits = [] ∨ coreUp s.chip = false) → Completes (.tdPdreqRise d) s fun t =>
      lines t true force ack ∧ t.chip = { s.chip with pwr := t.chip.pwr }) ∧
    (∀ (p : Fin 16) (q : Port) (b : Burst) (n id a : Nat), coreUp s.chip = true → s.chip.ports = [(p.val, q)] →
      q.granted = none → q.waiting = [b] → s.chip.backlog = [] → b.use = .own n id a → b.tdom = d.val →
      Completes (.tdPdreqRise d) s fun t =>
        lines t true force ack ∧ PortBecomes s.chip t.chip p { q with waiting := [] } ∧
        (t.chip.ndl n).cq = (s.chip.ndl n).cq.map (fun x =>
          if x.id = id then x.mapRec a fun r => { r with own := 0 } else x) ∧ t.chip.regs = s.chip.regs) ∧
    (coreUp s.chip = true → req = true → (∀ q ∈ s.chip.ports, q.2.granted = none ∧ q.2.holder = none ∧ ∀ o ∈ q.2.outst, o.2.1.tdom ≠ d.val) →
      Completes (.tdPdackRise d) s fun t => lines t true force true ∧
        (∀ p, p < 16 → t.chip.port p = { s.chip.port p with lastLine := none, msgTurn := turn p }) ∧
        t.chip = { s.chip with pwr := t.chip.pwr, ports := t.chip.ports }) ∧
    (coreUp s.chip = true → s.chip.threads = [] →
      let freed (t : State) := (∀ p, t.chip.port p =
          { s.chip.port p with retired := (s.chip.port p).retired.filter fun r => r.2 ≠ (d.val, true) }) ∧
        t.chip.regs = s.chip.regs
      (force = false → Completes (.tdPdreqFall d) s fun t => lines t false false false ∧ freed t) ∧
      (req = false → Completes (.tdForceFall d) s fun t => lines t false false false ∧ freed t)) ∧
    (∀ (u : Nat) (th : Thread), coreUp s.chip = true → force = false → s.chip.threads = [(u, th)] → th.st = .parked → th.kind = kPark →
      th.arg = parkTarget * 2 ^ 24 + d → AtHome s.chip u → Completes (.tdPdreqFall d) s fun t =>
        lines t false false false ∧ Readied s.chip t.chip u th.aff { th with kind := kNone, arg := 0 }) ∧
    (∀ (p : Fin 16) (q : Port) (tag m blk : Nat) (b : Burst) (got : List (Line × Bool)), s.chip.ports = [(p.val, q)] → q.granted = none →
      q.holder = none → q.outst = [(tag, b, got)] → b.tdom = d.val →
      b.use = .spill m blk (s.chip.spool m).run → tag ∉ q.failing → coreUp s.chip = true → s.chip.backlog = [] →
      (∀ x ∈ q.waiting, Chip.isOwn x.use = false) → Completes (.tdForce d) s fun t => lines t req true true ∧
        PortBecomes s.chip t.chip p { q with
          outst := [], retired := q.retired ++ [(tag, d.val, true)], lastLine := none, msgTurn := turn p } ∧
        FailureNoted s.chip t.chip p 3 b b.addr ∧ (t.chip.spool m).spillIn = (s.chip.spool m).spillIn ++ [(blk, true)])) ∧
  ((∀ (s : State) (n : Nat) (h : n < 130), Ready s →
    let b : Fin 130 := ⟨n, h⟩
    let lines (t : State) (req force ack : Bool) := Tab.get false t.chip.pwr.bdReq n = req ∧
      Tab.get false t.chip.pwr.bdForce n = force ∧ Tab.get false t.chip.pwr.bdAck n = ack ∧
      (∀ m, m ≠ n → t.chip.bdDown m = s.chip.bdDown m ∧
        Tab.get false t.chip.pwr.bdAck m = Tab.get false s.chip.pwr.bdAck m) ∧ KeepsOutside s t
    let req := Tab.get false s.chip.pwr.bdReq n
    let force := Tab.get false s.chip.pwr.bdForce n
    let ack := Tab.get false s.chip.pwr.bdAck n
    let takes := s.chip.bit .bbStat F.BbStat.FROZEN = false ∧ (s.chip.rd .bbTypeen).toNat / 2 ^ 9 % 2 = 1 ∧
      s.chip.bb.fifo.length < 29
    let noted (t : State) (l : List Nat) := takes → ∃ evs, t.chip.bb.fifo = s.chip.bb.fifo ++ evs ∧
      evs.map (fun ev => (ev.ty, ev.p0, ev.p1)) = l.map fun k => (0x09, BitVec.ofNat 64 (n + k * 2 ^ 8), 0#64)
    (n < 128 → s.chip.ndl n = Needle.idle → s.chip.pwr.wakeQ = [] →
      (req = false → Completes (.bdPdreqRise b) s fun t =>
        lines t true force ack ∧ noted t [0] ∧ KeepsRegs s.chip t.chip [.bbStat] ∧ t.chip.threads = s.chip.threads) ∧
      (req = true → ack = false → Completes (.bdPdackRise b) s fun t =>
        lines t true force true ∧ t.chip.npwr n = 2 ∧ noted t [1] ∧ KeepsRegs s.chip t.chip [.ndlStat n, .bbStat] ∧
        t.chip.threads = s.chip.threads) ∧
      (req = true → s.chip.fld (.ndlCtl n) F.NdlCtl.EN = 0 → s.chip.npwr n = 2 → s.chip.pllLocked n = true →
        s.chip.wakingNow < 8 → Completes (.bdPdreqFall b) s fun t =>
          lines t false false false ∧ t.chip.npwr n = 3 ∧ KeepsRegs s.chip t.chip [.ndlStat n, .bbStat] ∧
          (∃ k, k < 8 ∧ noted t (2 :: ((if force then [3] else []) ++ if ack then [k] else []))) ∧
          t.chip.threads = s.chip.threads) ∧
      (force = true → Completes (.bdForce b) s fun t => t = s) ∧
      (force = false → s.chip.ports = [] → s.chip.backlog = [] → Completes (.bdForce b) s fun t =>
        lines t req true true ∧ t.chip.npwr n = 2 ∧ noted t (3 :: if ack then [] else [1]) ∧
        KeepsRegs s.chip t.chip [.ndlStat n, .bbStat] ∧ t.chip.threads = s.chip.threads)) ∧
    (n = 128 → req = true → s.chip.rstate = 0 → Completes (.bdPdackRise b) s fun t =>
      lines t true force true ∧ noted t (if ack then [] else [1]) ∧ KeepsRegs s.chip t.chip [.bbStat]) ∧
    (n = 129 → req = false → Completes (.bdPdreqRise b) s fun t =>
      t.chip.pwr.phase = .quiesce ∧ t.chip.pwr.forRetention = true ∧ KeepsOutside s t)) ∧
  (∀ s : State, Tab.get false s.chip.pwr.bdForce 129 = false → Completes (.bdForce 129) s fun t => t.chip.pwr.phase = .coreOff ∧ ¬ Live t ∧ KeepsOutside s t) ∧
  (∀ (s : State) (b : Fin 130), s.chip.pwr.phase = .retention → b.val < 128 → Tab.get false s.chip.pwr.bdReq b = true →
    Tab.get false s.chip.pwr.bdAck b = false → s.chip.ndl b = Needle.idle → s.chip.npwr b = 2 →
    Completes (.bdPdackRise b) s fun t => Tab.get false t.chip.pwr.bdAck b = true ∧ t.chip.ndl b = Needle.idle ∧
      t.chip.npwr b = 2 ∧ t.chip.pwr.phase = .retention ∧ KeepsRegs s.chip t.chip [.bbStat] ∧ KeepsOutside s t) ∧
  (∀ s : State, s.chip.pwr.phase = .retention → Tab.get false s.chip.pwr.bdReq 129 = true →
    Completes (.bdPdackRise 129) s fun t => Tab.get false t.chip.pwr.bdAck 129 = true ∧ KeepsRegs s.chip t.chip [.bbStat] ∧
      KeepsOutside s t) ∧
  (∀ (s : State) (b : Fin 130), b.val < 129 → Tab.get false s.chip.pwr.bdForce b = false →
    (s.chip.pwr.phase = .retention ∨ s.chip.pwr.phase = .quiesce ∧ s.chip.pwr.forRetention = true) →
    Completes (.bdForce b) s fun t => Tab.get false t.chip.pwr.bdForce b = true ∧ Tab.get false t.chip.pwr.bdAck b = true ∧
      (b.val < 128 → t.chip.npwr b = 2 ∧ t.chip.needles = s.chip.needles ∧ t.chip.threads = s.chip.threads ∧
        KeepsRegs s.chip t.chip [.ndlStat b, .bbStat]) ∧
      (b.val = 128 → t.chip.rstate = 0) ∧ t.chip.pwr.phase = s.chip.pwr.phase ∧ KeepsOutside s t))

/-- Cold and CORE loss resets, and the start-up (R54, R283, R286, R288): after a cold reset the memories are wiped and
every register has its Reset value but the cause of the reset and the lifecycle state, and a reset that is no power-on
keeps the messages of other nodes (log 112, DESIGN CHOICE) and ends a FORCE of CORE (log 115, DESIGN CHOICE); after the
loss of CORE power the memories and threads are gone; READY follows the spool memory's wipe, which ends after the four
needle PLLs have locked (log 27, DEDUCED). The lifecycle state and the registers that a reset keeps are as log entries
20, 22 and 71 say; a lifecycle change is written with READY (R266). Clauses rest on log 19, DESIGN CHOICE. -/
def Obligations.ColdStart : Prop :=
  (∀ (s : State) (on : Bool), Completes (.coldReset on) s fun t =>
    t.mem = [] ∧ t.pending = s.pending ∧ ¬ Live t ∧ t.chip.pwr.phase = .starting ∧ t.chip.pwr.wiping = true ∧
    t.chip.fld .pwrStat F.PwrStat.LASTRST = (if on then 0 else 1) ∧
    (∀ r : Reg, r.offset ≠ Reg.offset .pwrStat → t.chip.rd r = r.reset) ∧
    (∀ r : Reg, r.offset ≠ Reg.offset .lc → t.prot.rd r = r.reset) ∧ t.prot.lcState = s.prot.lcState ∧
    (∀ u, (t.chip.thr u).st = .idle) ∧ t.chip.locks = [] ∧ t.chip.faults = [] ∧ t.chip.bb = BlackBox.empty ∧
    t.chip.pwr.newLc = none ∧ Tab.get false t.chip.pwr.bdForce 129 = false ∧
    (on = true → t.chip.seam = Seam.idle) ∧
    (on = false → t.chip.seam.fwd = s.chip.seam.fwd ∧ t.chip.seam.tx = [])) ∧
  (∀ s : State,
    (s.chip.pwr.phase = .coreOff → Completes .coreLossReset s fun t =>
      t.mem = [] ∧ t.pending = s.pending ∧ t.chip.pwr.phase = .starting ∧ t.chip.fld .pwrStat F.PwrStat.LASTRST = 6 ∧
      t.chip.bit .pwrStat F.PwrStat.CORE_LOST = true ∧ (∀ u, (t.chip.thr u).st = .idle) ∧ t.chip.bb.log = s.chip.bb.log ∧
      ∀ r : Reg, r.offset ≠ Reg.offset .lc → t.prot.rd r = s.prot.rd r) ∧
    (s.chip.pwr.phase ≠ .coreOff → Completes .coreLossReset s fun t => t = s) ∧
    let locked := ∀ q, q < 4 → s.chip.bit (.clkNpll q) F.ClkNpll.LOCK = true
    (¬ locked → Completes .spoolWipeDone s fun t => t = s) ∧
    (¬ locked → s.chip.pwr.wiping = true → Completes .blockReady s fun t => t = s) ∧
    (locked → s.chip.pwr.phase = .starting → s.chip.pwr.wiping = true → s.chip.pwr.spoolWiped = false →
      (∀ n, n < 16 → s.chip.fld (.ipCtl n) F.IpCtl.EN = 0) →
      Completes .spoolWipeDone s (fun t => t.chip.pwr.spoolWiped = true ∧ t.chip.pwr.phase = .starting ∧
        t.chip.rd .spcStat = fset (s.chip.rd .spcStat) F.SpcStat.WIPE_DONE 1 ∧ KeepsRegs s.chip t.chip [.spcStat] ∧
        KeepsOutside s t) ∧
      Completes .blockReady s fun t => t = s) ∧
    (s.chip.pwr.phase = .starting → (s.chip.pwr.wiping = true → s.chip.pwr.spoolWiped = true ∧ locked) →
      s.chip.bit .spcStat F.SpcStat.WIPE_DONE = true → Tab.get false s.chip.pwr.bdReq 129 = false →
      s.chip.fld .pwrStat F.PwrStat.LASTRST < 3 → Completes .blockReady s fun t =>
        Ready t ∧ KeepsRegs s.chip t.chip [.bbStat] ∧ t.chip.threads = s.chip.threads ∧ t.mem = s.mem ∧
        t.pending = s.pending ∧ t.chip.pwr.newLc = none ∧ (s.chip.pwr.newLc = none → t.prot = s.prot) ∧
        (∀ v, s.chip.pwr.newLc = some v → v < 4 → t.prot.lcState = v ∧
          ∀ r : Reg, r.offset ≠ Reg.offset .lc → t.prot.rd r = s.prot.rd r)))

/-- Warm reset (R283, R285, R286): the quiesce empties every slot, freezes the ports and takes Seam off the ring; at its
end, with every port drained or by timeout, which sets WR_UNDRAINED where a port is not, the memories stand, every
register has its Reset value but those the always-on island keeps and those that say why, each thread that is not IDLE
is in FAULT at its PC with its GEN, and locks that were HELD are BROKEN (log 22, DEDUCED; log 23, DEDUCED; log 24,
DEDUCED). With retention to follow every needle is gated (R282). -/
def Obligations.WarmResets : Prop :=
  (∀ (s : State) (src : WarmSource), Ready s → src ≠ .retention → Completes (.warmReset src) s fun t =>
    t.chip.pwr.phase = .quiesce ∧ t.chip.pwr.forRetention = false ∧ (∀ n k, t.chip.slot n k = none) ∧
    (∀ p, p < 16 → t.chip.bit (.mpArb p) F.MpArb.FREEZE = true ∧ (t.chip.port p).holder = none) ∧ t.chip.rstate = 0 ∧
    KeepsOutside s t) ∧
  (∀ (s : State) (src : WarmSource), ¬ Ready s → src ≠ .retention → Completes (.warmReset src) s fun t => t = s) ∧
  (∀ (s : State) (timeout : Bool), s.chip.pwr.phase = .quiesce → s.chip.pwr.forRetention = false → s.chip.pwr.cause < 8 →
    (timeout = true ∨ s.chip.allDrained = true) → Completes (.warmQuiesceEnd timeout) s fun t =>
      t.mem = s.mem ∧ t.pending = s.pending ∧ t.chip.pwr.phase = .starting ∧ ¬ Live t ∧
      t.chip.fld .pwrStat F.PwrStat.LASTRST = s.chip.pwr.cause ∧
      t.chip.bit .pwrStat F.PwrStat.WR_UNDRAINED =
        (s.chip.bit .pwrStat F.PwrStat.WR_UNDRAINED || !s.chip.allDrained) ∧
      (∀ r : Reg, (∀ q ∈ [Reg.pwrStat, .rstCtl, .clkNpll 0, .clkNpll 1, .clkNpll 2, .clkNpll 3, .cfgset, .hvStat, .otAlign,
          .lkStat, .fltStat] ++ Chip.islandRegs, r.offset ≠ q.offset) → t.chip.rd r = r.reset) ∧
      (∀ r ∈ Chip.islandRegs, t.chip.rd r = s.chip.rd r) ∧
      t.chip.fld .cfgset F.Cfgset.ACTIVE = s.chip.fld .cfgset F.Cfgset.ACTIVE ∧
      (∀ r : Reg, r.offset ≠ Reg.offset .lc → t.prot.rd r = s.prot.rd r) ∧
      (∀ u, ((s.chip.thr u).st = .idle → t.chip.thr u = s.chip.thr u) ∧
        ((s.chip.thr u).st ≠ .idle → (t.chip.thr u).st = .fault ∧ ((s.chip.thr u).st ≠ .fault → (t.chip.thr u).kind = kFault) ∧
          (t.chip.thr u).pc = (s.chip.thr u).pc ∧ (t.chip.thr u).gen = (s.chip.thr u).gen)) ∧
      (∀ l : Nat, (t.chip.locks.find? (·.1 == l)).map (·.2.st) = (s.chip.locks.find? (·.1 == l)).map fun x =>
        if x.2.st = .held then .broken else x.2.st)) ∧
  (∀ s : State, (s.chip.pwr.phase ≠ .quiesce ∨ s.chip.allDrained = false) →
    Completes (.warmQuiesceEnd false) s fun t => t = s) ∧
  (∀ s : State, s.chip.pwr.phase = .quiesce → s.chip.pwr.forRetention = true → Tab.get false s.chip.pwr.bdReq 129 = true →
    s.chip.allDrained = true → Completes (.warmQuiesceEnd false) s fun t =>
      t.chip.pwr.phase = .retention ∧ (∀ n, n < 128 → t.chip.npwr n = 2 ∧ t.chip.ndl n = Needle.idle) ∧
      KeepsRegs s.chip t.chip ((List.range 128).map Reg.ndlStat) ∧ t.chip.threads = s.chip.threads ∧ KeepsOutside s t) ∧
  (∀ s : State, s.chip.pwr.phase = .retention → Tab.get false s.chip.pwr.bdReq 129 = false →
    Completes (.warmReset .retention) s fun t =>
      t.mem = s.mem ∧ t.chip.pwr.phase = .starting ∧ t.chip.fld .pwrStat F.PwrStat.LASTRST = 5)

/-- The debug data register and the debug requester (R289, R290): with full access a register write stores and a read
gives the word; without it a write is DENIED, and so is a read of the protection region; before READY both are NRDY.
With MEN set, a line is read or written through the requester's domain, and a failed check is its code 1. The register
holds ADDR as shifted in (log 29, DEDUCED). That SET_MEN acts in every lifecycle state, and that an access before READY
is NRDY, is log 73, DEDUCED. -/
def Obligations.DebugAccess : Prop :=
  ∀ s : State,
    let answered (t : State) (w : Word) (code : Nat) := t.chip.pwr.dbgData = w ∧ t.chip.pwr.dbgResp = code
    let shifted (t : State) (a : Nat) := t.chip.pwr.dbgAddr = a / 8
    let refused (a : Nat) (code : Nat) (t : State) := answered t 0#64 code ∧ shifted t a ∧
      t.chip = { s.chip with pwr := t.chip.pwr } ∧ t.chip.pwr.phase = s.chip.pwr.phase ∧ KeepsOutside s t
    (∀ (r : Reg) (w : Word), Ready s → s.prot.debugFull = true →
      r ∈ [Reg.otLoad, .hvAt, .bbFrzen, .bbTypeen, .seamSendd0, .seamSendd1] →
      Completes (.debugWrite (BitVec.ofNat 26 r.offset) w) s (fun t =>
        t.chip.rd r = w ∧ KeepsRegs s.chip t.chip [r] ∧ answered t 0#64 rspOk ∧ shifted t r.offset ∧ KeepsOutside s t) ∧
      Completes (.debugRead (BitVec.ofNat 26 r.offset)) s fun t =>
        t.chip.regs = s.chip.regs ∧ answered t (s.chip.rd r) rspOk ∧ shifted t r.offset ∧ KeepsOutside s t) ∧
    (∀ (a : BitVec 26) (w : Word), Ready s → s.prot.debugFull = false →
      Completes (.debugWrite a w) s (refused a.toNat rspDenied) ∧
      (0x30000 ≤ a.toNat → (a.toNat < 0x40000 ∨ 0x400000 ≤ a.toNat) → Completes (.debugRead a) s (refused a.toNat rspDenied))) ∧
    (∀ (a : BitVec 26) (w : Word), ¬ Ready s → Completes (.debugWrite a w) s (refused a.toNat rspNrdy) ∧
      Completes (.debugRead a) s (refused a.toNat rspNrdy)) ∧
    (∀ on : Bool, Ready s → Completes (.debugSetMen on) s fun t =>
      t.chip.bit .dbgCtl F.DbgCtl.MEN = on ∧ KeepsRegs s.chip t.chip [.dbgCtl] ∧ OnlyRegs s.chip t.chip ∧ KeepsOutside s t) ∧
    (Ready s → s.prot.debugFull = true → s.chip.bit .dbgCtl F.DbgCtl.MEN = true →
      s.chip.bit .dbgMcmd F.DbgMcmd.BUSY = false →
      let a := s.chip.fld .dbgMaddr F.DbgMaddr.ADDR * 64
      let pd := s.chip.fld .dbgMcmd F.DbgMcmd.PD
      ∀ i, (i = Instr.debugReadLine ∨ i = Instr.debugWriteLine) →
        let need := if i = Instr.debugReadLine then Need.read else Need.ackWrite
        (∀ w, s.prot.check pd a 64 need = .ok w → NoneWaits s.chip (s.prot.home w) 132 → Completes i s fun t =>
          (∃ x, Presented s.chip t.chip (s.prot.home w) x ∧ x.req = 132 ∧ x.addr = a ∧ x.len = 1 ∧
            x.kind = (if i = Instr.debugReadLine then BurstKind.read else BurstKind.ack)) ∧
          t.chip.rd .dbgMcmd = fset (s.chip.rd .dbgMcmd) F.DbgMcmd.BUSY 1 ∧ KeepsRegs s.chip t.chip [.dbgMcmd] ∧
          KeepsOutside s t) ∧
        (∀ w, s.prot.check pd a 64 need = .fail w → Completes i s fun t =>
          t.chip.fld .dbgMcmd F.DbgMcmd.CODE = 1 ∧ t.chip.bit .dbgMcmd F.DbgMcmd.BUSY = false ∧
          KeepsRegs s.chip t.chip [.dbgMcmd] ∧ OnlyRegs s.chip t.chip ∧ KeepsOutside s t))

/-- BOOT_SEAL and LIFECYCLE_CHANGE (R263, R265, R266): the seal is set; a change with the right key and next state is a
cold reset, with whose READY the new state is written, a wrong one sets LC_BAD; once the tables are sealed a change, or
a write that would change an LB field, is discarded and recorded. -/
def Obligations.SealAndLifecycle : Prop :=
  ∀ s : State, Ready s →
    let next := match s.prot.lcState with | 0 => 1 | 1 => 2 | 2 => 3 | _ => 1
    let violated (t : State) (off : Nat) := t.prot.isSealed = true ∧ t.prot.rd .seal ≠ s.prot.rd .seal ∧
      fbit (t.prot.rd .seal) F.Seal.VIOL = true ∧
      fget (t.prot.rd .seal) F.Seal.VCNT = min (fget (s.prot.rd .seal) F.Seal.VCNT + 1) (2 ^ F.Seal.VCNT.width - 1) ∧
      (fbit (s.prot.rd .seal) F.Seal.VIOL = false → fget (t.prot.rd .seal) F.Seal.VOFF = off ∧
        fget (t.prot.rd .seal) F.Seal.VSRC = 0) ∧
      (∀ r : Reg, r.offset ≠ Reg.offset .seal → t.prot.rd r = s.prot.rd r) ∧ t.mem = s.mem ∧
      KeepsRegs s.chip t.chip [.bbStat]
    Completes .bootSeal s (fun t => t.prot.isSealed = true ∧ t.prot.rd .seal = fset (s.prot.rd .seal) F.Seal.SEAL 1 ∧
      (∀ r : Reg, r.offset ≠ Reg.offset .seal → t.prot.rd r = s.prot.rd r) ∧ t.chip = s.chip ∧ t.mem = s.mem) ∧
    (s.prot.isSealed = false →
      Completes (.lifecycleChange 0x4C43#16 (BitVec.ofNat 2 next)) s (fun t =>
        t.prot.lcState = s.prot.lcState ∧ t.chip.pwr.newLc = some next ∧ t.mem = [] ∧ t.chip.fld .pwrStat F.PwrStat.LASTRST = 2 ∧ t.chip.pwr.phase = .starting) ∧
      (∀ (key : BitVec 16) (nx : BitVec 2), (key ≠ 0 ∨ nx ≠ 0) → (key ≠ 0x4C43#16 ∨ nx.toNat ≠ next) →
        Completes (.lifecycleChange key nx) s fun t =>
          t.prot.rd .lc = fset (s.prot.rd .lc) F.Lc.LC_BAD 1 ∧
          (∀ r : Reg, r.offset ≠ Reg.offset .lc → t.prot.rd r = s.prot.rd r) ∧ t.chip = s.chip ∧ t.mem = s.mem)) ∧
    (s.prot.isSealed = true → fget (s.prot.rd .seal) F.Seal.VCNT < 2 ^ F.Seal.VCNT.width - 1 →
      (∀ (key : BitVec 16) (nx : BitVec 2), (key ≠ 0 ∨ nx ≠ 0) → Completes (.lifecycleChange key nx) s
        (violated · (Reg.offset .lc))) ∧
      (∀ (k : Fin 256) (w : Word), fget w F.WinBase.ADDR ≠ fget (s.prot.rd (.winBase k)) F.WinBase.ADDR →
        Completes (.registerWrite (BitVec.ofNat 26 (Reg.offset (.winBase k))) w) s (violated · (Reg.offset (.winBase k))))) ∧
    Completes (.lifecycleChange 0 0) s fun t => t = s

/-- The seal holds (R263): once the tables are sealed, no step but a cold reset changes a domain, a window, a
remote-access permission or the lifecycle state, and the seal stays. It holds in the states where a lifecycle change
waits to be written only while nothing is sealed and the block is not ready, which every step keeps and the machine
after reset is one of (R266). -/
def Obligations.SealHolds : Prop :=
  LcChangeSafe State.reset ∧ (∀ s t : State, LcChangeSafe s → step s = .next t → LcChangeSafe t) ∧
  ∀ s t : State, LcChangeSafe s → s.prot.isSealed = true → (∀ on, s.pending.head? ≠ some (.coldReset on)) →
    step s = .next t → t.prot.isSealed = true ∧ t.prot.lcState = s.prot.lcState ∧
      ∀ r : Reg, r.offset ≠ Reg.offset .seal → r.offset ≠ Reg.offset .lc → t.prot.rd r = s.prot.rd r

/-- FAULT_POP, BB_EVENT_RECORD, BB_FREEZE, BB_FREEZE_COMPLETE, BB_ARM, BB_SOFT and BB_FLUSH (R296, R303, R304, R305,
R307): the fault queue loses its oldest entry; the oldest event is written at WIDX with its crossing and words; a
trigger leaves POST entries to record; then FROZEN holds the log until ARM; a flush sends the log as 32 bursts of 16
lines (log 59, DEDUCED; log 78, DESIGN CHOICE: an event's fine tick is a free value). Clauses rest on log 3, DESIGN
CHOICE; log 80, DESIGN CHOICE. -/
def Obligations.FaultQueueAndBlackBox : Prop :=
  ∀ s : State,
    let chipBut (t : State) := t.chip = { s.chip with regs := t.chip.regs, bb := t.chip.bb, free := t.chip.free } ∧ KeepsOutside s t
    let frozen := s.chip.bit .bbStat F.BbStat.FROZEN = true
    (Ready s → Completes .faultPop s fun t => t = { s with chip := { s.chip with faults := s.chip.faults.drop 1 } }) ∧
    (∀ (ev : BbEvent) (rest : List BbEvent), ¬ frozen → s.chip.bb.fifo = ev :: rest → s.chip.bb.postLeft ≠ some 0 →
      Completes .bbEventRecord s fun t =>
        let w := s.chip.fld .bbStat F.BbStat.WIDX
        let trigger := ev.ty = 0x0E ∨ ev.ty < 64 ∧ (s.chip.rd .bbFrzen).toNat / 2 ^ ev.ty % 2 = 1
        Tab.get 0#64 t.chip.bb.log (4 * w) = ev.xing ∧ Tab.get 0#64 t.chip.bb.log (4 * w + 2) = ev.p0 ∧
        Tab.get 0#64 t.chip.bb.log (4 * w + 3) = ev.p1 ∧
        Tab.get 0#64 t.chip.bb.log (4 * w + 1) = BitVec.ofNat 64 (ev.ty % 256 * 2 ^ 56 + ev.fine % 8 * 2 ^ 53 +
          (if s.chip.bb.loss then 1 else 0) * 2 ^ 52 + (s.chip.rd .thTimer).toNat / 5 % 2 ^ 48) ∧
        (∀ j, j / 4 ≠ w → Tab.get 0#64 t.chip.bb.log j = Tab.get 0#64 s.chip.bb.log j) ∧
        t.chip.bb.fifo = rest ∧ t.chip.bb.loss = false ∧
        t.chip.fld .bbStat F.BbStat.WIDX = (w + 1) % 2 ^ F.BbStat.WIDX.width ∧
        (s.chip.bb.postLeft = none → trigger → t.chip.bb.postLeft = some (s.chip.fld .bbCtl F.BbCtl.POST) ∧
          t.chip.fld .bbStat F.BbStat.TRIG = w) ∧
        (s.chip.bb.postLeft = none → ¬ trigger → t.chip.bb.postLeft = none) ∧
        (∀ k, s.chip.bb.postLeft = some k → ev.ty ≠ 0x0E → t.chip.bb.postLeft = some (k - 1)) ∧
        KeepsRegs s.chip t.chip [.bbStat] ∧ chipBut t) ∧
    ((frozen ∨ s.chip.bb.fifo = []) → Completes .bbEventRecord s fun t => t = s) ∧
    (Ready s → ¬ frozen → s.chip.bb.fifo.length < 32 →
      Completes .bbFreeze s (fun t => (∃ ev, t.chip.bb = { s.chip.bb with fifo := s.chip.bb.fifo ++ [ev] } ∧ ev.ty = 0x0E ∧
        ev.xing = s.chip.rd .otXing) ∧ t.chip.regs = s.chip.regs ∧ chipBut t) ∧
      (∀ v : Word, (s.chip.rd .bbTypeen).toNat / 2 ^ 13 % 2 = 1 → Completes (.bbSoft v) s fun t =>
        (∃ ev, t.chip.bb = { s.chip.bb with fifo := s.chip.bb.fifo ++ [ev] } ∧ ev.ty = 0x0D ∧ ev.p0 = v ∧ ev.p1 = 0#64 ∧
          ev.xing = s.chip.rd .otXing) ∧ t.chip.regs = s.chip.regs ∧ chipBut t)) ∧
    (¬ Ready s → Completes .bbFreeze s (fun t => t = s) ∧
      ∀ v : Word, Completes (.bbSoft v) s fun t => t = s) ∧
    (Ready s → ¬ frozen → 32 ≤ s.chip.bb.fifo.length → (s.chip.rd .bbTypeen).toNat / 2 ^ 13 % 2 = 1 → ∀ v : Word,
      Completes (.bbSoft v) s fun t => t.chip.bb = { s.chip.bb with loss := true } ∧
        Counts s.chip t.chip .bbStat F.BbStat.DROP 1 ∧ KeepsRegs s.chip t.chip [.bbStat] ∧ chipBut t) ∧
    (¬ frozen → s.chip.bb.postLeft = some 0 → Completes .bbFreezeComplete s fun t =>
      t.chip.rd .bbStat = fset (fset (s.chip.rd .bbStat) F.BbStat.FROZEN 1) F.BbStat.FRZ 1 ∧ t.chip.bb.log = s.chip.bb.log ∧
      t.chip.bb.owed = s.chip.bit .bbFlush F.BbFlush.EN ∧ KeepsRegs s.chip t.chip [.bbStat] ∧ chipBut t) ∧
    (Ready s → frozen → (∀ q ∈ s.chip.ports, ∀ b ∈ q.2.waiting, b.req ≠ 130) → (∀ x ∈ s.chip.backlog, x.2.req ≠ 130) →
      Completes .bbArm s fun t =>
        t.chip.rd .bbStat = fset (fset (s.chip.rd .bbStat) F.BbStat.FROZEN 0) F.BbStat.DONE 0 ∧
        t.chip.bb.log = s.chip.bb.log ∧ t.chip.bb.flush = none ∧ KeepsRegs s.chip t.chip [.bbStat] ∧ KeepsOutside s t) ∧
    (Ready s → frozen → s.chip.bb.owed = true → s.chip.backlog = [] →
      let a := s.chip.fld .bbFlush F.BbFlush.ADDR * 2 ^ 15
      (∀ w, NoneWaits s.chip (s.prot.home w) 130 →
        (∀ i, i < 32 → s.prot.check (s.chip.fld .bbFlush F.BbFlush.PD) (a + i * 1024) 1024 .ackWrite = .ok w) →
        Completes .bbFlush s fun t => t.chip.bb = { s.chip.bb with
            owed := false, flush := some 32, copies := s.chip.bb.copies + 1 } ∧
          t.chip.regs = s.chip.regs ∧ (∃ x, (t.chip.port (s.prot.home w)).waiting =
            (s.chip.port (s.prot.home w)).waiting ++ [x] ∧ x.req = 130 ∧ x.addr = a ∧ x.len = 16) ∧
          t.chip.backlog.map (fun x => (x.1, x.2.addr)) =
            ((List.range 31).map fun i => (s.prot.home w, a + (i + 1) * 1024)) ∧ KeepsOutside s t))

/-- HELLO, HELLO_RESEND, CLAIM and CLAIM_TIMEOUT (R239, R240, R242): a node narrows a HELLO's range and forwards it; the
reference takes the token when its own returns with a version in common, and brings the ring up with version 0 when
there is none; a CLAIM that returns puts its node in SERVICE, and one that does not is DUP_ID; whether a CLAIM with the
node's ID and the SEQ of its own is its own or a duplicate's is free (log 116, DESIGN CHOICE). STANDBY sends no more of
the training than that RING_UP (log 46, DEDUCED: which node acts as the reference). TOKEN, PROBE, ECHO, PROBE_TIMEOUT
and RING_UP (R241, R242): a node that takes the token keeps the hop and arc root it gives and measures its own west hop
by 8 PROBEs, whose least difference halved goes on; the reference ends the round with RING_UP, which gives every node
the ring's version, length, reference and round-trip time, and each then sends its CLAIM; VER 0 takes every node that
receives it to STANDBY with VER_FAIL; a node that stops takes what it gives (log 46, DEDUCED). A node that stops sends
nothing more (log 48, DEDUCED). -/
def Obligations.SeamTraining : Prop :=
  (∀ (s : State) (h : SeamHead),
    let vermax := s.chip.fld .seamCfg F.SeamCfg.VERMAX
    let hello (lo hi count : Nat) := [BitVec.ofNat 64 (lo % 16 + hi % 16 * 2 ^ 4 + count % 2 ^ 13 * 2 ^ 8)]
    let mine := h.src.toNat = s.chip.nodeId
    let r := s.chip.rstate
    (∀ (lo hi : BitVec 4) (count : BitVec 13),
      (r = 0 → Completes (.hello h lo hi count) s fun t =>
        Forwards s.chip t.chip 0x01 h (hello lo.toNat hi.toNat count.toNat) ∧ SeamOnly s t []) ∧
      (s.chip.isRef = false → ¬ mine → r ≠ 0 → r ≠ 5 → Completes (.hello h lo hi count) s fun t =>
        Forwards s.chip t.chip 0x01 h (hello (max lo.toNat 2) (min hi.toNat vermax) (count.toNat + 1)) ∧
        t.chip.rstate = (if (r = 1 ∧ s.chip.bothLocked = true) ∨ r = 6 then 2 else r) ∧ SeamOnly s t [.seamStat]) ∧
      (s.chip.isRef = true → mine → r = 2 → s.chip.seam.helloOut = true →
        (lo.toNat ≤ hi.toNat → Completes (.hello h lo hi count) s fun t =>
          t.chip.rstate = 3 ∧ (∃ k, t.chip.seam.token = some k ∧ k.ver = hi.toNat ∧ k.count = count.toNat ∧ k.acc = 0 ∧
            k.done = 0 ∧ k.best = none) ∧
          Sends s.chip t.chip 0x03 0 false [BitVec.ofNat 64 s.chip.seam.probeSeq] ∧ SeamOnly s t [.seamStat]) ∧
        (hi.toNat < lo.toNat → Completes (.hello h lo hi count) s fun t =>
          t.chip.rstate = 6 ∧ t.chip.bit .seamStat F.SeamStat.VER_FAIL = true ∧ t.chip.seam.token = s.chip.seam.token ∧
          (∃ (b : Word) (m : SMsg), t.chip.seam.tx = (s.chip.seam.tx.filter fun x => decide (0x10 ≤ x.ty) || x.ty == 0x05) ++ [m] ∧
            m.ty = 0x05 ∧ m.h.bc = true ∧ m.data = [b] ∧ b.toNat % 16 = 0) ∧ SeamOnly s t [.seamStat]))) ∧
    (s.chip.isRef = true → s.chip.seam.helloOut = true → r = 2 → Completes .helloResend s fun t =>
      Sends s.chip t.chip 0x01 0 false (hello 2 vermax 1) ∧ t.chip.rstate = 2 ∧ SeamOnly s t []) ∧
    ((r = 0 ∨ ¬ mine) → Completes (.claim h) s fun t => Forwards s.chip t.chip 0x06 h [0#64] ∧ SeamOnly s t []) ∧
    (r = 4 → mine → s.chip.seam.claimOut = some h.seq.toNat →
      Completes (.claim h) s fun t => if Config.claimOwn s.chip.free then
          t.chip.rstate = 5 ∧ t.chip.seam = { s.chip.seam with claimOut := none } ∧ SeamOnly s t [.seamStat]
        else t.chip.seam = s.chip.seam ∧ t.chip.regs = s.chip.regs ∧ SeamOnly s t []) ∧
    (r ≠ 0 → mine → s.chip.seam.claimOut ≠ some h.seq.toNat → Completes (.claim h) s fun t => t = s) ∧
    (r = 4 → s.chip.seam.claimOut ≠ none → Completes .claimTimeout s fun t =>
      t.chip.rstate = 6 ∧ t.chip.bit .seamStat F.SeamStat.DUP_ID = true ∧
      t.chip.seam = { s.chip.seam with
        claimOut := none, tx := s.chip.seam.tx.filter fun x => decide (0x10 ≤ x.ty) || x.ty == 0x05 } ∧
      SeamOnly s t [.seamStat])) ∧
  (∀ (s : State) (h : SeamHead),
    let r := s.chip.rstate
    (∀ (ver : BitVec 4) (count : BitVec 13) (root : BitVec 4) (crv : Bool) (hop acc : BitVec 30),
      let i := Instr.token h ver count root crv hop acc
      let ring (t : State) (l : List (Fld × Nat)) := ∀ x ∈ l, t.chip.fld .seamRing x.1 = x.2
      ((r = 2 ∨ r = 3) → s.chip.isRef = false → Completes i s fun t =>
        t.chip.rstate = 3 ∧ t.chip.fld .seamHop F.SeamHop.HOP_IN = hop.toNat ∧
        (crv = true → ring t [(F.SeamRing.ARC_ROOT, root.toNat), (F.SeamRing.ARV, 1)]) ∧
        (∃ k, t.chip.seam.token = some k ∧ k.ver = ver.toNat ∧ k.count = count.toNat ∧ k.curRoot = root.toNat ∧
          k.crv = crv ∧ k.acc = acc.toNat ∧ k.done = 0 ∧ k.pseq = s.chip.seam.probeSeq) ∧
        Sends s.chip t.chip 0x03 0 false [BitVec.ofNat 64 s.chip.seam.probeSeq] ∧
        SeamOnly s t [.seamStat, .seamHop, .seamRing]) ∧
      (r = 3 → s.chip.isRef = true → s.chip.seam.full = true →
        Completes i s fun t =>
          t.chip.rstate = 4 ∧ t.chip.fld .seamHop F.SeamHop.HOP_IN = hop.toNat ∧
          ring t [(F.SeamRing.RTT, acc.toNat)] ∧
          (∃ b m n, t.chip.seam.tx = s.chip.seam.tx ++ [m, n] ∧ m.ty = 0x05 ∧ m.h.bc = true ∧ m.data = [b] ∧
            b.toNat = ver.toNat + count.toNat * 2 ^ 4 + root.toNat * 2 ^ 17 + (if crv then 1 else 0) * 2 ^ 21 +
              acc.toNat * 2 ^ 22 + 2 ^ 52 ∧ n.ty = 0x06 ∧ n.h.bc = true ∧
            ∃ q, t.chip.seam.claimOut = some q ∧ n.h.seq = BitVec.ofNat 7 q) ∧
          SeamOnly s t [.seamStat, .seamHop, .seamRing]) ∧
      ((r = 1 ∨ r = 4 ∨ r = 6 ∨ r = 7) → Completes i s fun t =>
        (∃ b, Forwards s.chip t.chip 0x02 h [b, BitVec.ofNat 64 acc.toNat]) ∧ SeamOnly s t [])) ∧
    (∀ (q : BitVec 16) (turn : BitVec 30),
      (2 ≤ r → r ≠ 7 → Completes (.probe h q turn) s fun t =>
        (∃ m : SMsg, t.chip.seam = { s.chip.seam with west := s.chip.seam.west ++ [m] } ∧ m.ty = 0x04 ∧ m.h.dest = h.src ∧
          m.data = [BitVec.ofNat 64 (q.toNat + turn.toNat * 2 ^ 16)]) ∧ SeamOnly s t []) ∧
      ((r ≤ 1 ∨ r = 7) → Completes (.probe h q turn) s fun t =>
        Forwards s.chip t.chip 0x03 h [BitVec.ofNat 64 q.toNat] ∧ SeamOnly s t [])) ∧
    (∀ (k : TokenState), s.chip.seam.token = some k →
      let passed (t : State) (hop dwell : Nat) := t.chip.seam.token = none ∧
        (∃ b, Sends s.chip t.chip 0x02 0 false [b, BitVec.ofNat 64 ((k.acc + dwell + hop) % 2 ^ 30)] ∧
          b.toNat / 2 ^ 22 % 2 ^ 30 = hop % 2 ^ 30)
      let again (t : State) (k' : TokenState) := t.chip.seam.token = some { k' with pseq := s.chip.seam.probeSeq } ∧
        Sends s.chip t.chip 0x03 0 false [BitVec.ofNat 64 s.chip.seam.probeSeq]
      (∀ (q : BitVec 16) (turn el dw : BitVec 30), r ≠ 0 → r ≠ 7 → h.dest.toNat = s.chip.nodeId → q.toNat = k.pseq →
        let best := match k.best with | none => el.toNat - turn.toNat | some b => min b (el.toNat - turn.toNat)
        (k.done < 7 → Completes (.echo h q turn el dw) s fun t =>
          again t { k with best := some best, done := k.done + 1, repeats := 0 } ∧ SeamOnly s t []) ∧
        (7 ≤ k.done → k.ver < 16 → k.count < 2 ^ 13 → k.curRoot < 16 → Completes (.echo h q turn el dw) s fun t =>
          passed t (best / 2) dw.toNat ∧ SeamOnly s t [])) ∧
      (∀ dw : BitVec 30,
        (r = 7 → Completes (.probeTimeout dw) s fun t => t.chip.seam.tx = s.chip.seam.tx ∧ SeamOnly s t [.seamStat]) ∧
        (r ≠ 7 → k.repeats < 16 → Completes (.probeTimeout dw) s fun t => again t { k with repeats := k.repeats + 1 } ∧ SeamOnly s t []) ∧
        (r ≠ 7 → 16 ≤ k.repeats → k.ver < 16 → k.count < 2 ^ 13 → k.curRoot < 16 → Completes (.probeTimeout dw) s fun t =>
          passed t 0 dw.toNat ∧ t.chip.bit .seamStat F.SeamStat.LINK_LOST = true ∧ SeamOnly s t [.seamStat]))) ∧
    (∀ (ver : BitVec 4) (count : BitVec 13) (last : BitVec 4) (lrv : Bool) (rtt : BitVec 30), h.bc = true →
      h.src.toNat ≠ s.chip.nodeId →
      (ver = 0 → r ≠ 0 → r ≠ 5 → Completes (.ringUp h ver count last lrv rtt true) s fun t =>
        t.chip.rstate = (if r = 7 then 7 else 6) ∧ t.chip.bit .seamStat F.SeamStat.VER_FAIL = true ∧
        t.chip.fld .seamRing F.SeamRing.VER = 0 ∧ (∃ b, Forwards s.chip t.chip 0x05 h [b]) ∧
        SeamOnly s t [.seamStat, .seamRing]) ∧
      (r = 7 → ver ≠ 0 → Completes (.ringUp h ver count last lrv rtt true) s fun t =>
        t.chip.rstate = 7 ∧ t.chip.fld .seamRing F.SeamRing.VER = ver.toNat ∧
        t.chip.fld .seamRing F.SeamRing.COUNT = count.toNat ∧ t.chip.seam.tx = s.chip.seam.tx ∧
        (∃ b, Forwards s.chip t.chip 0x05 h [b]) ∧ SeamOnly s t [.seamStat, .seamRing]) ∧
      (r = 3 → ver ≠ 0 → Completes (.ringUp h ver count last lrv rtt true) s fun t =>
        t.chip.rstate = 4 ∧ t.chip.fld .seamRing F.SeamRing.VER = ver.toNat ∧
        t.chip.fld .seamRing F.SeamRing.COUNT = count.toNat ∧ t.chip.fld .seamRing F.SeamRing.REF_ID = h.src.toNat ∧
        t.chip.fld .seamRing F.SeamRing.RTT = rtt.toNat ∧ Sends s.chip t.chip 0x06 0 true [0#64] ∧
        (∃ b, Forwards s.chip t.chip 0x05 h [b]) ∧ SeamOnly s t [.seamStat, .seamRing])))

/-- RETRAIN, SEAM_RETRAIN_CMD, SEAM_MEASURE_CMD, REF_MARKER_LOST and the receive lanes (R232, R239, R243): a full
RETRAIN takes a node of a running ring back to HELLO; the reference's command sends it with a new HELLO, and a measure
round starts a token; 16 markers lost retrain; a hit is counted, and one that lasts takes the node to LINK; block lock
ends it (log 46, DEDUCED; log 48, DEDUCED). MARKER (R43, R45, R244, R245): a node forwards a marker with DELAY increased
by its hop and its dwell, in bypass as it is. One that is not the reference keeps the DELAY, clears MISSED, and in ring
mode judges it: OFFSET is the whole crossings by which the ring lies before the local counter, PHASE what is left in
fine ticks; in ACQUIRE the next edge loads the counter so that OFFSET becomes 0, where the geometry agrees; else the
state is MISALIGNED, DRIFT or LOCKED, and ALIGN_LOST is set as the first two are entered. The reference's own marker
that has returned gives the ring's round-trip time. That the dwell is added as well is the model's choice, from the
worked example of 11 (log 45). -/
def Obligations.SeamLinksAndMarkers : Prop :=
  (∀ (s : State),
    let r := s.chip.rstate
    let retrained (t : State) := t.chip.rstate = 2 ∧ t.chip.seam.token = none ∧ t.chip.seam.helloOut = true ∧
      (∃ m n, t.chip.seam.tx = (if r = 5 then s.chip.seam.tx.filter fun x => x.ty ≠ 0x10 else s.chip.seam.tx) ++ [m, n] ∧
        m.ty = 0x07 ∧ m.h.bc = true ∧ m.data = [1#64] ∧ n.ty = 0x01) ∧
      SeamOnly s t [.seamStat]
    (∀ h : SeamHead, h.bc = true → h.src.toNat ≠ s.chip.nodeId → s.chip.pwr.phase = .running →
      (r = 6 → Completes (.retrain h true) s fun t =>
        t.chip.rstate = 2 ∧ t.chip.seam.token = none ∧ Forwards s.chip t.chip 0x07 h [1#64] ∧ SeamOnly s t [.seamStat]) ∧
      (r = 5 → NoAsks s.chip → Completes (.retrain h true) s fun t =>
        t.chip.rstate = 2 ∧ t.chip.seam.token = none ∧ t.chip.seam.tx = s.chip.seam.tx.filter (fun x => x.ty ≠ 0x10) ∧
        Forwards s.chip t.chip 0x07 h [1#64] ∧ SeamOnly s t [.seamStat]) ∧
      (r = 7 → Completes (.retrain h true) s fun t =>
        t.chip.rstate = 7 ∧ t.chip.seam.tx = s.chip.seam.tx.filter (fun x => !needsService x.ty) ∧
        Forwards s.chip t.chip 0x07 h [1#64] ∧ SeamOnly s t []) ∧
      (1 ≤ r → r < 5 → Completes (.retrain h true) s fun t =>
        t.chip.rstate = r ∧ Forwards s.chip t.chip 0x07 h [1#64] ∧ SeamOnly s t [])) ∧
    (∀ i, (i = Instr.seamRetrainCmd ∧ Ready s ∧ 2 ≤ r ∧ r ≤ 6) ∨ (i = Instr.refMarkerLost ∧ r = 5 ∧ 16 ≤ s.chip.seam.markersOut) →
      s.chip.isRef = true → s.chip.bothLocked = true → NoAsks s.chip → Completes i s retrained) ∧
    (Ready s → s.chip.isRef = true → r = 5 → s.chip.seam.token = none → Completes .seamMeasureCmd s fun t =>
      (∃ k, t.chip.seam.token = some k ∧ k.done = 0 ∧ k.count = s.chip.fld .seamRing F.SeamRing.COUNT ∧
        k.ver = s.chip.fld .seamRing F.SeamRing.VER) ∧ t.chip.seam.full = false ∧
      Sends s.chip t.chip 0x03 0 false [BitVec.ofNat 64 s.chip.seam.probeSeq] ∧ SeamOnly s t []) ∧
    (r ≠ 0 → s.chip.seam.lockE = true → Completes (.linkHit true) s fun t =>
      t.chip.seam.lockE = false ∧ t.chip.seam.hitE = true ∧ Counts s.chip t.chip .seamCnt F.SeamCnt.HITS 1 ∧
      t.chip.bit .seamStat F.SeamStat.LINK_LOST = true ∧ t.chip.rstate = r ∧ SeamOnly s t [.seamCnt, .seamStat]) ∧
    (r ≠ 0 → s.chip.seam.lockW = true → Completes (.linkHit false) s fun t =>
      t.chip.seam.lockW = false ∧ t.chip.seam.hitW = true ∧ Counts s.chip t.chip .seamCnt F.SeamCnt.HITS 1 ∧
      t.chip.bit .seamStat F.SeamStat.LINK_LOST = true ∧ t.chip.rstate = r ∧ SeamOnly s t [.seamCnt, .seamStat]) ∧
    (∀ east : Bool, (if east then s.chip.seam.hitE else s.chip.seam.hitW) = true → 2 ≤ r → r ≤ 6 → s.chip.isRef = false →
      NoAsks s.chip → Completes (.linkHitTimeout east) s fun t =>
        t.chip.rstate = 1 ∧ t.chip.bit .seamStat F.SeamStat.LINK_DOWN = true ∧ t.chip.seam.token = none ∧
        (∀ m ∈ t.chip.seam.west, m ∈ s.chip.seam.west ∧ m.h.src.toNat ≠ s.chip.nodeId) ∧
        SeamOnly s t [.seamStat]) ∧
    (s.chip.seam.helloOut = false →
      Completes (.blockLockGained true) s (fun t => t.chip = { s.chip with seam := { s.chip.seam with lockE := true, hitE := false } } ∧
        KeepsOutside s t) ∧
      Completes (.blockLockGained false) s fun t =>
        t.chip = { s.chip with seam := { s.chip.seam with lockW := true, hitW := false } } ∧ KeepsOutside s t)) ∧
  (∀ (s : State) (h : SeamHead) (x : Word) (delay : BitVec 30) (d : BitVec 9) (g o : BitVec 12) (tau dw : BitVec 30),
    let i := Instr.marker h x delay d g o tau dw
    let hop := s.chip.fld .seamHop F.SeamHop.HOP_IN
    let mine := h.src.toNat = s.chip.nodeId
    let second (delay : Nat) : Word := BitVec.ofNat 64 (delay % 2 ^ 30 + d.toNat * 2 ^ 30 + g.toNat * 2 ^ 39 + o.toNat * 2 ^ 51)
    let onward (t : State) := Forwards s.chip t.chip 0x10 h [x, second (delay.toNat + hop + dw.toNat)]
    (¬ mine → s.chip.rstate ≠ 0 → s.chip.isRef = true → Completes i s fun t => onward t ∧ SeamOnly s t []) ∧
    (¬ mine → s.chip.rstate ≠ 0 → s.chip.isRef = false → s.chip.ringMode = true →
      let p := s.chip.fld .otBclk F.OtBclk.MEAS * 10
      let e : Int := dist s.chip.olen x.toNat s.chip.ctr * p + delay.toNat + hop - tau.toNat
      let nearest (v r : Int) := 2 * (v - r * p).natAbs ≤ p ∧ (2 * (v - r * p).natAbs = p → (r * p).natAbs ≤ v.natAbs)
      let agree := s.chip.fld .otGeom F.OtGeom.DLAT = d.toNat ∧ s.chip.fld .otGeom F.OtGeom.GAP = g.toNat ∧
        s.chip.fld .otGeom F.OtGeom.OLEN = o.toNat
      let st (off ph : Int) : Nat := if off ≠ 0 then 6 else if ph.natAbs ≤ 1 then 3 else 5
      ∀ off ph : Int, p ≠ 0 → nearest e off → nearest ((e - off * p) * 8) ph → Completes i s fun t =>
        t.chip.fld .otAlign F.OtAlign.OFFSET = unsigned 16 (max (-32767) (min 32767 off)) ∧
        t.chip.fld .otAlign F.OtAlign.PHASE = unsigned 8 (max (-127) (min 127 ph)) ∧
        t.chip.fld .otAlign F.OtAlign.MISSED = 0 ∧ t.chip.tb.missedOver = false ∧
        t.chip.fld .seamHop F.SeamHop.DELAY = delay.toNat ∧ t.chip.ctr = s.chip.ctr ∧ onward t ∧
        (¬ agree → t.chip.bit .seamStat F.SeamStat.GEOM_MISMATCH = true) ∧
        t.chip.tb.ringLoad = (if s.chip.alignSt = 2 ∧ agree then some (s.chip.shiftX s.chip.ctr (off + 1)) else s.chip.tb.ringLoad) ∧
        t.chip.alignSt = (if 3 ≤ s.chip.alignSt ∧ s.chip.alignSt ≤ 7 then st off ph else s.chip.alignSt) ∧
        (3 ≤ s.chip.alignSt → s.chip.alignSt ≤ 7 → s.chip.alignSt ≠ st off ph → st off ph ≠ 3 →
          t.chip.bit .otStat F.OtStat.ALIGN_LOST = true) ∧
        (s.chip.tb.resync = true → t.chip.tb.resync = true ∧ t.chip.tb.resyncMarker = true) ∧
        t.chip.threads = s.chip.threads ∧
        KeepsButCounts s.chip t.chip [.seamHop, .otAlign, .otStat, .seamStat, .calPhase, .calStat, .bbStat] ∧ KeepsOutside s t) ∧
    (¬ mine → s.chip.rstate ≠ 0 → s.chip.isRef = false → s.chip.ringMode = false → Completes i s fun t =>
      t.chip.fld .seamHop F.SeamHop.DELAY = delay.toNat ∧ t.chip.fld .otAlign F.OtAlign.MISSED = 0 ∧
      onward t ∧
      (∀ p, p = s.chip.fld .otBclk F.OtBclk.MEAS * 10 → p ≠ 0 →
        dist s.chip.olen x.toNat s.chip.ctr = 0 → 2 * (delay.toNat + hop) < p → tau = 0 →
        t.chip.fld .otAlign F.OtAlign.OFFSET = 0) ∧
      t.chip.threads = s.chip.threads ∧ KeepsButCounts s.chip t.chip [.seamHop, .otAlign, .seamStat] ∧ KeepsOutside s t) ∧
    (mine → s.chip.rstate ≠ 0 → s.chip.isRef = true → Completes i s fun t =>
      t.chip.rd .seamRing = fset (s.chip.rd .seamRing) F.SeamRing.RTT (delay.toNat + hop) ∧
      t.chip.seam = { s.chip.seam with markersOut := 0 } ∧ SeamOnly s t [.seamRing]) ∧
    (s.chip.rstate = 0 → Completes i s fun t => Forwards s.chip t.chip 0x10 h [x, second delay.toNat] ∧ SeamOnly s t []))

/-- DECISION, DECISION_INJECT and HINT (R185, R187, R189, R193): an arrival is judged against the counter and the record
in the order of R187's rows: too early, known already, in time, late, or past GRACE; a decision in time makes its entry
KNOWN with its word, which a thread in a WAITD for that crossing gets as it becomes READY, its KIND and ARG 0 (log 9,
DEDUCED); a hint marks an OPEN entry; a message from another root, or an injection that SRC leaves out, is dropped (log
74, DEDUCED). -/
def Obligations.DecisionsAndHints : Prop :=
  ∀ (s : State) (payload : Word) (h : SeamHead),
    let p := payload.toNat
    let x := s.chip.nearestX (p / 2 ^ 40 % 2 ^ 24)
    let d := dist s.chip.olen s.chip.ctr x
    let e := s.chip.decAt x
    let last : Int := s.chip.dlat + s.chip.grace
    let acc := p / 2 ^ 39 % 2 = 1
    let kept (t : State) := t.chip.dec = s.chip.dec ∧ t.chip = { s.chip with regs := t.chip.regs, seam := t.chip.seam } ∧
      KeepsButCounts s.chip t.chip [.decCnt1, .decStat] ∧ KeepsOutside s t
    let dropped (t : State) (f : Fld) := kept t ∧ Counts s.chip t.chip .decCnt1 F.DecCnt1.DROP 1 ∧
      t.chip.bit .decStat f = true
    let fed := s.chip.bit .seamRing F.SeamRing.ARV = true ∧ s.chip.fld .seamRing F.SeamRing.ARC_ROOT = h.root.toNat
    let src := s.chip.fld .decCfg F.DecCfg.SRC
    let waits (y : Nat) := s.chip.waiters kDec (· == y % 2 ^ 24)
    (∀ (i : Instr) (root : Nat), (i = .decisionInject payload ∧ Ready s ∧ src ≠ 0 ∧ root = 0) ∨
        (i = .decision h payload ∧ Arrives s.chip 0x11 h ∧ src ≠ 1 ∧ fed ∧ root = h.root.toNat) →
      (d < -16 → Completes i s (dropped · F.DecStat.EARLY)) ∧
      (-16 ≤ d → Chip.carries e x = true → e.st = .known → Completes i s fun t => kept t ∧
        Counts s.chip t.chip .decCnt1 F.DecCnt1.CONFLICT 1 ∧
        t.chip.bit .decStat (if (e.word / 2 ^ 30 % 4 = 1) = acc then F.DecStat.DUP else F.DecStat.CONFLICT) = true) ∧
      (-16 ≤ d → Chip.carries e x = true → e.st = .missing → Completes i s (dropped · F.DecStat.LATE_DROP)) ∧
      (last < d → ¬ (Chip.carries e x = true ∧ e.st = .known) → Completes i s (dropped · F.DecStat.LATE_DROP)) ∧
      (∀ u, -16 ≤ d → d ≤ last → x < 2 ^ 64 → (Chip.carries e x = true ∧ e.st = .opened ∨
          Chip.carries e x = false ∧ (e.st = .unused ∨ waits e.x = [])) → waits x = [u] → AtHome s.chip u →
        Completes i s fun t =>
          let th := s.chip.thr u
          Readied s.chip t.chip u th.aff
            { (th.setReg th.retReg (BitVec.ofNat 32 (t.chip.decAt x).word)).report false with kind := kNone, arg := 0 } ∧
          (t.chip.decAt x).st = .known ∧ KeepsButCounts s.chip t.chip [.ndlStat th.aff, .decCnt0, .decCnt1, .decCnt2, .decLast] ∧
          KeepsOutside s t) ∧
      (-16 ≤ d → d ≤ last → x < 2 ^ 64 → (Chip.carries e x = false ∨ e.st = .opened) → waits x = [] → waits e.x = [] →
       Completes i s fun t =>
        (∃ e', t.chip.decAt x = e' ∧ e'.st = .known ∧ (Chip.carries e x = true → e'.x = e.x) ∧
          (Chip.carries e x = false → e'.x = x) ∧ e'.word / 2 ^ 30 = (if acc then 1 else 0) ∧
          e'.word / 2 ^ 29 % 2 = (if d ≤ s.chip.dlat then 0 else 1) ∧ e'.word / 2 ^ 28 % 2 = 0 ∧
          (Chip.carries e x = true → e'.word / 2 ^ 26 % 4 = e.word / 2 ^ 26 % 4) ∧
          e'.word / 2 ^ 16 % 2 ^ 8 = p / 2 ^ 24 % 2 ^ 8 ∧ e'.word / 2 ^ 12 % 2 ^ 4 = root ∧ e'.word % 2 ^ 12 = p % 2 ^ 12) ∧
        (∀ k, k ≠ s.chip.decPos x → Tab.get DecEntry.unused t.chip.dec k = Tab.get DecEntry.unused s.chip.dec k) ∧
        Counts s.chip t.chip .decCnt0 (if acc then F.DecCnt0.ACC else F.DecCnt0.REJ) 1 ∧
        (s.chip.dlat < d → Counts s.chip t.chip .decCnt1 F.DecCnt1.LATE 1) ∧
        t.chip = { s.chip with regs := t.chip.regs, dec := t.chip.dec, seam := t.chip.seam } ∧
        KeepsButCounts s.chip t.chip [.decCnt0, .decCnt1, .decCnt2, .decLast] ∧ KeepsOutside s t)) ∧
    (Ready s → src = 0 → Completes (.decisionInject payload) s fun t =>
      t.chip.rd .decStat = fset (s.chip.rd .decStat) F.DecStat.INJ_OFF 1 ∧ KeepsRegs s.chip t.chip [.decStat] ∧
      OnlyRegs s.chip t.chip ∧ KeepsOutside s t) ∧
    (Arrives s.chip 0x11 h → src ≠ 1 → ¬ fed → Completes (.decision h payload) s (dropped · F.DecStat.FOREIGN)) ∧
    (Arrives s.chip 0x11 h → src = 1 → Completes (.decision h payload) s fun t => kept t ∧
      t.chip.rd .decCnt1 = s.chip.rd .decCnt1) ∧
    (Arrives s.chip 0x12 h → src ≠ 1 → ¬ fed → Completes (.hint h payload) s (dropped · F.DecStat.FOREIGN)) ∧
    (Arrives s.chip 0x12 h → src ≠ 1 → fed →
      (Chip.carries e x = true → e.st = .opened → -16 ≤ d → d ≤ 1007 → Completes (.hint h payload) s fun t =>
        (∃ e', t.chip.decAt x = e' ∧ e'.st = .opened ∧ e'.x = e.x ∧ e'.word / 2 ^ 27 % 2 = 1 ∧
          e'.word / 2 ^ 26 % 2 = p / 2 ^ 39 % 2 ∧ e'.word % 2 ^ 26 = e.word % 2 ^ 26) ∧
        Counts s.chip t.chip .decCnt2 F.DecCnt2.HINTS 1 ∧ KeepsButCounts s.chip t.chip [.decCnt2] ∧ KeepsOutside s t) ∧
      (e.st ≠ .opened → Completes (.hint h payload) s fun t => t.chip.dec = s.chip.dec ∧
        Counts s.chip t.chip .decCnt2 F.DecCnt2.HINTS 1 ∧ KeepsButCounts s.chip t.chip [.decCnt2] ∧ KeepsOutside s t))

/-- LOCK_REQ, LOCK_RSP and LOCK_REQ_TIMEOUT (R116, R117, R118, R248, R249): the reference grants a FREE ring lock and
answers; a held one is answered in TRY mode and waited for otherwise; its owner frees it; the answer reaches the thread
that asked, with the code in its register; a try that is not answered in time ends with UNAVAIL. How a request is told
from another is the model's choice (log 49, DESIGN CHOICE). Clauses rest on log 9, DEDUCED; log 48, DEDUCED; log 50,
DEDUCED. -/
def Obligations.RingLocks : Prop :=
  ∀ (s : State) (h : SeamHead) (l : BitVec 8),
    let n := 0x8000 + l.toNat
    let lock := s.chip.lockAt n
    (∀ (u : BitVec 18) (lease : BitVec 16), Arrives s.chip 0x20 h → s.chip.isRef = true →
      let o := h.src.toNat * 2 ^ 18 + u.toNat
      let answered (t : State) (code : Nat) := ∃ b, Sends s.chip t.chip 0x21 h.src.toNat false [b] ∧
        b.toNat % 2 ^ 8 = l.toNat ∧ b.toNat / 2 ^ 8 % 2 ^ 18 = u.toNat ∧ b.toNat / 2 ^ 26 % 2 ^ 3 = code
      (∀ try_ : Bool, lock.st = .free → Completes (.lockReq h l u try_ false lease) s fun t =>
        t.chip.lockAt n = { lock with st := .held, owner := o, leaseEnd := advance s.chip.olen s.chip.ctr (lease.toNat + 1) } ∧
        answered t 0 ∧ SeamOnly s t []) ∧
      (lock.st = .held → lock.owner ≠ o →
        Completes (.lockReq h l u true false lease) s (fun t => t.chip.lockAt n = lock ∧ answered t 2 ∧ SeamOnly s t []) ∧
        Completes (.lockReq h l u false false lease) s (fun t =>
          t.chip.lockAt n = { lock with
            waiters := (lock.waiters.filter fun w => w.1 ≠ o) ++ [(o, lease.toNat, h.seq.toNat)] } ∧
          t.chip.seam.tx = s.chip.seam.tx ∧ SeamOnly s t []) ∧
        Completes (.lockReq h l u false true lease) s (fun t => t.chip.lockAt n = lock ∧ answered t 3 ∧ SeamOnly s t [])) ∧
      (lock.st = .held → lock.owner = o → lock.waiters = [] → Completes (.lockReq h l u false true lease) s fun t =>
        t.chip.lockAt n = Lock.free ∧ answered t 0 ∧ SeamOnly s t [])) ∧
    (∀ (u : BitVec 18) (code : BitVec 3) (le : BitVec 24) (th : Thread) (a : LockAsk), Arrives s.chip 0x21 h →
      s.chip.threads = [(u.toNat, th)] → th.st = .waiting → th.kind = kLock → th.arg = n → AtHome s.chip u.toNat →
      s.chip.seam.asks = [a] → a = { t := u.toNat, lock := n, seq := h.seq.toNat, isTry := false, isUnlock := false, lapsed := false } →
      Completes (.lockRsp h l u code le) s fun t =>
        Readied s.chip t.chip u.toNat th.aff { th.setReg th.retReg (BitVec.ofNat 32 code.toNat) with
          fF := decide (code ≠ 0), fZ := decide (code = 0), kind := kNone, arg := 0 } ∧ t.chip.seam.asks = [] ∧
        (code.toNat ≤ 1 → (n, u.toNat) ∈ t.chip.seam.held) ∧ (1 < code.toNat → t.chip.seam.held = s.chip.seam.held) ∧
        KeepsButCounts s.chip t.chip [.ndlStat th.aff] ∧ KeepsOutside s t) ∧
    (∀ (u : Fin 262144) (a : LockAsk) (nd : Fin 128) (k : Fin 8) (sl : Slot) (act : Act), coreUp s.chip = true →
      s.chip.seam.asks = [a] → sl.dead = false → a.t = u.val → a.lapsed = false → a.isTry = true → a.isUnlock = false → s.chip.findSlot u.val = some (nd.val, k.val) →
      s.chip.deadSlot u.val = false → s.chip.slot nd k = some sl → sl.act = some act → act.kind = .lockTry → act.arg = a.lock →
      Completes (.lockReqTimeout u) s fun t =>
        t.chip.slot nd k = some (landedSlot sl act { sl.live.setReg act.wd 5#32 with fF := true, fZ := false }) ∧
        t.chip.seam.asks = [{ a with lapsed := true }] ∧ t.chip.regs = s.chip.regs ∧ t.chip.threads = s.chip.threads ∧
        KeepsOutside s t)

/-- RREAD, RWRITE, RRSP and REMOTE_ACCESS_TIMEOUT (R252, R253): where the seal's bit permits it the access is carried
out as one of the control port and answered with its code and data; else it is answered DENIED; an answer is queued for
software, and one that does not come is queued as an ERR of the node's own (log 9, DEDUCED; log 50, DEDUCED). -/
def Obligations.RemoteAccesses : Prop :=
  ∀ (s : State) (h : SeamHead) (tag : BitVec 8), s.chip.seam.rxq.length < 250 →
    let answered (t : State) (code : Nat) (w : Word) :=
      Sends s.chip t.chip 0x42 h.src.toNat false [BitVec.ofNat 64 (tag.toNat + code * 2 ^ 8), w]
    (∀ (r : Reg) (w : Word), Ready s → r ∈ [Reg.otLoad, .hvAt, .bbFrzen, .bbTypeen, .seamSendd0, .seamSendd1] →
      (Arrives s.chip 0x40 h → fbit (s.prot.rd .seamCfg) F.SeamCfg.RRD = true →
        Completes (.rread h (BitVec.ofNat 26 r.offset) tag) s fun t => answered t 0 (s.chip.rd r) ∧ SeamOnly s t []) ∧
      (Arrives s.chip 0x41 h → fbit (s.prot.rd .seamCfg) F.SeamCfg.RWR = true →
        Completes (.rwrite h (BitVec.ofNat 26 r.offset) tag w) s fun t =>
          t.chip.rd r = w ∧ answered t 0 0#64 ∧ SeamOnly s t [r])) ∧
    (∀ (a : BitVec 26) (w : Word),
      (Arrives s.chip 0x40 h → fbit (s.prot.rd .seamCfg) F.SeamCfg.RRD = false →
        Completes (.rread h a tag) s fun t => answered t 3 0#64 ∧ SeamOnly s t []) ∧
      (Arrives s.chip 0x41 h → fbit (s.prot.rd .seamCfg) F.SeamCfg.RWR = false →
        Completes (.rwrite h a tag w) s fun t => answered t 3 0#64 ∧ SeamOnly s t [])) ∧
    (∀ (code : BitVec 2) (w : Word), Arrives s.chip 0x42 h → Completes (.rrsp h tag code w) s fun t =>
      (∃ hd, t.chip.seam.rxq = s.chip.seam.rxq ++ [hd, BitVec.ofNat 64 (tag.toNat + code.toNat * 2 ^ 8), w] ∧
        hd.toNat / 2 ^ 8 % 2 ^ 8 = 0x42 ∧ hd.toNat / 2 ^ 21 % 2 ^ 12 = h.src.toNat ∧
        hd.toNat / 2 ^ 33 % 2 ^ 12 = h.dest.toNat) ∧
      t.chip.seam.remotes = s.chip.seam.remotes.filter (fun r => !(r.1 == tag.toNat && r.2.1 == h.seq.toNat)) ∧
      SeamOnly s t []) ∧
    (∀ (q dest : Nat), coreUp s.chip = true → s.chip.seam.remotes = [(tag.toNat, q, dest)] → Completes (.remoteAccessTimeout tag) s fun t =>
      (∃ hd, t.chip.seam.rxq = s.chip.seam.rxq ++ [hd, BitVec.ofNat 64 (tag.toNat + 2 * 2 ^ 8), 0#64] ∧
        hd.toNat / 2 ^ 8 % 2 ^ 8 = 0x42) ∧ t.chip.seam.remotes = [] ∧ SeamOnly s t [])

/-- SEAM_SEND, SEAM_RXQ_READ, USER, BBRSP, BBREAD and MALFORMED_MESSAGE (R236, R237, R250, R253, R254): a send is
queued, or refused out of service; a read of the receive queue before READY answers NRDY and 0 (R12); received messages
enter the queue of 256 words whole or not at all; the island answers a BBREAD, in bypass or in service, with the log
entries as they stand at the request (log 50, DEDUCED), BUSY while it still sends an answer; a message with a wrong CRC
or a wrong shape is counted and not acted on, but it is forwarded or stripped like any other, and one of the node's own
that has come back counts as unreachable; its type and data are free (log 52, DESIGN CHOICE). SENDS (R121, R251): the
first of BADTYPE 3, NORING 2, VERSION 4 and QFULL 1 that applies is the code, and nothing is queued; otherwise the
message, with the register pair as its payload, joins the node's own messages. COMMIT and HARVEST from the ring (R268,
R332): a commit takes the first safe gap at or after the orbit it names, and a harvest waits for its crossing; both are
forwarded (log 81, DEDUCED: the orbits that the search tries). SEAM_ENABLE, SEAM_STOP, SEAM_STOP_COMPLETE and bypass
(R239, R247, R256, R257; 12 R271): an OFF node starts in LINK; a stop takes it to STOPPING while it has something to
finish and, with its messages sent, to OFF behind the island, at once where there is nothing, but not while the block is
not READY; one that stops out of service keeps no message that needs it (log 48, DEDUCED); FORCE bypasses it until it is
cleared; the bypass pin rises only with both lanes locked, and the loss of the always-on supply drops it. -/
def Obligations.SeamMessages : Prop :=
  (∀ (s : State) (h : SeamHead),
    let queued (t : State) (ty : Nat) (data : List Word) := ∃ hd, t.chip.seam.rxq = s.chip.seam.rxq ++ hd :: data ∧
      hd.toNat / 2 ^ 8 % 2 ^ 8 = ty ∧ hd.toNat / 2 ^ 21 % 2 ^ 12 = h.src.toNat
    (∀ w : Word, Ready s → fget w F.SeamSendh.TYPE = 0x50 →
      (s.chip.rstate = 5 → s.chip.seam.tx = [] → Completes (.seamSend w) s fun t =>
        Sends s.chip t.chip 0x50 (fget w F.SeamSendh.DEST) (fbit w F.SeamSendh.BC) [s.chip.rd .seamSendd0] ∧
        t.chip.regs = s.chip.regs ∧ SeamOnly s t []) ∧
      (s.chip.rstate ≠ 5 → Completes (.seamSend w) s fun t =>
        t.chip.rd .seamStat = fset (s.chip.rd .seamStat) F.SeamStat.SEND_REFUSED 1 ∧ t.chip.seam = s.chip.seam ∧
        SeamOnly s t [.seamStat])) ∧
    (∀ (w : Word) (ws : List Word), Ready s → s.chip.seam.rxq = w :: ws → Completes .seamRxqRead s fun t =>
      t.chip.seam = { s.chip.seam with rxq := ws } ∧ t.chip.cpRsp.getLast? = some (w, rspOk) ∧
      t.chip.regs = s.chip.regs ∧ KeepsOutside s t) ∧
    (∀ w : Word, Arrives s.chip 0x50 h → s.chip.pwr.phase = .running →
      (s.chip.seam.rxq.length ≤ 254 → Completes (.user h w) s fun t => queued t 0x50 [w] ∧ SeamOnly s t []) ∧
      (254 < s.chip.seam.rxq.length → Completes (.user h w) s fun t => t.chip.seam.rxq = s.chip.seam.rxq ∧
        t.chip.rd .seamStat = fset (s.chip.rd .seamStat) F.SeamStat.RXOVF 1 ∧ SeamOnly s t [.seamStat])) ∧
    (∀ (tag : BitVec 8) (first : BitVec 10) (data : List Word), Arrives s.chip 0x49 h → data.length = 4 →
      s.chip.seam.rxq.length ≤ 250 → Completes (.bbrsp h tag 0 1 first false data) s fun t =>
        (∃ b, queued t 0x49 (b :: data) ∧ b.toNat % 2 ^ 8 = tag.toNat ∧ b.toNat / 2 ^ 12 % 2 ^ 10 = first.toNat) ∧
        SeamOnly s t []) ∧
    (∀ (tag : BitVec 8) (first : BitVec 10), (s.chip.rstate = 0 ∨ (s.chip.rstate = 5 ∧ h.src.toNat ≠ s.chip.nodeId)) →
      s.chip.seam.islVer = 3 → h.bc = false → h.dest.toNat = s.chip.seam.islNode →
      fbit (s.prot.rd .seamCfg) F.SeamCfg.BBR = true →
      let sending := s.chip.seam.islBusy ≠ [] ∨ ∃ m ∈ s.chip.seam.laneE, m.ty = 0x49 ∧ m.h.src.toNat = s.chip.seam.islNode
      (sending → Completes (.bbread h first 0 tag) s fun t => ∃ (m : SMsg) (b : Word),
        t.chip.seam = { s.chip.seam with islBusy := s.chip.seam.islBusy ++ [m] } ∧ m.ty = 0x49 ∧ m.h.dest = h.src ∧
        m.data = [b] ∧ b.toNat % 2 ^ 8 = tag.toNat ∧ b.toNat / 2 ^ 8 % 4 = 1 ∧ SeamOnly s t []) ∧
      (¬ sending → Completes (.bbread h first 0 tag) s fun t =>
        (∃ (m : SMsg) (b : Word), t.chip.seam = { s.chip.seam with islBusy := [m] } ∧ m.ty = 0x49 ∧ m.h.dest = h.src ∧
          m.data = [b, Tab.get 0#64 s.chip.bb.log (4 * first.toNat), Tab.get 0#64 s.chip.bb.log (4 * first.toNat + 1),
            Tab.get 0#64 s.chip.bb.log (4 * first.toNat + 2), Tab.get 0#64 s.chip.bb.log (4 * first.toNat + 3)] ∧
          b.toNat % 2 ^ 8 = tag.toNat ∧ b.toNat / 2 ^ 8 % 4 = 0 ∧ b.toNat / 2 ^ 10 % 4 = 1 ∧
          b.toNat / 2 ^ 12 % 2 ^ 10 = first.toNat) ∧ SeamOnly s t [])) ∧
    (let own := h.src.toNat = s.chip.nodeId
      let ty := (Config.strayType s.chip.free).toNat
      let stripped := own ∨ (h.bc = false ∧ h.dest.toNat = s.chip.nodeId) ∨
        ((ty = 0x11 ∨ ty = 0x12) ∧ s.chip.rstate = 5 ∧ s.chip.isRoot = true ∧
          s.chip.fld .seamCfg F.SeamCfg.ROOTIDX ≠ h.root.toNat)
      let onward (t : State) (n : Nat) := (stripped → t.chip.seam = s.chip.seam) ∧
        (¬ stripped → ∃ data, Forwards s.chip t.chip ty h data ∧ data.length ≤ n) ∧
        (own → h.bc = false → h.dest.toNat ≠ s.chip.nodeId → Counts s.chip t.chip .seamCnt F.SeamCnt.UNREACH 1)
      (s.chip.rstate ≠ 0 →
        Completes (.malformedMessage h .crc) s (fun t => Counts s.chip t.chip .seamCnt F.SeamCnt.CRC_ERR 1 ∧
          t.chip.bit .seamStat F.SeamStat.CRC = true ∧ onward t 15 ∧ SeamOnly s t [.seamCnt, .seamStat]) ∧
        Completes (.malformedMessage h .shape) s (fun t => Counts s.chip t.chip .seamCnt F.SeamCnt.MALFORMED 1 ∧
          t.chip.bit .seamStat F.SeamStat.MALFORMED = true ∧ onward t 16 ∧ SeamOnly s t [.seamCnt, .seamStat]) ∧
        Completes (.malformedMessage h .control) s (fun t => Counts s.chip t.chip .seamCnt F.SeamCnt.MALFORMED 1 ∧
          t.chip.bit .seamStat F.SeamStat.MALFORMED = true ∧ t.chip.seam = s.chip.seam ∧
          SeamOnly s t [.seamCnt, .seamStat])) ∧
      (s.chip.rstate = 0 →
        Completes (.malformedMessage h .control) s (fun t => t = s) ∧
        ∀ k, k ≠ Malform.control → Completes (.malformedMessage h k) s fun t =>
          (∃ ty data, Forwards s.chip t.chip ty h data) ∧ SeamOnly s t [])) ∧
    (s.chip.pwr.phase ≠ .running → Completes .seamRxqRead s fun t =>
      t.chip.cpRsp.getLast? = some (0#64, rspNrdy) ∧ t.chip = { s.chip with cpRsp := t.chip.cpRsp } ∧ KeepsOutside s t)) ∧
  (∀ (s : State) (n : Fin 128) (k : Fin 8) (sl : Slot) (wd ws type dest : Nat), Issues s n k sl (.sends wd ws type dest) →
    let queued := (s.chip.seam.tx.filter fun m => Chip.fromThread m.orig).length
    let fromRoot := type = 0x11 ∨ type = 0x12
    let known := type = 0x50 ∨ type = 0x30 ∨ type = 0x31 ∨ (fromRoot ∧ s.chip.isRoot = true)
    let old := type = 0x12 ∧ s.chip.fld .seamRing F.SeamRing.VER < 3
    let slot (code : Nat) : Slot := issuedSlot sl (.sends wd ws type dest)
      (((stepped sl.live).setReg wd (BitVec.ofNat 32 code)).report (decide (code ≠ 0)))
    let refused (code : Nat) := Completes (.sends n k) s fun t => IssuedOnly s t n k (slot code)
    (¬ known → refused 3) ∧
    (known → s.chip.inService = false → refused 2) ∧
    (known → s.chip.inService = true → old → refused 4) ∧
    (known → s.chip.inService = true → ¬ old → 32 ≤ queued → refused 1) ∧
    (known → s.chip.inService = true → ¬ old → queued < 32 → Completes (.sends n k) s fun t =>
      SlotBecomes s.chip t.chip n k (some (slot 0)) ∧
      (∃ m, t.chip.seam = { s.chip.seam with tx := s.chip.seam.tx ++ [m], seq := (s.chip.seam.seq + 1) % 128 } ∧
        m.ty = type ∧ m.orig = .thread sl.t ∧ m.h.src = BitVec.ofNat 12 s.chip.nodeId ∧ m.h.dest = BitVec.ofNat 12 dest ∧
        m.h.seq = BitVec.ofNat 7 s.chip.seam.seq ∧ (m.h.bc = true ↔ dest = s.chip.nodeId ∨ fromRoot) ∧
        m.data = [BitVec.ofNat 64 ((sl.live.reg ws).toNat + 2 ^ 32 * (sl.live.reg (ws + 1)).toNat)]) ∧
      KeepsButCounts s.chip t.chip [.isStat] ∧
      t.chip = { s.chip with regs := t.chip.regs, needles := t.chip.needles, seam := t.chip.seam } ∧ KeepsOutside s t)) ∧
  ((∀ (s : State) (h : SeamHead) (orbit : BitVec 52) (o : Nat), Arrives s.chip 0x30 h → h.bc = true →
    0 < s.chip.gap → s.chip.gap < s.chip.olen → s.chip.ctr % 4096 < s.chip.olen → s.chip.ctr / 4096 + 4097 < 2 ^ 52 →
    orbit.toNat ≤ s.chip.ctr / 4096 + 1 → FirstSafeGap s.chip (max orbit.toNat (s.chip.ctr / 4096)) o →
    s.chip.commitPending = false → Completes (.commit h orbit) s fun t =>
      t.chip.commitPending = true ∧ t.chip.fld .cfgset F.Cfgset.TARGET = o ∧ t.chip.fld .cfgset F.Cfgset.SRC = 1 ∧
      t.chip.activeSet = s.chip.activeSet ∧ Forwards s.chip t.chip 0x30 h [BitVec.ofNat 64 orbit.toNat] ∧
      KeepsButCounts s.chip t.chip [.cfgset, .commitStat] ∧
      t.chip = { s.chip with regs := t.chip.regs, seam := t.chip.seam, tb := { s.chip.tb with commitPast := false } } ∧
      KeepsOutside s t) ∧
  (∀ (s : State) (h : SeamHead) (x : Word), Arrives s.chip 0x31 h → h.bc = true →
    (s.chip.bit .hvStat F.HvStat.PEND = true → Completes (.harvest h x) s fun t =>
      t.chip.rd .hvStat = fset (s.chip.rd .hvStat) F.HvStat.REFUSED 1 ∧ t.chip.hv = s.chip.hv ∧
      Forwards s.chip t.chip 0x31 h [x] ∧ SeamOnly s t [.hvStat]) ∧
    (s.chip.bit .hvStat F.HvStat.PEND = false → s.chip.reached x.toNat = false → Completes (.harvest h x) s fun t =>
      t.chip.bit .hvStat F.HvStat.PEND = true ∧ t.chip.fld .hvStat F.HvStat.PKIND = 3 ∧
      t.chip.hv = { s.chip.hv with target := some x.toNat } ∧ Forwards s.chip t.chip 0x31 h [x] ∧
      KeepsButCounts s.chip t.chip [.hvStat] ∧ KeepsOutside s t))) ∧
  (∀ s : State, NoAsks s.chip →
    let en (c : Chip) := c.fld .seamCfg F.SeamCfg.EN
    let free := s.chip.bit .seamByp F.SeamByp.FORCE = false ∧ s.chip.bdDown 128 = false
    let regs := [Reg.seamCfg, .seamStat, .seamByp]
    let island (c : Chip) := c.bit .seamByp F.SeamByp.ISL
    (Ready s → en s.chip = 0 → free → s.chip.isRef = false → Completes .seamEnable s fun t =>
      en t.chip = 1 ∧ t.chip.rstate = 1 ∧ island t.chip = false ∧ SeamOnly s t regs) ∧
    let quiet := s.chip.seam.tx = [] ∧ (∀ m ∈ s.chip.seam.west, m.h.src.toNat ≠ s.chip.nodeId) ∧ s.chip.ownOnLane = false
    (Ready s → en s.chip = 1 → s.chip.rstate ≠ 0 → quiet → Completes .seamStop s fun t =>
      en t.chip = 0 ∧ t.chip.rstate = 0 ∧ island t.chip = true ∧ SeamOnly s t regs) ∧
    (Ready s → en s.chip = 1 → s.chip.rstate ≠ 0 → ¬ quiet → Completes .seamStop s fun t =>
      en t.chip = 2 ∧ t.chip.rstate = 7 ∧ (s.chip.rstate ≠ 5 → ∀ m ∈ t.chip.seam.tx, needsService m.ty = false) ∧
      SeamOnly s t regs) ∧
    (Ready s → en s.chip = 1 → s.chip.rstate = 0 → Completes .seamStop s fun t =>
      en t.chip = 0 ∧ t.chip.rstate = 0 ∧ SeamOnly s t regs) ∧
    (en s.chip = 2 → (¬ quiet ∨ ¬ Ready s) → Completes .seamStopComplete s fun t => t = s) ∧
    (Ready s → en s.chip = 2 → quiet →
      Completes .seamStopComplete s fun t => en t.chip = 0 ∧ t.chip.rstate = 0 ∧ island t.chip = true ∧ SeamOnly s t regs) ∧
    (Ready s → Completes .bypassForceSet s fun t => t.chip.bit .seamByp F.SeamByp.FORCE = true ∧ t.chip.rstate = 0 ∧
      island t.chip = true ∧ t.chip.seam.tx = [] ∧ SeamOnly s t regs) ∧
    (Ready s → s.chip.bit .seamByp F.SeamByp.FORCE = true → s.chip.bdDown 128 = false → en s.chip = 1 →
      s.chip.isRef = false → Completes .bypassForceClear s fun t =>
        t.chip.bit .seamByp F.SeamByp.FORCE = false ∧ t.chip.rstate = 1 ∧ island t.chip = false ∧ SeamOnly s t regs) ∧
    (s.chip.bothLocked = true → Completes .bypassPinRise s fun t =>
      t.chip.rd .seamByp = fset (s.chip.rd .seamByp) F.SeamByp.PIN 1 ∧ KeepsRegs s.chip t.chip [.seamByp] ∧
      OnlyRegs s.chip t.chip ∧ KeepsOutside s t) ∧
    (s.chip.bothLocked = false → Completes .bypassPinRise s fun t => t = s) ∧
    (Completes .aoSupplyFall s fun t => t.chip.rd .seamByp = fset (s.chip.rd .seamByp) F.SeamByp.PIN 0 ∧
      KeepsRegs s.chip t.chip [.seamByp] ∧ OnlyRegs s.chip t.chip ∧ KeepsOutside s t))

/-- WEEDER_UNIT (R310, R311): a running weeder reads the next unit of a memory and goes on to the one after, counting a
pass at the end; an error that it meets is counted and, if correctable, corrected; a weeder that is not running, or
whose interval is 0, does nothing (log 63, DEDUCED: the moments of a service's reads). PED_RESULT, CAL_PED_WRITE and
PHASE_MEAN (R313, R314, R316): the mean of 2^K samples, rounded, waits to be written where it lies within MAXDEV of the
pedestal, and is rejected otherwise; in the gap a waiting mean is written to its entry of the shadow set and to nothing
else; the mean of 2^AVG residuals is shown, and its magnitude drives the phase watermark (R39). A sum keeps the K, and a
phase sum the AVG, that its first sample found (log 101, DESIGN CHOICE). The deskew of an ingest port (R39, R315): while
CAL runs, an SOP word that enters a spool shows its lag in eighths of a slot behind the counter, the extremes since they
were last read, and the deskew watermark, whose notice arms again below LOW and sets DSK as it rises. The tick within
the slot is a free value. ROTATION_POINT and ROTATION_BATCH (R317): a rotation point begins a pass, or is skipped,
whatever EN, while one goes on; a batch adds STEP to AFF of 8 threads whose AFIX is 0 and changes nothing else of any
thread (log 100, DESIGN CHOICE: what a service's reads do to the error counts). MONITOR_FRAME_END and
MONITOR_FRAME_ABORT (R320, R321): a frame end takes the counters, which start again from 0, sets the next end FRAME
orbits on, and writes the header to the image with SEQ and bit 63; a frame with a failed write is counted and carried
into the next, due at the next gap start (log 63, DEDUCED). An edge passes the orbits that the counter went on by, over
a wrap too, else one (log 143, DESIGN CHOICE). SERVICE_ENABLE, SERVICE_STOP and SERVICE_STOP_COMPLETE (R271): an OFF
service runs; a running one with nothing to finish is OFF at once, and otherwise STOPPING until it has finished. -/
def Obligations.Services : Prop :=
  (∀ (s : State) (m : Fin 4), Ready s → s.chip.lanes = [] →
    let u := Tab.get 0 s.chip.svc.wdNext m
    let units := if m = 0 then 262144 else if m = 1 then 8192 else if m = 2 then 16384 else 98304
    let f : Fld := ⟨16 * m + 15, 16 * m⟩
    let running := s.chip.fld .svcEn ⟨1, 0⟩ = 1 ∧ s.chip.fld .wdCfg f ≠ 0
    let moved (t : State) := t.chip.svc = { s.chip.svc with wdNext := Tab.put 0 s.chip.svc.wdNext m ((u + 1) % units) } ∧
      t.chip.rd .wdPass = (if (u + 1) % units = 0 then
        fset (s.chip.rd .wdPass) f (s.chip.fld .wdPass f + 1) else s.chip.rd .wdPass) ∧
      t.chip.threads = s.chip.threads ∧ t.chip.ports = s.chip.ports ∧ KeepsOutside s t
    (running → s.chip.eccCe = [] → s.chip.eccUe = [] → Completes (.weederUnit m) s fun t =>
      moved t ∧ KeepsButCounts s.chip t.chip [.wdPass]) ∧
    (∀ j, j < 8 → running → m = 1 → s.chip.bit .wdRing F.WdRing.REN = false → s.chip.eccUe = [] →
      s.chip.eccCe = [(0x400000 + u * 64 + 8 * j, true)] → Completes (.weederUnit m) s fun t =>
        moved t ∧ Counts s.chip t.chip .wdEcc F.WdEcc.PM_CE 1 ∧ t.chip.eccCe = [] ∧ t.chip.eccUe = [] ∧
        KeepsButCounts s.chip t.chip [.wdPass, .wdEcc, .wdStat, .bbStat]) ∧
    (¬ running → Completes (.weederUnit m) s fun t => t = s)) ∧
  (∀ s : State, Ready s → s.chip.fld .svcEn ⟨3, 2⟩ = 1 → s.chip.eccUe = [] → s.chip.eccCe = [] →
    let n := 2 ^ s.chip.svc.phAvg
    let entry (t : State) (set ch : Nat) : Nat :=
      (memWord t.mem (0x800000 + set * 0x80000 + 2 * ch / 8 * 8)).toNat / 2 ^ (16 * (ch % 4)) % 2 ^ 16
    (∀ (ch : BitVec 16) (sum k : Nat), Tab.get (0, 0, 0) s.chip.svc.pedSum ch.toNat = (sum, 2 ^ k, k) → 1 ≤ k →
      let mean := (sum + 2 ^ (k - 1)) / 2 ^ k
      let dev := ((mean : Int) - (entry s s.chip.activeSet ch.toNat : Nat)).natAbs
      (dev ≤ s.chip.fld .calCfg F.CalCfg.MAXDEV → Completes (.pedResult ch) s fun t =>
        t.chip.svc = { s.chip.svc with
          pedSum := Tab.put (0, 0, 0) s.chip.svc.pedSum ch.toNat (0, 0, 0)
          pedPend := Tab.put none s.chip.svc.pedPend ch.toNat (some mean) } ∧
        t.chip.regs = s.chip.regs ∧ KeepsOutside s t) ∧
      (s.chip.fld .calCfg F.CalCfg.MAXDEV < dev → Completes (.pedResult ch) s fun t =>
        t.chip.svc = { s.chip.svc with pedSum := Tab.put (0, 0, 0) s.chip.svc.pedSum ch.toNat (0, 0, 0) } ∧
        Counts s.chip t.chip .calStat F.CalStat.PED_REJ 1 ∧ t.chip.bit .calStat F.CalStat.REJ = true ∧
        KeepsRegs s.chip t.chip [.calStat] ∧ KeepsOutside s t)) ∧
    (∀ (ch : BitVec 16) (mean : BitVec 16), s.chip.olen - s.chip.gap ≤ s.chip.ctr % 4096 → s.chip.ctr % 4096 < s.chip.olen →
      s.chip.svc.pedPend = [(ch.toNat, some mean.toNat)] → Completes .calPedWrite s fun t =>
        entry t (1 - s.chip.activeSet) ch.toNat = mean.toNat ∧
        (∀ c, c < 65536 → c ≠ ch.toNat → entry t (1 - s.chip.activeSet) c = entry s (1 - s.chip.activeSet) c) ∧
        (∀ a, (a < 0x800000 + (1 - s.chip.activeSet) * 0x80000 + 2 * ch.toNat ∨
            0x800000 + (1 - s.chip.activeSet) * 0x80000 + 2 * ch.toNat + 1 < a) →
          Tab.get 0#8 t.mem a = Tab.get 0#8 s.mem a) ∧
        t.chip.svc.pedPend = [] ∧ Counts s.chip t.chip .calStat F.CalStat.PED_WR 1 ∧
        KeepsRegs s.chip t.chip [.calStat] ∧ t.prot = s.prot ∧ t.pending = s.pending) ∧
    (n ≤ s.chip.fld .calPhase F.CalPhase.NMARK → s.chip.svc.phSum % (n : Int) = 0 → Completes .phaseMean s fun t =>
      t.chip.fld .calPhase F.CalPhase.NMARK = 0 ∧ t.chip.bit .calPhase F.CalPhase.VALID = true ∧
      t.chip.fld .calPhase F.CalPhase.PS = unsigned 16 (clamp (-32768) 32767 (s.chip.svc.phSum / (n : Int))) ∧
      (let level := (s.chip.svc.phSum / (n : Int)).natAbs
        let high := s.chip.fld .calCfg F.CalCfg.PH_HIGH
        let armed := s.chip.bit .calPhase F.CalPhase.ARMED
        t.chip.bit .calPhase F.CalPhase.ARMED =
          (decide (level < min (s.chip.fld .calCfg F.CalCfg.PH_LOW) high) || (armed && decide (level ≤ high))) ∧
        t.chip.bit .calStat F.CalStat.PHASE = (s.chip.bit .calStat F.CalStat.PHASE || (armed && decide (high < level)))) ∧
      t.chip.svc = { s.chip.svc with phSum := 0 } ∧ KeepsRegs s.chip t.chip [.calPhase, .calStat] ∧ KeepsOutside s t) ∧
    (s.chip.fld .calPhase F.CalPhase.NMARK < n → Completes .phaseMean s fun t => t = s)) ∧
  (∀ (s : State) (p : Fin 16) (w : FWord) (rest : List FWord), Ready s → (s.chip.ip p).fifo = w :: rest → w.sop = true →
    s.chip.fld .svcEn ⟨3, 2⟩ = 1 → w.spool < 256 → s.chip.spEn w.spool = .running → s.chip.canTake w.spool = true →
    Completes (.spoolWordWrite p) s fun t =>
      let r := Reg.calDsk p
      let lag := t.chip.fld r F.CalDsk.LAST
      let seen := Tab.get false s.chip.svc.dskSeen p
      let high := s.chip.fld .calDskcfg F.CalDskcfg.HIGH
      let armed := s.chip.bit r F.CalDsk.ARMED
      let orbits := signed 12 (unsigned 12 ((s.chip.ctr / 4096 : Nat) - ((w.tag / 4096 : Nat) : Int)))
      (∃ tick : Nat, tick < 8 ∧ (lag : Int) = clamp 0 65535
        ((orbits * s.chip.olen + ((s.chip.ctr % 4096 : Nat) - ((w.tag % 4096 : Nat) : Int))) * 8 + tick)) ∧
      t.chip.fld r F.CalDsk.MAX = (if seen then max (s.chip.fld r F.CalDsk.MAX) lag else lag) ∧
      t.chip.fld r F.CalDsk.MIN = (if seen then min (s.chip.fld r F.CalDsk.MIN) lag else lag) ∧
      t.chip.bit r F.CalDsk.ARMED =
        (decide (lag < min (s.chip.fld .calDskcfg F.CalDskcfg.LOW) high) || (armed && decide (lag ≤ high))) ∧
      t.chip.bit r F.CalDsk.NOTICE = (s.chip.bit r F.CalDsk.NOTICE || (armed && decide (high < lag))) ∧
      t.chip.bit .calStat F.CalStat.DSK = (s.chip.bit .calStat F.CalStat.DSK ||
        (armed && decide (high < lag) && !s.chip.bit r F.CalDsk.NOTICE))) ∧
  (∀ s : State, Ready s →
    (s.chip.tb.agenda = [.rotation] →
      (s.chip.fld .svcEn ⟨5, 4⟩ = 1 → s.chip.bit .rotStat F.RotStat.ACTIVE = false → Completes .rotationPoint s fun t =>
        t.chip.rd .rotStat = fset (s.chip.rd .rotStat) F.RotStat.ACTIVE 1 ∧
        t.chip.svc = { s.chip.svc with rotNext := some 0 } ∧ t.chip.tb.agenda = [] ∧
        KeepsRegs s.chip t.chip [.rotStat] ∧ KeepsOutside s t) ∧
      (s.chip.bit .rotStat F.RotStat.ACTIVE = true → Completes .rotationPoint s fun t =>
        Counts s.chip t.chip .rotStat F.RotStat.SKIPS 1 ∧ t.chip.bit .rotStat F.RotStat.SKIP = true ∧
        t.chip.svc = s.chip.svc ∧ t.chip.tb.agenda = [] ∧ KeepsRegs s.chip t.chip [.rotStat] ∧ KeepsOutside s t)) ∧
    (∀ u : Nat, s.chip.svc.rotNext = some u → s.chip.needles = [] → s.chip.eccUe = [] → s.chip.eccCe = [] → Completes .rotationBatch s fun t =>
      (∀ v, t.chip.thr v = (if u ≤ v ∧ v < u + 8 ∧ (s.chip.thr v).afix = false then
        { s.chip.thr v with aff := ((s.chip.thr v).aff + s.chip.fld .rotCfg F.RotCfg.STEP) % 128 } else s.chip.thr v)) ∧
      (u + 8 < 262144 → t.chip.svc = { s.chip.svc with rotNext := some (u + 8) } ∧ t.chip.regs = s.chip.regs) ∧
      (262144 ≤ u + 8 → t.chip.svc = { s.chip.svc with rotNext := none } ∧
        t.chip.bit .rotStat F.RotStat.ACTIVE = false ∧ Counts s.chip t.chip .rotStat F.RotStat.PASSES 1 ∧
        KeepsRegs s.chip t.chip [.rotStat]) ∧ KeepsOutside s t)) ∧
  ((∀ (s : State) (w : Nat), coreUp s.chip = true → s.chip.fld .svcEn ⟨7, 6⟩ = 1 → s.chip.fld .svcEn ⟨5, 4⟩ = 0 → s.chip.tb.agenda = [.monitor] →
    s.chip.svc.frame = none → s.chip.svc.carry = none → Tab.wf 0 s.chip.svc.occ = true →
    let a := s.chip.fld .monBase F.MonBase.ADDR * 2 ^ 18 + 0x20000
    s.prot.check (s.chip.fld .monCfg F.MonCfg.PD) a 64 .ackWrite = .ok w → NoneWaits s.chip (s.prot.home w) 131 →
    Completes .monitorFrameEnd s fun t =>
      (∃ f, t.chip.svc.frame = some f ∧ f.orbit = s.chip.ctr / 4096 ∧ f.stage = 1 ∧ f.failed = false ∧
        ∀ ch, Tab.get 0 f.snap ch = min (Tab.get 0 s.chip.svc.occ ch) 0xFFFF) ∧
      t.chip.svc.occ = [] ∧ t.chip.svc.monRun = 0 ∧
      t.chip.svc.frameEnd = some (s.chip.fld .monCfg F.MonCfg.FRAME) ∧
      t.chip.rd .monStat = fset (s.chip.rd .monStat) F.MonStat.BUSY 1 ∧
      (∃ x, Presented s.chip t.chip (s.prot.home w) x ∧ x.req = 131 ∧ x.addr = a ∧ x.len = 1 ∧ x.kind = .ack ∧
        x.data = [wordLine a (BitVec.ofNat 64 (2 ^ 63 + s.chip.fld .monStat F.MonStat.SEQ))]) ∧
      KeepsRegs s.chip t.chip [.monStat] ∧ KeepsOutside s t) ∧
  (∀ (s : State) (f : Frame), s.chip.svc.frame = some f → f.failed = true → s.chip.svc.monOut = [] →
    (∀ q ∈ s.chip.ports, ∀ b ∈ q.2.waiting, b.req ≠ 131) → (∀ x ∈ s.chip.backlog, x.2.req ≠ 131) →
    Completes .monitorFrameAbort s fun t =>
      t.chip.svc = { s.chip.svc with
        frame := none, carry := some (f.snap, f.orbits), frameEnd := some (s.chip.svc.monRun + if s.chip.ctr % 4096 < s.chip.olen - s.chip.gap then 2 else 1)
        aborts := s.chip.svc.aborts + 1 } ∧
      Counts s.chip t.chip .monStat F.MonStat.ABORTS 1 ∧ t.chip.bit .monStat F.MonStat.ERR = true ∧
      KeepsRegs s.chip t.chip [.monStat] ∧ KeepsOutside s t) ∧
  (∀ (c : Chip) (f o p x : Nat), o < 2 ^ 52 → p < 2 ^ 52 → x < 4096 → c.svc.frameEnd = some f → c.svc.monGap = some p →
    let d := c.monPass (o * 4096 + x)
    let passed (j : Nat) : Prop := d = { c with svc := { c.svc with monRun := c.svc.monRun + j, monGap := some o } }
    (x ≠ c.olen - c.gap → d = c) ∧
    (∀ j, x = c.olen - c.gap → 0 < j → j < 2 ^ 51 → (p + j) % 2 ^ 52 = o → passed j) ∧
    (x = c.olen - c.gap → (∀ j, 0 < j → j < 2 ^ 51 → (p + j) % 2 ^ 52 ≠ o) → passed 1))) ∧
  (∀ (s : State) (k : Fin 5),
    let f : Fld := ⟨2 * k + 1, 2 * k⟩
    let en (t : State) := t.chip.fld .svcEn f
    let keeps (t : State) := (∀ j : Fin 5, j ≠ k → t.chip.fld .svcEn ⟨2 * j + 1, 2 * j⟩ = s.chip.fld .svcEn ⟨2 * j + 1, 2 * j⟩) ∧
      KeepsRegs s.chip t.chip [.svcEn, .monStat, .calPhase] ∧ t.chip.threads = s.chip.threads ∧
      t.chip.ports = s.chip.ports ∧ KeepsOutside s t
    (Ready s → en s = 0 → Completes (.serviceEnable k) s fun t => en t = 1 ∧ keeps t) ∧
    (Ready s → en s = 1 → s.chip.svcIdle k = true → Completes (.serviceStop k) s fun t => en t = 0 ∧ keeps t) ∧
    (Ready s → en s = 1 → s.chip.svcIdle k = false → Completes (.serviceStop k) s fun t =>
      en t = 2 ∧ keeps t ∧ t.chip.svc = s.chip.svc) ∧
    (Ready s → en s = 2 → (s.chip.svcIdle k = true ∨ k = 0) → Completes (.serviceStopComplete k) s fun t =>
      en t = 0 ∧ keeps t))

/-- PMC_COUNTER_WRITE, PMC_CLEAR and the harvest (R329, R331, R332, R333, R334): a write sets a counter and clears the
marks it names; CLEAR zeroes all; a harvest copies all 592 counters at one point, numbers the record and begins to write
it; one that cannot begin is refused; a record ends with DONE or ERR. LOST_OVF marks a wrap that a write or CLEAR has
discarded; whether one falls on its cycle is free while the counter counts (log 103, DESIGN CHOICE). SAMPLE_ENABLE,
SAMPLE_STOP and SAMPLE_RECORD (R335, R336): sampling starts with each needle's generator loaded from SEED and its
number, 1 where that gives 0; it stops at once with nothing followed, and otherwise when the records are written; the
record of an instruction that has ended goes to the ring at WIDX. That the generator's value is the exclusive or is
R335's; the cycle counts of a record are free values (log 60). -/
def Obligations.CountersHarvestsAndSamples : Prop :=
  (∀ s : State,
    let busy := s.chip.bit .hvStat F.HvStat.BUSY = true
    let pend := s.chip.bit .hvStat F.HvStat.PEND = true
    let only (t : State) := KeepsRegs s.chip t.chip [.hvStat] ∧ KeepsOutside s t
    let counts (i : Nat) := s.chip.bit .pmcCtl F.PmcCtl.FREEZE = false ∧ s.chip.bit (.pmcCfg i) F.PmcCfg.EN = true ∧
      s.chip.fld (.pmcCfg i) F.PmcCfg.EVENT ≠ 0
    let rest (t : State) := t.chip = { s.chip with regs := t.chip.regs, free := t.chip.free } ∧ KeepsOutside s t
    (∀ (i : Fin 592) (data : Word), Ready s → Completes (.pmcCounterWrite i data) s fun t =>
      t.chip.fld (.pmcCnt i) F.PmcCnt.VALUE = fget data F.PmcCnt.VALUE ∧
      t.chip.bit (.pmcCnt i) F.PmcCnt.OVF = (s.chip.bit (.pmcCnt i) F.PmcCnt.OVF && !fbit data F.PmcCnt.OVF) ∧
      (let kept := s.chip.bit (.pmcCnt i) F.PmcCnt.LOST_OVF && !fbit data F.PmcCnt.LOST_OVF
        let lost := t.chip.bit (.pmcCnt i) F.PmcCnt.LOST_OVF
        (¬ counts i → lost = kept) ∧ (kept = true → lost = true)) ∧
      KeepsRegs s.chip t.chip [.pmcCnt i] ∧ rest t) ∧
    (Ready s → Completes .pmcClear s fun t => (∀ i, i < 592 →
        t.chip.rd (.pmcCnt i) = 0#64 ∨ (counts i ∧ t.chip.rd (.pmcCnt i) = F.PmcCnt.LOST_OVF.mask)) ∧
      (∀ r : Reg, (∀ i, i < 592 → r.offset ≠ Reg.offset (.pmcCnt i)) → t.chip.rd r = s.chip.rd r) ∧
      rest t) ∧
    (∀ w, ¬ busy → s.prot.check (s.chip.fld .hvCtl F.HvCtl.PD) (s.chip.fld .hvAddr F.HvAddr.ADDR * 2 ^ 13) 64 .ackWrite = .ok w →
      NoneWaits s.chip (s.prot.home w) 129 →
      ∀ i, (i = Instr.harvestNow ∧ Ready s) ∨ (i = Instr.harvestSnapshot ∧ coreUp s.chip = true ∧ pend ∧ s.chip.tb.agenda = [.harvest]) →
        Completes i s fun t =>
          (∀ j, j < 592 → t.chip.rd (.pmcSnap j) = s.chip.rd (.pmcCnt j) ∧ t.chip.rd (.pmcCnt j) = s.chip.rd (.pmcCnt j)) ∧
          t.chip.bit .hvStat F.HvStat.BUSY = true ∧
          t.chip.fld .hvStat F.HvStat.SEQ = (s.chip.fld .hvStat F.HvStat.SEQ + 1) % 2 ^ 32 ∧
          (i = Instr.harvestSnapshot → t.chip.bit .hvStat F.HvStat.PEND = false ∧ t.chip.hv.target = none) ∧
          (∃ r, t.chip.hv.record = some r ∧ r.stage = 1 ∧ r.pend = 1 ∧ r.failed = false ∧ r.h1 = s.chip.rd .otXing ∧
            r.h2 = s.chip.rd .thTimer) ∧
          (∃ x, Presented s.chip t.chip (s.prot.home w) x ∧ x.req = 129 ∧ x.len = 1 ∧
            x.addr = s.chip.fld .hvAddr F.HvAddr.ADDR * 2 ^ 13) ∧
          (∀ r : Reg, r.offset ≠ Reg.offset .hvStat → (∀ j, j < 592 → r.offset ≠ Reg.offset (.pmcSnap j)) →
            t.chip.rd r = s.chip.rd r) ∧ KeepsOutside s t) ∧
    (Ready s → busy → Completes .harvestNow s fun t =>
      t.chip.rd .hvStat = fset (s.chip.rd .hvStat) F.HvStat.REFUSED 1 ∧ only t ∧ OnlyRegs s.chip t.chip) ∧
    (Ready s → pend → Completes .harvestAt s fun t =>
      t.chip.rd .hvStat = fset (s.chip.rd .hvStat) F.HvStat.REFUSED 1 ∧ only t ∧ OnlyRegs s.chip t.chip) ∧
    (Ready s → ¬ pend → s.chip.reached (s.chip.rd .hvAt).toNat = false → Completes .harvestAt s fun t =>
      t.chip.bit .hvStat F.HvStat.PEND = true ∧ t.chip.fld .hvStat F.HvStat.PKIND = 2 ∧
      t.chip.hv = { s.chip.hv with target := some (s.chip.rd .hvAt).toNat } ∧ only t) ∧
    (Ready s → Completes .harvestCancel s fun t => t.chip.bit .hvStat F.HvStat.PEND = false ∧
      t.chip.hv = { s.chip.hv with target := none } ∧
      t.chip.tb = { s.chip.tb with agenda := s.chip.tb.agenda.filter fun x => x ≠ .harvest } ∧ only t) ∧
    (∀ r : Record, coreUp s.chip = true → s.chip.hv.record = some r →
      (r.failed = false → r.stage = 3 → r.pend = 0 → Completes .harvestRecordDone s fun t =>
        t.chip.hv = { s.chip.hv with record := none, prev := r.h0 } ∧ t.chip.bit .hvStat F.HvStat.DONE = true ∧
        t.chip.bit .hvStat F.HvStat.BUSY = false ∧ only t) ∧
      (r.failed = true → Completes .harvestRecordDone s fun t =>
        t.chip.hv = { s.chip.hv with record := none } ∧ t.chip.bit .hvStat F.HvStat.ERR = true ∧
        t.chip.bit .hvStat F.HvStat.BUSY = false ∧ only t))) ∧
  (∀ s : State, Ready s →
    let en (t : State) := t.chip.fld .isCfg F.IsCfg.EN
    (en s = 0 → Completes .sampleEnable s fun t => en t = 1 ∧
      (∀ n, n < 128 → t.chip.ndl n = { s.chip.ndl n with
        lfsr := if Nat.xor (s.chip.fld .isCfg F.IsCfg.SEED) n = 0 then 1 else Nat.xor (s.chip.fld .isCfg F.IsCfg.SEED) n }) ∧
      KeepsRegs s.chip t.chip [.isCfg] ∧ KeepsOutside s t) ∧
    (en s = 1 → Completes .sampleStop s fun t => en t = (if s.chip.sampleIdle then 0 else 2) ∧
      KeepsRegs s.chip t.chip [.isCfg] ∧ OnlyRegs s.chip t.chip ∧ KeepsOutside s t) ∧
    (∀ (n : Fin 128) (w0 w1 : Nat) (more : List Nat) (w : Nat), (s.chip.ndl n).follow = some (w0 :: w1 :: more) →
      Chip.following (s.chip.ndl n) (w1 % 2 ^ 18) = false → s.chip.hv.samples = [] → s.chip.sampleWaits = false →
      let i := s.chip.fld .isIdx F.IsIdx.WIDX
      let size := 16 * 2 ^ s.chip.fld .isRing F.IsRing.SIZE
      let a := s.chip.fld .isRing F.IsRing.ADDR * 32 + i % size * 32
      (i + 2 ^ 20 - s.chip.fld .isIdx F.IsIdx.RIDX) % 2 ^ 20 ≠ size →
      s.prot.check (s.chip.fld .isRing F.IsRing.PD) a 32 .postedWrite = .ok w → NoneWaits s.chip (s.prot.home w) 129 →
      Completes (.sampleRecord n) s fun t =>
        t.chip.ndl n = { s.chip.ndl n with follow := none } ∧
        t.chip.rd .isIdx = fset (s.chip.rd .isIdx) F.IsIdx.WIDX (i + 1) ∧
        (∃ x w2 w3, Presented s.chip t.chip (s.prot.home w) x ∧ x.req = 129 ∧ x.kind = .posted ∧ x.addr = a / 64 * 64 ∧
          x.data = [halfLine a [BitVec.ofNat 64 w0, BitVec.ofNat 64 w1, w2, w3]] ∧
          w3.toNat / 4 % 4 = more.getD 0 0 / 4 % 4) ∧
        KeepsRegs s.chip t.chip [.isIdx] ∧ t.chip.threads = s.chip.threads ∧ KeepsOutside s t))

/-- The qualifier of a counter of the spool controller (R327): with QV 1 it counts an event of spool QSPOOL and of no
other; for a counter of another unit a write of QV 1 leaves QV and QSPOOL as they are. -/
def Obligations.CounterQualifiers : Prop :=
  (∀ (c : Chip) (i m ev n : Nat), 576 ≤ i → i < 584 → c.bit (.pmcCfg i) F.PmcCfg.QV = true →
    (m ≠ c.fld (.pmcCfg i) F.PmcCfg.QSPOOL → (c.cntSpool m ev n).rd (.pmcCnt i) = c.rd (.pmcCnt i)) ∧
    (m = c.fld (.pmcCfg i) F.PmcCfg.QSPOOL → c.bit (.pmcCfg i) F.PmcCfg.EN = true →
      c.fld (.pmcCfg i) F.PmcCfg.EVENT = ev → ev ≠ 0 → c.bit .pmcCtl F.PmcCtl.FREEZE = false →
      (c.cntSpool m ev n).fld (.pmcCnt i) F.PmcCnt.VALUE = (c.fld (.pmcCnt i) F.PmcCnt.VALUE + n) % 2 ^ 48)) ∧
  (∀ (s : State) (i : Nat) (w : Word), Ready s → i < 592 → ¬ (576 ≤ i ∧ i < 584) → fget w F.PmcCfg.QV = 1 →
    Completes (.registerWrite (BitVec.ofNat 26 (Reg.offset (.pmcCfg i))) w) s fun t =>
      t.chip.fld (.pmcCfg i) F.PmcCfg.QV = s.chip.fld (.pmcCfg i) F.PmcCfg.QV ∧
      t.chip.fld (.pmcCfg i) F.PmcCfg.QSPOOL = s.chip.fld (.pmcCfg i) F.PmcCfg.QSPOOL)
end

