-- ==== Sys2Proof/Laws/Bits.lean ====
section
/-! SUPPORT. The laws of bit fields, and of the bytes of a word. -/

namespace Sys2Proof.Machine

/-- A field that lies in a 64-bit word. -/
def Fld.ok (f : Fld) : Prop := f.lo ≤ f.hi ∧ f.hi < 64

/-- Two fields with no bit in common. -/
def Fld.apart (f g : Fld) : Prop := f.hi < g.lo ∨ g.hi < f.lo

theorem fget_lt (w : Word) (f : Fld) : fget w f < 2 ^ f.width := Nat.mod_lt _ (Nat.two_pow_pos _)

theorem testBit_fget (w : Word) (f : Fld) (i : Nat) :
    (fget w f).testBit i = (decide (i < f.width) && w.getLsbD (f.lo + i)) := by
  unfold fget
  rw [Nat.testBit_mod_two_pow, Nat.testBit_div_two_pow, BitVec.testBit_toNat, Nat.add_comm]

theorem getLsbD_field {f : Fld} (hf : f.ok) {v : Nat} (hv : v < 2 ^ f.width) (i : Nat) :
    (BitVec.ofNat 64 (v * 2 ^ f.lo)).getLsbD i = (decide (f.lo ≤ i) && v.testBit (i - f.lo)) := by
  rw [BitVec.getLsbD_ofNat, Nat.testBit_mul_two_pow]
  by_cases h : i < 64
  · simp [h]
  · have : v.testBit (i - f.lo) = false := by
      apply Nat.testBit_lt_two_pow
      apply lt_of_lt_of_le hv
      apply Nat.pow_le_pow_right (by omega)
      unfold Fld.width; have := hf.1; have := hf.2; omega
    simp [h, this]

theorem getLsbD_mask {f : Fld} (hf : f.ok) (i : Nat) :
    f.mask.getLsbD i = (decide (f.lo ≤ i) && decide (i ≤ f.hi)) := by
  have hp : 0 < 2 ^ f.width := Nat.two_pow_pos _
  unfold Fld.mask
  rw [getLsbD_field hf (by omega), Nat.testBit_two_pow_sub_one]
  unfold Fld.width
  by_cases h : f.lo ≤ i
  · simp only [h, decide_true, Bool.true_and, decide_eq_decide]; have := hf.1; omega
  · simp [h]

theorem getLsbD_fset {f : Fld} (hf : f.ok) (w : Word) (v i : Nat) :
    (fset w f v).getLsbD i =
      if f.lo ≤ i ∧ i ≤ f.hi then v.testBit (i - f.lo) else w.getLsbD i := by
  unfold fset
  have hv : v % 2 ^ f.width < 2 ^ f.width := Nat.mod_lt _ (Nat.two_pow_pos _)
  rw [BitVec.getLsbD_or, BitVec.getLsbD_and, BitVec.getLsbD_not, getLsbD_mask hf, getLsbD_field hf hv,
    Nat.testBit_mod_two_pow]
  unfold Fld.width
  by_cases h1 : f.lo ≤ i <;> by_cases h2 : i ≤ f.hi
  · have : i - f.lo < f.hi + 1 - f.lo := by omega
    simp [h1, h2, this]
  · have : ¬ i - f.lo < f.hi + 1 - f.lo := by omega
    by_cases h3 : i < 64
    · simp [h1, h2, this, h3]
    · simp [h1, h2, this, h3]
      exact BitVec.getLsbD_of_ge w i (by omega)
  · have := hf.2
    have h3 : i < 64 := by omega
    simp [h1, h3]
  · have := hf.1
    omega

/-- A field that has been set reads the value that was put there. -/
theorem fget_fset_same {f : Fld} (hf : f.ok) (w : Word) (v : Nat) : fget (fset w f v) f = v % 2 ^ f.width := by
  apply Nat.eq_of_testBit_eq
  intro i
  rw [testBit_fget, getLsbD_fset hf, Nat.testBit_mod_two_pow]
  have := hf.1
  by_cases h : i < f.width
  · have h' := h
    unfold Fld.width at h'
    have : f.lo + i ≤ f.hi := by omega
    simp [h, this]
  · simp [h]

/-- A field reads as before where another one, apart from it, has been set. -/
theorem fget_fset_other {f g : Fld} (hf : f.ok) (h : f.apart g) (w : Word) (v : Nat) :
    fget (fset w f v) g = fget w g := by
  apply Nat.eq_of_testBit_eq
  intro i
  rw [testBit_fget, testBit_fget, getLsbD_fset hf]
  by_cases hi : i < g.width
  · have h' := hi
    unfold Fld.width at h'
    have : ¬ (f.lo ≤ g.lo + i ∧ g.lo + i ≤ f.hi) := by
      rcases h with h | h <;> omega
    simp [hi, this]
  · simp [hi]

/-- A one-bit field that has been set to 1 is set. -/
theorem fbit_fset_one {f : Fld} (hf : f.ok) (w : Word) : fbit (fset w f 1) f = true := by
  have hw : 1 ≤ f.width := by unfold Fld.width; have := hf.1; omega
  have : (1 : Nat) < 2 ^ f.width := Nat.one_lt_two_pow (by omega)
  simp [fbit, fget_fset_same hf, Nat.mod_eq_of_lt this]

/-- What a saturating count reads after it has advanced. -/
theorem fget_fsat {f : Fld} (hf : f.ok) (w : Word) (n : Nat) :
    fget (fsat w f n) f = min (fget w f + n) (2 ^ f.width - 1) := by
  unfold fsat
  rw [fget_fset_same hf]
  apply Nat.mod_eq_of_lt
  have := Nat.two_pow_pos f.width
  omega

theorem fget_fsat_other {f g : Fld} (hf : f.ok) (h : f.apart g) (w : Word) (n : Nat) :
    fget (fsat w f n) g = fget w g := fget_fset_other hf h w _

/-! Bytes -/

theorem byteOf_toNat (w : Word) (k : Nat) : (byteOf w k).toNat = w.toNat / 2 ^ (8 * k) % 256 := by
  simp [byteOf]

/-- A word is the word of its bytes. -/
theorem wordOfBytes_byteOf (w : Word) : wordOfBytes ((List.range 8).map (byteOf w)) = w := by
  apply BitVec.eq_of_toNat_eq
  have h := w.isLt
  simp only [wordOfBytes, BitVec.toNat_ofNat]
  simp only [show List.range 8 = [0, 1, 2, 3, 4, 5, 6, 7] from rfl, List.map, List.foldr, byteOf_toNat]
  omega

/-- Byte k of the word of eight bytes is the k-th of them. -/
theorem byteOf_wordOfBytes (f : Nat → BitVec 8) {k : Nat} (hk : k < 8) :
    byteOf (wordOfBytes ((List.range 8).map f)) k = f k := by
  apply BitVec.eq_of_toNat_eq
  have h0 := (f 0).isLt; have h1 := (f 1).isLt; have h2 := (f 2).isLt; have h3 := (f 3).isLt
  have h4 := (f 4).isLt; have h5 := (f 5).isLt; have h6 := (f 6).isLt; have h7 := (f 7).isLt
  rw [byteOf_toNat]
  simp only [wordOfBytes, BitVec.toNat_ofNat, show List.range 8 = [0, 1, 2, 3, 4, 5, 6, 7] from rfl, List.map, List.foldr]
  interval_cases k <;> omega

/-- Byte k of a merge: the new byte where its enable is 1, the old one elsewhere (R19). -/
theorem byteOf_mergeBytes (old new : Word) (be : Nat) {k : Nat} (hk : k < 8) :
    byteOf (mergeBytes old new be) k = if be / 2 ^ k % 2 = 1 then byteOf new k else byteOf old k :=
  byteOf_wordOfBytes _ hk

/-- A merge of all eight bytes is the new word. -/
theorem mergeBytes_all (old new : Word) : mergeBytes old new 255 = new := by
  have : ((List.range 8).map fun k => if 255 / 2 ^ k % 2 = 1 then byteOf new k else byteOf old k) =
      (List.range 8).map (byteOf new) := by
    simp [show List.range 8 = [0, 1, 2, 3, 4, 5, 6, 7] from rfl]
  unfold mergeBytes
  rw [this, wordOfBytes_byteOf]

end Sys2Proof.Machine
end

