-- ==== Sys2Proof/Laws/Tab.lean ====
section
/-! SUPPORT. The laws of tables: what a read gives after a write, for any table, and that a write keeps the canonical
form. -/

namespace Sys2Proof.Machine.Tab

variable {α : Type}

@[simp] theorem get_nil (d : α) (i : Nat) : get d [] i = d := rfl

theorem get_del (d : α) (t : Tab α) (i j : Nat) : get d (del t i) j = if j = i then d else get d t j := by
  induction t with
  | nil => simp [del]
  | cons p t ih =>
    obtain ⟨k, v⟩ := p
    by_cases h : i = k
    · subst h
      by_cases hj : j = i
      · simpa [del, hj] using ih
      · simpa [del, get, hj] using ih
    · by_cases hj : j = i
      · subst hj; simp [del, h, get, ih]
      · simp [del, h, get, ih, hj]

theorem get_ins (d : α) (t : Tab α) (i j : Nat) (v : α) :
    get d (ins i v (del t i)) j = if j = i then v else get d t j := by
  induction t with
  | nil => simp [del, ins, get]
  | cons p t ih =>
    obtain ⟨k, w⟩ := p
    by_cases h : i = k
    · subst h
      by_cases hj : j = i
      · simpa [del, hj] using ih
      · simpa [del, get, hj] using ih
    · simp only [del, h, if_false, ins]
      split
      · by_cases hj : j = i
        · simp [get, hj]
        · simp [get, hj, get_del]
      · by_cases hj : j = k
        · have : j ≠ i := fun e => h (e.symm.trans hj)
          simp [get, hj]; omega
        · simpa [get, hj] using ih

variable [DecidableEq α]

/-- What a table reads after a write, in one equation. -/
theorem get_put (d : α) (t : Tab α) (i j : Nat) (v : α) : get d (put d t i v) j = if j = i then v else get d t j := by
  unfold put
  split
  · rename_i h; rw [get_del, h]
  · exact get_ins d t i j v

/-- A read of the key just written gives the value written. -/
@[simp] theorem get_put_same (d : α) (t : Tab α) (i : Nat) (v : α) : get d (put d t i v) i = v := by simp [get_put]

/-- A write leaves every other key alone. -/
theorem get_put_other (d : α) (t : Tab α) {i j : Nat} (h : j ≠ i) (v : α) : get d (put d t i v) j = get d t j := by
  simp [get_put, h]

/-- A write leaves every other key alone, whatever default the other key is read with. -/
theorem get_put_any (d e : α) (t : Tab α) {i j : Nat} (h : j ≠ i) (v : α) : get e (put d t i v) j = get e t j := by
  have hd : ∀ t : Tab α, get e (del t i) j = get e t j := fun t => by rw [get_del, if_neg h]
  unfold put
  split
  · exact hd t
  · rw [get_ins, if_neg h]

/-- A key reads, after values were put at the keys of a list, as the value for it where the list has it. -/
theorem get_foldl_put (d : α) (f : Nat → α) (l : List Nat) (t : Tab α) (j : Nat) :
    get d (l.foldl (fun t i => put d t i (f i)) t) j = if j ∈ l then f j else get d t j := by
  induction l generalizing t with
  | nil => simp
  | cons i l ih =>
    simp only [List.foldl_cons, ih, get_put, List.mem_cons]
    by_cases h : j ∈ l <;> by_cases g : j = i <;> simp [h, g]

theorem wfFrom_mono {d : α} {t : Tab α} {a b : Nat} (h : wfFrom d b t = true) (hab : a ≤ b) : wfFrom d a t = true := by
  cases t with
  | nil => rfl
  | cons p t =>
    simp only [wfFrom, Bool.and_eq_true, decide_eq_true_eq] at h ⊢
    exact ⟨⟨by omega, h.1.2⟩, h.2⟩

theorem wfFrom_del {d : α} {t : Tab α} {b : Nat} (h : wfFrom d b t = true) (i : Nat) : wfFrom d b (del t i) = true := by
  induction t generalizing b with
  | nil => rfl
  | cons p t ih =>
    simp only [wfFrom, Bool.and_eq_true, decide_eq_true_eq] at h
    simp only [del]
    split
    · exact wfFrom_mono (ih h.2) (by omega)
    · simp [wfFrom, h.1, ih h.2]

theorem wfFrom_ins {d : α} {t : Tab α} {b i : Nat} {v : α} (h : wfFrom d b t = true) (hb : b ≤ i) (hv : v ≠ d) :
    wfFrom d b (ins i v (del t i)) = true := by
  induction t generalizing b with
  | nil => simp [del, ins, wfFrom, hb, hv]
  | cons p t ih =>
    obtain ⟨k, w⟩ := p
    simp only [wfFrom, Bool.and_eq_true, decide_eq_true_eq] at h
    simp only [del]
    split
    · exact ih (wfFrom_mono h.2 (by omega)) hb
    · simp only [ins]
      split
      · have : i + 1 ≤ k := by omega
        simp [wfFrom, hb, hv, this, h.1.2, wfFrom_del h.2]
      · simp only [wfFrom, Bool.and_eq_true, decide_eq_true_eq]
        exact ⟨h.1, ih h.2 (by omega)⟩

/-- A write keeps the canonical form. -/
theorem wf_put {d : α} {t : Tab α} (h : wf d t = true) (i : Nat) (v : α) : wf d (put d t i v) = true := by
  unfold put
  split
  · exact wfFrom_del h i
  · rename_i hv; exact wfFrom_ins h (Nat.zero_le i) hv

theorem wf_upd {d : α} {t : Tab α} (h : wf d t = true) (i : Nat) (f : α → α) : wf d (upd d t i f) = true :=
  wf_put h i _

end Sys2Proof.Machine.Tab
end

