-- ==== Sys2Proof/Laws/State.lean ====
section
/-! SUPPORT. One lemma per field per update of the state, each true by rfl; and what each update of a table reads back. -/

namespace Sys2Proof.Machine

/-! `wr` -/

@[simp] theorem Chip.wr_dwaitIn (c : Chip) (r : Reg) (w : Word) : (c.wr r w).dwaitIn = c.dwaitIn := rfl
@[simp] theorem Chip.wr_free (c : Chip) (r : Reg) (w : Word) : (c.wr r w).free = c.free := rfl
@[simp] theorem Chip.wr_xid (c : Chip) (r : Reg) (w : Word) : (c.wr r w).xid = c.xid := rfl
@[simp] theorem Chip.wr_pwr (c : Chip) (r : Reg) (w : Word) : (c.wr r w).pwr = c.pwr := rfl
@[simp] theorem Chip.wr_cpRsp (c : Chip) (r : Reg) (w : Word) : (c.wr r w).cpRsp = c.cpRsp := rfl
@[simp] theorem Chip.wr_tb (c : Chip) (r : Reg) (w : Word) : (c.wr r w).tb = c.tb := rfl
@[simp] theorem Chip.wr_ingest (c : Chip) (r : Reg) (w : Word) : (c.wr r w).ingest = c.ingest := rfl
@[simp] theorem Chip.wr_spools (c : Chip) (r : Reg) (w : Word) : (c.wr r w).spools = c.spools := rfl
@[simp] theorem Chip.wr_lanes (c : Chip) (r : Reg) (w : Word) : (c.wr r w).lanes = c.lanes := rfl
@[simp] theorem Chip.wr_eccCe (c : Chip) (r : Reg) (w : Word) : (c.wr r w).eccCe = c.eccCe := rfl
@[simp] theorem Chip.wr_eccUe (c : Chip) (r : Reg) (w : Word) : (c.wr r w).eccUe = c.eccUe := rfl
@[simp] theorem Chip.wr_threads (c : Chip) (r : Reg) (w : Word) : (c.wr r w).threads = c.threads := rfl
@[simp] theorem Chip.wr_needles (c : Chip) (r : Reg) (w : Word) : (c.wr r w).needles = c.needles := rfl
@[simp] theorem Chip.wr_ports (c : Chip) (r : Reg) (w : Word) : (c.wr r w).ports = c.ports := rfl
@[simp] theorem Chip.wr_backlog (c : Chip) (r : Reg) (w : Word) : (c.wr r w).backlog = c.backlog := rfl
@[simp] theorem Chip.wr_reqn (c : Chip) (r : Reg) (w : Word) : (c.wr r w).reqn = c.reqn := rfl
@[simp] theorem Chip.wr_locks (c : Chip) (r : Reg) (w : Word) : (c.wr r w).locks = c.locks := rfl
@[simp] theorem Chip.wr_fences (c : Chip) (r : Reg) (w : Word) : (c.wr r w).fences = c.fences := rfl
@[simp] theorem Chip.wr_dec (c : Chip) (r : Reg) (w : Word) : (c.wr r w).dec = c.dec := rfl
@[simp] theorem Chip.wr_seam (c : Chip) (r : Reg) (w : Word) : (c.wr r w).seam = c.seam := rfl
@[simp] theorem Chip.wr_bb (c : Chip) (r : Reg) (w : Word) : (c.wr r w).bb = c.bb := rfl
@[simp] theorem Chip.wr_faults (c : Chip) (r : Reg) (w : Word) : (c.wr r w).faults = c.faults := rfl
@[simp] theorem Chip.wr_faultSeq (c : Chip) (r : Reg) (w : Word) : (c.wr r w).faultSeq = c.faultSeq := rfl
@[simp] theorem Chip.wr_svc (c : Chip) (r : Reg) (w : Word) : (c.wr r w).svc = c.svc := rfl
@[simp] theorem Chip.wr_hv (c : Chip) (r : Reg) (w : Word) : (c.wr r w).hv = c.hv := rfl

/-! `setF` -/

@[simp] theorem Chip.setF_dwaitIn (c : Chip) (r : Reg) (f : Fld) (v : Nat) : (c.setF r f v).dwaitIn = c.dwaitIn := rfl
@[simp] theorem Chip.setF_free (c : Chip) (r : Reg) (f : Fld) (v : Nat) : (c.setF r f v).free = c.free := rfl
@[simp] theorem Chip.setF_xid (c : Chip) (r : Reg) (f : Fld) (v : Nat) : (c.setF r f v).xid = c.xid := rfl
@[simp] theorem Chip.setF_pwr (c : Chip) (r : Reg) (f : Fld) (v : Nat) : (c.setF r f v).pwr = c.pwr := rfl
@[simp] theorem Chip.setF_cpRsp (c : Chip) (r : Reg) (f : Fld) (v : Nat) : (c.setF r f v).cpRsp = c.cpRsp := rfl
@[simp] theorem Chip.setF_tb (c : Chip) (r : Reg) (f : Fld) (v : Nat) : (c.setF r f v).tb = c.tb := rfl
@[simp] theorem Chip.setF_ingest (c : Chip) (r : Reg) (f : Fld) (v : Nat) : (c.setF r f v).ingest = c.ingest := rfl
@[simp] theorem Chip.setF_spools (c : Chip) (r : Reg) (f : Fld) (v : Nat) : (c.setF r f v).spools = c.spools := rfl
@[simp] theorem Chip.setF_lanes (c : Chip) (r : Reg) (f : Fld) (v : Nat) : (c.setF r f v).lanes = c.lanes := rfl
@[simp] theorem Chip.setF_eccCe (c : Chip) (r : Reg) (f : Fld) (v : Nat) : (c.setF r f v).eccCe = c.eccCe := rfl
@[simp] theorem Chip.setF_eccUe (c : Chip) (r : Reg) (f : Fld) (v : Nat) : (c.setF r f v).eccUe = c.eccUe := rfl
@[simp] theorem Chip.setF_threads (c : Chip) (r : Reg) (f : Fld) (v : Nat) : (c.setF r f v).threads = c.threads := rfl
@[simp] theorem Chip.setF_needles (c : Chip) (r : Reg) (f : Fld) (v : Nat) : (c.setF r f v).needles = c.needles := rfl
@[simp] theorem Chip.setF_ports (c : Chip) (r : Reg) (f : Fld) (v : Nat) : (c.setF r f v).ports = c.ports := rfl
@[simp] theorem Chip.setF_backlog (c : Chip) (r : Reg) (f : Fld) (v : Nat) : (c.setF r f v).backlog = c.backlog := rfl
@[simp] theorem Chip.setF_reqn (c : Chip) (r : Reg) (f : Fld) (v : Nat) : (c.setF r f v).reqn = c.reqn := rfl
@[simp] theorem Chip.setF_locks (c : Chip) (r : Reg) (f : Fld) (v : Nat) : (c.setF r f v).locks = c.locks := rfl
@[simp] theorem Chip.setF_fences (c : Chip) (r : Reg) (f : Fld) (v : Nat) : (c.setF r f v).fences = c.fences := rfl
@[simp] theorem Chip.setF_dec (c : Chip) (r : Reg) (f : Fld) (v : Nat) : (c.setF r f v).dec = c.dec := rfl
@[simp] theorem Chip.setF_seam (c : Chip) (r : Reg) (f : Fld) (v : Nat) : (c.setF r f v).seam = c.seam := rfl
@[simp] theorem Chip.setF_bb (c : Chip) (r : Reg) (f : Fld) (v : Nat) : (c.setF r f v).bb = c.bb := rfl
@[simp] theorem Chip.setF_faults (c : Chip) (r : Reg) (f : Fld) (v : Nat) : (c.setF r f v).faults = c.faults := rfl
@[simp] theorem Chip.setF_faultSeq (c : Chip) (r : Reg) (f : Fld) (v : Nat) : (c.setF r f v).faultSeq = c.faultSeq := rfl
@[simp] theorem Chip.setF_svc (c : Chip) (r : Reg) (f : Fld) (v : Nat) : (c.setF r f v).svc = c.svc := rfl
@[simp] theorem Chip.setF_hv (c : Chip) (r : Reg) (f : Fld) (v : Nat) : (c.setF r f v).hv = c.hv := rfl

/-! `flag` -/

@[simp] theorem Chip.flag_dwaitIn (c : Chip) (r : Reg) (f : Fld) : (c.flag r f).dwaitIn = c.dwaitIn := rfl
@[simp] theorem Chip.flag_free (c : Chip) (r : Reg) (f : Fld) : (c.flag r f).free = c.free := rfl
@[simp] theorem Chip.flag_xid (c : Chip) (r : Reg) (f : Fld) : (c.flag r f).xid = c.xid := rfl
@[simp] theorem Chip.flag_pwr (c : Chip) (r : Reg) (f : Fld) : (c.flag r f).pwr = c.pwr := rfl
@[simp] theorem Chip.flag_cpRsp (c : Chip) (r : Reg) (f : Fld) : (c.flag r f).cpRsp = c.cpRsp := rfl
@[simp] theorem Chip.flag_tb (c : Chip) (r : Reg) (f : Fld) : (c.flag r f).tb = c.tb := rfl
@[simp] theorem Chip.flag_ingest (c : Chip) (r : Reg) (f : Fld) : (c.flag r f).ingest = c.ingest := rfl
@[simp] theorem Chip.flag_spools (c : Chip) (r : Reg) (f : Fld) : (c.flag r f).spools = c.spools := rfl
@[simp] theorem Chip.flag_lanes (c : Chip) (r : Reg) (f : Fld) : (c.flag r f).lanes = c.lanes := rfl
@[simp] theorem Chip.flag_eccCe (c : Chip) (r : Reg) (f : Fld) : (c.flag r f).eccCe = c.eccCe := rfl
@[simp] theorem Chip.flag_eccUe (c : Chip) (r : Reg) (f : Fld) : (c.flag r f).eccUe = c.eccUe := rfl
@[simp] theorem Chip.flag_threads (c : Chip) (r : Reg) (f : Fld) : (c.flag r f).threads = c.threads := rfl
@[simp] theorem Chip.flag_needles (c : Chip) (r : Reg) (f : Fld) : (c.flag r f).needles = c.needles := rfl
@[simp] theorem Chip.flag_ports (c : Chip) (r : Reg) (f : Fld) : (c.flag r f).ports = c.ports := rfl
@[simp] theorem Chip.flag_backlog (c : Chip) (r : Reg) (f : Fld) : (c.flag r f).backlog = c.backlog := rfl
@[simp] theorem Chip.flag_reqn (c : Chip) (r : Reg) (f : Fld) : (c.flag r f).reqn = c.reqn := rfl
@[simp] theorem Chip.flag_locks (c : Chip) (r : Reg) (f : Fld) : (c.flag r f).locks = c.locks := rfl
@[simp] theorem Chip.flag_fences (c : Chip) (r : Reg) (f : Fld) : (c.flag r f).fences = c.fences := rfl
@[simp] theorem Chip.flag_dec (c : Chip) (r : Reg) (f : Fld) : (c.flag r f).dec = c.dec := rfl
@[simp] theorem Chip.flag_seam (c : Chip) (r : Reg) (f : Fld) : (c.flag r f).seam = c.seam := rfl
@[simp] theorem Chip.flag_bb (c : Chip) (r : Reg) (f : Fld) : (c.flag r f).bb = c.bb := rfl
@[simp] theorem Chip.flag_faults (c : Chip) (r : Reg) (f : Fld) : (c.flag r f).faults = c.faults := rfl
@[simp] theorem Chip.flag_faultSeq (c : Chip) (r : Reg) (f : Fld) : (c.flag r f).faultSeq = c.faultSeq := rfl
@[simp] theorem Chip.flag_svc (c : Chip) (r : Reg) (f : Fld) : (c.flag r f).svc = c.svc := rfl
@[simp] theorem Chip.flag_hv (c : Chip) (r : Reg) (f : Fld) : (c.flag r f).hv = c.hv := rfl

/-! `tally` -/

@[simp] theorem Chip.tally_dwaitIn (c : Chip) (r : Reg) (f : Fld) (n : Nat) : (c.tally r f n).dwaitIn = c.dwaitIn := rfl
@[simp] theorem Chip.tally_free (c : Chip) (r : Reg) (f : Fld) (n : Nat) : (c.tally r f n).free = c.free := rfl
@[simp] theorem Chip.tally_xid (c : Chip) (r : Reg) (f : Fld) (n : Nat) : (c.tally r f n).xid = c.xid := rfl
@[simp] theorem Chip.tally_pwr (c : Chip) (r : Reg) (f : Fld) (n : Nat) : (c.tally r f n).pwr = c.pwr := rfl
@[simp] theorem Chip.tally_cpRsp (c : Chip) (r : Reg) (f : Fld) (n : Nat) : (c.tally r f n).cpRsp = c.cpRsp := rfl
@[simp] theorem Chip.tally_tb (c : Chip) (r : Reg) (f : Fld) (n : Nat) : (c.tally r f n).tb = c.tb := rfl
@[simp] theorem Chip.tally_ingest (c : Chip) (r : Reg) (f : Fld) (n : Nat) : (c.tally r f n).ingest = c.ingest := rfl
@[simp] theorem Chip.tally_spools (c : Chip) (r : Reg) (f : Fld) (n : Nat) : (c.tally r f n).spools = c.spools := rfl
@[simp] theorem Chip.tally_lanes (c : Chip) (r : Reg) (f : Fld) (n : Nat) : (c.tally r f n).lanes = c.lanes := rfl
@[simp] theorem Chip.tally_eccCe (c : Chip) (r : Reg) (f : Fld) (n : Nat) : (c.tally r f n).eccCe = c.eccCe := rfl
@[simp] theorem Chip.tally_eccUe (c : Chip) (r : Reg) (f : Fld) (n : Nat) : (c.tally r f n).eccUe = c.eccUe := rfl
@[simp] theorem Chip.tally_threads (c : Chip) (r : Reg) (f : Fld) (n : Nat) : (c.tally r f n).threads = c.threads := rfl
@[simp] theorem Chip.tally_needles (c : Chip) (r : Reg) (f : Fld) (n : Nat) : (c.tally r f n).needles = c.needles := rfl
@[simp] theorem Chip.tally_ports (c : Chip) (r : Reg) (f : Fld) (n : Nat) : (c.tally r f n).ports = c.ports := rfl
@[simp] theorem Chip.tally_backlog (c : Chip) (r : Reg) (f : Fld) (n : Nat) : (c.tally r f n).backlog = c.backlog := rfl
@[simp] theorem Chip.tally_reqn (c : Chip) (r : Reg) (f : Fld) (n : Nat) : (c.tally r f n).reqn = c.reqn := rfl
@[simp] theorem Chip.tally_locks (c : Chip) (r : Reg) (f : Fld) (n : Nat) : (c.tally r f n).locks = c.locks := rfl
@[simp] theorem Chip.tally_fences (c : Chip) (r : Reg) (f : Fld) (n : Nat) : (c.tally r f n).fences = c.fences := rfl
@[simp] theorem Chip.tally_dec (c : Chip) (r : Reg) (f : Fld) (n : Nat) : (c.tally r f n).dec = c.dec := rfl
@[simp] theorem Chip.tally_seam (c : Chip) (r : Reg) (f : Fld) (n : Nat) : (c.tally r f n).seam = c.seam := rfl
@[simp] theorem Chip.tally_bb (c : Chip) (r : Reg) (f : Fld) (n : Nat) : (c.tally r f n).bb = c.bb := rfl
@[simp] theorem Chip.tally_faults (c : Chip) (r : Reg) (f : Fld) (n : Nat) : (c.tally r f n).faults = c.faults := rfl
@[simp] theorem Chip.tally_faultSeq (c : Chip) (r : Reg) (f : Fld) (n : Nat) : (c.tally r f n).faultSeq = c.faultSeq := rfl
@[simp] theorem Chip.tally_svc (c : Chip) (r : Reg) (f : Fld) (n : Nat) : (c.tally r f n).svc = c.svc := rfl
@[simp] theorem Chip.tally_hv (c : Chip) (r : Reg) (f : Fld) (n : Nat) : (c.tally r f n).hv = c.hv := rfl

/-! `spend` -/

@[simp] theorem Chip.spend_regs (c : Chip) : (c.spend).regs = c.regs := rfl
@[simp] theorem Chip.spend_dwaitIn (c : Chip) : (c.spend).dwaitIn = c.dwaitIn := rfl
@[simp] theorem Chip.spend_xid (c : Chip) : (c.spend).xid = c.xid := rfl
@[simp] theorem Chip.spend_pwr (c : Chip) : (c.spend).pwr = c.pwr := rfl
@[simp] theorem Chip.spend_cpRsp (c : Chip) : (c.spend).cpRsp = c.cpRsp := rfl
@[simp] theorem Chip.spend_tb (c : Chip) : (c.spend).tb = c.tb := rfl
@[simp] theorem Chip.spend_ingest (c : Chip) : (c.spend).ingest = c.ingest := rfl
@[simp] theorem Chip.spend_spools (c : Chip) : (c.spend).spools = c.spools := rfl
@[simp] theorem Chip.spend_lanes (c : Chip) : (c.spend).lanes = c.lanes := rfl
@[simp] theorem Chip.spend_eccCe (c : Chip) : (c.spend).eccCe = c.eccCe := rfl
@[simp] theorem Chip.spend_eccUe (c : Chip) : (c.spend).eccUe = c.eccUe := rfl
@[simp] theorem Chip.spend_threads (c : Chip) : (c.spend).threads = c.threads := rfl
@[simp] theorem Chip.spend_needles (c : Chip) : (c.spend).needles = c.needles := rfl
@[simp] theorem Chip.spend_ports (c : Chip) : (c.spend).ports = c.ports := rfl
@[simp] theorem Chip.spend_backlog (c : Chip) : (c.spend).backlog = c.backlog := rfl
@[simp] theorem Chip.spend_reqn (c : Chip) : (c.spend).reqn = c.reqn := rfl
@[simp] theorem Chip.spend_locks (c : Chip) : (c.spend).locks = c.locks := rfl
@[simp] theorem Chip.spend_fences (c : Chip) : (c.spend).fences = c.fences := rfl
@[simp] theorem Chip.spend_dec (c : Chip) : (c.spend).dec = c.dec := rfl
@[simp] theorem Chip.spend_seam (c : Chip) : (c.spend).seam = c.seam := rfl
@[simp] theorem Chip.spend_bb (c : Chip) : (c.spend).bb = c.bb := rfl
@[simp] theorem Chip.spend_faults (c : Chip) : (c.spend).faults = c.faults := rfl
@[simp] theorem Chip.spend_faultSeq (c : Chip) : (c.spend).faultSeq = c.faultSeq := rfl
@[simp] theorem Chip.spend_svc (c : Chip) : (c.spend).svc = c.svc := rfl
@[simp] theorem Chip.spend_hv (c : Chip) : (c.spend).hv = c.hv := rfl

/-! `setThr` -/

@[simp] theorem Chip.setThr_regs (c : Chip) (t : Nat) (th : Thread) : (c.setThr t th).regs = c.regs := rfl
@[simp] theorem Chip.setThr_dwaitIn (c : Chip) (t : Nat) (th : Thread) : (c.setThr t th).dwaitIn = c.dwaitIn := rfl
@[simp] theorem Chip.setThr_free (c : Chip) (t : Nat) (th : Thread) : (c.setThr t th).free = c.free := rfl
@[simp] theorem Chip.setThr_xid (c : Chip) (t : Nat) (th : Thread) : (c.setThr t th).xid = c.xid := rfl
@[simp] theorem Chip.setThr_pwr (c : Chip) (t : Nat) (th : Thread) : (c.setThr t th).pwr = c.pwr := rfl
@[simp] theorem Chip.setThr_cpRsp (c : Chip) (t : Nat) (th : Thread) : (c.setThr t th).cpRsp = c.cpRsp := rfl
@[simp] theorem Chip.setThr_tb (c : Chip) (t : Nat) (th : Thread) : (c.setThr t th).tb = c.tb := rfl
@[simp] theorem Chip.setThr_ingest (c : Chip) (t : Nat) (th : Thread) : (c.setThr t th).ingest = c.ingest := rfl
@[simp] theorem Chip.setThr_spools (c : Chip) (t : Nat) (th : Thread) : (c.setThr t th).spools = c.spools := rfl
@[simp] theorem Chip.setThr_lanes (c : Chip) (t : Nat) (th : Thread) : (c.setThr t th).lanes = c.lanes := rfl
@[simp] theorem Chip.setThr_eccCe (c : Chip) (t : Nat) (th : Thread) : (c.setThr t th).eccCe = c.eccCe := rfl
@[simp] theorem Chip.setThr_eccUe (c : Chip) (t : Nat) (th : Thread) : (c.setThr t th).eccUe = c.eccUe := rfl
@[simp] theorem Chip.setThr_needles (c : Chip) (t : Nat) (th : Thread) : (c.setThr t th).needles = c.needles := rfl
@[simp] theorem Chip.setThr_ports (c : Chip) (t : Nat) (th : Thread) : (c.setThr t th).ports = c.ports := rfl
@[simp] theorem Chip.setThr_backlog (c : Chip) (t : Nat) (th : Thread) : (c.setThr t th).backlog = c.backlog := rfl
@[simp] theorem Chip.setThr_reqn (c : Chip) (t : Nat) (th : Thread) : (c.setThr t th).reqn = c.reqn := rfl
@[simp] theorem Chip.setThr_locks (c : Chip) (t : Nat) (th : Thread) : (c.setThr t th).locks = c.locks := rfl
@[simp] theorem Chip.setThr_fences (c : Chip) (t : Nat) (th : Thread) : (c.setThr t th).fences = c.fences := rfl
@[simp] theorem Chip.setThr_dec (c : Chip) (t : Nat) (th : Thread) : (c.setThr t th).dec = c.dec := rfl
@[simp] theorem Chip.setThr_seam (c : Chip) (t : Nat) (th : Thread) : (c.setThr t th).seam = c.seam := rfl
@[simp] theorem Chip.setThr_bb (c : Chip) (t : Nat) (th : Thread) : (c.setThr t th).bb = c.bb := rfl
@[simp] theorem Chip.setThr_faults (c : Chip) (t : Nat) (th : Thread) : (c.setThr t th).faults = c.faults := rfl
@[simp] theorem Chip.setThr_faultSeq (c : Chip) (t : Nat) (th : Thread) : (c.setThr t th).faultSeq = c.faultSeq := rfl
@[simp] theorem Chip.setThr_svc (c : Chip) (t : Nat) (th : Thread) : (c.setThr t th).svc = c.svc := rfl
@[simp] theorem Chip.setThr_hv (c : Chip) (t : Nat) (th : Thread) : (c.setThr t th).hv = c.hv := rfl

/-! `setSt` -/

@[simp] theorem Chip.setSt_regs (c : Chip) (t : Nat) (st : TState) : (c.setSt t st).regs = c.regs := rfl
@[simp] theorem Chip.setSt_dwaitIn (c : Chip) (t : Nat) (st : TState) : (c.setSt t st).dwaitIn = c.dwaitIn := rfl
@[simp] theorem Chip.setSt_free (c : Chip) (t : Nat) (st : TState) : (c.setSt t st).free = c.free := rfl
@[simp] theorem Chip.setSt_xid (c : Chip) (t : Nat) (st : TState) : (c.setSt t st).xid = c.xid := rfl
@[simp] theorem Chip.setSt_pwr (c : Chip) (t : Nat) (st : TState) : (c.setSt t st).pwr = c.pwr := rfl
@[simp] theorem Chip.setSt_cpRsp (c : Chip) (t : Nat) (st : TState) : (c.setSt t st).cpRsp = c.cpRsp := rfl
@[simp] theorem Chip.setSt_tb (c : Chip) (t : Nat) (st : TState) : (c.setSt t st).tb = c.tb := rfl
@[simp] theorem Chip.setSt_ingest (c : Chip) (t : Nat) (st : TState) : (c.setSt t st).ingest = c.ingest := rfl
@[simp] theorem Chip.setSt_spools (c : Chip) (t : Nat) (st : TState) : (c.setSt t st).spools = c.spools := rfl
@[simp] theorem Chip.setSt_lanes (c : Chip) (t : Nat) (st : TState) : (c.setSt t st).lanes = c.lanes := rfl
@[simp] theorem Chip.setSt_eccCe (c : Chip) (t : Nat) (st : TState) : (c.setSt t st).eccCe = c.eccCe := rfl
@[simp] theorem Chip.setSt_eccUe (c : Chip) (t : Nat) (st : TState) : (c.setSt t st).eccUe = c.eccUe := rfl
@[simp] theorem Chip.setSt_needles (c : Chip) (t : Nat) (st : TState) : (c.setSt t st).needles = c.needles := rfl
@[simp] theorem Chip.setSt_ports (c : Chip) (t : Nat) (st : TState) : (c.setSt t st).ports = c.ports := rfl
@[simp] theorem Chip.setSt_backlog (c : Chip) (t : Nat) (st : TState) : (c.setSt t st).backlog = c.backlog := rfl
@[simp] theorem Chip.setSt_reqn (c : Chip) (t : Nat) (st : TState) : (c.setSt t st).reqn = c.reqn := rfl
@[simp] theorem Chip.setSt_locks (c : Chip) (t : Nat) (st : TState) : (c.setSt t st).locks = c.locks := rfl
@[simp] theorem Chip.setSt_fences (c : Chip) (t : Nat) (st : TState) : (c.setSt t st).fences = c.fences := rfl
@[simp] theorem Chip.setSt_dec (c : Chip) (t : Nat) (st : TState) : (c.setSt t st).dec = c.dec := rfl
@[simp] theorem Chip.setSt_seam (c : Chip) (t : Nat) (st : TState) : (c.setSt t st).seam = c.seam := rfl
@[simp] theorem Chip.setSt_bb (c : Chip) (t : Nat) (st : TState) : (c.setSt t st).bb = c.bb := rfl
@[simp] theorem Chip.setSt_faults (c : Chip) (t : Nat) (st : TState) : (c.setSt t st).faults = c.faults := rfl
@[simp] theorem Chip.setSt_faultSeq (c : Chip) (t : Nat) (st : TState) : (c.setSt t st).faultSeq = c.faultSeq := rfl
@[simp] theorem Chip.setSt_svc (c : Chip) (t : Nat) (st : TState) : (c.setSt t st).svc = c.svc := rfl
@[simp] theorem Chip.setSt_hv (c : Chip) (t : Nat) (st : TState) : (c.setSt t st).hv = c.hv := rfl

/-! `setNdl` -/

@[simp] theorem Chip.setNdl_regs (c : Chip) (n : Nat) (nd : Needle) : (c.setNdl n nd).regs = c.regs := rfl
@[simp] theorem Chip.setNdl_dwaitIn (c : Chip) (n : Nat) (nd : Needle) : (c.setNdl n nd).dwaitIn = c.dwaitIn := rfl
@[simp] theorem Chip.setNdl_free (c : Chip) (n : Nat) (nd : Needle) : (c.setNdl n nd).free = c.free := rfl
@[simp] theorem Chip.setNdl_xid (c : Chip) (n : Nat) (nd : Needle) : (c.setNdl n nd).xid = c.xid := rfl
@[simp] theorem Chip.setNdl_pwr (c : Chip) (n : Nat) (nd : Needle) : (c.setNdl n nd).pwr = c.pwr := rfl
@[simp] theorem Chip.setNdl_cpRsp (c : Chip) (n : Nat) (nd : Needle) : (c.setNdl n nd).cpRsp = c.cpRsp := rfl
@[simp] theorem Chip.setNdl_tb (c : Chip) (n : Nat) (nd : Needle) : (c.setNdl n nd).tb = c.tb := rfl
@[simp] theorem Chip.setNdl_ingest (c : Chip) (n : Nat) (nd : Needle) : (c.setNdl n nd).ingest = c.ingest := rfl
@[simp] theorem Chip.setNdl_spools (c : Chip) (n : Nat) (nd : Needle) : (c.setNdl n nd).spools = c.spools := rfl
@[simp] theorem Chip.setNdl_lanes (c : Chip) (n : Nat) (nd : Needle) : (c.setNdl n nd).lanes = c.lanes := rfl
@[simp] theorem Chip.setNdl_eccCe (c : Chip) (n : Nat) (nd : Needle) : (c.setNdl n nd).eccCe = c.eccCe := rfl
@[simp] theorem Chip.setNdl_eccUe (c : Chip) (n : Nat) (nd : Needle) : (c.setNdl n nd).eccUe = c.eccUe := rfl
@[simp] theorem Chip.setNdl_threads (c : Chip) (n : Nat) (nd : Needle) : (c.setNdl n nd).threads = c.threads := rfl
@[simp] theorem Chip.setNdl_ports (c : Chip) (n : Nat) (nd : Needle) : (c.setNdl n nd).ports = c.ports := rfl
@[simp] theorem Chip.setNdl_backlog (c : Chip) (n : Nat) (nd : Needle) : (c.setNdl n nd).backlog = c.backlog := rfl
@[simp] theorem Chip.setNdl_reqn (c : Chip) (n : Nat) (nd : Needle) : (c.setNdl n nd).reqn = c.reqn := rfl
@[simp] theorem Chip.setNdl_locks (c : Chip) (n : Nat) (nd : Needle) : (c.setNdl n nd).locks = c.locks := rfl
@[simp] theorem Chip.setNdl_fences (c : Chip) (n : Nat) (nd : Needle) : (c.setNdl n nd).fences = c.fences := rfl
@[simp] theorem Chip.setNdl_dec (c : Chip) (n : Nat) (nd : Needle) : (c.setNdl n nd).dec = c.dec := rfl
@[simp] theorem Chip.setNdl_seam (c : Chip) (n : Nat) (nd : Needle) : (c.setNdl n nd).seam = c.seam := rfl
@[simp] theorem Chip.setNdl_bb (c : Chip) (n : Nat) (nd : Needle) : (c.setNdl n nd).bb = c.bb := rfl
@[simp] theorem Chip.setNdl_faults (c : Chip) (n : Nat) (nd : Needle) : (c.setNdl n nd).faults = c.faults := rfl
@[simp] theorem Chip.setNdl_faultSeq (c : Chip) (n : Nat) (nd : Needle) : (c.setNdl n nd).faultSeq = c.faultSeq := rfl
@[simp] theorem Chip.setNdl_svc (c : Chip) (n : Nat) (nd : Needle) : (c.setNdl n nd).svc = c.svc := rfl
@[simp] theorem Chip.setNdl_hv (c : Chip) (n : Nat) (nd : Needle) : (c.setNdl n nd).hv = c.hv := rfl

/-! `setSlot` -/

@[simp] theorem Chip.setSlot_regs (c : Chip) (n k : Nat) (s : Option Slot) : (c.setSlot n k s).regs = c.regs := rfl
@[simp] theorem Chip.setSlot_dwaitIn (c : Chip) (n k : Nat) (s : Option Slot) : (c.setSlot n k s).dwaitIn = c.dwaitIn := rfl
@[simp] theorem Chip.setSlot_free (c : Chip) (n k : Nat) (s : Option Slot) : (c.setSlot n k s).free = c.free := rfl
@[simp] theorem Chip.setSlot_xid (c : Chip) (n k : Nat) (s : Option Slot) : (c.setSlot n k s).xid = c.xid := rfl
@[simp] theorem Chip.setSlot_pwr (c : Chip) (n k : Nat) (s : Option Slot) : (c.setSlot n k s).pwr = c.pwr := rfl
@[simp] theorem Chip.setSlot_cpRsp (c : Chip) (n k : Nat) (s : Option Slot) : (c.setSlot n k s).cpRsp = c.cpRsp := rfl
@[simp] theorem Chip.setSlot_tb (c : Chip) (n k : Nat) (s : Option Slot) : (c.setSlot n k s).tb = c.tb := rfl
@[simp] theorem Chip.setSlot_ingest (c : Chip) (n k : Nat) (s : Option Slot) : (c.setSlot n k s).ingest = c.ingest := rfl
@[simp] theorem Chip.setSlot_spools (c : Chip) (n k : Nat) (s : Option Slot) : (c.setSlot n k s).spools = c.spools := rfl
@[simp] theorem Chip.setSlot_lanes (c : Chip) (n k : Nat) (s : Option Slot) : (c.setSlot n k s).lanes = c.lanes := rfl
@[simp] theorem Chip.setSlot_eccCe (c : Chip) (n k : Nat) (s : Option Slot) : (c.setSlot n k s).eccCe = c.eccCe := rfl
@[simp] theorem Chip.setSlot_eccUe (c : Chip) (n k : Nat) (s : Option Slot) : (c.setSlot n k s).eccUe = c.eccUe := rfl
@[simp] theorem Chip.setSlot_threads (c : Chip) (n k : Nat) (s : Option Slot) : (c.setSlot n k s).threads = c.threads := rfl
@[simp] theorem Chip.setSlot_ports (c : Chip) (n k : Nat) (s : Option Slot) : (c.setSlot n k s).ports = c.ports := rfl
@[simp] theorem Chip.setSlot_backlog (c : Chip) (n k : Nat) (s : Option Slot) : (c.setSlot n k s).backlog = c.backlog := rfl
@[simp] theorem Chip.setSlot_reqn (c : Chip) (n k : Nat) (s : Option Slot) : (c.setSlot n k s).reqn = c.reqn := rfl
@[simp] theorem Chip.setSlot_locks (c : Chip) (n k : Nat) (s : Option Slot) : (c.setSlot n k s).locks = c.locks := rfl
@[simp] theorem Chip.setSlot_fences (c : Chip) (n k : Nat) (s : Option Slot) : (c.setSlot n k s).fences = c.fences := rfl
@[simp] theorem Chip.setSlot_dec (c : Chip) (n k : Nat) (s : Option Slot) : (c.setSlot n k s).dec = c.dec := rfl
@[simp] theorem Chip.setSlot_seam (c : Chip) (n k : Nat) (s : Option Slot) : (c.setSlot n k s).seam = c.seam := rfl
@[simp] theorem Chip.setSlot_bb (c : Chip) (n k : Nat) (s : Option Slot) : (c.setSlot n k s).bb = c.bb := rfl
@[simp] theorem Chip.setSlot_faults (c : Chip) (n k : Nat) (s : Option Slot) : (c.setSlot n k s).faults = c.faults := rfl
@[simp] theorem Chip.setSlot_faultSeq (c : Chip) (n k : Nat) (s : Option Slot) : (c.setSlot n k s).faultSeq = c.faultSeq := rfl
@[simp] theorem Chip.setSlot_svc (c : Chip) (n k : Nat) (s : Option Slot) : (c.setSlot n k s).svc = c.svc := rfl
@[simp] theorem Chip.setSlot_hv (c : Chip) (n k : Nat) (s : Option Slot) : (c.setSlot n k s).hv = c.hv := rfl

/-! `setIp` -/

@[simp] theorem Chip.setIp_regs (c : Chip) (n : Nat) (i : Ingest) : (c.setIp n i).regs = c.regs := rfl
@[simp] theorem Chip.setIp_dwaitIn (c : Chip) (n : Nat) (i : Ingest) : (c.setIp n i).dwaitIn = c.dwaitIn := rfl
@[simp] theorem Chip.setIp_free (c : Chip) (n : Nat) (i : Ingest) : (c.setIp n i).free = c.free := rfl
@[simp] theorem Chip.setIp_xid (c : Chip) (n : Nat) (i : Ingest) : (c.setIp n i).xid = c.xid := rfl
@[simp] theorem Chip.setIp_pwr (c : Chip) (n : Nat) (i : Ingest) : (c.setIp n i).pwr = c.pwr := rfl
@[simp] theorem Chip.setIp_cpRsp (c : Chip) (n : Nat) (i : Ingest) : (c.setIp n i).cpRsp = c.cpRsp := rfl
@[simp] theorem Chip.setIp_tb (c : Chip) (n : Nat) (i : Ingest) : (c.setIp n i).tb = c.tb := rfl
@[simp] theorem Chip.setIp_spools (c : Chip) (n : Nat) (i : Ingest) : (c.setIp n i).spools = c.spools := rfl
@[simp] theorem Chip.setIp_lanes (c : Chip) (n : Nat) (i : Ingest) : (c.setIp n i).lanes = c.lanes := rfl
@[simp] theorem Chip.setIp_eccCe (c : Chip) (n : Nat) (i : Ingest) : (c.setIp n i).eccCe = c.eccCe := rfl
@[simp] theorem Chip.setIp_eccUe (c : Chip) (n : Nat) (i : Ingest) : (c.setIp n i).eccUe = c.eccUe := rfl
@[simp] theorem Chip.setIp_threads (c : Chip) (n : Nat) (i : Ingest) : (c.setIp n i).threads = c.threads := rfl
@[simp] theorem Chip.setIp_needles (c : Chip) (n : Nat) (i : Ingest) : (c.setIp n i).needles = c.needles := rfl
@[simp] theorem Chip.setIp_ports (c : Chip) (n : Nat) (i : Ingest) : (c.setIp n i).ports = c.ports := rfl
@[simp] theorem Chip.setIp_backlog (c : Chip) (n : Nat) (i : Ingest) : (c.setIp n i).backlog = c.backlog := rfl
@[simp] theorem Chip.setIp_reqn (c : Chip) (n : Nat) (i : Ingest) : (c.setIp n i).reqn = c.reqn := rfl
@[simp] theorem Chip.setIp_locks (c : Chip) (n : Nat) (i : Ingest) : (c.setIp n i).locks = c.locks := rfl
@[simp] theorem Chip.setIp_fences (c : Chip) (n : Nat) (i : Ingest) : (c.setIp n i).fences = c.fences := rfl
@[simp] theorem Chip.setIp_dec (c : Chip) (n : Nat) (i : Ingest) : (c.setIp n i).dec = c.dec := rfl
@[simp] theorem Chip.setIp_seam (c : Chip) (n : Nat) (i : Ingest) : (c.setIp n i).seam = c.seam := rfl
@[simp] theorem Chip.setIp_bb (c : Chip) (n : Nat) (i : Ingest) : (c.setIp n i).bb = c.bb := rfl
@[simp] theorem Chip.setIp_faults (c : Chip) (n : Nat) (i : Ingest) : (c.setIp n i).faults = c.faults := rfl
@[simp] theorem Chip.setIp_faultSeq (c : Chip) (n : Nat) (i : Ingest) : (c.setIp n i).faultSeq = c.faultSeq := rfl
@[simp] theorem Chip.setIp_svc (c : Chip) (n : Nat) (i : Ingest) : (c.setIp n i).svc = c.svc := rfl
@[simp] theorem Chip.setIp_hv (c : Chip) (n : Nat) (i : Ingest) : (c.setIp n i).hv = c.hv := rfl

/-! `setSpool` -/

@[simp] theorem Chip.setSpool_regs (c : Chip) (m : Nat) (s : Spool) : (c.setSpool m s).regs = c.regs := rfl
@[simp] theorem Chip.setSpool_dwaitIn (c : Chip) (m : Nat) (s : Spool) : (c.setSpool m s).dwaitIn = c.dwaitIn := rfl
@[simp] theorem Chip.setSpool_free (c : Chip) (m : Nat) (s : Spool) : (c.setSpool m s).free = c.free := rfl
@[simp] theorem Chip.setSpool_xid (c : Chip) (m : Nat) (s : Spool) : (c.setSpool m s).xid = c.xid := rfl
@[simp] theorem Chip.setSpool_pwr (c : Chip) (m : Nat) (s : Spool) : (c.setSpool m s).pwr = c.pwr := rfl
@[simp] theorem Chip.setSpool_cpRsp (c : Chip) (m : Nat) (s : Spool) : (c.setSpool m s).cpRsp = c.cpRsp := rfl
@[simp] theorem Chip.setSpool_tb (c : Chip) (m : Nat) (s : Spool) : (c.setSpool m s).tb = c.tb := rfl
@[simp] theorem Chip.setSpool_ingest (c : Chip) (m : Nat) (s : Spool) : (c.setSpool m s).ingest = c.ingest := rfl
@[simp] theorem Chip.setSpool_lanes (c : Chip) (m : Nat) (s : Spool) : (c.setSpool m s).lanes = c.lanes := rfl
@[simp] theorem Chip.setSpool_eccCe (c : Chip) (m : Nat) (s : Spool) : (c.setSpool m s).eccCe = c.eccCe := rfl
@[simp] theorem Chip.setSpool_eccUe (c : Chip) (m : Nat) (s : Spool) : (c.setSpool m s).eccUe = c.eccUe := rfl
@[simp] theorem Chip.setSpool_threads (c : Chip) (m : Nat) (s : Spool) : (c.setSpool m s).threads = c.threads := rfl
@[simp] theorem Chip.setSpool_needles (c : Chip) (m : Nat) (s : Spool) : (c.setSpool m s).needles = c.needles := rfl
@[simp] theorem Chip.setSpool_ports (c : Chip) (m : Nat) (s : Spool) : (c.setSpool m s).ports = c.ports := rfl
@[simp] theorem Chip.setSpool_backlog (c : Chip) (m : Nat) (s : Spool) : (c.setSpool m s).backlog = c.backlog := rfl
@[simp] theorem Chip.setSpool_reqn (c : Chip) (m : Nat) (s : Spool) : (c.setSpool m s).reqn = c.reqn := rfl
@[simp] theorem Chip.setSpool_locks (c : Chip) (m : Nat) (s : Spool) : (c.setSpool m s).locks = c.locks := rfl
@[simp] theorem Chip.setSpool_fences (c : Chip) (m : Nat) (s : Spool) : (c.setSpool m s).fences = c.fences := rfl
@[simp] theorem Chip.setSpool_dec (c : Chip) (m : Nat) (s : Spool) : (c.setSpool m s).dec = c.dec := rfl
@[simp] theorem Chip.setSpool_seam (c : Chip) (m : Nat) (s : Spool) : (c.setSpool m s).seam = c.seam := rfl
@[simp] theorem Chip.setSpool_bb (c : Chip) (m : Nat) (s : Spool) : (c.setSpool m s).bb = c.bb := rfl
@[simp] theorem Chip.setSpool_faults (c : Chip) (m : Nat) (s : Spool) : (c.setSpool m s).faults = c.faults := rfl
@[simp] theorem Chip.setSpool_faultSeq (c : Chip) (m : Nat) (s : Spool) : (c.setSpool m s).faultSeq = c.faultSeq := rfl
@[simp] theorem Chip.setSpool_svc (c : Chip) (m : Nat) (s : Spool) : (c.setSpool m s).svc = c.svc := rfl
@[simp] theorem Chip.setSpool_hv (c : Chip) (m : Nat) (s : Spool) : (c.setSpool m s).hv = c.hv := rfl

/-! `setLanes` -/

@[simp] theorem Chip.setLanes_regs (c : Chip) (g w l : Nat) : (c.setLanes g w l).regs = c.regs := rfl
@[simp] theorem Chip.setLanes_dwaitIn (c : Chip) (g w l : Nat) : (c.setLanes g w l).dwaitIn = c.dwaitIn := rfl
@[simp] theorem Chip.setLanes_free (c : Chip) (g w l : Nat) : (c.setLanes g w l).free = c.free := rfl
@[simp] theorem Chip.setLanes_xid (c : Chip) (g w l : Nat) : (c.setLanes g w l).xid = c.xid := rfl
@[simp] theorem Chip.setLanes_pwr (c : Chip) (g w l : Nat) : (c.setLanes g w l).pwr = c.pwr := rfl
@[simp] theorem Chip.setLanes_cpRsp (c : Chip) (g w l : Nat) : (c.setLanes g w l).cpRsp = c.cpRsp := rfl
@[simp] theorem Chip.setLanes_tb (c : Chip) (g w l : Nat) : (c.setLanes g w l).tb = c.tb := rfl
@[simp] theorem Chip.setLanes_ingest (c : Chip) (g w l : Nat) : (c.setLanes g w l).ingest = c.ingest := rfl
@[simp] theorem Chip.setLanes_spools (c : Chip) (g w l : Nat) : (c.setLanes g w l).spools = c.spools := rfl
@[simp] theorem Chip.setLanes_eccCe (c : Chip) (g w l : Nat) : (c.setLanes g w l).eccCe = c.eccCe := rfl
@[simp] theorem Chip.setLanes_eccUe (c : Chip) (g w l : Nat) : (c.setLanes g w l).eccUe = c.eccUe := rfl
@[simp] theorem Chip.setLanes_threads (c : Chip) (g w l : Nat) : (c.setLanes g w l).threads = c.threads := rfl
@[simp] theorem Chip.setLanes_needles (c : Chip) (g w l : Nat) : (c.setLanes g w l).needles = c.needles := rfl
@[simp] theorem Chip.setLanes_ports (c : Chip) (g w l : Nat) : (c.setLanes g w l).ports = c.ports := rfl
@[simp] theorem Chip.setLanes_backlog (c : Chip) (g w l : Nat) : (c.setLanes g w l).backlog = c.backlog := rfl
@[simp] theorem Chip.setLanes_reqn (c : Chip) (g w l : Nat) : (c.setLanes g w l).reqn = c.reqn := rfl
@[simp] theorem Chip.setLanes_locks (c : Chip) (g w l : Nat) : (c.setLanes g w l).locks = c.locks := rfl
@[simp] theorem Chip.setLanes_fences (c : Chip) (g w l : Nat) : (c.setLanes g w l).fences = c.fences := rfl
@[simp] theorem Chip.setLanes_dec (c : Chip) (g w l : Nat) : (c.setLanes g w l).dec = c.dec := rfl
@[simp] theorem Chip.setLanes_seam (c : Chip) (g w l : Nat) : (c.setLanes g w l).seam = c.seam := rfl
@[simp] theorem Chip.setLanes_bb (c : Chip) (g w l : Nat) : (c.setLanes g w l).bb = c.bb := rfl
@[simp] theorem Chip.setLanes_faults (c : Chip) (g w l : Nat) : (c.setLanes g w l).faults = c.faults := rfl
@[simp] theorem Chip.setLanes_faultSeq (c : Chip) (g w l : Nat) : (c.setLanes g w l).faultSeq = c.faultSeq := rfl
@[simp] theorem Chip.setLanes_svc (c : Chip) (g w l : Nat) : (c.setLanes g w l).svc = c.svc := rfl
@[simp] theorem Chip.setLanes_hv (c : Chip) (g w l : Nat) : (c.setLanes g w l).hv = c.hv := rfl

/-! `setDec` -/

@[simp] theorem Chip.setDec_regs (c : Chip) (x : Nat) (e : DecEntry) : (c.setDec x e).regs = c.regs := rfl
@[simp] theorem Chip.setDec_dwaitIn (c : Chip) (x : Nat) (e : DecEntry) : (c.setDec x e).dwaitIn = c.dwaitIn := rfl
@[simp] theorem Chip.setDec_free (c : Chip) (x : Nat) (e : DecEntry) : (c.setDec x e).free = c.free := rfl
@[simp] theorem Chip.setDec_xid (c : Chip) (x : Nat) (e : DecEntry) : (c.setDec x e).xid = c.xid := rfl
@[simp] theorem Chip.setDec_pwr (c : Chip) (x : Nat) (e : DecEntry) : (c.setDec x e).pwr = c.pwr := rfl
@[simp] theorem Chip.setDec_cpRsp (c : Chip) (x : Nat) (e : DecEntry) : (c.setDec x e).cpRsp = c.cpRsp := rfl
@[simp] theorem Chip.setDec_tb (c : Chip) (x : Nat) (e : DecEntry) : (c.setDec x e).tb = c.tb := rfl
@[simp] theorem Chip.setDec_ingest (c : Chip) (x : Nat) (e : DecEntry) : (c.setDec x e).ingest = c.ingest := rfl
@[simp] theorem Chip.setDec_spools (c : Chip) (x : Nat) (e : DecEntry) : (c.setDec x e).spools = c.spools := rfl
@[simp] theorem Chip.setDec_lanes (c : Chip) (x : Nat) (e : DecEntry) : (c.setDec x e).lanes = c.lanes := rfl
@[simp] theorem Chip.setDec_eccCe (c : Chip) (x : Nat) (e : DecEntry) : (c.setDec x e).eccCe = c.eccCe := rfl
@[simp] theorem Chip.setDec_eccUe (c : Chip) (x : Nat) (e : DecEntry) : (c.setDec x e).eccUe = c.eccUe := rfl
@[simp] theorem Chip.setDec_threads (c : Chip) (x : Nat) (e : DecEntry) : (c.setDec x e).threads = c.threads := rfl
@[simp] theorem Chip.setDec_needles (c : Chip) (x : Nat) (e : DecEntry) : (c.setDec x e).needles = c.needles := rfl
@[simp] theorem Chip.setDec_ports (c : Chip) (x : Nat) (e : DecEntry) : (c.setDec x e).ports = c.ports := rfl
@[simp] theorem Chip.setDec_backlog (c : Chip) (x : Nat) (e : DecEntry) : (c.setDec x e).backlog = c.backlog := rfl
@[simp] theorem Chip.setDec_reqn (c : Chip) (x : Nat) (e : DecEntry) : (c.setDec x e).reqn = c.reqn := rfl
@[simp] theorem Chip.setDec_locks (c : Chip) (x : Nat) (e : DecEntry) : (c.setDec x e).locks = c.locks := rfl
@[simp] theorem Chip.setDec_fences (c : Chip) (x : Nat) (e : DecEntry) : (c.setDec x e).fences = c.fences := rfl
@[simp] theorem Chip.setDec_seam (c : Chip) (x : Nat) (e : DecEntry) : (c.setDec x e).seam = c.seam := rfl
@[simp] theorem Chip.setDec_bb (c : Chip) (x : Nat) (e : DecEntry) : (c.setDec x e).bb = c.bb := rfl
@[simp] theorem Chip.setDec_faults (c : Chip) (x : Nat) (e : DecEntry) : (c.setDec x e).faults = c.faults := rfl
@[simp] theorem Chip.setDec_faultSeq (c : Chip) (x : Nat) (e : DecEntry) : (c.setDec x e).faultSeq = c.faultSeq := rfl
@[simp] theorem Chip.setDec_svc (c : Chip) (x : Nat) (e : DecEntry) : (c.setDec x e).svc = c.svc := rfl
@[simp] theorem Chip.setDec_hv (c : Chip) (x : Nat) (e : DecEntry) : (c.setDec x e).hv = c.hv := rfl

/-! `setAgenda` -/

@[simp] theorem Chip.setAgenda_regs (c : Chip) (l : List EdgeTask) : (c.setAgenda l).regs = c.regs := rfl
@[simp] theorem Chip.setAgenda_dwaitIn (c : Chip) (l : List EdgeTask) : (c.setAgenda l).dwaitIn = c.dwaitIn := rfl
@[simp] theorem Chip.setAgenda_free (c : Chip) (l : List EdgeTask) : (c.setAgenda l).free = c.free := rfl
@[simp] theorem Chip.setAgenda_xid (c : Chip) (l : List EdgeTask) : (c.setAgenda l).xid = c.xid := rfl
@[simp] theorem Chip.setAgenda_pwr (c : Chip) (l : List EdgeTask) : (c.setAgenda l).pwr = c.pwr := rfl
@[simp] theorem Chip.setAgenda_cpRsp (c : Chip) (l : List EdgeTask) : (c.setAgenda l).cpRsp = c.cpRsp := rfl
@[simp] theorem Chip.setAgenda_ingest (c : Chip) (l : List EdgeTask) : (c.setAgenda l).ingest = c.ingest := rfl
@[simp] theorem Chip.setAgenda_spools (c : Chip) (l : List EdgeTask) : (c.setAgenda l).spools = c.spools := rfl
@[simp] theorem Chip.setAgenda_lanes (c : Chip) (l : List EdgeTask) : (c.setAgenda l).lanes = c.lanes := rfl
@[simp] theorem Chip.setAgenda_eccCe (c : Chip) (l : List EdgeTask) : (c.setAgenda l).eccCe = c.eccCe := rfl
@[simp] theorem Chip.setAgenda_eccUe (c : Chip) (l : List EdgeTask) : (c.setAgenda l).eccUe = c.eccUe := rfl
@[simp] theorem Chip.setAgenda_threads (c : Chip) (l : List EdgeTask) : (c.setAgenda l).threads = c.threads := rfl
@[simp] theorem Chip.setAgenda_needles (c : Chip) (l : List EdgeTask) : (c.setAgenda l).needles = c.needles := rfl
@[simp] theorem Chip.setAgenda_ports (c : Chip) (l : List EdgeTask) : (c.setAgenda l).ports = c.ports := rfl
@[simp] theorem Chip.setAgenda_backlog (c : Chip) (l : List EdgeTask) : (c.setAgenda l).backlog = c.backlog := rfl
@[simp] theorem Chip.setAgenda_reqn (c : Chip) (l : List EdgeTask) : (c.setAgenda l).reqn = c.reqn := rfl
@[simp] theorem Chip.setAgenda_locks (c : Chip) (l : List EdgeTask) : (c.setAgenda l).locks = c.locks := rfl
@[simp] theorem Chip.setAgenda_fences (c : Chip) (l : List EdgeTask) : (c.setAgenda l).fences = c.fences := rfl
@[simp] theorem Chip.setAgenda_dec (c : Chip) (l : List EdgeTask) : (c.setAgenda l).dec = c.dec := rfl
@[simp] theorem Chip.setAgenda_seam (c : Chip) (l : List EdgeTask) : (c.setAgenda l).seam = c.seam := rfl
@[simp] theorem Chip.setAgenda_bb (c : Chip) (l : List EdgeTask) : (c.setAgenda l).bb = c.bb := rfl
@[simp] theorem Chip.setAgenda_faults (c : Chip) (l : List EdgeTask) : (c.setAgenda l).faults = c.faults := rfl
@[simp] theorem Chip.setAgenda_faultSeq (c : Chip) (l : List EdgeTask) : (c.setAgenda l).faultSeq = c.faultSeq := rfl
@[simp] theorem Chip.setAgenda_svc (c : Chip) (l : List EdgeTask) : (c.setAgenda l).svc = c.svc := rfl
@[simp] theorem Chip.setAgenda_hv (c : Chip) (l : List EdgeTask) : (c.setAgenda l).hv = c.hv := rfl

/-! `mapPwr` -/

@[simp] theorem Chip.mapPwr_regs (c : Chip) (f : Power → Power) : (c.mapPwr f).regs = c.regs := rfl
@[simp] theorem Chip.mapPwr_dwaitIn (c : Chip) (f : Power → Power) : (c.mapPwr f).dwaitIn = c.dwaitIn := rfl
@[simp] theorem Chip.mapPwr_free (c : Chip) (f : Power → Power) : (c.mapPwr f).free = c.free := rfl
@[simp] theorem Chip.mapPwr_xid (c : Chip) (f : Power → Power) : (c.mapPwr f).xid = c.xid := rfl
@[simp] theorem Chip.mapPwr_cpRsp (c : Chip) (f : Power → Power) : (c.mapPwr f).cpRsp = c.cpRsp := rfl
@[simp] theorem Chip.mapPwr_tb (c : Chip) (f : Power → Power) : (c.mapPwr f).tb = c.tb := rfl
@[simp] theorem Chip.mapPwr_ingest (c : Chip) (f : Power → Power) : (c.mapPwr f).ingest = c.ingest := rfl
@[simp] theorem Chip.mapPwr_spools (c : Chip) (f : Power → Power) : (c.mapPwr f).spools = c.spools := rfl
@[simp] theorem Chip.mapPwr_lanes (c : Chip) (f : Power → Power) : (c.mapPwr f).lanes = c.lanes := rfl
@[simp] theorem Chip.mapPwr_eccCe (c : Chip) (f : Power → Power) : (c.mapPwr f).eccCe = c.eccCe := rfl
@[simp] theorem Chip.mapPwr_eccUe (c : Chip) (f : Power → Power) : (c.mapPwr f).eccUe = c.eccUe := rfl
@[simp] theorem Chip.mapPwr_threads (c : Chip) (f : Power → Power) : (c.mapPwr f).threads = c.threads := rfl
@[simp] theorem Chip.mapPwr_needles (c : Chip) (f : Power → Power) : (c.mapPwr f).needles = c.needles := rfl
@[simp] theorem Chip.mapPwr_ports (c : Chip) (f : Power → Power) : (c.mapPwr f).ports = c.ports := rfl
@[simp] theorem Chip.mapPwr_backlog (c : Chip) (f : Power → Power) : (c.mapPwr f).backlog = c.backlog := rfl
@[simp] theorem Chip.mapPwr_reqn (c : Chip) (f : Power → Power) : (c.mapPwr f).reqn = c.reqn := rfl
@[simp] theorem Chip.mapPwr_locks (c : Chip) (f : Power → Power) : (c.mapPwr f).locks = c.locks := rfl
@[simp] theorem Chip.mapPwr_fences (c : Chip) (f : Power → Power) : (c.mapPwr f).fences = c.fences := rfl
@[simp] theorem Chip.mapPwr_dec (c : Chip) (f : Power → Power) : (c.mapPwr f).dec = c.dec := rfl
@[simp] theorem Chip.mapPwr_seam (c : Chip) (f : Power → Power) : (c.mapPwr f).seam = c.seam := rfl
@[simp] theorem Chip.mapPwr_bb (c : Chip) (f : Power → Power) : (c.mapPwr f).bb = c.bb := rfl
@[simp] theorem Chip.mapPwr_faults (c : Chip) (f : Power → Power) : (c.mapPwr f).faults = c.faults := rfl
@[simp] theorem Chip.mapPwr_faultSeq (c : Chip) (f : Power → Power) : (c.mapPwr f).faultSeq = c.faultSeq := rfl
@[simp] theorem Chip.mapPwr_svc (c : Chip) (f : Power → Power) : (c.mapPwr f).svc = c.svc := rfl
@[simp] theorem Chip.mapPwr_hv (c : Chip) (f : Power → Power) : (c.mapPwr f).hv = c.hv := rfl

/-! `clearEcc` -/

@[simp] theorem Chip.clearEcc_regs (c : Chip) (off : Nat) : (c.clearEcc off).regs = c.regs := rfl
@[simp] theorem Chip.clearEcc_dwaitIn (c : Chip) (off : Nat) : (c.clearEcc off).dwaitIn = c.dwaitIn := rfl
@[simp] theorem Chip.clearEcc_free (c : Chip) (off : Nat) : (c.clearEcc off).free = c.free := rfl
@[simp] theorem Chip.clearEcc_xid (c : Chip) (off : Nat) : (c.clearEcc off).xid = c.xid := rfl
@[simp] theorem Chip.clearEcc_pwr (c : Chip) (off : Nat) : (c.clearEcc off).pwr = c.pwr := rfl
@[simp] theorem Chip.clearEcc_cpRsp (c : Chip) (off : Nat) : (c.clearEcc off).cpRsp = c.cpRsp := rfl
@[simp] theorem Chip.clearEcc_tb (c : Chip) (off : Nat) : (c.clearEcc off).tb = c.tb := rfl
@[simp] theorem Chip.clearEcc_ingest (c : Chip) (off : Nat) : (c.clearEcc off).ingest = c.ingest := rfl
@[simp] theorem Chip.clearEcc_spools (c : Chip) (off : Nat) : (c.clearEcc off).spools = c.spools := rfl
@[simp] theorem Chip.clearEcc_lanes (c : Chip) (off : Nat) : (c.clearEcc off).lanes = c.lanes := rfl
@[simp] theorem Chip.clearEcc_threads (c : Chip) (off : Nat) : (c.clearEcc off).threads = c.threads := rfl
@[simp] theorem Chip.clearEcc_needles (c : Chip) (off : Nat) : (c.clearEcc off).needles = c.needles := rfl
@[simp] theorem Chip.clearEcc_ports (c : Chip) (off : Nat) : (c.clearEcc off).ports = c.ports := rfl
@[simp] theorem Chip.clearEcc_backlog (c : Chip) (off : Nat) : (c.clearEcc off).backlog = c.backlog := rfl
@[simp] theorem Chip.clearEcc_reqn (c : Chip) (off : Nat) : (c.clearEcc off).reqn = c.reqn := rfl
@[simp] theorem Chip.clearEcc_locks (c : Chip) (off : Nat) : (c.clearEcc off).locks = c.locks := rfl
@[simp] theorem Chip.clearEcc_fences (c : Chip) (off : Nat) : (c.clearEcc off).fences = c.fences := rfl
@[simp] theorem Chip.clearEcc_dec (c : Chip) (off : Nat) : (c.clearEcc off).dec = c.dec := rfl
@[simp] theorem Chip.clearEcc_seam (c : Chip) (off : Nat) : (c.clearEcc off).seam = c.seam := rfl
@[simp] theorem Chip.clearEcc_bb (c : Chip) (off : Nat) : (c.clearEcc off).bb = c.bb := rfl
@[simp] theorem Chip.clearEcc_faults (c : Chip) (off : Nat) : (c.clearEcc off).faults = c.faults := rfl
@[simp] theorem Chip.clearEcc_faultSeq (c : Chip) (off : Nat) : (c.clearEcc off).faultSeq = c.faultSeq := rfl
@[simp] theorem Chip.clearEcc_svc (c : Chip) (off : Nat) : (c.clearEcc off).svc = c.svc := rfl
@[simp] theorem Chip.clearEcc_hv (c : Chip) (off : Nat) : (c.clearEcc off).hv = c.hv := rfl

/-! What the tables read -/

/-- A register just written reads the value written. -/
@[simp] theorem Chip.rd_wr_same (c : Chip) (r : Reg) (w : Word) : (c.wr r w).rd r = w := Tab.get_put_same _ _ _ _

/-- A register at another offset reads as before. -/
theorem Chip.rd_wr_other (c : Chip) {r q : Reg} (h : q.offset ≠ r.offset) (w : Word) : (c.wr r w).rd q = c.rd q :=
  Tab.get_put_any _ _ _ h _

@[simp] theorem Chip.rd_setF_same (c : Chip) (r : Reg) (f : Fld) (v : Nat) :
    (c.setF r f v).rd r = fset (c.rd r) f v := Chip.rd_wr_same c r _

theorem Chip.rd_setF_other (c : Chip) {r q : Reg} (h : q.offset ≠ r.offset) (f : Fld) (v : Nat) :
    (c.setF r f v).rd q = c.rd q := Chip.rd_wr_other c h _

theorem Chip.rd_flag_other (c : Chip) {r q : Reg} (h : q.offset ≠ r.offset) (f : Fld) :
    (c.flag r f).rd q = c.rd q := Chip.rd_wr_other c h _

theorem Chip.rd_tally_other (c : Chip) {r q : Reg} (h : q.offset ≠ r.offset) (f : Fld) (n : Nat) :
    (c.tally r f n).rd q = c.rd q := Chip.rd_wr_other c h _

/-- A field just set reads the value, within its width. -/
theorem Chip.fld_setF_same (c : Chip) (r : Reg) {f : Fld} (hf : f.ok) (v : Nat) :
    (c.setF r f v).fld r f = v % 2 ^ f.width := by
  unfold Chip.fld; rw [Chip.rd_setF_same, fget_fset_same hf]

/-- Another field of the same register reads as before. -/
theorem Chip.fld_setF_apart (c : Chip) (r : Reg) {f g : Fld} (hf : f.ok) (h : f.apart g) (v : Nat) :
    (c.setF r f v).fld r g = c.fld r g := by
  unfold Chip.fld; rw [Chip.rd_setF_same, fget_fset_other hf h]

/-- A field of another register reads as before. -/
theorem Chip.fld_setF_other (c : Chip) {r q : Reg} (h : q.offset ≠ r.offset) (f g : Fld) (v : Nat) :
    (c.setF r f v).fld q g = c.fld q g := by
  unfold Chip.fld; rw [Chip.rd_setF_other c h]

theorem Chip.bit_flag_same (c : Chip) (r : Reg) {f : Fld} (hf : f.ok) : (c.flag r f).bit r f = true := by
  unfold Chip.bit Chip.flag; rw [Chip.rd_setF_same]; exact fbit_fset_one hf _

/-- A saturating count just advanced. -/
theorem Chip.fld_tally_same (c : Chip) (r : Reg) {f : Fld} (hf : f.ok) (n : Nat) :
    (c.tally r f n).fld r f = min (c.fld r f + n) (2 ^ f.width - 1) := by
  unfold Chip.fld Chip.tally; rw [Chip.rd_wr_same, fget_fsat hf]

@[simp] theorem Chip.thr_setThr_same (c : Chip) (t : Nat) (th : Thread) : (c.setThr t th).thr t = th :=
  Tab.get_put_same _ _ _ _
theorem Chip.thr_setThr_other (c : Chip) {t u : Nat} (h : u ≠ t) (th : Thread) : (c.setThr t th).thr u = c.thr u :=
  Tab.get_put_other _ _ h _
@[simp] theorem Chip.ndl_setNdl_same (c : Chip) (n : Nat) (nd : Needle) : (c.setNdl n nd).ndl n = nd :=
  Tab.get_put_same _ _ _ _
theorem Chip.ndl_setNdl_other (c : Chip) {n m : Nat} (h : m ≠ n) (nd : Needle) : (c.setNdl n nd).ndl m = c.ndl m :=
  Tab.get_put_other _ _ h _
@[simp] theorem Chip.slot_setSlot_same (c : Chip) (n k : Nat) (s : Option Slot) : (c.setSlot n k s).slot n k = s := by
  unfold Chip.slot Chip.setSlot
  rw [Chip.ndl_setNdl_same]; exact Tab.get_put_same _ _ _ _
theorem Chip.slot_setSlot_other (c : Chip) {n k m j : Nat} (h : m ≠ n ∨ j ≠ k) (s : Option Slot) :
    (c.setSlot n k s).slot m j = c.slot m j := by
  unfold Chip.slot Chip.setSlot
  by_cases hm : m = n
  · subst hm
    rw [Chip.ndl_setNdl_same]
    have hj : j ≠ k := by rcases h with h | h; exact absurd rfl h; exact h
    exact Tab.get_put_other _ _ hj _
  · rw [Chip.ndl_setNdl_other _ hm]
@[simp] theorem Chip.spool_setSpool_same (c : Chip) (m : Nat) (s : Spool) : (c.setSpool m s).spool m = s :=
  Tab.get_put_same _ _ _ _
@[simp] theorem Chip.ip_setIp_same (c : Chip) (n : Nat) (i : Ingest) : (c.setIp n i).ip n = i := Tab.get_put_same _ _ _ _

@[simp] theorem Prot.rd_wr_same (p : Prot) (r : Reg) (w : Word) : (p.wr r w).rd r = w := Tab.get_put_same _ _ _ _
theorem Prot.rd_wr_other (p : Prot) {r q : Reg} (h : q.offset ≠ r.offset) (w : Word) : (p.wr r w).rd q = p.rd q :=
  Tab.get_put_any _ _ _ h _

/-! The shape of a command that changes the chip alone -/

/-- Whatever answers through `chipStep` is a next state that differs in the chip alone. -/
theorem State.chipStep_next (s : State) (f : Env → Chip → Chip) :
    s.chipStep f = .next { s with chip := f s.env s.chip } := rfl

/-! An answer of the control port -/
@[simp] theorem Chip.respond_regs (c : Chip) (w : Word) (code : Nat) : (c.respond w code).regs = c.regs := rfl
@[simp] theorem Chip.respond_dwaitIn (c : Chip) (w : Word) (code : Nat) : (c.respond w code).dwaitIn = c.dwaitIn := rfl
@[simp] theorem Chip.respond_xid (c : Chip) (w : Word) (code : Nat) : (c.respond w code).xid = c.xid := rfl
@[simp] theorem Chip.respond_pwr (c : Chip) (w : Word) (code : Nat) : (c.respond w code).pwr = c.pwr := rfl
@[simp] theorem Chip.respond_tb (c : Chip) (w : Word) (code : Nat) : (c.respond w code).tb = c.tb := rfl
@[simp] theorem Chip.respond_ingest (c : Chip) (w : Word) (code : Nat) : (c.respond w code).ingest = c.ingest := rfl
@[simp] theorem Chip.respond_spools (c : Chip) (w : Word) (code : Nat) : (c.respond w code).spools = c.spools := rfl
@[simp] theorem Chip.respond_lanes (c : Chip) (w : Word) (code : Nat) : (c.respond w code).lanes = c.lanes := rfl
@[simp] theorem Chip.respond_eccCe (c : Chip) (w : Word) (code : Nat) : (c.respond w code).eccCe = c.eccCe := rfl
@[simp] theorem Chip.respond_eccUe (c : Chip) (w : Word) (code : Nat) : (c.respond w code).eccUe = c.eccUe := rfl
@[simp] theorem Chip.respond_threads (c : Chip) (w : Word) (code : Nat) : (c.respond w code).threads = c.threads := rfl
@[simp] theorem Chip.respond_needles (c : Chip) (w : Word) (code : Nat) : (c.respond w code).needles = c.needles := rfl
@[simp] theorem Chip.respond_ports (c : Chip) (w : Word) (code : Nat) : (c.respond w code).ports = c.ports := rfl
@[simp] theorem Chip.respond_backlog (c : Chip) (w : Word) (code : Nat) : (c.respond w code).backlog = c.backlog := rfl
@[simp] theorem Chip.respond_reqn (c : Chip) (w : Word) (code : Nat) : (c.respond w code).reqn = c.reqn := rfl
@[simp] theorem Chip.respond_locks (c : Chip) (w : Word) (code : Nat) : (c.respond w code).locks = c.locks := rfl
@[simp] theorem Chip.respond_fences (c : Chip) (w : Word) (code : Nat) : (c.respond w code).fences = c.fences := rfl
@[simp] theorem Chip.respond_dec (c : Chip) (w : Word) (code : Nat) : (c.respond w code).dec = c.dec := rfl
@[simp] theorem Chip.respond_seam (c : Chip) (w : Word) (code : Nat) : (c.respond w code).seam = c.seam := rfl
@[simp] theorem Chip.respond_bb (c : Chip) (w : Word) (code : Nat) : (c.respond w code).bb = c.bb := rfl
@[simp] theorem Chip.respond_faults (c : Chip) (w : Word) (code : Nat) : (c.respond w code).faults = c.faults := rfl
@[simp] theorem Chip.respond_faultSeq (c : Chip) (w : Word) (code : Nat) : (c.respond w code).faultSeq = c.faultSeq := rfl
@[simp] theorem Chip.respond_svc (c : Chip) (w : Word) (code : Nat) : (c.respond w code).svc = c.svc := rfl
@[simp] theorem Chip.respond_hv (c : Chip) (w : Word) (code : Nat) : (c.respond w code).hv = c.hv := rfl
@[simp] theorem Chip.respond_free (c : Chip) (w : Word) (code : Nat) : (c.respond w code).free = c.free := rfl

end Sys2Proof.Machine
end

