-- ==== Sys2Proof/Laws/Counters.lean ====
section
/-! SUPPORT. What counting an event and recording one in the black box leave alone. -/

namespace Sys2Proof.Machine

namespace Chip

theorem only_refl (c : Chip) : OnlyRegs c c := rfl

theorem only_trans {c d e : Chip} (h : OnlyRegs c d) (k : OnlyRegs d e) : OnlyRegs c e := by
  unfold OnlyRegs at *; rw [k, h]

theorem only_wr {c d : Chip} (h : OnlyRegs c d) (r : Reg) (w : Word) : OnlyRegs c (d.wr r w) :=
  only_trans h rfl

theorem only_ite {p : Prop} [Decidable p] {c d e : Chip} (h : OnlyRegs c d) (k : OnlyRegs c e) :
    OnlyRegs c (if p then d else e) := by
  split <;> assumption

/-- Counting an event on one counter changes registers only. -/
theorem bump_only (c : Chip) (ev n : Nat) (q : Option Nat) (i : Nat) : OnlyRegs c (c.bump ev n q i) := by
  unfold bump
  exact only_ite (only_ite (only_ite rfl rfl) rfl) rfl

theorem countOn_only (c : Chip) (lo k ev n : Nat) (q : Option Nat) : OnlyRegs c (c.countOn lo k ev n q) := by
  unfold countOn
  split
  · rfl
  · have : ∀ (l : List Nat) (d : Chip), OnlyRegs d (l.foldl (fun c j => c.bump ev n q (lo + j)) d) := by
      intro l
      induction l with
      | nil => intro d; rfl
      | cons j l ih => intro d; exact only_trans (bump_only d _ _ _ _) (ih _)
    exact this _ _

/-- Events of one cycle change registers only. -/
theorem countCycle_only (c : Chip) (lo k : Nat) (evs : List (Nat × Nat)) : OnlyRegs c (c.countCycle lo k evs) := by
  have inner (ev n : Nat) : ∀ (l : List Nat) (d : Chip), OnlyRegs d (l.foldl (fun c j => c.bump ev n none (lo + j)) d) := by
    intro l
    induction l with
    | nil => intro d; rfl
    | cons j l ih => intro d; exact only_trans (bump_only d _ _ _ _) (ih _)
  unfold countCycle
  split
  · rfl
  · have : ∀ (l : List (Nat × Nat)) (d : Chip),
        OnlyRegs d (l.foldl (fun c x => (List.range k).foldl (fun c j => c.bump x.1 x.2 none (lo + j)) c) d) := by
      intro l
      induction l with
      | nil => intro d; rfl
      | cons x l ih => intro d; exact only_trans (inner x.1 x.2 _ d) (ih _)
    exact this _ _

theorem rd_ite {p : Prop} [Decidable p] {d e : Chip} {r : Reg} {w : Word} (h : d.rd r = w) (k : e.rd r = w) :
    (if p then d else e).rd r = w := by
  split <;> assumption

/-- One counter's event leaves every register outside the counters' region alone. -/
theorem rd_bump (c : Chip) (ev n : Nat) (q : Option Nat) {i : Nat} (hi : i < 592) {r : Reg}
    (hr : r.offset < 0x70000 ∨ 0x74000 ≤ r.offset) : (c.bump ev n q i).rd r = c.rd r := by
  have h1 : r.offset ≠ (Reg.pmcCnt i).offset := by
    have : (Reg.pmcCnt i).offset = 0x71008 + i * 0x10 := rfl
    omega
  have h2 : r.offset ≠ Reg.pmcCtl.offset := by
    have : Reg.pmcCtl.offset = 0x70000 := rfl
    omega
  have hs : ∀ d : Chip, (d.setF (.pmcCnt i) F.PmcCnt.VALUE (c.fld (.pmcCnt i) F.PmcCnt.VALUE + n)).rd r = d.rd r :=
    fun d => rd_setF_other d h1 _ _
  unfold bump
  apply rd_ite
  · apply rd_ite
    · apply rd_ite
      · rw [rd_flag_other _ h2, rd_flag_other _ h1]; exact hs c
      · rw [rd_flag_other _ h1]; exact hs c
    · exact hs c
  · rfl

theorem rd_countOn (c : Chip) {lo k : Nat} (ev n : Nat) (q : Option Nat) (h : lo + k ≤ 592) {r : Reg}
    (hr : r.offset < 0x70000 ∨ 0x74000 ≤ r.offset) : (c.countOn lo k ev n q).rd r = c.rd r := by
  unfold countOn
  split
  · rfl
  · have : ∀ (l : List Nat) (d : Chip), (∀ j ∈ l, j < k) →
        (l.foldl (fun c j => c.bump ev n q (lo + j)) d).rd r = d.rd r := by
      intro l
      induction l with
      | nil => intros; rfl
      | cons j l ih =>
        intro d hj
        simp only [List.foldl_cons]
        rw [ih _ fun x hx => hj x (List.mem_cons_of_mem _ hx)]
        exact rd_bump _ _ _ _ (by have := hj j (by simp); omega) hr
    exact this _ _ fun j hj => List.mem_range.mp hj

theorem rd_cntNeedle (c : Chip) {nd : Nat} (h : nd < 128) (ev n : Nat) {r : Reg}
    (hr : r.offset < 0x70000 ∨ 0x74000 ≤ r.offset) : (c.cntNeedle nd ev n).rd r = c.rd r := by
  unfold cntNeedle
  split
  · exact rd_countOn c ev n _ (by omega) hr
  · rfl
theorem rd_cntMesh (c : Chip) {p : Nat} (h : p < 16) (ev n : Nat) {r : Reg}
    (hr : r.offset < 0x70000 ∨ 0x74000 ≤ r.offset) : (c.cntMesh p ev n).rd r = c.rd r :=
  rd_countOn c ev n _ (by omega) hr
theorem rd_cntIngest (c : Chip) {p : Nat} (h : p < 16) (ev n : Nat) {r : Reg}
    (hr : r.offset < 0x70000 ∨ 0x74000 ≤ r.offset) : (c.cntIngest p ev n).rd r = c.rd r :=
  rd_countOn c ev n _ (by omega) hr
theorem rd_cntSpool (c : Chip) (m ev n : Nat) {r : Reg}
    (hr : r.offset < 0x70000 ∨ 0x74000 ≤ r.offset) : (c.cntSpool m ev n).rd r = c.rd r :=
  rd_countOn c ev n _ (by omega) hr
theorem rd_cntStore (c : Chip) (ev n : Nat) {r : Reg}
    (hr : r.offset < 0x70000 ∨ 0x74000 ≤ r.offset) : (c.cntStore ev n).rd r = c.rd r :=
  rd_countOn c ev n _ (by omega) hr
theorem rd_cntSeam (c : Chip) (ev n : Nat) {r : Reg}
    (hr : r.offset < 0x70000 ∨ 0x74000 ≤ r.offset) : (c.cntSeam ev n).rd r = c.rd r := by
  unfold cntSeam
  split
  · exact rd_countOn c ev n _ (by omega) hr
  · rfl

theorem cntNeedle_only (c : Chip) (nd ev n : Nat) : OnlyRegs c (c.cntNeedle nd ev n) := by
  unfold cntNeedle
  split
  · exact countOn_only c _ _ _ _ _
  · rfl

theorem cntSeam_only (c : Chip) (ev n : Nat) : OnlyRegs c (c.cntSeam ev n) := by
  unfold cntSeam
  split
  · exact countOn_only c _ _ _ _ _
  · rfl

/-! Field by field -/

theorem dwaitIn_of_only {c d : Chip} (h : OnlyRegs c d) : d.dwaitIn = c.dwaitIn := by rw [show d = _ from h]
theorem free_of_only {c d : Chip} (h : OnlyRegs c d) : d.free = c.free := by rw [show d = _ from h]
theorem xid_of_only {c d : Chip} (h : OnlyRegs c d) : d.xid = c.xid := by rw [show d = _ from h]
theorem pwr_of_only {c d : Chip} (h : OnlyRegs c d) : d.pwr = c.pwr := by rw [show d = _ from h]
theorem cpRsp_of_only {c d : Chip} (h : OnlyRegs c d) : d.cpRsp = c.cpRsp := by rw [show d = _ from h]
theorem tb_of_only {c d : Chip} (h : OnlyRegs c d) : d.tb = c.tb := by rw [show d = _ from h]
theorem ingest_of_only {c d : Chip} (h : OnlyRegs c d) : d.ingest = c.ingest := by rw [show d = _ from h]
theorem spools_of_only {c d : Chip} (h : OnlyRegs c d) : d.spools = c.spools := by rw [show d = _ from h]
theorem lanes_of_only {c d : Chip} (h : OnlyRegs c d) : d.lanes = c.lanes := by rw [show d = _ from h]
theorem eccCe_of_only {c d : Chip} (h : OnlyRegs c d) : d.eccCe = c.eccCe := by rw [show d = _ from h]
theorem eccUe_of_only {c d : Chip} (h : OnlyRegs c d) : d.eccUe = c.eccUe := by rw [show d = _ from h]
theorem threads_of_only {c d : Chip} (h : OnlyRegs c d) : d.threads = c.threads := by rw [show d = _ from h]
theorem needles_of_only {c d : Chip} (h : OnlyRegs c d) : d.needles = c.needles := by rw [show d = _ from h]
theorem ports_of_only {c d : Chip} (h : OnlyRegs c d) : d.ports = c.ports := by rw [show d = _ from h]
theorem backlog_of_only {c d : Chip} (h : OnlyRegs c d) : d.backlog = c.backlog := by rw [show d = _ from h]
theorem reqn_of_only {c d : Chip} (h : OnlyRegs c d) : d.reqn = c.reqn := by rw [show d = _ from h]
theorem locks_of_only {c d : Chip} (h : OnlyRegs c d) : d.locks = c.locks := by rw [show d = _ from h]
theorem fences_of_only {c d : Chip} (h : OnlyRegs c d) : d.fences = c.fences := by rw [show d = _ from h]
theorem dec_of_only {c d : Chip} (h : OnlyRegs c d) : d.dec = c.dec := by rw [show d = _ from h]
theorem seam_of_only {c d : Chip} (h : OnlyRegs c d) : d.seam = c.seam := by rw [show d = _ from h]
theorem bb_of_only {c d : Chip} (h : OnlyRegs c d) : d.bb = c.bb := by rw [show d = _ from h]
theorem faults_of_only {c d : Chip} (h : OnlyRegs c d) : d.faults = c.faults := by rw [show d = _ from h]
theorem faultSeq_of_only {c d : Chip} (h : OnlyRegs c d) : d.faultSeq = c.faultSeq := by rw [show d = _ from h]
theorem svc_of_only {c d : Chip} (h : OnlyRegs c d) : d.svc = c.svc := by rw [show d = _ from h]
theorem hv_of_only {c d : Chip} (h : OnlyRegs c d) : d.hv = c.hv := by rw [show d = _ from h]

@[simp] theorem bump_dwaitIn (c : Chip) (ev n : Nat) (q : Option Nat) (i : Nat) : (c.bump ev n q i).dwaitIn = c.dwaitIn := dwaitIn_of_only (bump_only c ev n q i)
@[simp] theorem bump_free (c : Chip) (ev n : Nat) (q : Option Nat) (i : Nat) : (c.bump ev n q i).free = c.free := free_of_only (bump_only c ev n q i)
@[simp] theorem bump_xid (c : Chip) (ev n : Nat) (q : Option Nat) (i : Nat) : (c.bump ev n q i).xid = c.xid := xid_of_only (bump_only c ev n q i)
@[simp] theorem bump_pwr (c : Chip) (ev n : Nat) (q : Option Nat) (i : Nat) : (c.bump ev n q i).pwr = c.pwr := pwr_of_only (bump_only c ev n q i)
@[simp] theorem bump_cpRsp (c : Chip) (ev n : Nat) (q : Option Nat) (i : Nat) : (c.bump ev n q i).cpRsp = c.cpRsp := cpRsp_of_only (bump_only c ev n q i)
@[simp] theorem bump_tb (c : Chip) (ev n : Nat) (q : Option Nat) (i : Nat) : (c.bump ev n q i).tb = c.tb := tb_of_only (bump_only c ev n q i)
@[simp] theorem bump_ingest (c : Chip) (ev n : Nat) (q : Option Nat) (i : Nat) : (c.bump ev n q i).ingest = c.ingest := ingest_of_only (bump_only c ev n q i)
@[simp] theorem bump_spools (c : Chip) (ev n : Nat) (q : Option Nat) (i : Nat) : (c.bump ev n q i).spools = c.spools := spools_of_only (bump_only c ev n q i)
@[simp] theorem bump_lanes (c : Chip) (ev n : Nat) (q : Option Nat) (i : Nat) : (c.bump ev n q i).lanes = c.lanes := lanes_of_only (bump_only c ev n q i)
@[simp] theorem bump_eccCe (c : Chip) (ev n : Nat) (q : Option Nat) (i : Nat) : (c.bump ev n q i).eccCe = c.eccCe := eccCe_of_only (bump_only c ev n q i)
@[simp] theorem bump_eccUe (c : Chip) (ev n : Nat) (q : Option Nat) (i : Nat) : (c.bump ev n q i).eccUe = c.eccUe := eccUe_of_only (bump_only c ev n q i)
@[simp] theorem bump_threads (c : Chip) (ev n : Nat) (q : Option Nat) (i : Nat) : (c.bump ev n q i).threads = c.threads := threads_of_only (bump_only c ev n q i)
@[simp] theorem bump_needles (c : Chip) (ev n : Nat) (q : Option Nat) (i : Nat) : (c.bump ev n q i).needles = c.needles := needles_of_only (bump_only c ev n q i)
@[simp] theorem bump_ports (c : Chip) (ev n : Nat) (q : Option Nat) (i : Nat) : (c.bump ev n q i).ports = c.ports := ports_of_only (bump_only c ev n q i)
@[simp] theorem bump_backlog (c : Chip) (ev n : Nat) (q : Option Nat) (i : Nat) : (c.bump ev n q i).backlog = c.backlog := backlog_of_only (bump_only c ev n q i)
@[simp] theorem bump_reqn (c : Chip) (ev n : Nat) (q : Option Nat) (i : Nat) : (c.bump ev n q i).reqn = c.reqn := reqn_of_only (bump_only c ev n q i)
@[simp] theorem bump_locks (c : Chip) (ev n : Nat) (q : Option Nat) (i : Nat) : (c.bump ev n q i).locks = c.locks := locks_of_only (bump_only c ev n q i)
@[simp] theorem bump_fences (c : Chip) (ev n : Nat) (q : Option Nat) (i : Nat) : (c.bump ev n q i).fences = c.fences := fences_of_only (bump_only c ev n q i)
@[simp] theorem bump_dec (c : Chip) (ev n : Nat) (q : Option Nat) (i : Nat) : (c.bump ev n q i).dec = c.dec := dec_of_only (bump_only c ev n q i)
@[simp] theorem bump_seam (c : Chip) (ev n : Nat) (q : Option Nat) (i : Nat) : (c.bump ev n q i).seam = c.seam := seam_of_only (bump_only c ev n q i)
@[simp] theorem bump_bb (c : Chip) (ev n : Nat) (q : Option Nat) (i : Nat) : (c.bump ev n q i).bb = c.bb := bb_of_only (bump_only c ev n q i)
@[simp] theorem bump_faults (c : Chip) (ev n : Nat) (q : Option Nat) (i : Nat) : (c.bump ev n q i).faults = c.faults := faults_of_only (bump_only c ev n q i)
@[simp] theorem bump_faultSeq (c : Chip) (ev n : Nat) (q : Option Nat) (i : Nat) : (c.bump ev n q i).faultSeq = c.faultSeq := faultSeq_of_only (bump_only c ev n q i)
@[simp] theorem bump_svc (c : Chip) (ev n : Nat) (q : Option Nat) (i : Nat) : (c.bump ev n q i).svc = c.svc := svc_of_only (bump_only c ev n q i)
@[simp] theorem bump_hv (c : Chip) (ev n : Nat) (q : Option Nat) (i : Nat) : (c.bump ev n q i).hv = c.hv := hv_of_only (bump_only c ev n q i)

@[simp] theorem countOn_dwaitIn (c : Chip) (lo k ev n : Nat) (q : Option Nat) : (c.countOn lo k ev n q).dwaitIn = c.dwaitIn := dwaitIn_of_only (countOn_only c lo k ev n q)
@[simp] theorem countOn_free (c : Chip) (lo k ev n : Nat) (q : Option Nat) : (c.countOn lo k ev n q).free = c.free := free_of_only (countOn_only c lo k ev n q)
@[simp] theorem countOn_xid (c : Chip) (lo k ev n : Nat) (q : Option Nat) : (c.countOn lo k ev n q).xid = c.xid := xid_of_only (countOn_only c lo k ev n q)
@[simp] theorem countOn_pwr (c : Chip) (lo k ev n : Nat) (q : Option Nat) : (c.countOn lo k ev n q).pwr = c.pwr := pwr_of_only (countOn_only c lo k ev n q)
@[simp] theorem countOn_cpRsp (c : Chip) (lo k ev n : Nat) (q : Option Nat) : (c.countOn lo k ev n q).cpRsp = c.cpRsp := cpRsp_of_only (countOn_only c lo k ev n q)
@[simp] theorem countOn_tb (c : Chip) (lo k ev n : Nat) (q : Option Nat) : (c.countOn lo k ev n q).tb = c.tb := tb_of_only (countOn_only c lo k ev n q)
@[simp] theorem countOn_ingest (c : Chip) (lo k ev n : Nat) (q : Option Nat) : (c.countOn lo k ev n q).ingest = c.ingest := ingest_of_only (countOn_only c lo k ev n q)
@[simp] theorem countOn_spools (c : Chip) (lo k ev n : Nat) (q : Option Nat) : (c.countOn lo k ev n q).spools = c.spools := spools_of_only (countOn_only c lo k ev n q)
@[simp] theorem countOn_lanes (c : Chip) (lo k ev n : Nat) (q : Option Nat) : (c.countOn lo k ev n q).lanes = c.lanes := lanes_of_only (countOn_only c lo k ev n q)
@[simp] theorem countOn_eccCe (c : Chip) (lo k ev n : Nat) (q : Option Nat) : (c.countOn lo k ev n q).eccCe = c.eccCe := eccCe_of_only (countOn_only c lo k ev n q)
@[simp] theorem countOn_eccUe (c : Chip) (lo k ev n : Nat) (q : Option Nat) : (c.countOn lo k ev n q).eccUe = c.eccUe := eccUe_of_only (countOn_only c lo k ev n q)
@[simp] theorem countOn_threads (c : Chip) (lo k ev n : Nat) (q : Option Nat) : (c.countOn lo k ev n q).threads = c.threads := threads_of_only (countOn_only c lo k ev n q)
@[simp] theorem countOn_needles (c : Chip) (lo k ev n : Nat) (q : Option Nat) : (c.countOn lo k ev n q).needles = c.needles := needles_of_only (countOn_only c lo k ev n q)
@[simp] theorem countOn_ports (c : Chip) (lo k ev n : Nat) (q : Option Nat) : (c.countOn lo k ev n q).ports = c.ports := ports_of_only (countOn_only c lo k ev n q)
@[simp] theorem countOn_backlog (c : Chip) (lo k ev n : Nat) (q : Option Nat) : (c.countOn lo k ev n q).backlog = c.backlog := backlog_of_only (countOn_only c lo k ev n q)
@[simp] theorem countOn_reqn (c : Chip) (lo k ev n : Nat) (q : Option Nat) : (c.countOn lo k ev n q).reqn = c.reqn := reqn_of_only (countOn_only c lo k ev n q)
@[simp] theorem countOn_locks (c : Chip) (lo k ev n : Nat) (q : Option Nat) : (c.countOn lo k ev n q).locks = c.locks := locks_of_only (countOn_only c lo k ev n q)
@[simp] theorem countOn_fences (c : Chip) (lo k ev n : Nat) (q : Option Nat) : (c.countOn lo k ev n q).fences = c.fences := fences_of_only (countOn_only c lo k ev n q)
@[simp] theorem countOn_dec (c : Chip) (lo k ev n : Nat) (q : Option Nat) : (c.countOn lo k ev n q).dec = c.dec := dec_of_only (countOn_only c lo k ev n q)
@[simp] theorem countOn_seam (c : Chip) (lo k ev n : Nat) (q : Option Nat) : (c.countOn lo k ev n q).seam = c.seam := seam_of_only (countOn_only c lo k ev n q)
@[simp] theorem countOn_bb (c : Chip) (lo k ev n : Nat) (q : Option Nat) : (c.countOn lo k ev n q).bb = c.bb := bb_of_only (countOn_only c lo k ev n q)
@[simp] theorem countOn_faults (c : Chip) (lo k ev n : Nat) (q : Option Nat) : (c.countOn lo k ev n q).faults = c.faults := faults_of_only (countOn_only c lo k ev n q)
@[simp] theorem countOn_faultSeq (c : Chip) (lo k ev n : Nat) (q : Option Nat) : (c.countOn lo k ev n q).faultSeq = c.faultSeq := faultSeq_of_only (countOn_only c lo k ev n q)
@[simp] theorem countOn_svc (c : Chip) (lo k ev n : Nat) (q : Option Nat) : (c.countOn lo k ev n q).svc = c.svc := svc_of_only (countOn_only c lo k ev n q)
@[simp] theorem countOn_hv (c : Chip) (lo k ev n : Nat) (q : Option Nat) : (c.countOn lo k ev n q).hv = c.hv := hv_of_only (countOn_only c lo k ev n q)

@[simp] theorem countCycle_dwaitIn (c : Chip) (lo k : Nat) (evs : List (Nat × Nat)) : (c.countCycle lo k evs).dwaitIn = c.dwaitIn := dwaitIn_of_only (countCycle_only c lo k evs)
@[simp] theorem countCycle_free (c : Chip) (lo k : Nat) (evs : List (Nat × Nat)) : (c.countCycle lo k evs).free = c.free := free_of_only (countCycle_only c lo k evs)
@[simp] theorem countCycle_xid (c : Chip) (lo k : Nat) (evs : List (Nat × Nat)) : (c.countCycle lo k evs).xid = c.xid := xid_of_only (countCycle_only c lo k evs)
@[simp] theorem countCycle_pwr (c : Chip) (lo k : Nat) (evs : List (Nat × Nat)) : (c.countCycle lo k evs).pwr = c.pwr := pwr_of_only (countCycle_only c lo k evs)
@[simp] theorem countCycle_cpRsp (c : Chip) (lo k : Nat) (evs : List (Nat × Nat)) : (c.countCycle lo k evs).cpRsp = c.cpRsp := cpRsp_of_only (countCycle_only c lo k evs)
@[simp] theorem countCycle_tb (c : Chip) (lo k : Nat) (evs : List (Nat × Nat)) : (c.countCycle lo k evs).tb = c.tb := tb_of_only (countCycle_only c lo k evs)
@[simp] theorem countCycle_ingest (c : Chip) (lo k : Nat) (evs : List (Nat × Nat)) : (c.countCycle lo k evs).ingest = c.ingest := ingest_of_only (countCycle_only c lo k evs)
@[simp] theorem countCycle_spools (c : Chip) (lo k : Nat) (evs : List (Nat × Nat)) : (c.countCycle lo k evs).spools = c.spools := spools_of_only (countCycle_only c lo k evs)
@[simp] theorem countCycle_lanes (c : Chip) (lo k : Nat) (evs : List (Nat × Nat)) : (c.countCycle lo k evs).lanes = c.lanes := lanes_of_only (countCycle_only c lo k evs)
@[simp] theorem countCycle_eccCe (c : Chip) (lo k : Nat) (evs : List (Nat × Nat)) : (c.countCycle lo k evs).eccCe = c.eccCe := eccCe_of_only (countCycle_only c lo k evs)
@[simp] theorem countCycle_eccUe (c : Chip) (lo k : Nat) (evs : List (Nat × Nat)) : (c.countCycle lo k evs).eccUe = c.eccUe := eccUe_of_only (countCycle_only c lo k evs)
@[simp] theorem countCycle_threads (c : Chip) (lo k : Nat) (evs : List (Nat × Nat)) : (c.countCycle lo k evs).threads = c.threads := threads_of_only (countCycle_only c lo k evs)
@[simp] theorem countCycle_needles (c : Chip) (lo k : Nat) (evs : List (Nat × Nat)) : (c.countCycle lo k evs).needles = c.needles := needles_of_only (countCycle_only c lo k evs)
@[simp] theorem countCycle_ports (c : Chip) (lo k : Nat) (evs : List (Nat × Nat)) : (c.countCycle lo k evs).ports = c.ports := ports_of_only (countCycle_only c lo k evs)
@[simp] theorem countCycle_backlog (c : Chip) (lo k : Nat) (evs : List (Nat × Nat)) : (c.countCycle lo k evs).backlog = c.backlog := backlog_of_only (countCycle_only c lo k evs)
@[simp] theorem countCycle_reqn (c : Chip) (lo k : Nat) (evs : List (Nat × Nat)) : (c.countCycle lo k evs).reqn = c.reqn := reqn_of_only (countCycle_only c lo k evs)
@[simp] theorem countCycle_locks (c : Chip) (lo k : Nat) (evs : List (Nat × Nat)) : (c.countCycle lo k evs).locks = c.locks := locks_of_only (countCycle_only c lo k evs)
@[simp] theorem countCycle_fences (c : Chip) (lo k : Nat) (evs : List (Nat × Nat)) : (c.countCycle lo k evs).fences = c.fences := fences_of_only (countCycle_only c lo k evs)
@[simp] theorem countCycle_dec (c : Chip) (lo k : Nat) (evs : List (Nat × Nat)) : (c.countCycle lo k evs).dec = c.dec := dec_of_only (countCycle_only c lo k evs)
@[simp] theorem countCycle_seam (c : Chip) (lo k : Nat) (evs : List (Nat × Nat)) : (c.countCycle lo k evs).seam = c.seam := seam_of_only (countCycle_only c lo k evs)
@[simp] theorem countCycle_bb (c : Chip) (lo k : Nat) (evs : List (Nat × Nat)) : (c.countCycle lo k evs).bb = c.bb := bb_of_only (countCycle_only c lo k evs)
@[simp] theorem countCycle_faults (c : Chip) (lo k : Nat) (evs : List (Nat × Nat)) : (c.countCycle lo k evs).faults = c.faults := faults_of_only (countCycle_only c lo k evs)
@[simp] theorem countCycle_faultSeq (c : Chip) (lo k : Nat) (evs : List (Nat × Nat)) : (c.countCycle lo k evs).faultSeq = c.faultSeq := faultSeq_of_only (countCycle_only c lo k evs)
@[simp] theorem countCycle_svc (c : Chip) (lo k : Nat) (evs : List (Nat × Nat)) : (c.countCycle lo k evs).svc = c.svc := svc_of_only (countCycle_only c lo k evs)
@[simp] theorem countCycle_hv (c : Chip) (lo k : Nat) (evs : List (Nat × Nat)) : (c.countCycle lo k evs).hv = c.hv := hv_of_only (countCycle_only c lo k evs)

@[simp] theorem cntNeedle_dwaitIn (c : Chip) (nd ev n : Nat) : (c.cntNeedle nd ev n).dwaitIn = c.dwaitIn := dwaitIn_of_only (cntNeedle_only c nd ev n)
@[simp] theorem cntNeedle_free (c : Chip) (nd ev n : Nat) : (c.cntNeedle nd ev n).free = c.free := free_of_only (cntNeedle_only c nd ev n)
@[simp] theorem cntNeedle_xid (c : Chip) (nd ev n : Nat) : (c.cntNeedle nd ev n).xid = c.xid := xid_of_only (cntNeedle_only c nd ev n)
@[simp] theorem cntNeedle_pwr (c : Chip) (nd ev n : Nat) : (c.cntNeedle nd ev n).pwr = c.pwr := pwr_of_only (cntNeedle_only c nd ev n)
@[simp] theorem cntNeedle_cpRsp (c : Chip) (nd ev n : Nat) : (c.cntNeedle nd ev n).cpRsp = c.cpRsp := cpRsp_of_only (cntNeedle_only c nd ev n)
@[simp] theorem cntNeedle_tb (c : Chip) (nd ev n : Nat) : (c.cntNeedle nd ev n).tb = c.tb := tb_of_only (cntNeedle_only c nd ev n)
@[simp] theorem cntNeedle_ingest (c : Chip) (nd ev n : Nat) : (c.cntNeedle nd ev n).ingest = c.ingest := ingest_of_only (cntNeedle_only c nd ev n)
@[simp] theorem cntNeedle_spools (c : Chip) (nd ev n : Nat) : (c.cntNeedle nd ev n).spools = c.spools := spools_of_only (cntNeedle_only c nd ev n)
@[simp] theorem cntNeedle_lanes (c : Chip) (nd ev n : Nat) : (c.cntNeedle nd ev n).lanes = c.lanes := lanes_of_only (cntNeedle_only c nd ev n)
@[simp] theorem cntNeedle_eccCe (c : Chip) (nd ev n : Nat) : (c.cntNeedle nd ev n).eccCe = c.eccCe := eccCe_of_only (cntNeedle_only c nd ev n)
@[simp] theorem cntNeedle_eccUe (c : Chip) (nd ev n : Nat) : (c.cntNeedle nd ev n).eccUe = c.eccUe := eccUe_of_only (cntNeedle_only c nd ev n)
@[simp] theorem cntNeedle_threads (c : Chip) (nd ev n : Nat) : (c.cntNeedle nd ev n).threads = c.threads := threads_of_only (cntNeedle_only c nd ev n)
@[simp] theorem cntNeedle_needles (c : Chip) (nd ev n : Nat) : (c.cntNeedle nd ev n).needles = c.needles := needles_of_only (cntNeedle_only c nd ev n)
@[simp] theorem cntNeedle_ports (c : Chip) (nd ev n : Nat) : (c.cntNeedle nd ev n).ports = c.ports := ports_of_only (cntNeedle_only c nd ev n)
@[simp] theorem cntNeedle_backlog (c : Chip) (nd ev n : Nat) : (c.cntNeedle nd ev n).backlog = c.backlog := backlog_of_only (cntNeedle_only c nd ev n)
@[simp] theorem cntNeedle_reqn (c : Chip) (nd ev n : Nat) : (c.cntNeedle nd ev n).reqn = c.reqn := reqn_of_only (cntNeedle_only c nd ev n)
@[simp] theorem cntNeedle_locks (c : Chip) (nd ev n : Nat) : (c.cntNeedle nd ev n).locks = c.locks := locks_of_only (cntNeedle_only c nd ev n)
@[simp] theorem cntNeedle_fences (c : Chip) (nd ev n : Nat) : (c.cntNeedle nd ev n).fences = c.fences := fences_of_only (cntNeedle_only c nd ev n)
@[simp] theorem cntNeedle_dec (c : Chip) (nd ev n : Nat) : (c.cntNeedle nd ev n).dec = c.dec := dec_of_only (cntNeedle_only c nd ev n)
@[simp] theorem cntNeedle_seam (c : Chip) (nd ev n : Nat) : (c.cntNeedle nd ev n).seam = c.seam := seam_of_only (cntNeedle_only c nd ev n)
@[simp] theorem cntNeedle_bb (c : Chip) (nd ev n : Nat) : (c.cntNeedle nd ev n).bb = c.bb := bb_of_only (cntNeedle_only c nd ev n)
@[simp] theorem cntNeedle_faults (c : Chip) (nd ev n : Nat) : (c.cntNeedle nd ev n).faults = c.faults := faults_of_only (cntNeedle_only c nd ev n)
@[simp] theorem cntNeedle_faultSeq (c : Chip) (nd ev n : Nat) : (c.cntNeedle nd ev n).faultSeq = c.faultSeq := faultSeq_of_only (cntNeedle_only c nd ev n)
@[simp] theorem cntNeedle_svc (c : Chip) (nd ev n : Nat) : (c.cntNeedle nd ev n).svc = c.svc := svc_of_only (cntNeedle_only c nd ev n)
@[simp] theorem cntNeedle_hv (c : Chip) (nd ev n : Nat) : (c.cntNeedle nd ev n).hv = c.hv := hv_of_only (cntNeedle_only c nd ev n)

@[simp] theorem cntMesh_dwaitIn (c : Chip) (p ev n : Nat) : (c.cntMesh p ev n).dwaitIn = c.dwaitIn := dwaitIn_of_only (countOn_only c _ _ _ _ _)
@[simp] theorem cntMesh_free (c : Chip) (p ev n : Nat) : (c.cntMesh p ev n).free = c.free := free_of_only (countOn_only c _ _ _ _ _)
@[simp] theorem cntMesh_xid (c : Chip) (p ev n : Nat) : (c.cntMesh p ev n).xid = c.xid := xid_of_only (countOn_only c _ _ _ _ _)
@[simp] theorem cntMesh_pwr (c : Chip) (p ev n : Nat) : (c.cntMesh p ev n).pwr = c.pwr := pwr_of_only (countOn_only c _ _ _ _ _)
@[simp] theorem cntMesh_cpRsp (c : Chip) (p ev n : Nat) : (c.cntMesh p ev n).cpRsp = c.cpRsp := cpRsp_of_only (countOn_only c _ _ _ _ _)
@[simp] theorem cntMesh_tb (c : Chip) (p ev n : Nat) : (c.cntMesh p ev n).tb = c.tb := tb_of_only (countOn_only c _ _ _ _ _)
@[simp] theorem cntMesh_ingest (c : Chip) (p ev n : Nat) : (c.cntMesh p ev n).ingest = c.ingest := ingest_of_only (countOn_only c _ _ _ _ _)
@[simp] theorem cntMesh_spools (c : Chip) (p ev n : Nat) : (c.cntMesh p ev n).spools = c.spools := spools_of_only (countOn_only c _ _ _ _ _)
@[simp] theorem cntMesh_lanes (c : Chip) (p ev n : Nat) : (c.cntMesh p ev n).lanes = c.lanes := lanes_of_only (countOn_only c _ _ _ _ _)
@[simp] theorem cntMesh_eccCe (c : Chip) (p ev n : Nat) : (c.cntMesh p ev n).eccCe = c.eccCe := eccCe_of_only (countOn_only c _ _ _ _ _)
@[simp] theorem cntMesh_eccUe (c : Chip) (p ev n : Nat) : (c.cntMesh p ev n).eccUe = c.eccUe := eccUe_of_only (countOn_only c _ _ _ _ _)
@[simp] theorem cntMesh_threads (c : Chip) (p ev n : Nat) : (c.cntMesh p ev n).threads = c.threads := threads_of_only (countOn_only c _ _ _ _ _)
@[simp] theorem cntMesh_needles (c : Chip) (p ev n : Nat) : (c.cntMesh p ev n).needles = c.needles := needles_of_only (countOn_only c _ _ _ _ _)
@[simp] theorem cntMesh_ports (c : Chip) (p ev n : Nat) : (c.cntMesh p ev n).ports = c.ports := ports_of_only (countOn_only c _ _ _ _ _)
@[simp] theorem cntMesh_backlog (c : Chip) (p ev n : Nat) : (c.cntMesh p ev n).backlog = c.backlog := backlog_of_only (countOn_only c _ _ _ _ _)
@[simp] theorem cntMesh_reqn (c : Chip) (p ev n : Nat) : (c.cntMesh p ev n).reqn = c.reqn := reqn_of_only (countOn_only c _ _ _ _ _)
@[simp] theorem cntMesh_locks (c : Chip) (p ev n : Nat) : (c.cntMesh p ev n).locks = c.locks := locks_of_only (countOn_only c _ _ _ _ _)
@[simp] theorem cntMesh_fences (c : Chip) (p ev n : Nat) : (c.cntMesh p ev n).fences = c.fences := fences_of_only (countOn_only c _ _ _ _ _)
@[simp] theorem cntMesh_dec (c : Chip) (p ev n : Nat) : (c.cntMesh p ev n).dec = c.dec := dec_of_only (countOn_only c _ _ _ _ _)
@[simp] theorem cntMesh_seam (c : Chip) (p ev n : Nat) : (c.cntMesh p ev n).seam = c.seam := seam_of_only (countOn_only c _ _ _ _ _)
@[simp] theorem cntMesh_bb (c : Chip) (p ev n : Nat) : (c.cntMesh p ev n).bb = c.bb := bb_of_only (countOn_only c _ _ _ _ _)
@[simp] theorem cntMesh_faults (c : Chip) (p ev n : Nat) : (c.cntMesh p ev n).faults = c.faults := faults_of_only (countOn_only c _ _ _ _ _)
@[simp] theorem cntMesh_faultSeq (c : Chip) (p ev n : Nat) : (c.cntMesh p ev n).faultSeq = c.faultSeq := faultSeq_of_only (countOn_only c _ _ _ _ _)
@[simp] theorem cntMesh_svc (c : Chip) (p ev n : Nat) : (c.cntMesh p ev n).svc = c.svc := svc_of_only (countOn_only c _ _ _ _ _)
@[simp] theorem cntMesh_hv (c : Chip) (p ev n : Nat) : (c.cntMesh p ev n).hv = c.hv := hv_of_only (countOn_only c _ _ _ _ _)

@[simp] theorem cntIngest_dwaitIn (c : Chip) (p ev n : Nat) : (c.cntIngest p ev n).dwaitIn = c.dwaitIn := dwaitIn_of_only (countOn_only c _ _ _ _ _)
@[simp] theorem cntIngest_free (c : Chip) (p ev n : Nat) : (c.cntIngest p ev n).free = c.free := free_of_only (countOn_only c _ _ _ _ _)
@[simp] theorem cntIngest_xid (c : Chip) (p ev n : Nat) : (c.cntIngest p ev n).xid = c.xid := xid_of_only (countOn_only c _ _ _ _ _)
@[simp] theorem cntIngest_pwr (c : Chip) (p ev n : Nat) : (c.cntIngest p ev n).pwr = c.pwr := pwr_of_only (countOn_only c _ _ _ _ _)
@[simp] theorem cntIngest_cpRsp (c : Chip) (p ev n : Nat) : (c.cntIngest p ev n).cpRsp = c.cpRsp := cpRsp_of_only (countOn_only c _ _ _ _ _)
@[simp] theorem cntIngest_tb (c : Chip) (p ev n : Nat) : (c.cntIngest p ev n).tb = c.tb := tb_of_only (countOn_only c _ _ _ _ _)
@[simp] theorem cntIngest_ingest (c : Chip) (p ev n : Nat) : (c.cntIngest p ev n).ingest = c.ingest := ingest_of_only (countOn_only c _ _ _ _ _)
@[simp] theorem cntIngest_spools (c : Chip) (p ev n : Nat) : (c.cntIngest p ev n).spools = c.spools := spools_of_only (countOn_only c _ _ _ _ _)
@[simp] theorem cntIngest_lanes (c : Chip) (p ev n : Nat) : (c.cntIngest p ev n).lanes = c.lanes := lanes_of_only (countOn_only c _ _ _ _ _)
@[simp] theorem cntIngest_eccCe (c : Chip) (p ev n : Nat) : (c.cntIngest p ev n).eccCe = c.eccCe := eccCe_of_only (countOn_only c _ _ _ _ _)
@[simp] theorem cntIngest_eccUe (c : Chip) (p ev n : Nat) : (c.cntIngest p ev n).eccUe = c.eccUe := eccUe_of_only (countOn_only c _ _ _ _ _)
@[simp] theorem cntIngest_threads (c : Chip) (p ev n : Nat) : (c.cntIngest p ev n).threads = c.threads := threads_of_only (countOn_only c _ _ _ _ _)
@[simp] theorem cntIngest_needles (c : Chip) (p ev n : Nat) : (c.cntIngest p ev n).needles = c.needles := needles_of_only (countOn_only c _ _ _ _ _)
@[simp] theorem cntIngest_ports (c : Chip) (p ev n : Nat) : (c.cntIngest p ev n).ports = c.ports := ports_of_only (countOn_only c _ _ _ _ _)
@[simp] theorem cntIngest_backlog (c : Chip) (p ev n : Nat) : (c.cntIngest p ev n).backlog = c.backlog := backlog_of_only (countOn_only c _ _ _ _ _)
@[simp] theorem cntIngest_reqn (c : Chip) (p ev n : Nat) : (c.cntIngest p ev n).reqn = c.reqn := reqn_of_only (countOn_only c _ _ _ _ _)
@[simp] theorem cntIngest_locks (c : Chip) (p ev n : Nat) : (c.cntIngest p ev n).locks = c.locks := locks_of_only (countOn_only c _ _ _ _ _)
@[simp] theorem cntIngest_fences (c : Chip) (p ev n : Nat) : (c.cntIngest p ev n).fences = c.fences := fences_of_only (countOn_only c _ _ _ _ _)
@[simp] theorem cntIngest_dec (c : Chip) (p ev n : Nat) : (c.cntIngest p ev n).dec = c.dec := dec_of_only (countOn_only c _ _ _ _ _)
@[simp] theorem cntIngest_seam (c : Chip) (p ev n : Nat) : (c.cntIngest p ev n).seam = c.seam := seam_of_only (countOn_only c _ _ _ _ _)
@[simp] theorem cntIngest_bb (c : Chip) (p ev n : Nat) : (c.cntIngest p ev n).bb = c.bb := bb_of_only (countOn_only c _ _ _ _ _)
@[simp] theorem cntIngest_faults (c : Chip) (p ev n : Nat) : (c.cntIngest p ev n).faults = c.faults := faults_of_only (countOn_only c _ _ _ _ _)
@[simp] theorem cntIngest_faultSeq (c : Chip) (p ev n : Nat) : (c.cntIngest p ev n).faultSeq = c.faultSeq := faultSeq_of_only (countOn_only c _ _ _ _ _)
@[simp] theorem cntIngest_svc (c : Chip) (p ev n : Nat) : (c.cntIngest p ev n).svc = c.svc := svc_of_only (countOn_only c _ _ _ _ _)
@[simp] theorem cntIngest_hv (c : Chip) (p ev n : Nat) : (c.cntIngest p ev n).hv = c.hv := hv_of_only (countOn_only c _ _ _ _ _)

@[simp] theorem cntSpool_dwaitIn (c : Chip) (m ev n : Nat) : (c.cntSpool m ev n).dwaitIn = c.dwaitIn := dwaitIn_of_only (countOn_only c _ _ _ _ _)
@[simp] theorem cntSpool_free (c : Chip) (m ev n : Nat) : (c.cntSpool m ev n).free = c.free := free_of_only (countOn_only c _ _ _ _ _)
@[simp] theorem cntSpool_xid (c : Chip) (m ev n : Nat) : (c.cntSpool m ev n).xid = c.xid := xid_of_only (countOn_only c _ _ _ _ _)
@[simp] theorem cntSpool_pwr (c : Chip) (m ev n : Nat) : (c.cntSpool m ev n).pwr = c.pwr := pwr_of_only (countOn_only c _ _ _ _ _)
@[simp] theorem cntSpool_cpRsp (c : Chip) (m ev n : Nat) : (c.cntSpool m ev n).cpRsp = c.cpRsp := cpRsp_of_only (countOn_only c _ _ _ _ _)
@[simp] theorem cntSpool_tb (c : Chip) (m ev n : Nat) : (c.cntSpool m ev n).tb = c.tb := tb_of_only (countOn_only c _ _ _ _ _)
@[simp] theorem cntSpool_ingest (c : Chip) (m ev n : Nat) : (c.cntSpool m ev n).ingest = c.ingest := ingest_of_only (countOn_only c _ _ _ _ _)
@[simp] theorem cntSpool_spools (c : Chip) (m ev n : Nat) : (c.cntSpool m ev n).spools = c.spools := spools_of_only (countOn_only c _ _ _ _ _)
@[simp] theorem cntSpool_lanes (c : Chip) (m ev n : Nat) : (c.cntSpool m ev n).lanes = c.lanes := lanes_of_only (countOn_only c _ _ _ _ _)
@[simp] theorem cntSpool_eccCe (c : Chip) (m ev n : Nat) : (c.cntSpool m ev n).eccCe = c.eccCe := eccCe_of_only (countOn_only c _ _ _ _ _)
@[simp] theorem cntSpool_eccUe (c : Chip) (m ev n : Nat) : (c.cntSpool m ev n).eccUe = c.eccUe := eccUe_of_only (countOn_only c _ _ _ _ _)
@[simp] theorem cntSpool_threads (c : Chip) (m ev n : Nat) : (c.cntSpool m ev n).threads = c.threads := threads_of_only (countOn_only c _ _ _ _ _)
@[simp] theorem cntSpool_needles (c : Chip) (m ev n : Nat) : (c.cntSpool m ev n).needles = c.needles := needles_of_only (countOn_only c _ _ _ _ _)
@[simp] theorem cntSpool_ports (c : Chip) (m ev n : Nat) : (c.cntSpool m ev n).ports = c.ports := ports_of_only (countOn_only c _ _ _ _ _)
@[simp] theorem cntSpool_backlog (c : Chip) (m ev n : Nat) : (c.cntSpool m ev n).backlog = c.backlog := backlog_of_only (countOn_only c _ _ _ _ _)
@[simp] theorem cntSpool_reqn (c : Chip) (m ev n : Nat) : (c.cntSpool m ev n).reqn = c.reqn := reqn_of_only (countOn_only c _ _ _ _ _)
@[simp] theorem cntSpool_locks (c : Chip) (m ev n : Nat) : (c.cntSpool m ev n).locks = c.locks := locks_of_only (countOn_only c _ _ _ _ _)
@[simp] theorem cntSpool_fences (c : Chip) (m ev n : Nat) : (c.cntSpool m ev n).fences = c.fences := fences_of_only (countOn_only c _ _ _ _ _)
@[simp] theorem cntSpool_dec (c : Chip) (m ev n : Nat) : (c.cntSpool m ev n).dec = c.dec := dec_of_only (countOn_only c _ _ _ _ _)
@[simp] theorem cntSpool_seam (c : Chip) (m ev n : Nat) : (c.cntSpool m ev n).seam = c.seam := seam_of_only (countOn_only c _ _ _ _ _)
@[simp] theorem cntSpool_bb (c : Chip) (m ev n : Nat) : (c.cntSpool m ev n).bb = c.bb := bb_of_only (countOn_only c _ _ _ _ _)
@[simp] theorem cntSpool_faults (c : Chip) (m ev n : Nat) : (c.cntSpool m ev n).faults = c.faults := faults_of_only (countOn_only c _ _ _ _ _)
@[simp] theorem cntSpool_faultSeq (c : Chip) (m ev n : Nat) : (c.cntSpool m ev n).faultSeq = c.faultSeq := faultSeq_of_only (countOn_only c _ _ _ _ _)
@[simp] theorem cntSpool_svc (c : Chip) (m ev n : Nat) : (c.cntSpool m ev n).svc = c.svc := svc_of_only (countOn_only c _ _ _ _ _)
@[simp] theorem cntSpool_hv (c : Chip) (m ev n : Nat) : (c.cntSpool m ev n).hv = c.hv := hv_of_only (countOn_only c _ _ _ _ _)

@[simp] theorem cntSeam_dwaitIn (c : Chip) (ev n : Nat) : (c.cntSeam ev n).dwaitIn = c.dwaitIn := dwaitIn_of_only (cntSeam_only c ev n)
@[simp] theorem cntSeam_free (c : Chip) (ev n : Nat) : (c.cntSeam ev n).free = c.free := free_of_only (cntSeam_only c ev n)
@[simp] theorem cntSeam_xid (c : Chip) (ev n : Nat) : (c.cntSeam ev n).xid = c.xid := xid_of_only (cntSeam_only c ev n)
@[simp] theorem cntSeam_pwr (c : Chip) (ev n : Nat) : (c.cntSeam ev n).pwr = c.pwr := pwr_of_only (cntSeam_only c ev n)
@[simp] theorem cntSeam_cpRsp (c : Chip) (ev n : Nat) : (c.cntSeam ev n).cpRsp = c.cpRsp := cpRsp_of_only (cntSeam_only c ev n)
@[simp] theorem cntSeam_tb (c : Chip) (ev n : Nat) : (c.cntSeam ev n).tb = c.tb := tb_of_only (cntSeam_only c ev n)
@[simp] theorem cntSeam_ingest (c : Chip) (ev n : Nat) : (c.cntSeam ev n).ingest = c.ingest := ingest_of_only (cntSeam_only c ev n)
@[simp] theorem cntSeam_spools (c : Chip) (ev n : Nat) : (c.cntSeam ev n).spools = c.spools := spools_of_only (cntSeam_only c ev n)
@[simp] theorem cntSeam_lanes (c : Chip) (ev n : Nat) : (c.cntSeam ev n).lanes = c.lanes := lanes_of_only (cntSeam_only c ev n)
@[simp] theorem cntSeam_eccCe (c : Chip) (ev n : Nat) : (c.cntSeam ev n).eccCe = c.eccCe := eccCe_of_only (cntSeam_only c ev n)
@[simp] theorem cntSeam_eccUe (c : Chip) (ev n : Nat) : (c.cntSeam ev n).eccUe = c.eccUe := eccUe_of_only (cntSeam_only c ev n)
@[simp] theorem cntSeam_threads (c : Chip) (ev n : Nat) : (c.cntSeam ev n).threads = c.threads := threads_of_only (cntSeam_only c ev n)
@[simp] theorem cntSeam_needles (c : Chip) (ev n : Nat) : (c.cntSeam ev n).needles = c.needles := needles_of_only (cntSeam_only c ev n)
@[simp] theorem cntSeam_ports (c : Chip) (ev n : Nat) : (c.cntSeam ev n).ports = c.ports := ports_of_only (cntSeam_only c ev n)
@[simp] theorem cntSeam_backlog (c : Chip) (ev n : Nat) : (c.cntSeam ev n).backlog = c.backlog := backlog_of_only (cntSeam_only c ev n)
@[simp] theorem cntSeam_reqn (c : Chip) (ev n : Nat) : (c.cntSeam ev n).reqn = c.reqn := reqn_of_only (cntSeam_only c ev n)
@[simp] theorem cntSeam_locks (c : Chip) (ev n : Nat) : (c.cntSeam ev n).locks = c.locks := locks_of_only (cntSeam_only c ev n)
@[simp] theorem cntSeam_fences (c : Chip) (ev n : Nat) : (c.cntSeam ev n).fences = c.fences := fences_of_only (cntSeam_only c ev n)
@[simp] theorem cntSeam_dec (c : Chip) (ev n : Nat) : (c.cntSeam ev n).dec = c.dec := dec_of_only (cntSeam_only c ev n)
@[simp] theorem cntSeam_seam (c : Chip) (ev n : Nat) : (c.cntSeam ev n).seam = c.seam := seam_of_only (cntSeam_only c ev n)
@[simp] theorem cntSeam_bb (c : Chip) (ev n : Nat) : (c.cntSeam ev n).bb = c.bb := bb_of_only (cntSeam_only c ev n)
@[simp] theorem cntSeam_faults (c : Chip) (ev n : Nat) : (c.cntSeam ev n).faults = c.faults := faults_of_only (cntSeam_only c ev n)
@[simp] theorem cntSeam_faultSeq (c : Chip) (ev n : Nat) : (c.cntSeam ev n).faultSeq = c.faultSeq := faultSeq_of_only (cntSeam_only c ev n)
@[simp] theorem cntSeam_svc (c : Chip) (ev n : Nat) : (c.cntSeam ev n).svc = c.svc := svc_of_only (cntSeam_only c ev n)
@[simp] theorem cntSeam_hv (c : Chip) (ev n : Nat) : (c.cntSeam ev n).hv = c.hv := hv_of_only (cntSeam_only c ev n)

@[simp] theorem cntStore_dwaitIn (c : Chip) (ev n : Nat) : (c.cntStore ev n).dwaitIn = c.dwaitIn := dwaitIn_of_only (countOn_only c _ _ _ _ _)
@[simp] theorem cntStore_free (c : Chip) (ev n : Nat) : (c.cntStore ev n).free = c.free := free_of_only (countOn_only c _ _ _ _ _)
@[simp] theorem cntStore_xid (c : Chip) (ev n : Nat) : (c.cntStore ev n).xid = c.xid := xid_of_only (countOn_only c _ _ _ _ _)
@[simp] theorem cntStore_pwr (c : Chip) (ev n : Nat) : (c.cntStore ev n).pwr = c.pwr := pwr_of_only (countOn_only c _ _ _ _ _)
@[simp] theorem cntStore_cpRsp (c : Chip) (ev n : Nat) : (c.cntStore ev n).cpRsp = c.cpRsp := cpRsp_of_only (countOn_only c _ _ _ _ _)
@[simp] theorem cntStore_tb (c : Chip) (ev n : Nat) : (c.cntStore ev n).tb = c.tb := tb_of_only (countOn_only c _ _ _ _ _)
@[simp] theorem cntStore_ingest (c : Chip) (ev n : Nat) : (c.cntStore ev n).ingest = c.ingest := ingest_of_only (countOn_only c _ _ _ _ _)
@[simp] theorem cntStore_spools (c : Chip) (ev n : Nat) : (c.cntStore ev n).spools = c.spools := spools_of_only (countOn_only c _ _ _ _ _)
@[simp] theorem cntStore_lanes (c : Chip) (ev n : Nat) : (c.cntStore ev n).lanes = c.lanes := lanes_of_only (countOn_only c _ _ _ _ _)
@[simp] theorem cntStore_eccCe (c : Chip) (ev n : Nat) : (c.cntStore ev n).eccCe = c.eccCe := eccCe_of_only (countOn_only c _ _ _ _ _)
@[simp] theorem cntStore_eccUe (c : Chip) (ev n : Nat) : (c.cntStore ev n).eccUe = c.eccUe := eccUe_of_only (countOn_only c _ _ _ _ _)
@[simp] theorem cntStore_threads (c : Chip) (ev n : Nat) : (c.cntStore ev n).threads = c.threads := threads_of_only (countOn_only c _ _ _ _ _)
@[simp] theorem cntStore_needles (c : Chip) (ev n : Nat) : (c.cntStore ev n).needles = c.needles := needles_of_only (countOn_only c _ _ _ _ _)
@[simp] theorem cntStore_ports (c : Chip) (ev n : Nat) : (c.cntStore ev n).ports = c.ports := ports_of_only (countOn_only c _ _ _ _ _)
@[simp] theorem cntStore_backlog (c : Chip) (ev n : Nat) : (c.cntStore ev n).backlog = c.backlog := backlog_of_only (countOn_only c _ _ _ _ _)
@[simp] theorem cntStore_reqn (c : Chip) (ev n : Nat) : (c.cntStore ev n).reqn = c.reqn := reqn_of_only (countOn_only c _ _ _ _ _)
@[simp] theorem cntStore_locks (c : Chip) (ev n : Nat) : (c.cntStore ev n).locks = c.locks := locks_of_only (countOn_only c _ _ _ _ _)
@[simp] theorem cntStore_fences (c : Chip) (ev n : Nat) : (c.cntStore ev n).fences = c.fences := fences_of_only (countOn_only c _ _ _ _ _)
@[simp] theorem cntStore_dec (c : Chip) (ev n : Nat) : (c.cntStore ev n).dec = c.dec := dec_of_only (countOn_only c _ _ _ _ _)
@[simp] theorem cntStore_seam (c : Chip) (ev n : Nat) : (c.cntStore ev n).seam = c.seam := seam_of_only (countOn_only c _ _ _ _ _)
@[simp] theorem cntStore_bb (c : Chip) (ev n : Nat) : (c.cntStore ev n).bb = c.bb := bb_of_only (countOn_only c _ _ _ _ _)
@[simp] theorem cntStore_faults (c : Chip) (ev n : Nat) : (c.cntStore ev n).faults = c.faults := faults_of_only (countOn_only c _ _ _ _ _)
@[simp] theorem cntStore_faultSeq (c : Chip) (ev n : Nat) : (c.cntStore ev n).faultSeq = c.faultSeq := faultSeq_of_only (countOn_only c _ _ _ _ _)
@[simp] theorem cntStore_svc (c : Chip) (ev n : Nat) : (c.cntStore ev n).svc = c.svc := svc_of_only (countOn_only c _ _ _ _ _)
@[simp] theorem cntStore_hv (c : Chip) (ev n : Nat) : (c.cntStore ev n).hv = c.hv := hv_of_only (countOn_only c _ _ _ _ _)

/-! The black box (R303) -/

/-- An event changes the black box, its DROP count and the free counter alone. -/
theorem bbEvent_only (c : Chip) (ty : Nat) (p0 p1 : Word) :
    c.bbEvent ty p0 p1 =
      { c with regs := (c.bbEvent ty p0 p1).regs, free := (c.bbEvent ty p0 p1).free, bb := (c.bbEvent ty p0 p1).bb } := by
  generalize h : c.bbEvent ty p0 p1 = d
  unfold bbEvent at h
  split at h
  · rw [← h]
  · split at h
    · rw [← h]
    · split at h <;> rw [← h] <;> rfl

/-- An event leaves every register but DXW_BB_STAT alone. -/
theorem rd_bbEvent (c : Chip) (ty : Nat) (p0 p1 : Word) {r : Reg} (hr : r.offset ≠ Reg.bbStat.offset) :
    (c.bbEvent ty p0 p1).rd r = c.rd r := by
  unfold bbEvent
  split
  · rfl
  · split
    · rfl
    · split
      · exact rd_tally_other c hr _ _
      · rfl

@[simp] theorem bbEvent_dwaitIn (c : Chip) (ty : Nat) (p0 p1 : Word) : (c.bbEvent ty p0 p1).dwaitIn = c.dwaitIn := by rw [bbEvent_only]
@[simp] theorem bbEvent_xid (c : Chip) (ty : Nat) (p0 p1 : Word) : (c.bbEvent ty p0 p1).xid = c.xid := by rw [bbEvent_only]
@[simp] theorem bbEvent_pwr (c : Chip) (ty : Nat) (p0 p1 : Word) : (c.bbEvent ty p0 p1).pwr = c.pwr := by rw [bbEvent_only]
@[simp] theorem bbEvent_cpRsp (c : Chip) (ty : Nat) (p0 p1 : Word) : (c.bbEvent ty p0 p1).cpRsp = c.cpRsp := by rw [bbEvent_only]
@[simp] theorem bbEvent_tb (c : Chip) (ty : Nat) (p0 p1 : Word) : (c.bbEvent ty p0 p1).tb = c.tb := by rw [bbEvent_only]
@[simp] theorem bbEvent_ingest (c : Chip) (ty : Nat) (p0 p1 : Word) : (c.bbEvent ty p0 p1).ingest = c.ingest := by rw [bbEvent_only]
@[simp] theorem bbEvent_spools (c : Chip) (ty : Nat) (p0 p1 : Word) : (c.bbEvent ty p0 p1).spools = c.spools := by rw [bbEvent_only]
@[simp] theorem bbEvent_lanes (c : Chip) (ty : Nat) (p0 p1 : Word) : (c.bbEvent ty p0 p1).lanes = c.lanes := by rw [bbEvent_only]
@[simp] theorem bbEvent_eccCe (c : Chip) (ty : Nat) (p0 p1 : Word) : (c.bbEvent ty p0 p1).eccCe = c.eccCe := by rw [bbEvent_only]
@[simp] theorem bbEvent_eccUe (c : Chip) (ty : Nat) (p0 p1 : Word) : (c.bbEvent ty p0 p1).eccUe = c.eccUe := by rw [bbEvent_only]
@[simp] theorem bbEvent_threads (c : Chip) (ty : Nat) (p0 p1 : Word) : (c.bbEvent ty p0 p1).threads = c.threads := by rw [bbEvent_only]
@[simp] theorem bbEvent_needles (c : Chip) (ty : Nat) (p0 p1 : Word) : (c.bbEvent ty p0 p1).needles = c.needles := by rw [bbEvent_only]
@[simp] theorem bbEvent_ports (c : Chip) (ty : Nat) (p0 p1 : Word) : (c.bbEvent ty p0 p1).ports = c.ports := by rw [bbEvent_only]
@[simp] theorem bbEvent_backlog (c : Chip) (ty : Nat) (p0 p1 : Word) : (c.bbEvent ty p0 p1).backlog = c.backlog := by rw [bbEvent_only]
@[simp] theorem bbEvent_reqn (c : Chip) (ty : Nat) (p0 p1 : Word) : (c.bbEvent ty p0 p1).reqn = c.reqn := by rw [bbEvent_only]
@[simp] theorem bbEvent_locks (c : Chip) (ty : Nat) (p0 p1 : Word) : (c.bbEvent ty p0 p1).locks = c.locks := by rw [bbEvent_only]
@[simp] theorem bbEvent_fences (c : Chip) (ty : Nat) (p0 p1 : Word) : (c.bbEvent ty p0 p1).fences = c.fences := by rw [bbEvent_only]
@[simp] theorem bbEvent_dec (c : Chip) (ty : Nat) (p0 p1 : Word) : (c.bbEvent ty p0 p1).dec = c.dec := by rw [bbEvent_only]
@[simp] theorem bbEvent_seam (c : Chip) (ty : Nat) (p0 p1 : Word) : (c.bbEvent ty p0 p1).seam = c.seam := by rw [bbEvent_only]
@[simp] theorem bbEvent_faults (c : Chip) (ty : Nat) (p0 p1 : Word) : (c.bbEvent ty p0 p1).faults = c.faults := by rw [bbEvent_only]
@[simp] theorem bbEvent_faultSeq (c : Chip) (ty : Nat) (p0 p1 : Word) : (c.bbEvent ty p0 p1).faultSeq = c.faultSeq := by rw [bbEvent_only]
@[simp] theorem bbEvent_svc (c : Chip) (ty : Nat) (p0 p1 : Word) : (c.bbEvent ty p0 p1).svc = c.svc := by rw [bbEvent_only]
@[simp] theorem bbEvent_hv (c : Chip) (ty : Nat) (p0 p1 : Word) : (c.bbEvent ty p0 p1).hv = c.hv := by rw [bbEvent_only]

end Chip

end Sys2Proof.Machine
end

