-- ==== Sys2Proof/Laws/Memory.lean ====
section
/-! SUPPORT. The laws of the memories: a read after a write, every other byte, and the canonical form. -/

namespace Sys2Proof.Machine

/-- A byte of memory. -/
abbrev memByte (m : List Host.Cell) (a : Nat) : BitVec 8 := Tab.get 0#8 m a

theorem memByte_memPut (m : List Host.Cell) (a x : Nat) (b : BitVec 8) :
    memByte (memPut m a b) x = if x = a then b else memByte m x := Tab.get_put 0#8 m a x b

theorem memWf_memPut {m : List Host.Cell} (h : memWf m = true) (a : Nat) (b : BitVec 8) :
    memWf (memPut m a b) = true := Tab.wf_put h a b

theorem memByte_memPutWord_fold (w : Word) (a x n : Nat) (m : List Host.Cell) :
    memByte ((List.range n).foldl (fun m k => memPut m (a + k) (byteOf w k)) m) x =
      if a ≤ x ∧ x < a + n then byteOf w (x - a) else memByte m x := by
  induction n with
  | zero => simp
  | succ n ih =>
    rw [List.range_succ, List.foldl_append]
    simp only [List.foldl_cons, List.foldl_nil]
    rw [memByte_memPut, ih]
    by_cases h : x = a + n
    · subst h; simp
    · rw [if_neg h]
      have : (a ≤ x ∧ x < a + n) ↔ (a ≤ x ∧ x < a + (n + 1)) := by omega
      simp only [this]

/-- What a byte of memory reads after a 64-bit word has been written. -/
theorem memByte_memPutWord (m : List Host.Cell) (a x : Nat) (w : Word) :
    memByte (memPutWord m a w) x = if a ≤ x ∧ x < a + 8 then byteOf w (x - a) else memByte m x :=
  memByte_memPutWord_fold w a x 8 m

/-- A word just written reads back. -/
theorem memWord_memPutWord (m : List Host.Cell) (a : Nat) (w : Word) : memWord (memPutWord m a w) a = w := by
  unfold memWord
  have : ((List.range 8).map fun k => Tab.get 0#8 (memPutWord m a w) (a + k)) = (List.range 8).map (byteOf w) := by
    apply List.map_congr_left
    intro k hk
    have hk := List.mem_range.mp hk
    have := memByte_memPutWord m a (a + k) w
    simp only [memByte] at this
    rw [this, if_pos (by omega)]
    congr 1; omega
  rw [this, wordOfBytes_byteOf]

/-- A word apart from the one written reads as before. -/
theorem memWord_memPutWord_other (m : List Host.Cell) {a x : Nat} (h : x + 8 ≤ a ∨ a + 8 ≤ x) (w : Word) :
    memWord (memPutWord m a w) x = memWord m x := by
  unfold memWord
  congr 1
  apply List.map_congr_left
  intro k hk
  have hk := List.mem_range.mp hk
  have := memByte_memPutWord m a (x + k) w
  simp only [memByte] at this
  rw [this, if_neg (by omega)]

theorem memWf_memPutWord {m : List Host.Cell} (h : memWf m = true) (a : Nat) (w : Word) :
    memWf (memPutWord m a w) = true := by
  have : ∀ n, memWf ((List.range n).foldl (fun m k => memPut m (a + k) (byteOf w k)) m) = true := by
    intro n
    induction n with
    | zero => simpa using h
    | succ n ih =>
      rw [List.range_succ, List.foldl_append]
      simpa using memWf_memPut ih _ _
  exact this 8

theorem memWf_memPutWords {m : List Host.Cell} (h : memWf m = true) (a : Nat) (ws : List Word) :
    memWf (memPutWords m a ws) = true := by
  induction ws generalizing m a with
  | nil => exact h
  | cons w ws ih => exact ih (memWf_memPutWord h a w) _

/-- Bytes outside the words written read as before. -/
theorem memByte_memPutWords_other (m : List Host.Cell) (ws : List Word) {a x : Nat}
    (h : x < a ∨ a + 8 * ws.length ≤ x) : memByte (memPutWords m a ws) x = memByte m x := by
  induction ws generalizing m a with
  | nil => rfl
  | cons w ws ih =>
    simp only [List.length_cons] at h
    simp only [memPutWords]
    rw [ih _ (by omega), memByte_memPutWord, if_neg (by omega)]

end Sys2Proof.Machine
end

