-- ==== Sys2Proof/Laws/Shared.lean ====
section
/-! SUPPORT. What shared operations of several commands can do, one lemma each. -/

namespace Sys2Proof.Machine

/-- A break point without a round does nothing, or ends the turn that a message has left (R230). -/
theorem Chip.endTurn_cases (c : Chip) (p : Nat) :
    c.endTurn p = c ∨ ((c.port p).msgTurn = true ∧ c.endTurn p = c.setPort p { c.port p with msgTurn := false }) := by
  by_cases h : (c.port p).msgTurn = true ∧ (c.port p).holder.isNone = true ∧
      (c.bit (.mpArb p) F.MpArb.FREEZE = true ∨ (c.arbPick p).isNone = true)
  · exact .inr ⟨h.1, if_pos h⟩
  · exact .inl (if_neg h)

/-- A message is still queued after `dropService` where it was queued and needs no service (R193, R239). -/
theorem Chip.mem_dropService (c : Chip) (m : SMsg) :
    m ∈ c.dropService.seam.tx ↔ m ∈ c.seam.tx ∧ needsService m.ty = false := by
  simp [Chip.dropService, Chip.mapSeam]

/-- The threads that an edge to n makes due are those in a WAITX whose target is at or before n, all at a wrap (R28, R35). -/
theorem Chip.mem_xingDue (c : Chip) (n : Nat) (w : Bool) (x : EdgeTask) :
    x ∈ c.xingDue n w ↔ ∃ t th, (t, th) ∈ c.threads ∧ th.st = .waiting ∧ th.kind = kXing ∧
      (w = true ∨ th.target ≤ n) ∧ x = .wake t th.target := by
  simp only [Chip.xingDue, List.mem_map, List.mem_filter, Bool.and_eq_true, Bool.or_eq_true, beq_iff_eq, decide_eq_true_eq]
  constructor
  · rintro ⟨⟨t, th⟩, ⟨h, ⟨a, b⟩, d⟩, rfl⟩
    exact ⟨t, th, h, a, b, d, rfl⟩
  · rintro ⟨t, th, h, a, b, d, rfl⟩
    exact ⟨(t, th), ⟨h, ⟨a, b⟩, d⟩, rfl⟩

/-- A task that wakes a thread does nothing where the thread no longer stands in the wait it was made for. -/
theorem Chip.doTask_wake_other (e : Env) (c : Chip) (t x : Nat)
    (h : (c.thr t).st ≠ .waiting ∨ (c.thr t).kind ≠ kXing ∨ (c.thr t).target ≠ x) : c.doTask e (.wake t x) = c := by
  have h' : ¬((c.thr t).st = .waiting ∧ (c.thr t).kind = kXing ∧ (c.thr t).target = x) := by tauto
  simp [Chip.doTask, h']

/-- A result is pending after an instruction where it was and the instruction does not need it, or where the instruction gives
it late (R102). -/
theorem mem_nextPend (l : List (Option Nat)) (i : WInstr) (r : Option Nat) :
    r ∈ nextPend l i ↔ (r ∈ l ∧ touches i r = false) ∨ r ∈ lateResults i := by
  simp [nextPend]

/-- With no result pending every instruction may issue. -/
theorem Chip.sparesResult_nil (c : Chip) (n k : Nat) (i : WInstr) : c.sparesResult n k [] i = true := rfl

/-- A SEAL spares every result: it reads and writes no register and no flag (R143). -/
theorem Chip.sparesResult_seal (c : Chip) (n k : Nat) (l : List (Option Nat)) : c.sparesResult n k l .seal = true := by
  have h : ∀ r, touches .seal r = false := by intro r; cases r <;> simp [touches, regsOf, usesFlags]
  simp [Chip.sparesResult, h]

/-- A REWIND that has waited and fails leaves the cursor from before it, where the record still holds that (R69). -/
theorem Thread.endRewind_fails (th : Thread) (code : Nat) (u : SavedCursor) (h : th.undo = some u) (hc : code ≠ 0) :
    (th.endRewind code).cursor = u := by
  simp [Thread.endRewind, Thread.cursor, hc, h, Thread.setReg, Thread.report]

/-- A REWIND that has waited and succeeds leaves the cursor that it has set. -/
theorem Thread.endRewind_ok (th : Thread) : (th.endRewind 0).cursor = th.cursor := by
  simp [Thread.endRewind, Thread.cursor, Thread.setReg, Thread.report]

/-- A record holds no cursor from before once the REWIND has ended. -/
@[simp] theorem Thread.endRewind_undo (th : Thread) (code : Nat) : (th.endRewind code).undo = none := rfl

/-- A gap-start edge counts the orbits that the counter has gone on by, or one; no other edge changes anything (R320). -/
theorem Chip.monPass_cases (c : Chip) (n : Nat) :
    c.monPass n = c ∨ (n % 4096 = c.olen - c.gap ∧
      ∃ j, 0 < j ∧ c.monPass n = c.setSvc { c.svc with monRun := c.svc.monRun + j, monGap := some (n / 4096) }) := by
  unfold Chip.monPass
  split
  · rename_i h
    refine .inr ⟨h.1, _, ?_, rfl⟩
    split <;> split <;> omega
  · exact .inl rfl

/-- BP_HOL is judged: the port's flag rises or nothing changes (R53). -/
theorem Chip.holCheck_cases (c : Chip) (n : Nat) :
    c.holCheck n = c ∨ (c.headBlocked n = true ∧ c.holCheck n = c.flag (.ipStat n) F.IpStat.BP_HOL) := by
  unfold Chip.holCheck
  split
  · rename_i h
    exact .inr ⟨h.2.2, rfl⟩
  · exact .inl rfl

/-- A thread that is certain to be able, and past its branch by the cycle in which another could issue, issues before that one
where its CLASS and its place in the round robin put it first (R88). -/
theorem Chip.issues_false_of_before (e : Env) (c : Chip) (n k j : Nat) (hj : j < 8) (hs : c.surelyAble e n j = true)
    (hb : c.goesBefore n j k = true) (hg : (c.gapOf n j).2 ≤ (c.gapOf n k).1) : c.issues e n k = false := by
  simp only [Chip.issues, Bool.and_eq_false_iff, List.all_eq_false, List.mem_range]
  exact .inr ⟨j, hj, by simp [hs, hb, hg]⟩

/-- The most that may still have to pass of another slot's branch falls by the cycles that an issue lets pass at least (R88). -/
theorem Chip.gapOf_passCycles (e : Env) (c : Chip) (n k j : Nat) (hj : j < 8) (h : j ≠ k) :
    ((c.passCycles e n k).gapOf n j).2 = (c.gapOf n j).2 - ((c.gapOf n k).1 + 1) := by
  simp [Chip.passCycles, Chip.gapOf, Tab.get_foldl_put, hj, h]

/-- The slot that issues has no branch behind it, unless it takes one (R88). -/
theorem Chip.gapOf_passCycles_self (e : Env) (c : Chip) (n k : Nat) (hk : k < 8) :
    (c.passCycles e n k).gapOf n k = (0, 0) := by
  simp [Chip.passCycles, Chip.gapOf, Tab.get_foldl_put, hk]

end Sys2Proof.Machine
end

