-- ==== Sys2Proof/Tests/Slice0.lean ====
section
/-! SUPPORT. Tests: ill-formed commands that the check refuses, words and values of the worked examples of spec/, and for
each statement with hypotheses a witness: concrete states and operands that meet them. -/

namespace Sys2Proof.Tests

open Sys2Proof.Machine

set_option Elab.async false

/-! Well-formedness: an ill-formed command for each check (R19, R21, R207, R117, R254) -/

theorem test_refuses_register_write : (Instr.registerWrite 0x000004 0).wellFormed = false := by decide
theorem test_refuses_window_write : (Instr.memoryWindowWrite 0x3FFFF8 0xFF 0).wellFormed = false := by decide
theorem test_refuses_window_read : (Instr.memoryWindowRead 0x400001).wellFormed = false := by decide
theorem test_refuses_read_response :
    (Instr.meshReadResponse 0 0 (List.replicate 17 (0, false)) 0).wellFormed = false := by decide
theorem test_refuses_lock : (Instr.lockLeaseEnd 1024).wellFormed = false := by decide
theorem test_refuses_bbrsp :
    (Instr.bbrsp { src := 0, dest := 0, bc := false, root := 0, seq := 0 } 0 0 1 0 false []).wellFormed = false := by
  decide
theorem test_accepts_last_lock : (Instr.lockLeaseEnd 0x80FF).wellFormed = true := by decide

/-! Words of the two programs in the worked examples of 05_worryn_core.md and 08_trigger_primitives.md, and words written
out from the tables of R97, R106, R113, R117 and R132 -/

theorem test_decode_control :
    WInstr.decode 0x1F20000000000031#64 = some (.hdr 2 0x31) ∧
    WInstr.decode 0x0800000000200000#64 = some (.waitx 0 0 0 0x200000) ∧
    WInstr.decode 0x0802000000000001#64 = some (.waitx 0 2 0 1) ∧
    WInstr.decode 0x0818800000000000#64 = some (.waitx 6 0 1 0) ∧
    WInstr.decode 0x0200000200000207#64 = some (.brcc 2 0x207) ∧
    WInstr.decode 0x0100000000000202#64 = some (.jmp 0 0 0x202) ∧
    WInstr.decode 0x0A01050000000000#64 = some (.waits 0 1 5) := by decide +kernel
theorem test_decode_alu :
    WInstr.decode 0x236900000000FFFF#64 = some (.alu .and 3 2 1 0 0xFFFF) ∧
    WInstr.decode 0x280D0000000000C8#64 = some (.alu .cmpi 0 3 1 0 200) ∧
    WInstr.decode 0x2191000000000001#64 = some (.alu .add 4 4 1 0 1) := by decide +kernel
theorem test_decode_spool :
    WInstr.decode 0x4340110100000000#64 = some (.peek 2 0 17 0 0 1) ∧
    WInstr.decode 0x4021050000000000#64 = some (.mark 1 0 1 5) ∧
    WInstr.decode 0x4144000000000000#64 = some (.rewind 2 1 0) ∧
    WInstr.decode 0x4244000000000000#64 = some (.release 2 1) := by decide +kernel
theorem test_decode_transfer :
    WInstr.decode 0x608A000000000002#64 =
      some (.move { wd := 4, ws := 2, mode := 2, spec := 0, rc := 0, wc := 0 } 2) ∧
    WInstr.decode 0x8440040FFFF0000F#64 =
      some (.reduce { wd := 2, ws := 0, mode := 0, spec := 0, rc := 0, wc := 0 } 2 0 0 0 0xFFFF 0 15) ∧
    WInstr.decode 0x844006BFFFF1000F#64 =
      some (.reduce { wd := 2, ws := 0, mode := 0, spec := 0, rc := 0, wc := 0 } 3 0 1 3 0xFFFF 1 15) := by decide +kernel
theorem test_decode_sync :
    WInstr.decode 0xA001000000000000#64 = some (.cross 0 0 1) ∧
    WInstr.decode 0xA280000000100005#64 = some (.lock 4 0 0 0 16 5) := by decide +kernel
/-- R98: an unassigned opcode, a bit shown as "—", a reserved MODE and a field that the MODE does not use. -/
theorem test_refuses_words :
    WInstr.decode 0xB000000000000000#64 = none ∧ WInstr.decode 0x0100000100000000#64 = none ∧
    WInstr.decode 0x0102000000000000#64 = none ∧ WInstr.decode 0x0104000000000202#64 = none := by decide +kernel

/-! Values of worked examples: crossings (02_orbit_timebase.md) and a fault entry (14_faults_and_black_box.md) -/

theorem test_decision_due : advance 3200 (0x1F3 * 4096 + 3190) 400 = 0x1F4 * 4096 + 390 := by decide
theorem test_post_deadline : advance 3200 (0x1F3 * 4096 + 3190) 16 = 0x1F4006 := by decide
theorem test_post_lag : dist 3200 (0x1F4 * 4096 + 9) (0x1F3 * 4096 + 3190) = 19 := by decide
theorem test_fault_entry :
    let c := Chip.reset.wr .otXing 0x1F385C#64
    let e := Chip.faultWords c 90001 2 0x41 { cause := 7, ndl := 12, pc := 0x312, av := true, dir := true,
                                              addr := 0x004100000400, detail := 0x13, dv := true, daddr := 0x004020000020 }
    e.e0 = 0x07E300000C495F91#64 ∧ e.e1 = 0x0002004100000400#64 ∧ e.e2 = 0x0013004020000020#64 ∧
    e.e3 = 0x1F385C0000000041#64 := by decide +kernel
/-- The geometry of the reference collider, written while RUN is OFF. -/
theorem test_geometry :
    (match exec (.otGeomWrite 0x18F00780C7F#64) { State.reset with chip := { Chip.reset with pwr :=
      { Power.start with phase := .running, wiping := false, spoolWiped := true } } } with
     | .next t => (t.chip.olen, t.chip.gap, t.chip.dlat)
     | _ => (0, 0, 0)) = (3200, 120, 400) := by decide +kernel

/-! Small states, each built from the state after reset by a few changes -/

def upPower : Power := { Power.start with phase := .running, wiping := false, spoolWiped := true }
def up : Chip := { Chip.reset with pwr := upPower }
def st (c : Chip) : State := { State.reset with chip := c }
def mk (f : Chip → Chip) : State := st (f up)
def phased (p : Phase) (c : Chip) : Chip := { c with pwr := { c.pwr with phase := p } }
/-- a beam clock that is present, and a timebase in alignment state a with RUN r -/
def clocked (a r : Nat) (c : Chip) : Chip :=
  let c : Chip := { c with tb := { c.tb with present := true, opening := false } }
  (c.setF .otAlign F.OtAlign.STATE a).setF .otCtl F.OtCtl.RUN r
def ringed (c : Chip) : Chip := c.setF .otCtl F.OtCtl.MODE 1
def atX (x : Nat) (c : Chip) : Chip := c.wr .otXing (BitVec.ofNat 64 x)
def free (c : Chip) : Chip := atX 20483 (clocked 1 1 c)
def agenda (l : List EdgeTask) (c : Chip) : Chip := { c with tb := { c.tb with agenda := l } }
def thread (s : TState) (kind arg : Nat) : Thread := { Thread.wiped with st := s, kind := kind, arg := arg, aff := 5 }
def put (t : Nat) (th : Thread) (c : Chip) : Chip := c.setThr t th
def needle (n : Nat) (c : Chip) : Chip :=
  ((c.setF (.ndlCtl n) F.NdlCtl.EN 1).setF (.ndlStat n) F.NdlStat.PWR 0).setF (.clkNpll (n / 32)) F.ClkNpll.LOCK 1
def waits9 (kind arg : Nat) (c : Chip) : Chip := put 9 (thread .waiting kind arg) (needle 5 c)
def entry : SetatEntry := { target := 20483, off := 0x810008, value := 77#64 }
def entryR : SetatEntry := { target := 20483, off := Reg.otLoad.offset, value := 77#64 }
def setats (l : List SetatEntry) (c : Chip) : Chip := { c with tb := { c.tb with setat := l } }
def lockHeld (l o e : Nat) (c : Chip) : Chip := c.setLock l { Lock.free with st := .held, owner := o, leaseEnd := e }
def decKnown (x : Nat) (s : DecState) (c : Chip) : Chip := c.setDec x { st := s, x := x, word := 0x90000000 }
def prot0 : Prot :=
  let p : Prot := { regs := [] }
  let p := p.wr (.winLimit 0) 0xFFFFFFF000#64
  let p := p.wr (.winAttr 0) 0x8000000000040207#64
  p.wr (.pdCfg 0) (fset (p.rd (.pdCfg 0)) F.PdCfg.VALID 1)
def mkP (f : Chip → Chip) : State := { mk f with prot := prot0 }
def beat : FWord := { spool := 6, stream := 2, sop := true, eop := false, tag := 9, poison := false, data := 5#256 }
def ingestOn (p e : Nat) (c : Chip) : Chip := ((c.setF (.ipCtl p) F.IpCtl.EN e).setF (.ipStat p) F.IpStat.CLK_OK 1).setF (.ipStat p) F.IpStat.QUAR 0
def fifo (p : Nat) (l : List FWord) (c : Chip) : Chip := c.setIp p { Ingest.empty with fifo := l }
def pkt (p : Nat) (x : Option (Nat × Option Nat)) (c : Chip) : Chip := c.setIp p { Ingest.empty with pkt := x }
def mapped (p s m v : Nat) (c : Chip) : Chip := (c.setF (.ipMap p s) F.IpMap.VALID v).setF (.ipMap p s) F.IpMap.SPOOL m
def spoolOn (m e : Nat) (c : Chip) : Chip := c.setF (.spCtl m) F.SpCtl.EN e
def marks (m : Nat) (l : List MarkEnt) (c : Chip) : Chip := c.setSpool m { Spool.empty with q := l, newest := (l.getLast?).map (·.pos) }
def held (k p : Nat) (s : MarkState) : MarkEnt := { slot := k, pos := p, st := s }
def wpAt (m p : Nat) (c : Chip) : Chip := c.setF (.spWp m) F.SpWp.POS p
def ctlW : Word := 0x8800000000000003#64
def descLine (ctl dest next status : Word) : Line := BitVec.ofNat 512 (ctl.toNat + dest.toNat * 2 ^ 64 + next.toNat * 2 ^ 128 + status.toNat * 2 ^ 192)
def drec : DRec := { desc := { addr := 0x1000, ctl := ctlW, dest := 0x8000#64, next := 0#64, status := 0#64 }, status := 0x8000000000000002#64, pend := 0, statusSent := false, own := 0 }
def service (c : Chip) : Chip := c.setF .seamStat F.SeamStat.RSTATE 5
def root (c : Chip) : Chip := c.setF .seamCfg F.SeamCfg.ROOT 1
def hd0 : SeamHead := { src := 3#12, dest := 0#12, bc := false, root := 0#4, seq := 7#7 }
def tmsg : SMsg := { ty := 80, h := hd0, data := [0#64], orig := .thread 9 }
def W (i : Nat) (v : Nat) (th : Thread) : Thread := th.setReg i (BitVec.ofNat 32 v)
def sl0 : Slot := { t := 9, fetching := false, live := { thread .running 0 0 with pc := 7 }, pend := [], sealing := none, dead := false, rot := 0, base := none, grp := none, act := none }
def code (i : WInstr) (s : State) : State := { s with mem := memPutWord s.mem (patternAt 7) i.encode }
/-- Slot 3 of needle 5 issues `i`, thread 9. -/
def issuing (i : WInstr) (f : Chip → Chip := id) (g : Slot → Slot := id) : State :=
  code i (mkP fun c =>
    let c := f (needle 5 (free c))
    let c := c.setThr 9 (thread .running 0 0)
    let c := c.setNdl 5 { c.ndl 5 with ib := [Chip.lineOf 7] }
    c.setSlot 5 3 (some (g sl0)))
def w2 (v : Nat) (s : Slot) : Slot := { s with live := W 2 v s.live }
def lv (f : Thread → Thread) (s : Slot) : Slot := { s with live := f s.live }
def hh (wd ws mode spec : Nat) : XHead := { wd := wd, ws := ws, mode := mode, spec := spec, rc := 0, wc := 0 }
def badWord : State := let s := issuing .nop; { s with mem := memPutWord s.mem (patternAt 7) 1#64 }
def eccWord : State := let s := issuing .nop; { s with chip := { s.chip with eccUe := [(patternAt 7, true)] } }
def th0 (s : TState) : Thread := thread s 0 0
def homed (th : Thread) : State := mkP (put 9 th ∘ needle 5 ∘ free)
def ackB : Burst := { req := 5, use := .xData 5 2 0x1000, thr := 9, gen := 0, pc := 7, cls := 0, kind := .ack, addr := 0x8000, len := 1, data := [{ data := 1#512, be := 0xFFFFFFFF#64, poison := false }], tdom := 4, bound := none, desc := 0x1000, dgen := none, wait := 0, starved := false }
def spillB : Burst := { ackB with req := 9, use := .spill 6 0 0, thr := 0 }
def readB (u : BurstFor) (l : Nat) : Burst := { ackB with use := u, kind := .read, len := l, data := [], desc := 0 }
def outst (p tag : Nat) (b : Burst) (c : Chip) : Chip := c.setPort p { Port.idle with outst := [(tag, b, [])] }
def waiting (p : Nat) (l : List Burst) (c : Chip) : Chip := c.setPort p { Port.idle with waiting := l }
def resident (s : Slot) (f : Chip → Chip := id) : State := mkP fun c =>
  let c := f (needle 5 (free c))
  let c := c.setThr 9 (thread .running 0 0)
  c.setSlot 5 3 (some s)
def ownLine : Line := descLine ctlW 0x8000#64 0#64 0#64
def offLine : Line := descLine 0x0800000000000003#64 0x8000#64 0#64 0#64
def dwaiting (l : Line) : State := mkP fun c => { waits9 kDesc 5 (free c) with dwaitIn := [(9, 0, l, false)] }
def ndlOf (f : Needle → Needle) (c : Chip) : Chip := c.setNdl 5 (f (c.ndl 5))
def pwr (n v : Nat) (c : Chip) : Chip := c.setF (.ndlStat n) F.NdlStat.PWR v
def xf0 : Xfer := { id := 2, t := 9, slot := 3, instr := .move (hh 4 2 2 0) 2, pc := 6, cls := 0, pd := 0, gen := 0, stage := .data, back := .data, res := 0, n := 2, a := 0x2000, reg := 0, opA := 0, opB := 0, set := 0, read := 0, lines := [], refs := [], fetch := none, fetching := false, search := none, glen := 0, cur := none, dwords := 0, pcnt := 0, out := [], forming := [], total := 0, closed := [], acc := OpAcc.empty, srcDone := false, queue := [], entries := [], reverse := false }
def active (x : Xfer) (s : Slot := sl0) : State := resident s (ndlOf fun n => { n with active := some x })
def cqe (own : Nat) : CqEntry := { id := 2, t := 9, slot := 3, pc := 6, cls := 0, pd := 0, gen := 0, spec := false, post := true, descs := [{ drec with statusSent := true, own := own }], stopped := false }
def act0 (k : ActKind) : Act := { kind := k, wd := 4, pc := 6, descs := [], fetch := none, fetching := false, redo := false, go := true, arg := 0 }
def tr (b : Burst) : Train := { burst := b, tag := 70, waitBefore := 0 }
def pt (p : Nat) (q : Port) (f : Chip → Chip := id) : State := mkP fun c => (f (free c)).setPort p q
def bB (l : Nat) : Burst := { ackB with bound := some l }
def lined (l : Nat) (up : Bool) (c : Chip) : Chip := { (c.setF (.rlCfg l) F.RlCfg.EN 1) with reqn := if up then [(l, true)] else [] }
def held1 (p : Nat) (c : Chip) : Chip := (c.setF (.mpCred p) F.MpCred.RQ_HELD 5).setF (.mpCred p) F.MpCred.WD_HELD 20
def irqUp (c : Chip) : Chip := ((((c.setF (.irqRt 672) F.IrqRt.EN 1).setF (.irqRt 672) F.IrqRt.LINE 5).setF (.irqLnCfg 5) F.IrqLnCfg.MSI 1).setF (.irqLnCfg 5) F.IrqLnCfg.ARMED 1)
def pw (f : Power → Power) (c : Chip) : Chip := { c with pwr := f c.pwr }
def froz (c : Chip) : Chip := c.setF .bbStat F.BbStat.FROZEN 1
def sealedP : Prot := prot0.wr .seal (fset (prot0.rd .seal) F.Seal.SEAL 1)
def bbe : BbEvent := { ty := 5, xing := 1, fine := 0, p0 := 2, p1 := 3 }
def bbOf (f : BlackBox → BlackBox) (c : Chip) : Chip := { c with bb := f c.bb }
def dbgUp (c : Chip) : Chip := c.setF .dbgCtl F.DbgCtl.MEN 1
def plls (c : Chip) : Chip := (List.range 4).foldl (fun c q => c.setF (.clkNpll q) F.ClkNpll.LOCK 1) c
def rs (v : Nat) (c : Chip) : Chip := c.setF .seamStat F.SeamStat.RSTATE v
def ref (c : Chip) : Chip := (c.setF .seamCfg F.SeamCfg.REF 1).setF .seamRing F.SeamRing.REF_ID 0
def sm (f : Seam → Seam) (c : Chip) : Chip := { c with seam := f c.seam }
def ver3 (c : Chip) : Chip := c.setF .seamRing F.SeamRing.VER 3
def arv (c : Chip) : Chip := c.setF .seamRing F.SeamRing.ARV 1
def src (v : Nat) (c : Chip) : Chip := c.setF .decCfg F.DecCfg.SRC v
def tok : TokenState := { ver := 3, count := 4, curRoot := 1, crv := true, acc := 100, done := 2, pseq := 5, repeats := 1, best := some 50 }
def ask (t l : Nat) (tr un : Bool) : LockAsk := { t := t, lock := l, seq := 7, isTry := tr, isUnlock := un, lapsed := false }
def svc (k v : Nat) (c : Chip) : Chip := c.setF .svcEn ⟨2 * k + 1, 2 * k⟩ v
def sv (f : Services → Services) (c : Chip) : Chip := { c with svc := f c.svc }
def protS : Prot := prot0.wr (.pdCfg 0) (fset (prot0.rd (.pdCfg 0)) F.PdCfg.SETAT 2)
def sa (i : WInstr) (f : Chip → Chip := id) (g : Slot → Slot := id) : State := { issuing i f g with prot := protS }
def xComp (fd : Option Nat) (r : Nat) : Xfer := { xf0 with instr := .compare (hh 4 0 1 0) 1 0, res := r, acc := { OpAcc.empty with firstDiff := fd } }
def xSum (v : Int) (tn : Bool) : Xfer := { xf0 with instr := .reduce (hh 4 0 1 0) 0 1 0 0 1 0 0, read := 3, acc := { OpAcc.empty with acc := [v], tainted := tn } }
def ownB : Burst := { ackB with use := .own 5 2 0x1000, req := 5, desc := 0x1000, tdom := 4 }
def tdUpReq (c : Chip) : Chip := pw (fun p => { p with tdReq := [(4, true)] }) c
def fetchSt (i : WInstr) (a : Nat) (l : Line) (bad : Bool) (f : Chip → Chip := id) (tot : Nat := 0) : State :=
  let s := active { xf0 with instr := i, stage := .fetch, fetch := some a, fetching := true, total := tot }
  { s with chip := f (ndlOf (fun n => { n with descIn := [(none, a, l, bad)] }) s.chip) }
def mv : WInstr := .move (hh 4 2 2 0) 2
def xClosing (i : WInstr) (a : OpAcc) (res : Nat) : State :=
  active { xf0 with instr := i, acc := a, res := res, stage := .close, srcDone := true, total := 2, read := 2, closed := [{ drec with statusSent := true }] }
def fence5 (c : Chip) : Chip := (c.setF (.xfFence 5) F.XfFence.VALID 1).setF (.xfFence 5) F.XfFence.ADDR (0x1000 / 32)
def boxOn (c : Chip) : Chip := c.setF .bbTypeen ⟨15, 0⟩ 0xFFFF
def ndlDown (force ack : Bool) (c : Chip) : Chip :=
  pwr 5 2 ((boxOn (plls c)) |> pw fun p => { p with bdReq := [(5, true)], bdForce := if force then [(5, true)] else [], bdAck := if ack then [(5, true)] else [] })
def marked (l : List MarkEnt) (c : Chip) : Chip := wpAt 6 40 (marks 6 l (spoolOn 6 1 c))
def lossy (c : Chip) : Chip := (c.setF (.spCfg 6) F.SpCfg.MODE 1)
def deepOn (c : Chip) : Chip := (marked [held 5 10 .held] c).setF (.spCfg 6) F.SpCfg.MODE 2 |> wpAt 6 2000
def tagged (l : List (Nat × Nat)) (c : Chip) : Chip := c.setSpool 6 { c.spool 6 with index := l }
def h65 : Nat := 6 * 65536 + 5
def clean1 (p : Nat) : CqEntry := { cqe 0 with descs := [{ drec with statusSent := true, pend := p }] }
def clean2 : CqEntry := { cqe 0 with id := 4, t := 8, descs := [{ drec with desc := { drec.desc with addr := 0x20000000000 }, statusSent := true }] }
/-- Window 1: the 2^20 bytes from 2^41 on, at port 3, target domain 7. -/
def prot2 : Prot :=
  let p := prot0.wr (.winBase 1) 0x20000000000#64
  let p := p.wr (.winLimit 1) 0x200000FF000#64
  let p := (p.wr (.winAttr 1) 0x8000000000070307#64).wr (.pdWin 0) 0x100#64
  p.wr (.pdCfg 0) (fset (p.rd (.pdCfg 0)) F.PdCfg.VALID 3)
def cur0 : SavedCursor := { hv := true, handle := 6 * 65536 + 1, cv := true, curoff := 2 }

/-- The state after an outcome. -/
def nextOf : Host.Outcome State Fault Refusal → State
  | .next t => t
  | _ => State.reset
def slotOf (s : State) : Slot := (s.chip.slot 5 3).getD sl0
def outBurst (s : State) : Burst := ((s.chip.port 2).outst.head?.map (·.2.1)).getD ackB
def waitBurst (s : State) : Burst := (s.chip.port 2).waiting.headD ackB
def noGrp : Grp := { descs := [], fill := 0 }
def actOf (s : State) : Act := (slotOf s).act.getD
  { kind := .dset, wd := 0, pc := 0, descs := [], fetch := none, fetching := false, redo := false, go := false, arg := 0 }
def acc1 : OpAcc := { OpAcc.empty with acc := [5] }
def acc2 : OpAcc := { OpAcc.empty with recs := [1, 2, 3], recPoison := true }
def acc3 : OpAcc := { OpAcc.empty with recs := List.replicate 240 1 }
def xfW : Xfer :=
  { xf0 with cur := some drec,
             forming := [(0x8020, { data := 5, poison := false }), (0x8040, { data := 6, poison := true })] }
def firstDesc (s : State) : DRec := ((slotOf s).grp.getD noGrp).descs.headD drec
def activeOf (s : State) : Xfer := (s.chip.ndl 5).active.getD xf0
def queued (s : State) : Burst := (activeOf s).queue.headD ackB
def closing (s : State) : CqEntry := (s.chip.ndl 5).cq.headD (cqe 0)

def wUp : State :=
  mk id
def wFree : State :=
  mk free
def wStopped : State :=
  mk (clocked 0 0)
def wStoppedRing : State :=
  mk (ringed ∘ clocked 0 0)
def wAcquire : State :=
  mk (ringed ∘ clocked 2 1)
def wAligned : State :=
  mk (atX 20483 ∘ ringed ∘ clocked 3 1)
def wHoldover : State :=
  mk fun c => ((ringed (clocked 4 1 c)).setF .otAlign F.OtAlign.MISSED 255).setF .otAlignCfg F.OtAlignCfg.HOLD_ORBITS 200
def wLastSlot : State :=
  mk (atX (20480 + 4095) ∘ clocked 1 1)
def wWrap : State :=
  mk (atX (2^64-1) ∘ clocked 1 1)
def wQuiesced : State :=
  mk (phased .quiesce ∘ free)
def wFreeLoad : State :=
  mk fun c => { free c with tb := { (free c).tb with freeLoad := some 40961 } }
def wResync : State :=
  mk fun c => let d := ((ringed (atX (20480+4094) (clocked 5 1 c))).setF .otAlign F.OtAlign.OFFSET 3); { d with tb := { d.tb with resync := true, resyncMarker := true } }
def wResyncM0 : State :=
  mk fun c => let d := ((ringed (atX (20480+4094) (clocked 6 1 c)))); { d with tb := { d.tb with resync := true, resyncMarker := true } }
def wStopping : State :=
  mk (atX (20480 + 4095) ∘ clocked 1 2)
def wTaskSetat2 : State :=
  mk (agenda [.setat entry, .wake 9 20483] ∘ setats [entry] ∘ free)
def wTaskSetatR : State :=
  mk (agenda [.setat entryR] ∘ setats [entryR] ∘ free)
def wTaskWake : State :=
  mk (agenda [.wake 9 20483, .harvest] ∘ waits9 kXing 20483 ∘ free)
def wTaskLease : State :=
  mk (agenda [.lease 7 20483, .monitor] ∘ lockHeld 7 12 20483 ∘ free)
def wTaskMissing : State :=
  mk (agenda [.missing 3] ∘ decKnown 20483 .opened ∘ free)
def wTaskSwap : State :=
  mk (agenda [.swap] ∘ fun c => (free c).setF .cfgset F.Cfgset.PEND 1)
def wTaskRot : State :=
  mk (agenda [.rotation] ∘ fun c => (free c).setF .svcEn { hi := 5, lo := 4 } 1)
def wTaskRotA : State :=
  mk (agenda [.rotation] ∘ fun c => ((free c).setF .svcEn { hi := 5, lo := 4 } 1).setF .rotStat F.RotStat.ACTIVE 1)
def wTaskHarv : State :=
  mk (agenda [.harvest] ∘ fun c => (free c).setF .hvStat F.HvStat.PEND 1)
def wCommitPend : State :=
  mk fun c => ((free c).setF .cfgset F.Cfgset.PEND 1).setF .cfgset F.Cfgset.TARGET 5
def wIpOn : State :=
  mk (ingestOn 3 1 ∘ mapped 3 2 6 1 ∘ spoolOn 6 1)
def wIpOpen : State :=
  mk (pkt 3 (some (2, some 6)) ∘ ingestOn 3 1 ∘ spoolOn 6 1)
def wIpFull : State :=
  mk (fifo 3 (List.replicate 16 beat) ∘ ingestOn 3 1)
def wIpFifo : State :=
  mk (fifo 3 [beat] ∘ ingestOn 3 1 ∘ spoolOn 6 1)
def wIpFifoStop : State :=
  mk (fifo 3 [beat, beat] ∘ ingestOn 3 1 ∘ spoolOn 6 2)
def wIpFifoFull : State :=
  mk (fifo 3 [beat] ∘ ingestOn 3 1 ∘ spoolOn 6 1 ∘ wpAt 6 768)
def wIpStopping : State :=
  mk fun c => (ingestOn 3 2 c).setIp 3 { Ingest.empty with stopping := true }
def wIpStopped : State :=
  mk fun c => (ingestOn 3 2 c).setF (.ipStat 3) F.IpStat.QUAR 1
def wIpQuar : State :=
  mk fun c => ((ingestOn 3 1 c).setF (.ipStat 3) F.IpStat.QUAR 1).setF .spcStat F.SpcStat.WIPE_DONE 1
def wIpLost : State :=
  mk fun c => (ingestOn 3 1 c).setF (.ipStat 3) F.IpStat.CLK_OK 0
def wSpOverlap : State :=
  mk fun c => (spoolOn 6 1 c).setF (.spCfg 7) F.SpCfg.BASE 144
def wSpHeld : State :=
  mk (marks 6 [held 5 0 .held] ∘ spoolOn 6 1)
def wSpRestart : State :=
  mk (spoolOn 6 3)
def wDeepSpill : State :=
  { mkP fun c => ((spoolOn 6 1 c).setF (.spCfg 6) F.SpCfg.MODE 2).setSpool 6 { Spool.empty with unspilled := [0, 1] } with prot := prot0 }
def wDeepAck : State :=
  mkP fun c => ((spoolOn 6 1 c).setF (.spCfg 6) F.SpCfg.MODE 2).setSpool 6 { Spool.empty with spilling := [0], spillIn := [(0, false)] }
def wDeepRefill : State :=
  mkP fun c => ((spoolOn 6 1 c).setF (.spCfg 6) F.SpCfg.MODE 2).setSpool 6 { Spool.empty with refills := [{ g := 1, block := 4, owner := 9, ready := false }], refillIn := [(4, List.replicate 16 (3#512, false), false)] }
def wINop : State :=
  issuing .nop
def wIBad : State :=
  badWord
def wIEcc : State :=
  eccWord
def wIHdr1 : State :=
  issuing (.hdr 1 5)
def wIHdr3 : State :=
  issuing (.hdr 3 5)
def wILdi : State :=
  issuing (.ldi 4 0x12345678)
def wIJmp0 : State :=
  issuing (.jmp 0 0 100)
def wIBr1 : State :=
  issuing (.brcc 1 100)
def wICall : State :=
  issuing (.call 0 0 100)
def wIRet : State :=
  issuing .ret id (lv (W 7 0x12345))
def wIHalt : State :=
  issuing .halt
def wIYield : State :=
  issuing (.yield 0 0 100)
def wIYield0 : State :=
  issuing (.yield 0 0 0)
def wIAdd : State :=
  issuing (.alu .add 2 2 0 2 0) id (w2 0xFFFFFFFF)
def wIWaitx0 : State :=
  issuing (.waitx 0 0 0 20490)
def wIWaitxPast : State :=
  issuing (.waitx 0 0 0 20480)
def wIWaitxFar : State :=
  issuing (.waitx 0 1 0 0xFFFFFFFF)
def wIWaitx2 : State :=
  issuing (.waitx 0 2 0 3)
def wIWaitdFar : State :=
  issuing (.waitd 4 0 1 0 2000)
def wIWaitdKnown : State :=
  issuing (.waitd 4 0 0 0 20483) (decKnown 20483 .known)
def wIWaitdMiss : State :=
  issuing (.waitd 4 0 0 0 20483) (decKnown 20483 .missing)
def wIWaitdOpen : State :=
  issuing (.waitd 4 0 0 0 20483) (decKnown 20483 .opened)
def wIWaitsOff : State :=
  issuing (.waits 0 1 6)
def wIWaits1 : State :=
  issuing (.waits 0 1 6) (spoolOn 6 1)
def wIWaits0 : State :=
  issuing (.waits 2 0 6) (spoolOn 6 1) (w2 5)
def wIWaits0past : State :=
  issuing (.waits 2 0 6) (wpAt 6 9 ∘ spoolOn 6 1) (w2 5)
def wIWaits0far : State :=
  issuing (.waits 2 0 6) (spoolOn 6 1) (w2 0x80000)
def wIWaitrOff : State :=
  issuing (.waitr 30 100)
def wIWaitr : State :=
  issuing (.waitr 30 100) fun c => c.setF (.rlCfg 30) F.RlCfg.EN 1
def wIWaitrUp : State :=
  issuing (.waitr 30 100) fun c => { c.setF (.rlCfg 30) F.RlCfg.EN 1 with reqn := [(30, true)] }
def wICross : State :=
  issuing (.cross 1 2 0)
def wICross1 : State :=
  issuing (.cross 1 0 1)
def wISetat : State :=
  issuing (.setat 1 0 0 0 (0x810008 / 8) 20490)
def wILockFree : State :=
  issuing (.lock 4 0 1 0 50 7)
def wILockBroken : State :=
  issuing (.lock 4 0 1 0 50 7) fun c => c.setLock 7 { Lock.free with st := .broken, owner := 3 }
def wILockMine : State :=
  issuing (.lock 4 0 1 0 50 7) (lockHeld 7 9 0)
def wILockOther : State :=
  issuing (.lock 4 0 1 0 50 7) (lockHeld 7 8 0)
def wILockBad : State :=
  issuing (.lock 4 0 1 0 50 2000)
def wILockRing : State :=
  issuing (.lock 4 0 1 0 50 0x8003)
def wILockWait : State :=
  issuing (.lock 4 0 0 0 50 7) (lockHeld 7 8 0)
def wIUnlock : State :=
  issuing (.unlock 4 0 0 7) (lockHeld 7 9 0)
def wIUnlockBroken : State :=
  issuing (.unlock 4 0 0 7) fun c => c.setLock 7 { Lock.free with st := .broken, owner := 9 }
def wIUnlockFree : State :=
  issuing (.unlock 4 0 0 7)
def wIUnlockBad : State :=
  issuing (.unlock 4 0 0 2000)
def wIMark : State :=
  issuing (.mark 4 0 0 6) (spoolOn 6 1)
def wIMarkOff : State :=
  issuing (.mark 4 0 0 6)
def wIRel : State :=
  issuing (.release 4 2) (wpAt 6 40 ∘ marks 6 [held 5 10 .held] ∘ spoolOn 6 1) (w2 (6 * 65536 + 5))
def wIRelBad : State :=
  issuing (.release 4 2) (spoolOn 6 1) (w2 (6 * 65536 + 5))
def wIRew : State :=
  issuing (.rewind 4 2 3) (wpAt 6 40 ∘ marks 6 [held 5 10 .held] ∘ spoolOn 6 1) (w2 (6 * 65536 + 5))
def wIRewNo : State :=
  issuing (.rewind 4 2 60) (wpAt 6 40 ∘ marks 6 [held 5 10 .held] ∘ spoolOn 6 1) (w2 (6 * 65536 + 5))
def wIRewBad : State :=
  issuing (.rewind 4 2 60) (spoolOn 6 1) (w2 (6 * 65536 + 5))
def wIPeek1 : State :=
  issuing (.peek 4 1 6 0 0 2) (wpAt 6 40 ∘ spoolOn 6 1)
def wIPeek3 : State :=
  issuing (.peek 4 3 6 0 0 4) (wpAt 6 1 ∘ spoolOn 6 1)
def wIPeekOff : State :=
  issuing (.peek 4 0 6 0 0 2)
def wIMove : State :=
  issuing (.move (hh 4 0 1 0) 0)
def wIMoveMis : State :=
  issuing (.movec (hh 4 2 2 0) 5) id (w2 8)
def wIPatchOk : State :=
  issuing (.patch 4 0 0 0 0 2) id (lv fun t => W 3 1 (W 2 0x10001 t))
def wIStaged : State :=
  issuing (.move (hh 4 0 1 0) 0) id fun s => { s with grp := some { descs := [drec], fill := 0 } }
def wIPostE : State :=
  issuing (.post 4 0) id fun s => { s with grp := some { descs := [], fill := 0 } }
def wIPost1 : State :=
  issuing (.post 4 0) id fun s => { s with grp := some { descs := [drec], fill := 0 } }
def wISeal : State :=
  issuing .seal
def wIDset : State :=
  issuing (.dset 0 2 0) id fun s => w2 0x1000 { s with grp := some { descs := [], fill := 0 } }
def wIDsetBad : State :=
  issuing (.dset 0 2 0) id (w2 8)
def wIDget : State :=
  issuing (.dset 4 0 1)
def wISends : State :=
  issuing (.sends 4 2 80 5)
def wISendsS : State :=
  issuing (.sends 4 2 80 5) service
def wISendsBad : State :=
  issuing (.sends 4 2 17 5) service
def wISendsHint : State :=
  issuing (.sends 4 2 18 5) fun c => root (service c)
def wISendsFull : State :=
  issuing (.sends 4 2 80 5) fun c => let c := service c; { c with seam := { c.seam with tx := List.replicate 32 tmsg } }
def wTTimer : State :=
  homed (thread .waiting kTimer 0)
def wTTimerNo : State :=
  homed (thread .waiting kTimer 5)
def wTReq : State :=
  homed (thread .waiting kReq (256 + 30))
def wTLock : State :=
  mkP (lockHeld 7 8 0 ∘ waits9 kLock 7 ∘ free)
def wTIdle : State :=
  homed { th0 .idle with gen := 3 }
def wTHalted : State :=
  homed (th0 .halted)
def wTParked : State :=
  homed (thread .parked kPark (parkTarget * 2 ^ 24 + 4))
def wTHaltedX : State :=
  homed (thread .halted kXing 30000)
def wTFaultOut : State :=
  mkP (outst 2 70 ackB ∘ put 9 (th0 .fault) ∘ needle 5 ∘ free)
def wTFaultSeal : State :=
  homed { th0 .fault with sealing := true }
def wTHalting : State :=
  resident { sl0 with live := { sl0.live with cmd := some .halt } }
def wTKilling : State :=
  resident { sl0 with live := { sl0.live with cmd := some .kill } }
def wTDesc : State :=
  homed (thread .waiting kDesc 5)
def wTDescOwn : State :=
  dwaiting ownLine
def wTDescOff : State :=
  dwaiting offLine
def wTFetch : State :=
  mkP (ndlOf (fun n => { n with queues := [[], [9], [], []] }) ∘ put 9 { th0 .ready with cls := 1 } ∘ needle 5 ∘ free)
def wTFetching : State :=
  resident { sl0 with fetching := true }
def wNStop : State :=
  mk fun c => (needle 5 c).setF (.ndlCtl 5) F.NdlCtl.EN 2
def wNStopped : State :=
  mk (pwr 5 1 ∘ needle 5)
def wNWaking : State :=
  mk (pwr 5 3 ∘ needle 5)
def wXRead : State :=
  active { xf0 with queue := [{ readB (.xSrc 5 2 0) 1 with addr := 0x2000, tdom := 0 }] }
def wXWrite : State :=
  active { xf0 with cur := some drec, queue := [{ ackB with tdom := 0 }] }
def wXFetchOwn : State :=
  { active { xf0 with stage := .fetch, fetch := some 0x1000, fetching := true } with chip := let c := (active { xf0 with stage := .fetch, fetch := some 0x1000, fetching := true }).chip; ndlOf (fun n => { n with descIn := [(none, 0x1000, ownLine, false)] }) c }
def wXFetchOff : State :=
  { active { xf0 with stage := .fetch, fetch := some 0x1000, fetching := true } with chip := let c := (active { xf0 with stage := .fetch, fetch := some 0x1000, fetching := true }).chip; ndlOf (fun n => { n with descIn := [(none, 0x1000, offLine, false)] }) c }
def wXClose : State :=
  active { xf0 with stage := .close, srcDone := true, total := 2, read := 2, closed := [{ drec with statusSent := true }] }
def wPostDone : State :=
  resident { sl0 with act := some (act0 .commit), grp := some { descs := [], fill := 0x1000 } }
def wSealDone : State :=
  resident { sl0 with sealing := some 0 }
def wFenceDue : State :=
  mkP fun c => (((free c).setF (.xfFence 5) F.XfFence.VALID 1).setFenceSt 5 { since := some 0, due := true })
def wMTrain : State :=
  pt 2 { Port.idle with waiting := [bB 30], holder := some (5, 30, 2) } (held1 2 ∘ lined 30 true)
def wMTrainOff : State :=
  pt 2 { Port.idle with waiting := [bB 30], holder := some (5, 30, 2) } (held1 2 ∘ lined 30 false)
def wMTrainLim0 : State :=
  pt 2 { Port.idle with waiting := [bB 30], holder := some (5, 30, 2) } fun c => (lined 30 true c).setF (.mpArb 2) F.MpArb.HOLD_LIMIT 0
def wMFailing : State :=
  pt 2 { Port.idle with outst := [(3, readB (.dwait 9) 2, [(3, false)])], failing := [3] }
def wMRefillGot : State :=
  pt 2 { Port.idle with outst := [(3, readB (.refill 6 4 0) 2, [(3, false)])] }
def wMRetForce : State :=
  pt 2 { Port.idle with retired := [(70, 4, true)] } fun c => { c with pwr := { c.pwr with tdForce := [(4, true)] } }
def wMOutRead : State :=
  pt 2 { Port.idle with outst := [(3, readB (.xSrc 5 2 0) 2, [])] }
def wMOutDwait : State :=
  pt 2 { Port.idle with outst := [(3, readB (.dwait 9) 1, [])] }
def wMOutSpill : State :=
  pt 2 { Port.idle with outst := [(70, spillB, [])] }
def wMOutSpillNoTmo : State :=
  pt 2 { Port.idle with outst := [(70, spillB, [])] } fun c => c.setF (.mpCtl 2) F.MpCtl.TMO 0
def wMRetired : State :=
  pt 2 { Port.idle with retired := [(70, 4, false)] }
def wRlWait : State :=
  mkP (waits9 kReq 30 ∘ fun c => c.setF (.rlCfg 30) F.RlCfg.EN 1)
def wRlGrant : State :=
  pt 2 { Port.idle with granted := some (tr (bB 30)) } (lined 30 true)
def wRlGrant2 : State :=
  pt 2 { Port.idle with granted := some (tr (bB 30)), waiting := [ackB] } (lined 30 true)
def wRlHarv : State :=
  pt 2 { Port.idle with granted := some (tr { bB 30 with req := 129, use := .harvest 1 }) } (lined 30 true)
def wIrq : State :=
  mkP fun c => (held1 2 (irqUp c)).flag .otStat F.OtStat.STEP
def wIrqNoWin : State :=
  mk fun c => (held1 2 (irqUp c)).flag .otStat F.OtStat.STEP
def wPFrozReq : State :=
  mk (froz ∘ pw fun p => { p with bdReq := [(5, true), (128, true)] })
def wPRetUp : State :=
  mk (phased .retention)
def wPOff : State :=
  mk (phased .coreOff ∘ pw fun p => { p with bdForce := [(129, true)] })
def wPWipe : State :=
  { State.reset with chip := plls State.reset.chip }
def wPRetQ : State :=
  mk ((fun c => (List.range 16).foldl (fun c p => c.setF (.mpArb p) F.MpArb.FREEZE 1) c) ∘ phased .quiesce ∘ pw fun p => { p with bdReq := [(129, true)], forRetention := true })
def wPllWake : State :=
  mk (pw fun p => { p with wakeQ := [5] })
def wPSealed : State :=
  { mk id with prot := sealedP }
def wPSealedRun : State :=
  { mk free with prot := sealedP, pending := [.configCommit false 0] }
def wDFull : State :=
  { mkP dbgUp with prot := prot0 }
def wDNoWin : State :=
  mk dbgUp
def wBb1 : State :=
  mk (bbOf fun b => { b with fifo := [bbe] })
def wBbFull : State :=
  mk fun c => (bbOf (fun b => { b with fifo := List.replicate 32 bbe }) c).setF .bbTypeen ⟨15, 0⟩ 0xFFFF
def wBbPost0 : State :=
  mk (bbOf fun b => { b with postLeft := some 0 })
def wBbOwed : State :=
  mkP (bbOf (fun b => { b with owed := true }) ∘ froz)
def wEccC : State :=
  mk fun c => { c with eccCe := [(0x400038, true)] }
def wS4c : State :=
  mk (rs 4 ∘ sm fun s => { s with claimOut := some 7 })
def wS6 : State :=
  mk (rs 6)
def wS7tok : State :=
  mk (rs 7 ∘ sm fun s => { s with token := some tok })
def wS2ref : State :=
  mk (rs 2 ∘ ref ∘ sm fun s => { s with helloOut := true })
def wS3ref : State :=
  mk (rs 3 ∘ ref ∘ sm fun s => { s with full := true })
def wS6ref : State :=
  mk (rs 6 ∘ ref ∘ sm fun s => { s with lockE := true, lockW := true })
def wS5ref : State :=
  mk (rs 5 ∘ ref ∘ ver3 ∘ sm fun s => { s with lockE := true, lockW := true })
def wS2tok : State :=
  mk (rs 3 ∘ sm fun s => { s with token := some tok })
def wS2tok7 : State :=
  mk (rs 3 ∘ sm fun s => { s with token := some { tok with done := 7 } })
def wS2tokR : State :=
  mk (rs 3 ∘ ver3 ∘ sm fun s => { s with token := some { tok with repeats := 16 } })
def wS5hit : State :=
  mk (rs 5 ∘ sm fun s => { s with lockE := true, lockW := true, hitE := true, hitW := true })
def wD5 : State :=
  mk (free ∘ rs 5 ∘ ver3 ∘ arv)
def wD5i : State :=
  mk (src 1 ∘ free ∘ rs 5 ∘ ver3 ∘ arv)
def wD5know : State :=
  mk (decKnown 20483 .known ∘ src 2 ∘ free ∘ rs 5 ∘ ver3 ∘ arv)
def wD5miss : State :=
  mk (decKnown 20483 .missing ∘ src 2 ∘ free ∘ rs 5 ∘ ver3 ∘ arv)
def wRlHeldO : State :=
  mk (lockHeld 0x8007 12 100 ∘ rs 5 ∘ ref ∘ ver3)
def wRlHeldMine : State :=
  mk (lockHeld 0x8007 (3 * 2 ^ 18 + 9) 100 ∘ rs 5 ∘ ref ∘ ver3)
def wRlRsp : State :=
  mkP (waits9 kLock 0x8007 ∘ sm (fun s => { s with asks := [ask 9 0x8007 false false] }) ∘ rs 5)
def wRlTry : State :=
  resident { sl0 with act := some { act0 .lockTry with arg := 0x8007 } } (sm (fun s => { s with asks := [ask 9 0x8007 true false] }) ∘ rs 5)
def wRa : State :=
  { mk (rs 5) with prot := (prot0.wr .seamCfg (fset (fset (fset (prot0.rd .seamCfg) F.SeamCfg.RRD 1) F.SeamCfg.RWR 1) F.SeamCfg.BBR 1)) }
def wRaBusy : State :=
  mk (rs 5 ∘ sm fun s => { s with remotes := [(9, 7, 3)] })
def wRaIsl : State :=
  { mk (rs 5 ∘ ver3 ∘ sm fun s => { s with islVer := 3 }) with prot := (prot0.wr .seamCfg (fset (prot0.rd .seamCfg) F.SeamCfg.BBR 1)) }
def wRxq1 : State :=
  mk (sm fun s => { s with rxq := [5, 6, 7] })
def wRxqFull : State :=
  mk (rs 5 ∘ sm fun s => { s with rxq := List.replicate 255 5 })
def wHv5 : State :=
  mk ((fun c => c.setF .hvStat F.HvStat.PEND 1) ∘ free ∘ rs 5 ∘ ver3)
def wEn1 : State :=
  mk fun c => (rs 3 c).setF .seamCfg F.SeamCfg.EN 1
def wEn1r0 : State :=
  mk fun c => c.setF .seamCfg F.SeamCfg.EN 1
def wEn2 : State :=
  mk fun c => (rs 3 c).setF .seamCfg F.SeamCfg.EN 2
def wByp : State :=
  mk fun c => (c.setF .seamCfg F.SeamCfg.EN 1).setF .seamByp F.SeamByp.FORCE 1
def wV0 : State :=
  mk (svc 0 1)
def wV0c : State :=
  mk (svc 0 1 ∘ fun c => { c with eccCe := [(0x400000 + 16, true)] })
def wDsk : State :=
  mk (fifo 3 [beat] ∘ ingestOn 3 1 ∘ spoolOn 6 1 ∘ svc 1 1 ∘ (fun c => ((c.setF .calDskcfg F.CalDskcfg.HIGH 90).setF .calDskcfg F.CalDskcfg.LOW 4).setF (.calDsk 3) F.CalDsk.ARMED 1) ∘ free)
def wPhaseW : State :=
  mk (sv (fun v => { v with phSum := 64 }) ∘ (fun c => (((c.setF .calPhase F.CalPhase.NMARK 4).setF .calCfg F.CalCfg.AVG 2).setF .calCfg F.CalCfg.PH_HIGH 3).setF .calPhase F.CalPhase.ARMED 1) ∘ svc 1 1)
def wV2s : State :=
  mk (svc 2 2)
def wPed : State :=
  mk (sv (fun v => { v with pedSum := [(7, (1000, 4, 2))] }) ∘ (fun c => (c.setF .calCfg F.CalCfg.K 2).setF .calCfg F.CalCfg.MAXDEV 300) ∘ svc 1 1)
def wPedDev : State :=
  mk (sv (fun v => { v with pedSum := [(7, (1000, 4, 2))] }) ∘ (fun c => (c.setF .calCfg F.CalCfg.K 2).setF .calCfg F.CalCfg.MAXDEV 3) ∘ svc 1 1)
def wPedWr : State :=
  mk (sv (fun v => { v with pedPend := [(7, some 70)] }) ∘ svc 1 1 ∘ atX (20480 + 4095) ∘ free)
def wRotNext : State :=
  mk (sv (fun v => { v with rotNext := some 0 }) ∘ (fun c => c.setF .rotStat F.RotStat.ACTIVE 1) ∘ svc 2 1)
def wMon : State :=
  mkP (agenda [.monitor] ∘ svc 3 1 ∘ free)
def wMonFail : State :=
  mkP (sv (fun v => { v with frame := some { snap := [(5, 3)], orbit := 4, orbits := 1, tiles := [0], stage := 2, first := 0, failed := true } }) ∘ svc 3 1 ∘ free)
def wHvBusy : State :=
  mk fun c => c.setF .hvStat F.HvStat.BUSY 1
def wHvFree : State :=
  mkP fun c => (free c).wr .hvAt 30000#64
def wHvDone : State :=
  mkP fun c => { c.setF .hvStat F.HvStat.BUSY 1 with hv := { c.hv with record := some { stage := 3, pend := 0, failed := false, h0 := 1, h1 := 2, h2 := 3 } } }
def wHvFailed : State :=
  mkP fun c => { c.setF .hvStat F.HvStat.BUSY 1 with hv := { c.hv with record := some { stage := 2, pend := 0, failed := true, h0 := 1, h1 := 2, h2 := 3 } } }
def wIsOn : State :=
  mk fun c => c.setF .isCfg F.IsCfg.EN 1
def wIsRec : State :=
  mkP fun c => ndlOf (fun n => { n with follow := some [5, 9, 4, 0] }) ((needle 5 (free c)).setF .isCfg F.IsCfg.EN 1)
def wPmcQ : State :=
  mk fun c => ((c.setF (.pmcCfg 577) F.PmcCfg.QV 1).setF (.pmcCfg 577) F.PmcCfg.QSPOOL 6).setF (.pmcCfg 577) F.PmcCfg.EN 1
def wPmcQe : State :=
  mk fun c => (((c.setF (.pmcCfg 577) F.PmcCfg.QV 1).setF (.pmcCfg 577) F.PmcCfg.QSPOOL 6).setF (.pmcCfg 577) F.PmcCfg.EN 1).setF (.pmcCfg 577) F.PmcCfg.EVENT 5
def wSaOk : State :=
  sa (.setat 1 0 0 0 (0x810008 / 8) 20490)
def wSaPast : State :=
  sa (.setat 1 0 0 0 (0x810008 / 8) 20480)
def wSaNone : State :=
  sa (.setat 1 0 2 0 (0x810008 / 8) 20480)
def wSaFull : State :=
  sa (.setat 1 0 0 0 (0x810008 / 8) 20490) (setats (List.replicate 256 entry))
def wFenceLive2 : State :=
  mkP (outst 2 70 { ackB with desc := 0x1000 } ∘ fun c => ((free c).setF (.xfFence 5) F.XfFence.VALID 1).setF (.xfFence 5) F.XfFence.ADDR (0x1000 / 32))
def wDbgOff : State :=
  { mk id with prot := prot0.wr .lc (fset (prot0.rd .lc) F.Lc.STATE 2) }
def wCredMax : State :=
  mk fun c => (c.setF (.mpCred 2) F.MpCred.RQ_HELD 32).setF (.mpCred 2) F.MpCred.WD_HELD 64
def wEccR : State :=
  mk fun c => { c with eccUe := [(0x1000000, true)] }
def wHoldEarly : State :=
  mk fun c => (ringed (clocked 4 1 c)).setF .otAlignCfg F.OtAlignCfg.HOLD_ORBITS 200
def wTFaultHalt : State :=
  homed { th0 .fault with cmd := some .halt }
def wTFaultKill : State :=
  homed { th0 .fault with cmd := some .kill }
def wTResOff : State :=
  resident { sl0 with live := { sl0.live with aff := 6 } } fun c => (needle 6 c).setF (.ndlCtl 5) F.NdlCtl.EN 2
def wXStat : State :=
  active { xf0 with closed := [drec], queue := [{ ackB with use := .xStatus 5 2 0x1000, tdom := 0 }] }
def wXDescR : State :=
  active { xf0 with stage := .fetch, fetch := some 0x1000, queue := [{ readB (.xDesc 5 2) 1 with addr := 0x1000, desc := 0x1000, tdom := 0 }] }
def wIUnlockRing : State :=
  issuing (.unlock 4 0 0 0x8003)
def wPostCq : State :=
  resident { sl0 with act := some { act0 .commit with descs := [drec] }, grp := some { descs := [], fill := 0x1000 } }
def wNWakingNoPll : State :=
  mk fun c => (pwr 5 3 (needle 5 c)).setF (.clkNpll 0) F.ClkNpll.LOCK 0
def wNWake8 : State :=
  mk fun c => let d := (List.range 8).foldl (fun c n => pwr n 3 c) (pwr 9 2 (needle 9 c)); { d with pwr := { d.pwr with wakeQ := [9] } }
def wPFrozForce : State :=
  mk (froz ∘ pw fun p => { p with bdForce := [(5, true)] })
def wIpOpenOff : State :=
  mk (pkt 3 (some (2, some 6)) ∘ ingestOn 3 1)
def wIpRest : State :=
  mk fun c => (ingestOn 3 1 c).setIp 3 { Ingest.empty with dropRest := true }
def wEn1tx : State :=
  mk fun c => ((rs 3 c).setF .seamCfg F.SeamCfg.EN 1 |> sm fun s => { s with tx := [tmsg] })
def wEn2tx : State :=
  mk fun c => ((rs 7 c).setF .seamCfg F.SeamCfg.EN 2 |> sm fun s => { s with tx := [tmsg] })
def wFPoison : State :=
  fetchSt mv 0x1000 ownLine true
def wFFence : State :=
  fetchSt mv 0x1000 ownLine false fence5
def wFMal : State :=
  fetchSt mv 0x1000 (descLine 0x8000000000000003#64 0x8000#64 0#64 0#64) false
def wFProt : State :=
  fetchSt mv 0x1000 (descLine ctlW 0x800000000000#64 0#64 0#64) false
def wFProtD : State :=
  fetchSt mv 0x20000000000 ownLine false
def wFOff6 : State :=
  fetchSt mv 0x1000 offLine false id 2
def wCCmp : State :=
  xClosing (.compare (hh 4 0 1 0) 1 0) OpAcc.empty 0
def wCCmpD : State :=
  xClosing (.compare (hh 4 0 1 0) 1 0) { OpAcc.empty with firstDiff := some 2 } 0
def wCExp : State :=
  xClosing (.expand (hh 4 0 1 0) 1 0 5 0 0) { OpAcc.empty with hits := 9 } 0
def wCPed : State :=
  xClosing (.pedsub (hh 4 0 1 0) 2 0 0 0 0) { OpAcc.empty with hits := 4 } 0
def wCSum : State :=
  xClosing (.reduce (hh 4 0 1 0) 0 1 0 0 1 0 0) { OpAcc.empty with acc := [5], tainted := true } 0
def wCMax : State :=
  xClosing (.reduce (hh 4 0 1 0) 1 1 0 0 1 0 0) { OpAcc.empty with best := some (-3, 17) } 0
def wCLsum : State :=
  xClosing (.reduce (hh 4 0 1 0) 2 1 0 0 1 0 0) OpAcc.empty 0
def wTdOwnWaits : State :=
  pt 2 { Port.idle with waiting := [ownB] } (ndlOf fun n => { n with cq := [cqe 1] })
def wMRoundOwn : State :=
  resident sl0 ((fun c => c.setPort 2 { Port.idle with waiting := [ownB] }) ∘ held1 2 ∘ ndlOf fun n => { n with cq := [cqe 1] })
def wD5wait : State :=
  mk (waits9 kDec 20483 ∘ decKnown 20483 .opened ∘ src 2 ∘ free ∘ rs 5 ∘ ver3 ∘ arv)
def wPReadyLc : State :=
  mk fun c => (pw (fun p => { p with phase := .starting, wiping := false, spoolWiped := false, newLc := some 2 }) c).setF .spcStat F.SpcStat.WIPE_DONE 1
def wNdlDn : State :=
  mk (ndlDown false false)
def wS5root : State :=
  mk (root ∘ (fun c => c.setF .seamCfg F.SeamCfg.ROOTIDX 5) ∘ rs 5 ∘ ver3)
def wIpFifoEopW : State :=
  mk (fifo 3 [{ beat with eop := true, sop := false }] ∘ ingestOn 3 1 ∘ spoolOn 6 1 ∘ waits9 kSpool (6 * 2 ^ 20))
def wWakeT : State :=
  mk (agenda [.wake 9 20483, .harvest] ∘ put 9 { thread .waiting kXing 20483 with target := 20483 } ∘ needle 5 ∘ free)
def wIMarkFar : State :=
  issuing (.mark 4 2 2 6) (marked []) (w2 99)
def wIMarkOrd : State :=
  issuing (.mark 4 2 2 6) (marked [held 5 35 .held]) (w2 30)
def wIMarkTaken : State :=
  issuing (.mark 4 0 0 6) (marked ((List.range 512).map fun j => held j 1 .released))
def wIRewRel : State :=
  issuing (.rewind 4 2 3) (marked [held 5 10 .released]) (w2 h65)
def wIRewLap : State :=
  issuing (.rewind 4 2 3) (marked [held 5 10 .lapped]) (w2 h65)
def wIRewOver : State :=
  issuing (.rewind 4 2 3) (wpAt 6 2000 ∘ lossy ∘ marked [held 5 10 .held]) (w2 h65)
def wIRewDeep : State :=
  issuing (.rewind 4 2 3) deepOn (w2 h65)
def wIRewDeepBad : State :=
  issuing (.rewind 4 2 3) ((fun c => c.setSpool 6 { c.spool 6 with deepBad := true }) ∘ deepOn) (w2 h65)
def wIPeek0No : State :=
  issuing (.peek 4 0 6 1 2 2) (spoolOn 6 1)
def wIPeek0Lap : State :=
  issuing (.peek 4 0 6 1 2 2) (wpAt 6 2000 ∘ lossy ∘ spoolOn 6 1)
def wIPeek0H : State :=
  issuing (.peek 4 0 6 1 2 2) ((fun c => c.setSpool 6 { c.spool 6 with head := [{ pos := 1, g := c.spBase 6, data := 0x123456789ABCDEF0011223344556677#256, lanes := 0 }] }) ∘ wpAt 6 40 ∘ spoolOn 6 1)
def wIPeek2 : State :=
  issuing (.peek 4 2 6 0 0 2) ((fun c => c.setF (.spHp 6) F.SpHp.POS 10) ∘ tagged [(9, 20), (8, 4)] ∘ wpAt 6 40 ∘ spoolOn 6 1)
def wIPeek2No : State :=
  issuing (.peek 4 2 6 0 0 2) (tagged [(9, 20), (8, 4)] ∘ wpAt 6 40 ∘ spoolOn 6 1)
def wCqOne : State :=
  resident sl0 (ndlOf fun n => { n with cq := [clean1 0] })
def wCqOneReq : State :=
  resident sl0 (tdUpReq ∘ ndlOf fun n => { n with cq := [clean1 0] })
def wCqOnePend : State :=
  resident sl0 (ndlOf fun n => { n with cq := [clean1 1] })
def wCqTwo : State :=
  { resident sl0 (tdUpReq ∘ ndlOf fun n => { n with cq := [clean1 0, clean2] }) with prot := prot2 }
def wPRetNdl : State :=
  mk (phased .retention ∘ pwr 5 2 ∘ pw fun p => { p with bdReq := [(129, true), (5, true)], bdAck := [(129, true)] })
def wMkRing : State :=
  mk ((fun c => c.setF .otBclk F.OtBclk.MEAS 250) ∘ atX 20483 ∘ ringed ∘ clocked 3 1 ∘ rs 5)
def wMkRingA : State :=
  mk ((fun c => c.setF .otBclk F.OtBclk.MEAS 250) ∘ atX 20483 ∘ ringed ∘ clocked 2 1 ∘ rs 3)
def wRaSend : State :=
  { mk (rs 5 ∘ ver3 ∘ sm fun s => { s with islVer := 3, islBusy := [tmsg] }) with prot := (prot0.wr .seamCfg (fset (prot0.rd .seamCfg) F.SeamCfg.BBR 1)) }
def wIRewLapOk : State :=
  issuing (.rewind 4 2 3) ((fun c => c.setF (.spCfg 6) F.SpCfg.COUNT 3) ∘ lossy ∘ marked [held 5 10 .held]) (w2 h65)
def wIRewDeepOk : State :=
  issuing (.rewind 4 2 3) (wpAt 6 40 ∘ (fun c => c.setF (.spCfg 6) F.SpCfg.COUNT 3) ∘ deepOn) (w2 h65)
def wSpForceWaits : State :=
  mk ((fun c => c.setSpool 6 { c.spool 6 with waits := [(9, 0)] }) ∘ spoolOn 6 2 ∘ marks 6 [held 5 0 .held] ∘ put 9 { thread .waiting kRefill 6 with hv := true, handle := h65, cv := true, curoff := 3, retReg := 4, undo := some cur0 } ∘ needle 5 ∘ free)
def wIDsetNew : State :=
  issuing (.dset 0 2 0) id (w2 0x1000)
def wIGap : State :=
  let s := issuing .nop; { s with chip := (let c := s.chip.setSlot 5 4 (some { sl0 with t := 8 }); c.setNdl 5 { c.ndl 5 with gaps := [(3, (2, 2))], sure := [4] }) }
def wSvPass : State :=
  mk fun c => c.setSvc { c.svc with frameEnd := some 3, monGap := some 2 }

/-- A FILL and a PATCH that have nothing left but to leave the active set. -/
def wCFill : State := xClosing (.fill (hh 4 0 1 0) 1 0) OpAcc.empty 0
def wCPatch : State := xClosing (.patch 4 0 1 0 0 2) OpAcc.empty 0
/-- A harvest whose crossing has come. -/
def wHvDue : State :=
  { wDeepSpill with chip :=
      { wDeepSpill.chip with tb := { wDeepSpill.chip.tb with agenda := [.harvest] } }.setF .hvStat F.HvStat.PEND 1 }
/-- The reference in service with 16 markers out. -/
def wMarkersOut : State :=
  { wS6ref with chip :=
      { wS6ref.chip with seam := { wS6ref.chip.seam with markersOut := 16 } }.setF .seamStat F.SeamStat.RSTATE 5 }

def isNext : Host.Outcome State Fault Refusal → Bool
  | .next _ => true
  | _ => false
theorem next_of (o : Host.Outcome State Fault Refusal) (h : isNext o = true) : o = .next (nextOf o) := by
  cases o <;> first | rfl | simp [isNext] at h
/-- A running block with one command waiting. -/
def wWindow : State := { wUp with pending := [.memoryWindowWrite 0x400000 0xFF 5] }
theorem off_of_lt : ∀ n < 32, wUp.chip.fld (.ndlCtl n) F.NdlCtl.EN = 0 ∧ (wUp.chip.npwr n = 1 ∨ wUp.chip.npwr n = 2) := by
  decide +kernel
theorem not_waking : ∀ n < 32, wPllWake.chip.npwr n ≠ 1 := by decide +kernel
theorem eop_waiter (u : Nat) (h : u ≠ 9) : wIpFifoEopW.chip.thr u = Thread.wiped := by
  rw [Chip.thr, show wIpFifoEopW.chip.threads = [(9, thread .waiting kSpool (6 * 2 ^ 20))] by decide +kernel]
  simp [Tab.get, h]
theorem eop_needle (n : Nat) : wIpFifoEopW.chip.ndl n = Needle.idle := by
  rw [Chip.ndl, show wIpFifoEopW.chip.needles = [] by decide +kernel]; rfl
def xTmap : Xfer := { xf0 with instr := .reduce (hh 4 0 1 0) 3 0 1 0 1 0 0 }
def xCmpRead : Xfer :=
  { xf0 with
    instr := .compare (hh 4 2 2 0) 1 0, n := 2, read := 1, a := 0x2000
    lines := [(0x80, some (BitVec.ofNat 512 (5 * 2 ^ 256), false))]
    refs := [(0x200, some (BitVec.ofNat 512 (6 * 2 ^ 256), true))] }
/-- `r` is v / p to the nearest whole number, halves toward zero. -/
def nearestTo (p : Nat) (v r : Int) : Prop :=
  2 * (v - r * p).natAbs ≤ p ∧ (2 * (v - r * p).natAbs = p → (r * p).natAbs ≤ v.natAbs)
/-- The error that a marker shows, in picoseconds. -/
def markErr (c : Chip) (x : Word) (delay tau : BitVec 30) : Int :=
  dist c.olen x.toNat c.ctr * (c.fld Reg.otBclk F.OtBclk.MEAS * 10 : Nat) + delay.toNat + c.fld .seamHop F.SeamHop.HOP_IN - tau.toNat
/-- What the block holds at position `p` of spool `m`, in granule `g`: in the head or tail register, or in the middle. -/
def readAt (s : State) (m g p : Nat) (data : W256) (lanes : Nat) : Prop :=
  match List.find? (fun r => r.pos == p) ((s.chip.spool m).head ++ (s.chip.spool m).tail) with
  | some r => data = r.data ∧ lanes = r.lanes
  | none => data = spoolWord s.mem g (p % 32) ∧ lanes = s.chip.lanesAt g (p % 32)
theorem mark_spool : wIMark.chip.spool 6 = Spool.empty := by decide +kernel

/-! Witnesses -/

/-- States and operands that meet the hypotheses of `Obligations.StepsNeverStop`, clause by clause. -/
theorem witness_StepsNeverStop :
    ∃ (s : State),
      s.pending = [] :=
  ⟨State.reset, by decide +kernel⟩

/-- States and operands that meet the hypotheses of `Obligations.MemoryFrame`, clause by clause. -/
theorem witness_MemoryFrame :
    ∃ (i : Instr),
      mayWriteMemory i = false :=
  ⟨(Instr.memoryWindowRead 0x0#26), by decide +kernel⟩

/-- States and operands that meet the hypotheses of `Obligations.MemoryStaysCanonical`, clause by clause. -/
theorem witness_MemoryStaysCanonical :
    ∃ (s t : State),
      Safe s ∧ step s = Host.Outcome.next t :=
  ⟨wWindow, nextOf (step wWindow), by unfold Safe; decide +kernel, next_of _ (by decide +kernel)⟩

/-- States and operands that meet the hypotheses of `Obligations.ControlPortAccesses`, clause by clause. -/
theorem witness_ControlPortAccesses :
    (∃ (s : State) (r : Reg),
      Ready s ∧ r ∈ [Reg.otLoad, Reg.hvAt, Reg.bbFrzen, Reg.bbTypeen, Reg.seamSendd0, Reg.seamSendd1] ++ List.map
      Reg.dbgMdata (List.range 8)) ∧
    (∃ (s : State),
      ¬Ready s) ∧
    (∃ (s : State) (a : BitVec 26),
      Ready s ∧ a.toNat % 8 ≠ 0) ∧
    (∃ (s : State) (write : Bool) (a : BitVec 26) (be : BitVec 8),
      Ready s ∧ a.toNat % 8 = 0 ∧ a.toNat < 4194304 ∧ write = true ∧ be ≠ 255#8) ∧
    (∃ (s : State) (a : BitVec 26) (be : BitVec 8),
      Ready s ∧ a.toNat % 8 = 0 ∧ a.toNat < 4194304 ∧ Reg.ofOffset a.toNat = none ∧ be = 255#8) ∧
    (∃ (s : State) (r : Reg),
      Ready s ∧ Reg.ofOffset r.offset = some r ∧ plainReg r = true) ∧
    (∃ (s : State) (r : Reg),
      Ready s ∧ Reg.ofOffset r.offset = some r ∧ plainReg r = true) ∧
    (∃ (r : Reg) (i : ℕ),
      i < 64 ∧ reservedBit r i = true) :=
  ⟨⟨wUp, Reg.otLoad, by unfold Ready; decide +kernel⟩,
  ⟨State.reset, by unfold Ready; decide +kernel⟩,
  ⟨wUp, 0x1#26, by unfold Ready; decide +kernel⟩,
  ⟨wUp, true, 0x0#26, 0x0#8, by unfold Ready; decide +kernel⟩,
  ⟨wUp, 0x8#26, 0xff#8, by unfold Ready; decide +kernel⟩,
  ⟨wUp, Reg.id, by unfold Ready; decide +kernel⟩,
  ⟨wUp, Reg.id, by unfold Ready; decide +kernel⟩,
  ⟨Reg.thCmd, 30, by decide +kernel⟩⟩

/-- States and operands that meet the hypotheses of `Obligations.MemoryWindows`, clause by clause. -/
theorem witness_MemoryWindows :
    (∃ (s : State) (a : BitVec 26),
      Ready s ∧ CleanWord s a.toNat) ∧
    (∃ (s : State) (a : BitVec 26),
      Ready s ∧ CleanWord s a.toNat) ∧
    (∃ (s : State) (a : BitVec 26),
      Ready s ∧ a.toNat % 8 = 0 ∧ 4194304 ≤ a.toNat ∧ a.toNat < 4718592 ∧ Tab.get false s.chip.eccUe a.toNat = true) ∧
    (∃ (s : State) (a : BitVec 26),
      Ready s ∧ a.toNat % 8 = 0 ∧ 4194304 ≤ a.toNat ∧ a.toNat < 4718592 ∧ Tab.get false s.chip.eccUe a.toNat = false ∧
      Tab.get false s.chip.eccCe a.toNat = true) ∧
    (∃ (s : State) (a : BitVec 26) (be : BitVec 8),
      Ready s ∧ a.toNat % 8 = 0 ∧ 4194304 ≤ a.toNat ∧ a.toNat < 4718592 ∧ Tab.get false s.chip.eccUe a.toNat = true ∧
      be ≠ 255#8) ∧
    (∃ (s : State) (a : BitVec 26) (be : BitVec 8),
      Ready s ∧ a.toNat % 8 = 0 ∧ 4194304 ≤ a.toNat ∧ a.toNat < 4718592 ∧ Tab.get false s.chip.eccUe a.toNat = true ∧
      be = 255#8) ∧
    (∃ (s : State) (u k : ℕ),
      Ready s ∧ u < 2 ^ 18 ∧ k < 8 ∧ ((s.chip.thr u).st ≠ TState.idle ∧ (s.chip.thr u).st ≠ TState.halted ∧
      (s.chip.thr u).st ≠ TState.fault)) ∧
    (∃ (s : State) (u k : ℕ) (be : BitVec 8),
      Ready s ∧ u < 2 ^ 18 ∧ k < 8 ∧ ((s.chip.thr u).st = TState.idle ∨ (s.chip.thr u).st = TState.halted ∨
      (s.chip.thr u).st = TState.fault) ∧ be = 255#8) ∧
    (∃ (s : State) (u k : ℕ) (be : BitVec 8),
      Ready s ∧ u < 2 ^ 18 ∧ k < 8 ∧ ((s.chip.thr u).st = TState.idle ∨ (s.chip.thr u).st = TState.halted ∨
      (s.chip.thr u).st = TState.fault) ∧ be ≠ 255#8 ∧ Tab.get false s.chip.eccUe (16777216 + u * 64 + k * 8) = true) ∧
    (∃ (k : ℕ),
      4 ≤ k ∧ k < 8) ∧
    (∃ (k : ℕ),
      k < 8) ∧
    (∃ (s : State) (u : Fin 262144),
      Ready s ∧ ((s.chip.thr ↑u).st = TState.idle ∨ (s.chip.thr ↑u).st = TState.halted ∨ (s.chip.thr ↑u).st =
      TState.fault)) ∧
    (∃ (s : State) (u : Fin 262144),
      Ready s ∧ (s.chip.thr ↑u).st ≠ TState.idle ∧ (s.chip.thr ↑u).st ≠ TState.halted ∧ (s.chip.thr ↑u).st ≠
      TState.fault) :=
  ⟨⟨wUp, 0x810008#26, by unfold CleanWord Ready; decide +kernel⟩,
  ⟨wUp, 0x810008#26, by unfold CleanWord Ready; decide +kernel⟩,
  ⟨wIEcc, 0x400038#26, by unfold Ready; decide +kernel⟩,
  ⟨wEccC, 0x400038#26, by unfold Ready; decide +kernel⟩,
  ⟨wIEcc, 0x400038#26, 0x0#8, by unfold Ready; decide +kernel⟩,
  ⟨wIEcc, 0x400038#26, 0xff#8, by unfold Ready; decide +kernel⟩,
  ⟨wTaskWake, 9, 0, by unfold Ready; decide +kernel⟩,
  ⟨wUp, 0, 0, 0xff#8, by unfold Ready; decide +kernel⟩,
  ⟨wEccR, 0, 0, 0x0#8, by unfold Ready; decide +kernel⟩,
  ⟨4, by decide +kernel⟩,
  ⟨0, by decide +kernel⟩,
  ⟨wUp, 0, by unfold Ready; decide +kernel⟩,
  ⟨wTaskWake, 9, by unfold Ready; decide +kernel⟩⟩

/-- States and operands that meet the hypotheses of `Obligations.Crossings`, clause by clause. -/
theorem witness_Crossings :
    (∃ (l x : ℕ),
      0 < l ∧ l ≤ 4096 ∧ x % 4096 < l) ∧
    (∃ (n imm : ℕ),
      imm < 2 ^ 32 ∧ 2 ^ 19 ≤ n / 4096 ∧ n / 4096 + 2 ^ 19 < 2 ^ 52) ∧
    (∃ (l n imm : ℕ),
      imm < 2 ^ 32 ∧ 0 < l ∧ l ≤ 4096 ∧ n % 4096 < l) ∧
    (∃ (th : Thread) (imm : ℕ),
      imm < 2 ^ 32 ∧ th.bv = false) :=
  ⟨⟨1, 0, by decide +kernel⟩,
  ⟨2147483648, 0, by decide +kernel⟩,
  ⟨1, 0, 0, by decide +kernel⟩,
  ⟨Thread.wiped, 0, by decide +kernel⟩⟩

/-- States and operands that meet the hypotheses of `Obligations.ClockAndRun`, clause by clause. -/
theorem witness_ClockAndRun :
    (∃ (s : State),
      coreUp s.chip = true ∧ s.chip.tb.present = true ∧ s.chip.alignSt ≠ 8) ∧
    (∃ (s : State),
      coreUp s.chip = true ∧ s.chip.tb.present = false) ∧
    (∃ (s : State),
      coreUp s.chip = true ∧ s.chip.tb.present = true) ∧
    (∃ (s : State),
      Ready s ∧ s.chip.runEn = En.off) ∧
    (∃ (s : State),
      Ready s ∧ s.chip.runEn = En.running ∧ s.chip.alignSt ≠ 2 ∧ s.chip.alignSt ≠ 8) ∧
    (∃ (s : State),
      Ready s ∧ s.chip.runEn = En.running ∧ (s.chip.alignSt = 2 ∨ s.chip.alignSt = 8)) ∧
    (∃ (s : State),
      Ready s ∧ s.chip.runEn = En.off) ∧
    (∃ (s : State) (m : Fin 2),
      Ready s ∧ s.chip.runEn ≠ En.off ∧ s.chip.fld Reg.otCtl F.OtCtl.MODE ≠ ↑m) ∧
    (∃ (s : State),
      s.chip.ringMode = true ∧ coreUp s.chip = true ∧ s.chip.isRef = false ∧ 3 ≤ s.chip.alignSt ∧ s.chip.alignSt ≤ 7) ∧
    (∃ (s : State),
      s.chip.isRef = true) ∧
    (∃ (s : State),
      coreUp s.chip = true ∧ s.chip.alignSt = 4 ∧ s.chip.fld Reg.otAlign F.OtAlign.MISSED + b2n s.chip.tb.missedOver <
      s.chip.fld Reg.otAlignCfg F.OtAlignCfg.HOLD_ORBITS + 1) ∧
    (∃ (s : State),
      coreUp s.chip = true ∧ s.chip.alignSt = 4 ∧ s.chip.fld Reg.otAlignCfg F.OtAlignCfg.HOLD_ORBITS + 1 ≤ s.chip.fld
      Reg.otAlign F.OtAlign.MISSED + b2n s.chip.tb.missedOver) :=
  ⟨⟨wFree, by decide +kernel⟩,
  ⟨State.reset, by decide +kernel⟩,
  ⟨wFree, by decide +kernel⟩,
  ⟨wUp, by unfold Ready; decide +kernel⟩,
  ⟨wFree, by unfold Ready; decide +kernel⟩,
  ⟨wAcquire, by unfold Ready; decide +kernel⟩,
  ⟨wUp, by unfold Ready; decide +kernel⟩,
  ⟨wFree, 1, by unfold Ready; decide +kernel⟩,
  ⟨wAligned, by decide +kernel⟩,
  ⟨wS2ref, by decide +kernel⟩,
  ⟨wHoldEarly, by decide +kernel⟩,
  ⟨wHoldover, by decide +kernel⟩⟩

/-- States and operands that meet the hypotheses of `Obligations.GeometryAndLoads`, clause by clause. -/
theorem witness_GeometryAndLoads :
    (∃ (s : State) (w : Word),
      Ready s ∧ s.chip.runEn = En.off ∧ 15 ≤ fget w F.OtGeom.OLEN ∧ 0 < fget w F.OtGeom.GAP ∧ fget w F.OtGeom.GAP ≤
      fget w F.OtGeom.OLEN) ∧
    (∃ (s : State),
      Ready s ∧ s.chip.runEn ≠ En.off) ∧
    (∃ (s : State) (w : Word),
      Ready s ∧ s.chip.runEn = En.off ∧ (fget w F.OtGeom.OLEN < 15 ∨ fget w F.OtGeom.GAP = 0 ∨ fget w F.OtGeom.OLEN <
      fget w F.OtGeom.GAP)) ∧
    (∃ (s : State),
      Ready s ∧ s.chip.alignSt = 0 ∧ BitVec.toNat (s.chip.rd Reg.otLoad) % 4096 < s.chip.olen) ∧
    (∃ (s : State),
      Ready s ∧ s.chip.alignSt = 1 ∧ BitVec.toNat (s.chip.rd Reg.otLoad) % 4096 < s.chip.olen) ∧
    (∃ (s : State),
      Ready s ∧ (s.chip.olen ≤ BitVec.toNat (s.chip.rd Reg.otLoad) % 4096 ∨ s.chip.alignSt ≠ 0 ∧ s.chip.alignSt ≠ 1)) ∧
    (∃ (s : State),
      Ready s ∧ s.chip.ringMode = true) ∧
    (∃ (s : State),
      Ready s ∧ s.chip.ringMode = false) :=
  ⟨⟨wUp, 0x3ffff0#64, by unfold Ready; decide +kernel⟩,
  ⟨wFree, by unfold Ready; decide +kernel⟩,
  ⟨wUp, 0x0#64, by unfold Ready; decide +kernel⟩,
  ⟨wStopped, by unfold Ready; decide +kernel⟩,
  ⟨wFree, by unfold Ready; decide +kernel⟩,
  ⟨wUp, by unfold Ready; decide +kernel⟩,
  ⟨wStoppedRing, by unfold Ready; decide +kernel⟩,
  ⟨wUp, by unfold Ready; decide +kernel⟩⟩

/-- States and operands that meet the hypotheses of `Obligations.EdgeAdvances`, clause by clause. -/
theorem witness_EdgeAdvances :
    (∃ (s : State),
      (Ready s ∨ s.chip.pwr.phase = Phase.quiesce) ∧ s.chip.tb.present = true ∧ s.chip.tb.agenda = [] ∧
      s.chip.counting = true ∧ s.chip.tb.opening = false ∧ s.chip.tb.freeLoad = none ∧ s.chip.tb.resync = false ∧
      s.chip.runEn = En.running ∧ s.chip.ctr % 4096 + 1 < s.chip.olen) ∧
    (∃ (s : State),
      (Ready s ∨ s.chip.pwr.phase = Phase.quiesce) ∧ s.chip.tb.present = true ∧ s.chip.tb.agenda = [] ∧
      s.chip.counting = true ∧ s.chip.tb.opening = false ∧ s.chip.tb.freeLoad = none ∧ s.chip.tb.resync = false ∧
      s.chip.runEn = En.running ∧ s.chip.olen ≤ s.chip.ctr % 4096 + 1 ∧ s.chip.ctr / 4096 + 1 < 2 ^ 52) ∧
    (∃ (s : State),
      (Ready s ∨ s.chip.pwr.phase = Phase.quiesce) ∧ s.chip.tb.present = true ∧ s.chip.tb.agenda = [] ∧
      s.chip.counting = true ∧ s.chip.tb.opening = false ∧ s.chip.tb.freeLoad = none ∧ s.chip.tb.resync = false ∧
      s.chip.runEn = En.running ∧ s.chip.olen ≤ s.chip.ctr % 4096 + 1 ∧ s.chip.ctr / 4096 + 1 = 2 ^ 52 ∧ QuietEdges s
      ∧ s.chip.gap < s.chip.olen) :=
  ⟨⟨wFree, by unfold Ready; decide +kernel⟩,
  ⟨wLastSlot, by unfold Ready; decide +kernel⟩,
  ⟨wWrap, by unfold Ready QuietEdges; decide +kernel⟩⟩

/-- States and operands that meet the hypotheses of `Obligations.EdgeSteps`, clause by clause. -/
theorem witness_EdgeSteps :
    (∃ (s : State) (v : ℕ),
      Ready s ∧ s.chip.tb.present = true ∧ QuietEdges s ∧ s.chip.gap < s.chip.olen ∧ s.chip.alignSt = 1 ∧
      s.chip.tb.freeLoad = some v ∧ v < 2 ^ 64 ∧ v ≠ s.chip.nextCount.1 ∧ s.chip.nextCount.2 = false ∧ v % 4096 ≠
      s.chip.olen - s.chip.gap ∧ s.chip.runEn = En.running) ∧
    (∃ (s : State) (v : ℕ),
      Ready s ∧ s.chip.tb.present = true ∧ QuietEdges s ∧ s.chip.gap < s.chip.olen ∧ 3 ≤ s.chip.alignSt ∧
      s.chip.alignSt ≤ 7 ∧ s.chip.tb.freeLoad = none ∧ s.chip.resyncNow s.chip.nextCount.1 = true ∧ s.chip.nextCount.2
      = false ∧ s.chip.otOffset ≠ 0 ∧ v = s.chip.shiftX s.chip.nextCount.1 s.chip.otOffset ∧ v < 2 ^ 64 ∧ v % 4096 ≠
      s.chip.olen - s.chip.gap ∧ s.chip.runEn = En.running) ∧
    (∃ (s : State),
      Ready s ∧ s.chip.tb.present = true ∧ QuietEdges s ∧ s.chip.gap < s.chip.olen ∧ 3 ≤ s.chip.alignSt ∧
      s.chip.alignSt ≤ 7 ∧ s.chip.tb.freeLoad = none ∧ s.chip.tb.opening = false ∧ s.chip.resyncNow s.chip.nextCount.1
      = true ∧ s.chip.otOffset = 0 ∧ s.chip.nextCount.2 = false ∧ s.chip.runEn = En.running) ∧
    (∃ (s : State),
      Ready s ∧ s.chip.tb.present = true ∧ QuietEdges s ∧ s.chip.gap < s.chip.olen ∧ s.chip.counting = true ∧
      s.chip.tb.freeLoad = none ∧ s.chip.tb.resync = false ∧ s.chip.olen ≤ s.chip.ctr % 4096 + 1 ∧ s.chip.ctr / 4096 +
      1 < 2 ^ 52 ∧ (s.chip.runEn = En.stopping ∨ s.chip.runEn = En.restart)) :=
  ⟨⟨wFreeLoad, 40961, by unfold QuietEdges Ready; decide +kernel⟩,
  ⟨wResync, 24578, by unfold Ready QuietEdges; decide +kernel⟩,
  ⟨wResyncM0, by unfold Ready QuietEdges; decide +kernel⟩,
  ⟨wStopping, by unfold Ready QuietEdges; decide +kernel⟩⟩

/-- States and operands that meet the hypotheses of `Obligations.EdgeTasks`, clause by clause. -/
theorem witness_EdgeTasks :
    (∃ (s : State) (e : SetatEntry) (rest : List EdgeTask),
      Ready s ∧ s.chip.tb.agenda = EdgeTask.setat e :: rest ∧ (∀ u ∈ rest, 1 ≤ Chip.rank u) ∧ e ∈ s.chip.tb.setat ∧
      e.off % 8 = 0 ∧ 8388608 ≤ e.off ∧ e.off < 9437184) ∧
    (∃ (s : State) (e : SetatEntry) (rest : List EdgeTask) (r : Reg),
      Ready s ∧ s.chip.tb.agenda = EdgeTask.setat e :: rest ∧ (∀ u ∈ rest, 1 ≤ Chip.rank u) ∧ e ∈ s.chip.tb.setat ∧ r
      ∈ [Reg.otLoad, Reg.hvAt, Reg.bbFrzen, Reg.bbTypeen, Reg.seamSendd0, Reg.seamSendd1] ∧ e.off = r.offset) ∧
    (∃ (s : State) (u : Fin 262144) (x : ℕ) (rest : List EdgeTask),
      coreUp s.chip = true ∧ s.chip.tb.agenda = EdgeTask.wake (↑u) x :: rest ∧ (∀ y ∈ rest, 2 ≤ Chip.rank y) ∧
      (s.chip.thr ↑u).target ≠ x) ∧
    (∃ (s : State) (u : Fin 262144) (x : ℕ) (rest : List EdgeTask),
      coreUp s.chip = true ∧ s.chip.tb.agenda = EdgeTask.wake (↑u) x :: rest ∧ (∀ y ∈ rest, 2 ≤ Chip.rank y) ∧
      (s.chip.thr ↑u).st = TState.waiting ∧ (s.chip.thr ↑u).kind = kXing ∧ (s.chip.thr ↑u).target = x ∧ AtHome s.chip
      ↑u) ∧
    (∃ (s : State) (l : BitVec 16) (fin : ℕ) (rest : List EdgeTask),
      coreUp s.chip = true ∧ l.toNat < 1024 ∧ s.chip.tb.agenda = EdgeTask.lease l.toNat fin :: rest ∧ (∀ u ∈ rest, 3 ≤
      Chip.rank u) ∧ (s.chip.lockAt l.toNat).st = LockState.held ∧ (s.chip.lockAt l.toNat).leaseEnd = fin ∧
      s.chip.lockWaiters l.toNat = []) ∧
    (∃ (s : State) (k : Fin 1024) (d : DecEntry) (rest : List EdgeTask),
      coreUp s.chip = true ∧ s.chip.tb.agenda = EdgeTask.missing ↑k :: rest ∧ (∀ u ∈ rest, 3 ≤ Chip.rank u) ∧ Tab.get
      DecEntry.unused s.chip.dec ↑k = d ∧ d.st = DecState.opened ∧ s.chip.decPos d.x = ↑k ∧ ((s.chip.waiters kDec fun
      x => x == d.x % 2 ^ 24) = [])) :=
  ⟨⟨wTaskSetat2, { target := 20483, off := 8454152, value := 0x4d#64 }, [EdgeTask.wake 9 20483], by unfold Ready; decide +kernel⟩,
  ⟨wTaskSetatR, { target := 20483, off := 65584, value := 0x4d#64 }, [], Reg.otLoad, by unfold Ready; decide +kernel⟩,
  ⟨wTaskWake, 9, 20483, [EdgeTask.harvest], by decide +kernel⟩,
  ⟨wWakeT, 9, 20483, [EdgeTask.harvest], by unfold AtHome; decide +kernel⟩,
  ⟨wTaskLease, 0x7#16, 20483, [EdgeTask.monitor], by decide +kernel⟩,
  ⟨wTaskMissing, 3, { st := DecState.opened, x := 20483, word := 2415919104 }, [], by decide +kernel⟩⟩

/-- States and operands that meet the hypotheses of `Obligations.ConfigurationSets`, clause by clause. -/
theorem witness_ConfigurationSets :
    (∃ (s : State) (rest : List EdgeTask),
      coreUp s.chip = true ∧ s.chip.tb.agenda = EdgeTask.swap :: rest ∧ s.chip.commitPending = true) ∧
    (∃ (s : State) (named : Bool) (orbit : BitVec 52) (o : ℕ),
      Ready s ∧ 0 < s.chip.gap ∧ s.chip.gap < s.chip.olen ∧ s.chip.ctr % 4096 < s.chip.olen ∧ s.chip.ctr / 4096 + 4097
      < 2 ^ 52 ∧ (FirstSafeGap s.chip (if named = true then orbit.toNat else s.chip.ctr / 4096) o) ∧
      s.chip.commitPending = false) ∧
    (∃ (s : State) (named : Bool) (orbit : BitVec 52) (o : ℕ),
      Ready s ∧ 0 < s.chip.gap ∧ s.chip.gap < s.chip.olen ∧ s.chip.ctr % 4096 < s.chip.olen ∧ s.chip.ctr / 4096 + 4097
      < 2 ^ 52 ∧ (FirstSafeGap s.chip (if named = true then orbit.toNat else s.chip.ctr / 4096) o) ∧
      s.chip.commitPending = true ∧ s.chip.commitOrbit = o) ∧
    (∃ (s : State) (named : Bool) (orbit : BitVec 52) (o : ℕ),
      Ready s ∧ 0 < s.chip.gap ∧ s.chip.gap < s.chip.olen ∧ s.chip.ctr % 4096 < s.chip.olen ∧ s.chip.ctr / 4096 + 4097
      < 2 ^ 52 ∧ (FirstSafeGap s.chip (if named = true then orbit.toNat else s.chip.ctr / 4096) o) ∧
      s.chip.commitPending = true ∧ s.chip.commitOrbit ≠ o) ∧
    (∃ (s : State),
      Ready s ∧ s.chip.commitPending = true ∧ ↑(s.chip.fld Reg.commitCfg F.CommitCfg.GUARD) ≤ Machine.dist s.chip.olen
      s.chip.commitAt s.chip.ctr) ∧
    (∃ (s : State),
      Ready s ∧ s.chip.commitPending = true ∧ Machine.dist s.chip.olen s.chip.commitAt s.chip.ctr < ↑(s.chip.fld
      Reg.commitCfg F.CommitCfg.GUARD)) ∧
    (∃ (s : State),
      Ready s ∧ s.chip.commitPending = false) :=
  ⟨⟨wTaskSwap, [], by decide +kernel⟩,
  ⟨wUp, false, 0x0#52, 0, by unfold FirstSafeGap Ready; decide +kernel⟩,
  ⟨wCommitPend, false, 0x0#52, 5, by unfold FirstSafeGap Ready; decide +kernel⟩,
  ⟨wTaskSwap, false, 0x0#52, 5, by unfold FirstSafeGap Ready; decide +kernel⟩,
  ⟨wCommitPend, by unfold Ready; decide +kernel⟩,
  ⟨wTaskSwap, by unfold Ready; decide +kernel⟩,
  ⟨wUp, by unfold Ready; decide +kernel⟩⟩

/-- States and operands that meet the hypotheses of `Obligations.IngestPorts`, clause by clause. -/
theorem witness_IngestPorts :
    (∃ (s : State) (p st : Fin 16) (sop : Bool),
      coreUp s.chip = true ∧ (s.chip.ip ↑p).stopping = false ∧ s.chip.quar ↑p = false ∧ (s.chip.ip ↑p).fifo.length <
      16 ∧ sop = true ∧ (s.chip.ip ↑p).pkt = none ∧ s.chip.bit (Reg.ipMap ↑p ↑st) F.IpMap.VALID = true ∧ s.chip.spEn
      (s.chip.fld (Reg.ipMap ↑p ↑st) F.IpMap.SPOOL) ≠ En.off) ∧
    (∃ (s : State) (p st : Fin 16) (sop : Bool) (m : ℕ),
      coreUp s.chip = true ∧ (s.chip.ip ↑p).stopping = false ∧ s.chip.quar ↑p = false ∧ (s.chip.ip ↑p).fifo.length <
      16 ∧ sop = false ∧ (s.chip.ip ↑p).dropRest = false ∧ (s.chip.ip ↑p).pkt = some (↑st, some m) ∧ s.chip.spEn m ≠
      En.off) ∧
    (∃ (s : State) (p st : Fin 16) (sop : Bool),
      coreUp s.chip = true ∧ (s.chip.ip ↑p).stopping = false ∧ s.chip.quar ↑p = false ∧ (s.chip.ip ↑p).fifo.length <
      16 ∧ sop = true ∧ (s.chip.ip ↑p).pkt = none ∧ (s.chip.bit (Reg.ipMap ↑p ↑st) F.IpMap.VALID = false ∨ s.chip.spEn
      (s.chip.fld (Reg.ipMap ↑p ↑st) F.IpMap.SPOOL) = En.off)) ∧
    (∃ (s : State) (p st : Fin 16) (sop : Bool) (m : ℕ),
      coreUp s.chip = true ∧ (s.chip.ip ↑p).stopping = false ∧ s.chip.quar ↑p = false ∧ (s.chip.ip ↑p).fifo.length <
      16 ∧ sop = false ∧ (s.chip.ip ↑p).dropRest = false ∧ (s.chip.ip ↑p).pkt = some (↑st, some m) ∧ s.chip.spEn m =
      En.off) ∧
    (∃ (s : State) (p : Fin 16) (sop : Bool),
      coreUp s.chip = true ∧ (s.chip.ip ↑p).stopping = false ∧ s.chip.quar ↑p = false ∧ (s.chip.ip ↑p).fifo.length <
      16 ∧ sop = false ∧ (s.chip.ip ↑p).dropRest = true) ∧
    (∃ (s : State) (p : Fin 16) (sop : Bool),
      coreUp s.chip = true ∧ (s.chip.ip ↑p).stopping = false ∧ s.chip.quar ↑p = false ∧ (s.chip.ip ↑p).fifo.length <
      16 ∧ sop = false ∧ (s.chip.ip ↑p).dropRest = false ∧ (s.chip.ip ↑p).pkt = none) ∧
    (∃ (s : State) (p : Fin 16),
      coreUp s.chip = true ∧ (s.chip.ip ↑p).stopping = false ∧ s.chip.quar ↑p = true) ∧
    (∃ (s : State) (p : Fin 16),
      coreUp s.chip = true ∧ (s.chip.ip ↑p).stopping = false ∧ s.chip.quar ↑p = false ∧ 16 ≤ (s.chip.ip
      ↑p).fifo.length) ∧
    (∃ (s : State) (p : Fin 16),
      coreUp s.chip = true ∧ s.chip.bit (Reg.ipStat ↑p) F.IpStat.CLK_OK = false) ∧
    (∃ (s : State) (p : Fin 16),
      coreUp s.chip = true ∧ s.chip.bit (Reg.ipStat ↑p) F.IpStat.CLK_OK = true ∧ (s.chip.ip ↑p).pkt = none) ∧
    (∃ (s : State) (p : Fin 16),
      coreUp s.chip = true ∧ s.chip.bit Reg.spcStat F.SpcStat.WIPE_DONE = true ∧ s.chip.pwr.phase ≠ Phase.quiesce ∧
      s.chip.quar ↑p = true ∧ s.chip.ipEn ↑p = En.running ∧ s.chip.bit (Reg.ipStat ↑p) F.IpStat.CLK_OK = true ∧ (∀ q <
      ↑p, s.chip.quar q = false ∨ s.chip.ipEn q ≠ En.running ∨ s.chip.bit (Reg.ipStat q) F.IpStat.CLK_OK = false)) ∧
    (∃ (s : State) (p : Fin 16),
      Ready s ∧ s.chip.ipEn ↑p = En.off) ∧
    (∃ (s : State) (p : Fin 16),
      Ready s ∧ s.chip.ipEn ↑p = En.running ∧ s.chip.bit (Reg.ipStat ↑p) F.IpStat.CLK_OK = true ∧ (s.chip.ip ↑p).pkt =
      none ∧ (s.chip.ip ↑p).fifo ≠ []) ∧
    (∃ (s : State) (p : Fin 16),
      Ready s ∧ s.chip.ipEn ↑p = En.running ∧ s.chip.bit (Reg.ipStat ↑p) F.IpStat.CLK_OK = false) ∧
    (∃ (s : State) (p : Fin 16),
      Ready s ∧ s.chip.ipEn ↑p = En.running ∧ s.chip.bit (Reg.ipStat ↑p) F.IpStat.CLK_OK = true ∧ (s.chip.ip ↑p).pkt =
      none ∧ (s.chip.ip ↑p).fifo = []) ∧
    (∃ (s : State) (p : Fin 16),
      Ready s ∧ s.chip.ipEn ↑p = En.running ∧ s.chip.bit (Reg.ipStat ↑p) F.IpStat.CLK_OK = true ∧ (s.chip.ip ↑p).pkt ≠
      none ∧ s.chip.quar ↑p = false) ∧
    (∃ (s : State) (p : Fin 16),
      coreUp s.chip = true ∧ (s.chip.ip ↑p).stopping = true ∧ (s.chip.ip ↑p).pkt = none) ∧
    (∃ (s : State) (p : Fin 16),
      coreUp s.chip = true ∧ (s.chip.ipEn ↑p = En.stopping ∨ s.chip.ipEn ↑p = En.restart) ∧ (s.chip.ip ↑p).stopping =
      false ∧ s.chip.quar ↑p = true ∧ (s.chip.ip ↑p).fifo = []) ∧
    (∃ (s : State) (p st : Fin 16) (w : Word),
      Ready s ∧ (¬(fbit w F.IpMap.VALID = true ∧ ∃ q u, q < 16 ∧ u < 16 ∧ (q ≠ ↑p ∨ u ≠ ↑st) ∧ s.chip.bit (Reg.ipMap q
      u) F.IpMap.VALID = true ∧ s.chip.fld (Reg.ipMap q u) F.IpMap.SPOOL = fget w F.IpMap.SPOOL))) ∧
    (∃ (s : State) (p st : Fin 16) (w : Word),
      Ready s ∧ (fbit w F.IpMap.VALID = true ∧ ∃ q u, q < 16 ∧ u < 16 ∧ (q ≠ ↑p ∨ u ≠ ↑st) ∧ s.chip.bit (Reg.ipMap q
      u) F.IpMap.VALID = true ∧ s.chip.fld (Reg.ipMap q u) F.IpMap.SPOOL = fget w F.IpMap.SPOOL)) :=
  ⟨⟨wIpOn, 3, 2, true, by decide +kernel⟩,
  ⟨wIpOpen, 3, 2, false, 6, by decide +kernel⟩,
  ⟨wIpOn, 3, 0, true, by decide +kernel⟩,
  ⟨wIpOpenOff, 3, 2, false, 6, by decide +kernel⟩,
  ⟨wIpRest, 3, false, by decide +kernel⟩,
  ⟨wIpOn, 3, false, by decide +kernel⟩,
  ⟨State.reset, 0, by decide +kernel⟩,
  ⟨wIpFull, 3, by decide +kernel⟩,
  ⟨State.reset, 0, by decide +kernel⟩,
  ⟨wIpOn, 3, by decide +kernel⟩,
  ⟨wIpQuar, 3, by decide +kernel⟩,
  ⟨wUp, 0, by unfold Ready; decide +kernel⟩,
  ⟨wIpFull, 3, by unfold Ready; decide +kernel⟩,
  ⟨wIpLost, 3, by unfold Ready; decide +kernel⟩,
  ⟨wIpOn, 3, by unfold Ready; decide +kernel⟩,
  ⟨wIpOpen, 3, by unfold Ready; decide +kernel⟩,
  ⟨wIpStopping, 3, by decide +kernel⟩,
  ⟨wIpStopped, 3, by decide +kernel⟩,
  ⟨wUp, 0, 0, 0x0#64, by unfold Ready; decide +kernel, fun h => absurd h.1 (by decide)⟩,
  ⟨wIpOn, 0, 0, 0x8000000000000006#64, by unfold Ready; decide +kernel, by decide +kernel, 3, 2,
    by decide +kernel⟩⟩

/-- States and operands that meet the hypotheses of `Obligations.SpoolWordWrites`, clause by clause. -/
theorem witness_SpoolWordWrites :
    (∃ (s : State) (p : Fin 16) (w : FWord) (rest : List FWord),
      Ready s ∧ (s.chip.ip ↑p).fifo = w :: rest ∧ ((if w.spool < 256 then s.chip.spEn w.spool else En.off) =
      En.running) ∧ s.chip.canTake w.spool = true ∧ (w.eop = false ∨ s.chip.threads = []) ∧ (w.sop = false ∨
      s.chip.svcEn 4 ≠ En.running)) ∧
    (∃ (s : State) (p : Fin 16) (w : FWord) (rest : List FWord),
      Ready s ∧ (s.chip.ip ↑p).fifo = w :: rest ∧ ((if w.spool < 256 then s.chip.spEn w.spool else En.off) =
      En.running) ∧ s.chip.canTake w.spool = true ∧ w.eop = true ∧ (∀ x ∈ s.chip.threads, s.chip.thr x.1 = x.2) ∧ (∀
      (u : ℕ), (fun u => (s.chip.thr u).st == TState.waiting && (s.chip.thr u).kind == kSpool && (s.chip.thr u).arg /
      2 ^ 20 == w.spool && Chip.spoolWaitMet (s.chip.thr u).arg ((s.chip.wp w.spool + 1) % 2 ^ 48)) u = true → AtHome
      s.chip u) ∧ (∀ (n : ℕ), (s.chip.ndl n).queues.length = 4)) ∧
    (∃ (s : State) (p : Fin 16) (w : FWord) (rest : List FWord),
      Ready s ∧ (s.chip.ip ↑p).fifo = w :: rest ∧ ((if w.spool < 256 then s.chip.spEn w.spool else En.off) =
      En.running) ∧ s.chip.canTake w.spool = false) ∧
    (∃ (s : State) (p : Fin 16) (w : FWord) (rest : List FWord),
      Ready s ∧ (s.chip.ip ↑p).fifo = w :: rest ∧ ((if w.spool < 256 then s.chip.spEn w.spool else En.off) = En.off)) ∧
    (∃ (s : State) (p : Fin 16) (w : FWord) (rest : List FWord),
      Ready s ∧ (s.chip.ip ↑p).fifo = w :: rest ∧ ((if w.spool < 256 then s.chip.spEn w.spool else En.off) =
      En.stopping ∨ (if w.spool < 256 then s.chip.spEn w.spool else En.off) = En.restart)) ∧
    (∃ (c : Chip) (m : ℕ),
      c.spFull m = true) ∧
    (∃ (c : Chip) (m : ℕ),
      c.spMode m < 2 ∧ c.spFull m = false) :=
  ⟨⟨wIpFifo, 3, beat, [], by unfold Ready; decide +kernel⟩,
  ⟨wIpFifoEopW, 3, { beat with eop := true, sop := false }, [], by unfold Ready; decide +kernel, by decide +kernel,
    by decide +kernel, by decide +kernel, rfl, by decide +kernel, fun u hu => (by
      by_cases h : u = 9
      · subst h; unfold AtHome; decide +kernel
      · beta_reduce at hu; rw [eop_waiter u h] at hu; cases hu), fun n => by rw [eop_needle n]; rfl⟩,
  ⟨wIpFifoFull, 3, beat, [], by unfold Ready; decide +kernel⟩,
  ⟨wIpFull, 3, beat, (List.replicate 15 beat), by unfold Ready; decide +kernel⟩,
  ⟨wIpFifoStop, 3, beat, [beat], by unfold Ready; decide +kernel⟩,
  ⟨wIpFifoFull.chip, 6, by decide +kernel⟩,
  ⟨State.reset.chip, 0, by decide +kernel⟩⟩

/-- States and operands that meet the hypotheses of `Obligations.SpoolConfiguration`, clause by clause. -/
theorem witness_SpoolConfiguration :
    (∃ (s : State) (m : Fin 256),
      Ready s ∧ s.chip.spEn ↑m = En.off) ∧
    (∃ (s : State) (m : Fin 256),
      Ready s ∧ s.chip.spEn ↑m ≠ En.off) :=
  ⟨⟨wUp, 0, by unfold Ready; decide +kernel⟩,
  ⟨wIpOn, 6, by unfold Ready; decide +kernel⟩⟩

/-- States and operands that meet the hypotheses of `Obligations.SpoolEnables`, clause by clause. -/
theorem witness_SpoolEnables :
    (∃ (s : State),
      Ready s) ∧
    (∃ (s : State) (m : Fin 256),
      Ready s ∧ s.chip.spEn ↑m = En.off ∧ s.chip.regionOk ↑m = true) ∧
    (∃ (s : State) (m : Fin 256),
      Ready s ∧ s.chip.spEn ↑m = En.off ∧ s.chip.regionOk ↑m = false) ∧
    (∃ (s : State) (m : Fin 256),
      Ready s ∧ s.chip.spEn ↑m = En.running ∧ s.chip.spIdle ↑m = true) ∧
    (∃ (s : State) (m : Fin 256),
      Ready s ∧ s.chip.spEn ↑m = En.running ∧ s.chip.spIdle ↑m = false) ∧
    (∃ (s : State) (m : Fin 256),
      Ready s ∧ s.chip.spEn ↑m = En.stopping) ∧
    (∃ (s : State) (m : Fin 256),
      coreUp s.chip = true ∧ s.chip.spEn ↑m = En.stopping ∧ s.chip.spIdle ↑m = true) ∧
    (∃ (s : State) (m : Fin 256),
      coreUp s.chip = true ∧ s.chip.spEn ↑m = En.restart ∧ s.chip.spIdle ↑m = true ∧ s.chip.regionOk ↑m = true) ∧
    (∃ (s : State) (m : Fin 256) (u b : ℕ) (v : SavedCursor),
      Ready s ∧ s.chip.spEn ↑m = En.stopping ∧ s.chip.refillWaiters ↑m = [(u, b)] ∧ (s.chip.thr u).undo = some v ∧
      (s.chip.thr u).retReg < 8) :=
  ⟨⟨wUp, by unfold Ready; decide +kernel⟩,
  ⟨wUp, 0, by unfold Ready; decide +kernel⟩,
  ⟨wSpOverlap, 7, by unfold Ready; decide +kernel⟩,
  ⟨wIpOn, 6, by unfold Ready; decide +kernel⟩,
  ⟨wSpHeld, 6, by unfold Ready; decide +kernel⟩,
  ⟨wIpFifoStop, 6, by unfold Ready; decide +kernel⟩,
  ⟨wIpFifoStop, 6, by decide +kernel⟩,
  ⟨wSpRestart, 6, by decide +kernel⟩,
  ⟨wSpForceWaits, 6, 9, 0, { hv := true, handle := 393217, cv := true, curoff := 2 }, by unfold Ready; decide +kernel⟩⟩

/-- States and operands that meet the hypotheses of `Obligations.MarksAndRewinds`, clause by clause. -/
theorem witness_MarksAndRewinds :
    (∃ (s : State) (n : Fin 128) (k : Fin 8) (sl : Slot) (wd ws mode m : ℕ),
      m < 256 ∧ wd < 8 ∧ mode < 3 ∧ Issues s n k sl (WInstr.mark wd ws mode m) ∧ s.chip.spEn m ≠ En.running) ∧
    (∃ (s : State) (n : Fin 128) (k : Fin 8) (sl : Slot) (wd ws mode m : ℕ),
      m < 256 ∧ wd < 8 ∧ mode < 3 ∧ Issues s n k sl (WInstr.mark wd ws mode m) ∧ s.chip.spEn m = En.running ∧ (mode =
      2 → s.chip.fp m ≤ s.chip.wp m ∧ s.chip.wp m < 2 ^ 47 ∧ s.chip.wp m < s.chip.fp m + 2 ^ 32) ∧ (∀ (p : ℕ), ¬(fun p
      => mode = 0 ∧ p = s.chip.wp m ∨ (mode = 1 ∧ ∃ pre post, (s.chip.spool m).index = pre ++ (BitVec.toNat
      (sl.live.reg ws) % 2 ^ 24, p) :: post ∧ ∀ x ∈ pre, x.1 ≠ BitVec.toNat (sl.live.reg ws) % 2 ^ 24) ∨ mode = 2 ∧
      s.chip.fp m ≤ p ∧ p ≤ s.chip.wp m ∧ p % 2 ^ 32 = BitVec.toNat (sl.live.reg ws)) p)) ∧
    (∃ (s : State) (n : Fin 128) (k : Fin 8) (sl : Slot) (wd ws mode m p x : ℕ),
      m < 256 ∧ wd < 8 ∧ mode < 3 ∧ Issues s n k sl (WInstr.mark wd ws mode m) ∧ s.chip.spEn m = En.running ∧ (mode =
      2 → s.chip.fp m ≤ s.chip.wp m ∧ s.chip.wp m < 2 ^ 47 ∧ s.chip.wp m < s.chip.fp m + 2 ^ 32) ∧ ((fun p => mode = 0
      ∧ p = s.chip.wp m ∨ (mode = 1 ∧ ∃ pre post, (s.chip.spool m).index = pre ++ (BitVec.toNat (sl.live.reg ws) % 2 ^
      24, p) :: post ∧ ∀ x ∈ pre, x.1 ≠ BitVec.toNat (sl.live.reg ws) % 2 ^ 24) ∨ mode = 2 ∧ s.chip.fp m ≤ p ∧ p ≤
      s.chip.wp m ∧ p % 2 ^ 32 = BitVec.toNat (sl.live.reg ws)) p) ∧ (s.chip.spool m).newest = some x ∧ posDiff p x <
      0) ∧
    (∃ (s : State) (n : Fin 128) (k : Fin 8) (sl : Slot) (wd ws mode m p : ℕ),
      m < 256 ∧ wd < 8 ∧ mode < 3 ∧ Issues s n k sl (WInstr.mark wd ws mode m) ∧ s.chip.spEn m = En.running ∧ (mode =
      2 → s.chip.fp m ≤ s.chip.wp m ∧ s.chip.wp m < 2 ^ 47 ∧ s.chip.wp m < s.chip.fp m + 2 ^ 32) ∧ ((fun p => mode = 0
      ∧ p = s.chip.wp m ∨ (mode = 1 ∧ ∃ pre post, (s.chip.spool m).index = pre ++ (BitVec.toNat (sl.live.reg ws) % 2 ^
      24, p) :: post ∧ ∀ x ∈ pre, x.1 ≠ BitVec.toNat (sl.live.reg ws) % 2 ^ 24) ∨ mode = 2 ∧ s.chip.fp m ≤ p ∧ p ≤
      s.chip.wp m ∧ p % 2 ^ 32 = BitVec.toNat (sl.live.reg ws)) p) ∧ (∀ (x : ℕ), (s.chip.spool m).newest = some x → 0
      ≤ posDiff p x) ∧ (∀ j < 512, ∃ x ∈ (s.chip.spool m).q, x.slot = j)) ∧
    (∃ (s : State) (n : Fin 128) (k : Fin 8) (sl : Slot) (wd ws mode m p : ℕ),
      m < 256 ∧ wd < 8 ∧ mode < 3 ∧ Issues s n k sl (WInstr.mark wd ws mode m) ∧ s.chip.spEn m = En.running ∧ (mode =
      2 → s.chip.fp m ≤ s.chip.wp m ∧ s.chip.wp m < 2 ^ 47 ∧ s.chip.wp m < s.chip.fp m + 2 ^ 32) ∧ ((fun p => mode = 0
      ∧ p = s.chip.wp m ∨ (mode = 1 ∧ ∃ pre post, (s.chip.spool m).index = pre ++ (BitVec.toNat (sl.live.reg ws) % 2 ^
      24, p) :: post ∧ ∀ x ∈ pre, x.1 ≠ BitVec.toNat (sl.live.reg ws) % 2 ^ 24) ∨ mode = 2 ∧ s.chip.fp m ≤ p ∧ p ≤
      s.chip.wp m ∧ p % 2 ^ 32 = BitVec.toNat (sl.live.reg ws)) p) ∧ (∀ (x : ℕ), (s.chip.spool m).newest = some x → 0
      ≤ posDiff p x) ∧ (¬∀ j < 512, ∃ x ∈ (s.chip.spool m).q, x.slot = j) ∧ (∀ (j : ℕ), Chip.epochOf (s.chip.spool m)
      j < 128)) ∧
    (∃ (s : State) (n : Fin 128) (k : Fin 8) (sl : Slot) (wd ws : ℕ) (x : MarkEnt),
      wd < 8 ∧ ws < 8 ∧ Issues s n k sl (WInstr.release wd ws) ∧ s.chip.spEn (BitVec.toNat (sl.live.reg ws) / 2 ^ 16 %
      256) ≠ En.off ∧ (s.chip.spool (BitVec.toNat (sl.live.reg ws) / 2 ^ 16 % 256)).refills = [] ∧ s.chip.markOf
      (BitVec.toNat (sl.live.reg ws)) = some x ∧ x.st ≠ MarkState.released) ∧
    (∃ (s : State) (n : Fin 128) (k : Fin 8) (sl : Slot) (wd ws : ℕ),
      wd < 8 ∧ ws < 8 ∧ Issues s n k sl (WInstr.release wd ws) ∧ s.chip.spEn (BitVec.toNat (sl.live.reg ws) / 2 ^ 16 %
      256) ≠ En.off ∧ (s.chip.spool (BitVec.toNat (sl.live.reg ws) / 2 ^ 16 % 256)).refills = [] ∧ (s.chip.markOf
      (BitVec.toNat (sl.live.reg ws)) = none ∨ ∃ x, s.chip.markOf (BitVec.toNat (sl.live.reg ws)) = some x ∧ x.st =
      MarkState.released)) ∧
    (∃ (s : State) (n : Fin 128) (k : Fin 8) (sl : Slot) (wd ws off : ℕ),
      wd < 8 ∧ ws < 8 ∧ Issues s n k sl (WInstr.rewind wd ws off) ∧ s.chip.spEn (BitVec.toNat (sl.live.reg ws) / 2 ^
      16 % 256) ≠ En.off ∧ (s.chip.spool (BitVec.toNat (sl.live.reg ws) / 2 ^ 16 % 256)).refills = [] ∧ s.chip.markOf
      (BitVec.toNat (sl.live.reg ws)) = none) ∧
    (∃ (s : State) (n : Fin 128) (k : Fin 8) (sl : Slot) (wd ws off : ℕ) (x : MarkEnt),
      wd < 8 ∧ ws < 8 ∧ Issues s n k sl (WInstr.rewind wd ws off) ∧ s.chip.spEn (BitVec.toNat (sl.live.reg ws) / 2 ^
      16 % 256) ≠ En.off ∧ (s.chip.spool (BitVec.toNat (sl.live.reg ws) / 2 ^ 16 % 256)).refills = [] ∧ s.chip.markOf
      (BitVec.toNat (sl.live.reg ws)) = some x ∧ x.st = MarkState.released) ∧
    (∃ (s : State) (n : Fin 128) (k : Fin 8) (sl : Slot) (wd ws off : ℕ) (x : MarkEnt),
      wd < 8 ∧ ws < 8 ∧ Issues s n k sl (WInstr.rewind wd ws off) ∧ s.chip.spEn (BitVec.toNat (sl.live.reg ws) / 2 ^
      16 % 256) ≠ En.off ∧ (s.chip.spool (BitVec.toNat (sl.live.reg ws) / 2 ^ 16 % 256)).refills = [] ∧ s.chip.markOf
      (BitVec.toNat (sl.live.reg ws)) = some x ∧ x.st = MarkState.lapped) ∧
    (∃ (s : State) (n : Fin 128) (k : Fin 8) (sl : Slot) (wd ws off : ℕ) (x : MarkEnt),
      wd < 8 ∧ ws < 8 ∧ Issues s n k sl (WInstr.rewind wd ws off) ∧ s.chip.spEn (BitVec.toNat (sl.live.reg ws) / 2 ^
      16 % 256) ≠ En.off ∧ (s.chip.spool (BitVec.toNat (sl.live.reg ws) / 2 ^ 16 % 256)).refills = [] ∧ s.chip.markOf
      (BitVec.toNat (sl.live.reg ws)) = some x ∧ x.st = MarkState.held ∧ s.chip.spMode (BitVec.toNat (sl.live.reg ws)
      / 2 ^ 16 % 256) = 1 ∧ x.pos ≤ s.chip.wp (BitVec.toNat (sl.live.reg ws) / 2 ^ 16 % 256) ∧ s.chip.wp (BitVec.toNat
      (sl.live.reg ws) / 2 ^ 16 % 256) < 2 ^ 47 ∧ s.chip.spCap (BitVec.toNat (sl.live.reg ws) / 2 ^ 16 % 256) <
      s.chip.wp (BitVec.toNat (sl.live.reg ws) / 2 ^ 16 % 256) - x.pos + s.chip.spGuard (BitVec.toNat (sl.live.reg ws)
      / 2 ^ 16 % 256)) ∧
    (∃ (s : State) (n : Fin 128) (k : Fin 8) (sl : Slot) (wd ws off : ℕ) (x : MarkEnt),
      wd < 8 ∧ ws < 8 ∧ Issues s n k sl (WInstr.rewind wd ws off) ∧ s.chip.spEn (BitVec.toNat (sl.live.reg ws) / 2 ^
      16 % 256) ≠ En.off ∧ (s.chip.spool (BitVec.toNat (sl.live.reg ws) / 2 ^ 16 % 256)).refills = [] ∧ s.chip.markOf
      (BitVec.toNat (sl.live.reg ws)) = some x ∧ x.st = MarkState.held ∧ s.chip.spMode (BitVec.toNat (sl.live.reg ws)
      / 2 ^ 16 % 256) ≠ 1 ∧ 0 < posDiff ((x.pos + off) % 2 ^ 48) (s.chip.wp (BitVec.toNat (sl.live.reg ws) / 2 ^ 16 %
      256))) ∧
    (∃ (s : State) (n : Fin 128) (k : Fin 8) (sl : Slot) (wd ws off : ℕ) (x : MarkEnt),
      wd < 8 ∧ ws < 8 ∧ Issues s n k sl (WInstr.rewind wd ws off) ∧ s.chip.spEn (BitVec.toNat (sl.live.reg ws) / 2 ^
      16 % 256) ≠ En.off ∧ (s.chip.spool (BitVec.toNat (sl.live.reg ws) / 2 ^ 16 % 256)).refills = [] ∧ s.chip.markOf
      (BitVec.toNat (sl.live.reg ws)) = some x ∧ x.st = MarkState.held ∧ posDiff ((x.pos + off) % 2 ^ 48) (s.chip.wp
      (BitVec.toNat (sl.live.reg ws) / 2 ^ 16 % 256)) ≤ 0 ∧ (s.chip.spMode (BitVec.toNat (sl.live.reg ws) / 2 ^ 16 %
      256) = 1 → x.pos ≤ s.chip.wp (BitVec.toNat (sl.live.reg ws) / 2 ^ 16 % 256) ∧ s.chip.wp (BitVec.toNat
      (sl.live.reg ws) / 2 ^ 16 % 256) < 2 ^ 47 ∧ s.chip.wp (BitVec.toNat (sl.live.reg ws) / 2 ^ 16 % 256) - x.pos +
      s.chip.spGuard (BitVec.toNat (sl.live.reg ws) / 2 ^ 16 % 256) ≤ s.chip.spCap (BitVec.toNat (sl.live.reg ws) / 2
      ^ 16 % 256)) ∧ (s.chip.spMode (BitVec.toNat (sl.live.reg ws) / 2 ^ 16 % 256) = 2 → posDiff ((x.pos + off) % 2 ^
      48) (s.chip.wp (BitVec.toNat (sl.live.reg ws) / 2 ^ 16 % 256)) < 0 → s.chip.hostResident (BitVec.toNat
      (sl.live.reg ws) / 2 ^ 16 % 256) ((x.pos + off) % 2 ^ 48) = false)) ∧
    (∃ (s : State) (n : Fin 128) (k : Fin 8) (sl : Slot) (wd ws off : ℕ) (x : MarkEnt),
      wd < 8 ∧ ws < 8 ∧ Issues s n k sl (WInstr.rewind wd ws off) ∧ s.chip.spEn (BitVec.toNat (sl.live.reg ws) / 2 ^
      16 % 256) ≠ En.off ∧ (s.chip.spool (BitVec.toNat (sl.live.reg ws) / 2 ^ 16 % 256)).refills = [] ∧ s.chip.markOf
      (BitVec.toNat (sl.live.reg ws)) = some x ∧ x.st = MarkState.held ∧ posDiff ((x.pos + off) % 2 ^ 48) (s.chip.wp
      (BitVec.toNat (sl.live.reg ws) / 2 ^ 16 % 256)) ≤ 0 ∧ (s.chip.spMode (BitVec.toNat (sl.live.reg ws) / 2 ^ 16 %
      256) = 1 → x.pos ≤ s.chip.wp (BitVec.toNat (sl.live.reg ws) / 2 ^ 16 % 256) ∧ s.chip.wp (BitVec.toNat
      (sl.live.reg ws) / 2 ^ 16 % 256) < 2 ^ 47 ∧ s.chip.wp (BitVec.toNat (sl.live.reg ws) / 2 ^ 16 % 256) - x.pos +
      s.chip.spGuard (BitVec.toNat (sl.live.reg ws) / 2 ^ 16 % 256) ≤ s.chip.spCap (BitVec.toNat (sl.live.reg ws) / 2
      ^ 16 % 256)) ∧ (s.chip.spMode (BitVec.toNat (sl.live.reg ws) / 2 ^ 16 % 256) = 2 → posDiff ((x.pos + off) % 2 ^
      48) (s.chip.wp (BitVec.toNat (sl.live.reg ws) / 2 ^ 16 % 256)) < 0 → s.chip.hostResident (BitVec.toNat
      (sl.live.reg ws) / 2 ^ 16 % 256) ((x.pos + off) % 2 ^ 48) = false)) ∧
    (∃ (s : State) (n : Fin 128) (k : Fin 8) (sl : Slot) (wd ws off : ℕ) (x : MarkEnt),
      wd < 8 ∧ ws < 8 ∧ Issues s n k sl (WInstr.rewind wd ws off) ∧ s.chip.spEn (BitVec.toNat (sl.live.reg ws) / 2 ^
      16 % 256) ≠ En.off ∧ (s.chip.spool (BitVec.toNat (sl.live.reg ws) / 2 ^ 16 % 256)).refills = [] ∧ s.chip.markOf
      (BitVec.toNat (sl.live.reg ws)) = some x ∧ x.st = MarkState.held ∧ posDiff ((x.pos + off) % 2 ^ 48) (s.chip.wp
      (BitVec.toNat (sl.live.reg ws) / 2 ^ 16 % 256)) ≤ 0 ∧ (s.chip.spMode (BitVec.toNat (sl.live.reg ws) / 2 ^ 16 %
      256) = 1 → x.pos ≤ s.chip.wp (BitVec.toNat (sl.live.reg ws) / 2 ^ 16 % 256) ∧ s.chip.wp (BitVec.toNat
      (sl.live.reg ws) / 2 ^ 16 % 256) < 2 ^ 47 ∧ s.chip.wp (BitVec.toNat (sl.live.reg ws) / 2 ^ 16 % 256) - x.pos +
      s.chip.spGuard (BitVec.toNat (sl.live.reg ws) / 2 ^ 16 % 256) ≤ s.chip.spCap (BitVec.toNat (sl.live.reg ws) / 2
      ^ 16 % 256)) ∧ (s.chip.spMode (BitVec.toNat (sl.live.reg ws) / 2 ^ 16 % 256) = 2 → posDiff ((x.pos + off) % 2 ^
      48) (s.chip.wp (BitVec.toNat (sl.live.reg ws) / 2 ^ 16 % 256)) < 0 → s.chip.hostResident (BitVec.toNat
      (sl.live.reg ws) / 2 ^ 16 % 256) ((x.pos + off) % 2 ^ 48) = false)) ∧
    (∃ (s : State) (n : Fin 128) (k : Fin 8) (sl : Slot) (wd ws off : ℕ) (x : MarkEnt),
      wd < 8 ∧ ws < 8 ∧ Issues s n k sl (WInstr.rewind wd ws off) ∧ s.chip.spEn (BitVec.toNat (sl.live.reg ws) / 2 ^
      16 % 256) ≠ En.off ∧ (s.chip.spool (BitVec.toNat (sl.live.reg ws) / 2 ^ 16 % 256)).refills = [] ∧ s.chip.markOf
      (BitVec.toNat (sl.live.reg ws)) = some x ∧ x.st = MarkState.held ∧ s.chip.hostResident (BitVec.toNat
      (sl.live.reg ws) / 2 ^ 16 % 256) ((x.pos + off) % 2 ^ 48) = true ∧ posDiff ((x.pos + off) % 2 ^ 48) (s.chip.wp
      (BitVec.toNat (sl.live.reg ws) / 2 ^ 16 % 256)) < 0 ∧ (s.chip.spool (BitVec.toNat (sl.live.reg ws) / 2 ^ 16 %
      256)).deepBad = true) ∧
    (∃ (s : State) (n : Fin 128) (k : Fin 8) (sl : Slot) (wd ws off : ℕ) (x : MarkEnt),
      wd < 8 ∧ ws < 8 ∧ Issues s n k sl (WInstr.rewind wd ws off) ∧ s.chip.spEn (BitVec.toNat (sl.live.reg ws) / 2 ^
      16 % 256) ≠ En.off ∧ (s.chip.spool (BitVec.toNat (sl.live.reg ws) / 2 ^ 16 % 256)).refills = [] ∧ s.chip.markOf
      (BitVec.toNat (sl.live.reg ws)) = some x ∧ x.st = MarkState.held ∧ s.chip.hostResident (BitVec.toNat
      (sl.live.reg ws) / 2 ^ 16 % 256) ((x.pos + off) % 2 ^ 48) = true ∧ posDiff ((x.pos + off) % 2 ^ 48) (s.chip.wp
      (BitVec.toNat (sl.live.reg ws) / 2 ^ 16 % 256)) < 0 ∧ (s.chip.spool (BitVec.toNat (sl.live.reg ws) / 2 ^ 16 %
      256)).deepBad = false) :=
  ⟨⟨wIMarkOff, 5, 3, sl0, 4, 0, 0, 6, by unfold Issues Meets; decide +kernel⟩,
  ⟨wIMarkFar, 5, 3, (slotOf wIMarkFar), 4, 2, 2, 6, by decide, by decide, by decide,
    by unfold Issues Meets; decide +kernel, by decide +kernel, fun _ => by decide +kernel,
    fun p h => by
      have hw : wIMarkFar.chip.wp 6 = 40 := by decide +kernel
      have hv : ((slotOf wIMarkFar).live.reg 2).toNat = 99 := by decide +kernel
      rcases h with h | h | h
      · exact absurd h.1 (by decide)
      · exact absurd h.1 (by decide)
      · rw [hw, hv] at h; omega⟩,
  ⟨wIMarkOrd, 5, 3, (slotOf wIMarkOrd), 4, 2, 2, 6, 30, 35, by decide, by decide, by decide,
    by unfold Issues Meets; decide +kernel, by decide +kernel, fun _ => by decide +kernel,
    .inr (.inr ⟨rfl, by decide +kernel⟩), by decide +kernel, by decide +kernel⟩,
  ⟨wIMarkTaken, 5, 3, sl0, 4, 0, 0, 6, 40, by decide, by decide, by decide,
    by unfold Issues Meets; decide +kernel, by decide +kernel, fun h => absurd h (by decide), .inl ⟨rfl, by decide +kernel⟩,
    fun x hx => by
      have h : x = 1 := by
        rw [show (wIMarkTaken.chip.spool 6).newest = some 1 by decide +kernel] at hx; exact (Option.some.inj hx).symm
      rw [h]; decide +kernel,
    fun j hj => by
      rw [show (wIMarkTaken.chip.spool 6).q = (List.range 512).map fun j => held j 1 .released by decide +kernel]
      exact ⟨_, List.mem_map.2 ⟨j, List.mem_range.2 hj, rfl⟩, rfl⟩⟩,
  ⟨wIMark, 5, 3, sl0, 4, 0, 0, 6, 0, by decide, by decide, by decide, by unfold Issues Meets; decide +kernel,
    by decide +kernel, fun h => absurd h (by decide), .inl ⟨rfl, by decide +kernel⟩,
    fun x hx => absurd hx (by rw [mark_spool]; exact nofun),
    fun h => (h 0 (by decide)).elim fun x hx => absurd hx.1 (by rw [mark_spool]; exact nofun),
    fun j => by rw [mark_spool]; exact (by decide : 0 < 128)⟩,
  ⟨wIRel, 5, 3, (slotOf wIRel), 4, 2, { slot := 5, pos := 10, st := MarkState.held }, by unfold Issues Meets; decide +kernel⟩,
  ⟨wIRelBad, 5, 3, (slotOf wIRelBad), 4, 2, by unfold Issues Meets; decide +kernel⟩,
  ⟨wIRewBad, 5, 3, (slotOf wIRewBad), 4, 2, 60, by unfold Issues Meets; decide +kernel⟩,
  ⟨wIRewRel, 5, 3, (slotOf wIRewRel), 4, 2, 3, { slot := 5, pos := 10, st := MarkState.released }, by unfold Issues Meets; decide +kernel⟩,
  ⟨wIRewLap, 5, 3, (slotOf wIRewLap), 4, 2, 3, { slot := 5, pos := 10, st := MarkState.lapped }, by unfold Issues Meets; decide +kernel⟩,
  ⟨wIRewOver, 5, 3, (slotOf wIRewOver), 4, 2, 3, { slot := 5, pos := 10, st := MarkState.held }, by unfold Issues Meets; decide +kernel⟩,
  ⟨wIRewNo, 5, 3, (slotOf wIRewNo), 4, 2, 60, { slot := 5, pos := 10, st := MarkState.held }, by unfold Issues Meets; decide +kernel⟩,
  ⟨wIRew, 5, 3, (slotOf wIRew), 4, 2, 3, { slot := 5, pos := 10, st := MarkState.held }, by unfold Issues Meets; decide +kernel⟩,
  ⟨wIRewLapOk, 5, 3, (slotOf wIRewLapOk), 4, 2, 3, { slot := 5, pos := 10, st := MarkState.held }, by unfold Issues Meets; decide +kernel⟩,
  ⟨wIRewDeepOk, 5, 3, (slotOf wIRewDeepOk), 4, 2, 3, { slot := 5, pos := 10, st := MarkState.held }, by unfold Issues Meets; decide +kernel⟩,
  ⟨wIRewDeepBad, 5, 3, (slotOf wIRewDeepBad), 4, 2, 3, { slot := 5, pos := 10, st := MarkState.held }, by unfold Issues Meets; decide +kernel⟩,
  ⟨wIRewDeep, 5, 3, (slotOf wIRewDeep), 4, 2, 3, { slot := 5, pos := 10, st := MarkState.held }, by unfold Issues Meets; decide +kernel⟩⟩

/-- States and operands that meet the hypotheses of `Obligations.PeeksAndDeepMoves`, clause by clause. -/
theorem witness_PeeksAndDeepMoves :
    (∃ (s : State) (n : Fin 128) (k : Fin 8) (sl : Slot) (wd mode m kk j adv : ℕ),
      m < 256 ∧ wd < 8 ∧ mode < 4 ∧ kk < 4 ∧ j < 8 ∧ adv < 5 ∧ Issues s n k sl (WInstr.peek wd mode m kk j adv) ∧
      s.chip.spEn m = En.off) ∧
    (∃ (s : State) (n : Fin 128) (k : Fin 8) (sl : Slot) (wd mode m kk j adv : ℕ),
      m < 256 ∧ wd < 8 ∧ mode < 4 ∧ kk < 4 ∧ j < 8 ∧ adv < 5 ∧ Issues s n k sl (WInstr.peek wd mode m kk j adv) ∧
      s.chip.spEn m ≠ En.off ∧ s.chip.hp m ≤ s.chip.wp m ∧ s.chip.wp m + 8 < 2 ^ 47 ∧ mode = 1) ∧
    (∃ (s : State) (n : Fin 128) (k : Fin 8) (sl : Slot) (wd mode m kk j adv : ℕ),
      m < 256 ∧ wd < 8 ∧ mode < 4 ∧ kk < 4 ∧ j < 8 ∧ adv < 5 ∧ Issues s n k sl (WInstr.peek wd mode m kk j adv) ∧
      s.chip.spEn m ≠ En.off ∧ s.chip.hp m ≤ s.chip.wp m ∧ s.chip.wp m + 8 < 2 ^ 47 ∧ mode = 3) ∧
    (∃ (s : State) (n : Fin 128) (k : Fin 8) (sl : Slot) (wd mode m kk j adv : ℕ),
      m < 256 ∧ wd < 8 ∧ mode < 4 ∧ kk < 4 ∧ j < 8 ∧ adv < 5 ∧ Issues s n k sl (WInstr.peek wd mode m kk j adv) ∧
      s.chip.spEn m ≠ En.off ∧ s.chip.hp m ≤ s.chip.wp m ∧ s.chip.wp m + 8 < 2 ^ 47 ∧ mode = 0 ∧ s.chip.wp m ≤
      s.chip.hp m + kk) ∧
    (∃ (s : State) (n : Fin 128) (k : Fin 8) (sl : Slot) (wd mode m kk j adv : ℕ),
      m < 256 ∧ wd < 8 ∧ mode < 4 ∧ kk < 4 ∧ j < 8 ∧ adv < 5 ∧ Issues s n k sl (WInstr.peek wd mode m kk j adv) ∧
      s.chip.spEn m ≠ En.off ∧ s.chip.hp m ≤ s.chip.wp m ∧ s.chip.wp m + 8 < 2 ^ 47 ∧ mode = 0 ∧ s.chip.hp m + kk <
      s.chip.wp m ∧ s.chip.fp m ≤ s.chip.wp m ∧ (s.chip.hp m + kk < s.chip.fp m ∨ s.chip.spMode m = 1 ∧ s.chip.spCap m
      < s.chip.wp m - (s.chip.hp m + kk) + s.chip.spGuard m ∨ s.chip.granuleOf m (s.chip.hp m + kk) = none)) ∧
    (∃ (s : State) (n : Fin 128) (k : Fin 8) (sl : Slot) (wd mode m kk j adv : ℕ) (data : W256) (lanes g : ℕ),
      m < 256 ∧ wd < 8 ∧ mode < 4 ∧ kk < 4 ∧ j < 8 ∧ adv < 5 ∧ Issues s n k sl (WInstr.peek wd mode m kk j adv) ∧
      s.chip.spEn m ≠ En.off ∧ s.chip.hp m ≤ s.chip.wp m ∧ s.chip.wp m + 8 < 2 ^ 47 ∧ mode = 0 ∧ s.chip.hp m + kk <
      s.chip.wp m ∧ s.chip.fp m ≤ s.chip.wp m ∧ (¬(s.chip.hp m + kk < s.chip.fp m ∨ s.chip.spMode m = 1 ∧ s.chip.spCap
      m < s.chip.wp m - (s.chip.hp m + kk) + s.chip.spGuard m ∨ s.chip.granuleOf m (s.chip.hp m + kk) = none)) ∧
      s.chip.granuleOf m (s.chip.hp m + kk) = some g ∧ readAt s m g (s.chip.hp m + kk) data lanes) ∧
    (∃ (s : State) (n : Fin 128) (k : Fin 8) (sl : Slot) (wd mode m kk j adv tag a : ℕ) (pre post : List (ℕ × ℕ)),
      m < 256 ∧ wd < 8 ∧ mode < 4 ∧ kk < 4 ∧ j < 8 ∧ adv < 5 ∧ Issues s n k sl (WInstr.peek wd mode m kk j adv) ∧
      s.chip.spEn m ≠ En.off ∧ s.chip.hp m ≤ s.chip.wp m ∧ s.chip.wp m + 8 < 2 ^ 47 ∧ mode = 2 ∧ (∀ x ∈ (s.chip.spool
      m).index, x.2 < 2 ^ 47) ∧ (s.chip.spool m).index = pre ++ (tag, a) :: post ∧ (∀ x ∈ pre, s.chip.hp m < x.2) ∧ a
      ≤ s.chip.hp m ∧ s.chip.hp m < s.chip.wp m) ∧
    (∃ (s : State) (n : Fin 128) (k : Fin 8) (sl : Slot) (wd mode m kk j adv : ℕ),
      m < 256 ∧ wd < 8 ∧ mode < 4 ∧ kk < 4 ∧ j < 8 ∧ adv < 5 ∧ Issues s n k sl (WInstr.peek wd mode m kk j adv) ∧
      s.chip.spEn m ≠ En.off ∧ s.chip.hp m ≤ s.chip.wp m ∧ s.chip.wp m + 8 < 2 ^ 47 ∧ mode = 2 ∧ (∀ x ∈ (s.chip.spool
      m).index, x.2 < 2 ^ 47) ∧ (s.chip.hp m = s.chip.wp m ∨ ∀ x ∈ (s.chip.spool m).index, s.chip.hp m < x.2)) ∧
    (∃ (s : State) (m : Fin 256) (b w : ℕ) (rest : List ℕ),
      coreUp s.chip = true ∧ (s.chip.spool ↑m).unspilled = b :: rest ∧ s.prot.check (s.chip.deepPd ↑m)
      (s.chip.blockAddr (↑m) b) 1024 Need.ackWrite = Checked.ok w ∧ NoneWaits s.chip (s.prot.home w) (s.chip.fld
      (Reg.spDeepcfg ↑m) F.SpDeepcfg.NDL)) ∧
    (∃ (s : State) (m : Fin 256) (b : ℕ) (bad : Bool) (rest : List (ℕ × Bool)),
      coreUp s.chip = true ∧ (s.chip.spool ↑m).spillIn = (b, bad) :: rest) ∧
    (∃ (s : State) (m : Fin 256) (b : ℕ) (lines : List (Line × Bool)) (rest : List (ℕ × List (Line × Bool) × Bool))
      (r : Refill),
      coreUp s.chip = true ∧ (s.chip.spool ↑m).refillIn = (b, lines, false) :: rest ∧ lines.length = 16 ∧ (List.find?
      (fun x => x.block == b && !x.ready) (s.chip.spool ↑m).refills = some r)) :=
  ⟨⟨wIPeekOff, 5, 3, sl0, 4, 0, 6, 0, 0, 2, by unfold Issues Meets; decide +kernel⟩,
  ⟨wIPeek1, 5, 3, sl0, 4, 1, 6, 0, 0, 2, by unfold Issues Meets; decide +kernel⟩,
  ⟨wIPeek3, 5, 3, sl0, 4, 3, 6, 0, 0, 4, by unfold Issues Meets; decide +kernel⟩,
  ⟨wIPeek0No, 5, 3, sl0, 4, 0, 6, 1, 2, 2, by unfold Issues Meets; decide +kernel⟩,
  ⟨wIPeek0Lap, 5, 3, sl0, 4, 0, 6, 1, 2, 2, by unfold Issues Meets; decide +kernel⟩,
  ⟨wIPeek0H, 5, 3, sl0, 4, 0, 6, 1, 2, 2, 0x123456789ABCDEF0011223344556677#256, 0, 144, by
    repeat' apply And.intro
    all_goals decide +kernel⟩,
  ⟨wIPeek2, 5, 3, sl0, 4, 2, 6, 0, 0, 2, 8, 4, [(9, 20)], [], by unfold Issues Meets; decide +kernel⟩,
  ⟨wIPeek2No, 5, 3, sl0, 4, 2, 6, 0, 0, 2, by unfold Issues Meets; decide +kernel⟩,
  ⟨wDeepSpill, 6, 0, 0, [1], by unfold NoneWaits; decide +kernel⟩,
  ⟨wDeepAck, 6, 0, false, [], by decide +kernel⟩,
  ⟨wDeepRefill, 6, 4, (List.replicate 16 (3, false)), [], { g := 1, block := 4, owner := 9, ready := false }, by decide +kernel⟩⟩

/-- States and operands that meet the hypotheses of `Obligations.WorrynRoundTrip`, clause by clause. -/
theorem witness_WorrynRoundTrip :
    (∃ (i : WInstr),
      i.ok = true) ∧
    (∃ (w : Word) (i : WInstr),
      WInstr.decode w = some i) ∧
    (∃ (i j : WInstr),
      i.ok = true ∧ j.ok = true ∧ i.encode = j.encode) :=
  ⟨⟨WInstr.nop, by decide +kernel⟩,
  ⟨0x0#64, WInstr.nop, by decide +kernel⟩,
  ⟨WInstr.nop, WInstr.nop, by decide +kernel⟩⟩

/-- States and operands that meet the hypotheses of `Obligations.WorrynWords`, clause by clause. -/
theorem witness_WorrynWords :
    (∃ (s : State) (n : Fin 128) (k : Fin 8) (sl : Slot) (i : Instr) (cause detail : ℕ),
      NoLocks s.chip ∧ s.chip.slotOwed (↑n) sl = false ∧ s.chip.faults.length < 256 ∧ sl.live.pc < 2 ^ 16 ∧ (i =
      Instr.illegalInstruction n k ∧ Meets s n k sl Fetched.illegal ∧ cause = cOpcode ∧ detail = 0 ∨ i =
      Instr.illegalInstruction n k ∧ Meets s n k sl Fetched.bad ∧ cause = cEcc ∧ detail = 2 ^ 15 ∨ i = Instr.hdr n k ∧
      (∃ isa id, isa ≠ 1 ∧ isa ≠ 2 ∧ Meets s n k sl (Fetched.instr (WInstr.hdr isa id))) ∧ cause = cIsaver ∧ detail =
      0)) ∧
    (∃ (s : State) (n : Fin 128) (k : Fin 8) (sl : Slot) (i : Instr) (cause detail : ℕ),
      NoLocks s.chip ∧ s.chip.slotOwed (↑n) sl = false ∧ s.chip.faults.length < 256 ∧ sl.live.pc < 2 ^ 16 ∧ (i =
      Instr.illegalInstruction n k ∧ Meets s n k sl Fetched.illegal ∧ cause = cOpcode ∧ detail = 0 ∨ i =
      Instr.illegalInstruction n k ∧ Meets s n k sl Fetched.bad ∧ cause = cEcc ∧ detail = 2 ^ 15 ∨ i = Instr.hdr n k ∧
      (∃ isa id, isa ≠ 1 ∧ isa ≠ 2 ∧ Meets s n k sl (Fetched.instr (WInstr.hdr isa id))) ∧ cause = cIsaver ∧ detail =
      0)) ∧
    (∃ (s : State) (n : Fin 128) (k : Fin 8) (sl : Slot) (i : Instr) (cause detail : ℕ),
      NoLocks s.chip ∧ s.chip.slotOwed (↑n) sl = false ∧ s.chip.faults.length < 256 ∧ sl.live.pc < 2 ^ 16 ∧ (i =
      Instr.illegalInstruction n k ∧ Meets s n k sl Fetched.illegal ∧ cause = cOpcode ∧ detail = 0 ∨ i =
      Instr.illegalInstruction n k ∧ Meets s n k sl Fetched.bad ∧ cause = cEcc ∧ detail = 2 ^ 15 ∨ i = Instr.hdr n k ∧
      (∃ isa id, isa ≠ 1 ∧ isa ≠ 2 ∧ Meets s n k sl (Fetched.instr (WInstr.hdr isa id))) ∧ cause = cIsaver ∧ detail =
      0)) ∧
    (∃ (t gen seq : ℕ) (i : Chip.FaultInfo),
      t < 2 ^ 18 ∧ gen < 2 ^ 16 ∧ seq < 2 ^ 32 ∧ i.cause < 2 ^ 8 ∧ i.ndl < 2 ^ 7 ∧ i.pc < 2 ^ 16 ∧ i.detail < 2 ^ 16) :=
  ⟨⟨wIBad, 5, 3, sl0, Instr.illegalInstruction 5 3, 1, 0, by unfold NoLocks; decide +kernel, by decide +kernel,
    by decide +kernel, by decide +kernel, .inl ⟨rfl, by unfold Meets; decide +kernel, rfl, rfl⟩⟩,
  ⟨wIEcc, 5, 3, sl0, Instr.illegalInstruction 5 3, cEcc, 2 ^ 15, by unfold NoLocks; decide +kernel, by decide +kernel,
    by decide +kernel, by decide +kernel, .inr (.inl ⟨rfl, by unfold Meets; decide +kernel, rfl, rfl⟩)⟩,
  ⟨wIHdr3, 5, 3, sl0, Instr.hdr 5 3, cIsaver, 0, by unfold NoLocks; decide +kernel, by decide +kernel,
    by decide +kernel, by decide +kernel,
    .inr (.inr ⟨rfl, ⟨3, 5, by decide, by decide, by unfold Meets; decide +kernel⟩, rfl, rfl⟩)⟩,
  ⟨0, 0, 0, (Chip.FaultInfo.plain 1 5 7 9), by decide +kernel⟩⟩

/-- States and operands that meet the hypotheses of `Obligations.ControlFlow`, clause by clause. -/
theorem witness_ControlFlow :
    (∃ (s : State) (n : Fin 128) (k : Fin 8) (sl : Slot),
      Issues s n k sl WInstr.nop) ∧
    (∃ (s : State) (n : Fin 128) (k : Fin 8) (sl : Slot) (isa id : ℕ),
      (isa = 1 ∨ isa = 2) ∧ Issues s n k sl (WInstr.hdr isa id)) ∧
    (∃ (s : State) (n : Fin 128) (k : Fin 8) (sl : Slot) (wd imm : ℕ),
      Issues s n k sl (WInstr.ldi wd imm)) ∧
    (∃ (s : State) (n : Fin 128) (k : Fin 8) (sl : Slot) (ws mode target : ℕ),
      Issues s n k sl (WInstr.jmp ws mode target)) ∧
    (∃ (s : State) (n : Fin 128) (k : Fin 8) (sl : Slot) (cc target : ℕ),
      Issues s n k sl (WInstr.brcc cc target)) ∧
    (∃ (s : State) (n : Fin 128) (k : Fin 8) (sl : Slot) (ws mode target : ℕ),
      Issues s n k sl (WInstr.call ws mode target)) ∧
    (∃ (s : State) (n : Fin 128) (k : Fin 8) (sl : Slot),
      Issues s n k sl WInstr.ret) ∧
    (∃ (s : State) (n : Fin 128) (k : Fin 8) (j : ℕ),
      j < 8 ∧ Chip.surelyAble s.env s.chip (↑n) j = true ∧ (s.chip.ndl ↑n).sure.contains j = true ∧ (s.chip.gapOf (↑n)
      j).2 < (s.chip.gapOf ↑n ↑k).1) ∧
    (∃ (s : State) (n : Fin 128) (k : Fin 8) (sl : Slot),
      Issues s n k sl WInstr.halt) ∧
    (∃ (s : State) (n : Fin 128) (k : Fin 8) (sl : Slot) (ws mode delay : ℕ),
      Issues s n k sl (WInstr.yield ws mode delay) ∧ (0 < if mode = 0 then delay else BitVec.toNat (sl.live.reg ws) %
      2 ^ 24) ∧ ((if mode = 0 then delay else BitVec.toNat (sl.live.reg ws) % 2 ^ 24) < 2 ^ 24)) ∧
    (∃ (s : State) (n : Fin 128) (k : Fin 8) (sl : Slot) (ws mode delay : ℕ),
      Issues s n k sl (WInstr.yield ws mode delay) ∧ ((if mode = 0 then delay else BitVec.toNat (sl.live.reg ws) % 2 ^
      24) = 0) ∧ (∀ (q : ℕ), Chip.queueOf (s.chip.ndl ↑n) q = [])) :=
  ⟨⟨wINop, 5, 3, sl0, by unfold Issues Meets; decide +kernel⟩,
  ⟨wIHdr1, 5, 3, sl0, 1, 5, by unfold Issues Meets; decide +kernel⟩,
  ⟨wILdi, 5, 3, sl0, 4, 305419896, by unfold Issues Meets; decide +kernel⟩,
  ⟨wIJmp0, 5, 3, sl0, 0, 0, 100, by unfold Issues Meets; decide +kernel⟩,
  ⟨wIBr1, 5, 3, sl0, 1, 100, by unfold Issues Meets; decide +kernel⟩,
  ⟨wICall, 5, 3, sl0, 0, 0, 100, by unfold Issues Meets; decide +kernel⟩,
  ⟨wIRet, 5, 3, (slotOf wIRet), by unfold Issues Meets; decide +kernel⟩,
  ⟨wIGap, 5, 3, 4, by decide +kernel⟩,
  ⟨wIHalt, 5, 3, sl0, by unfold Issues Meets; decide +kernel⟩,
  ⟨wIYield, 5, 3, sl0, 0, 0, 100, by unfold Issues Meets; decide +kernel⟩,
  ⟨wIYield0, 5, 3, sl0, 0, 0, 0, by unfold Issues Meets; decide +kernel, rfl, fun q => (by
    rw [Chip.queueOf, show (wIYield0.chip.ndl ((5 : Fin 128) : Nat)).queues = [[], [], [], []] by decide +kernel]
    rcases q with _ | _ | _ | _ | q <;> rfl)⟩⟩

/-- States and operands that meet the hypotheses of `Obligations.AluInstructions`, clause by clause. -/
theorem witness_AluInstructions :
    (∃ (s : State) (n : Fin 128) (k : Fin 8) (sl : Slot) (op : AluOp) (wd ws mode wt imm : ℕ),
      Issues s n k sl (WInstr.alu op wd ws mode wt imm)) ∧
    (∃ (i j : ℕ),
      i < 8 ∧ j < 8) :=
  ⟨⟨wIAdd, 5, 3, (slotOf wIAdd), AluOp.add, 2, 2, 0, 2, 0, by unfold Issues Meets; decide +kernel⟩,
  ⟨0, 0, by decide +kernel⟩⟩

/-- States and operands that meet the hypotheses of `Obligations.CrossingWaits`, clause by clause. -/
theorem witness_CrossingWaits :
    (∃ (s : State) (n : Fin 128) (k : Fin 8) (sl : Slot) (ws mode rs imm : ℕ),
      Issues s n k sl (WInstr.waitx ws mode rs imm) ∧ crossingOperand sl.live s.chip.olen s.chip.ctr ws mode rs imm =
      none) ∧
    (∃ (s : State) (n : Fin 128) (k : Fin 8) (sl : Slot) (ws mode rs imm x : ℕ),
      Issues s n k sl (WInstr.waitx ws mode rs imm) ∧ crossingOperand sl.live s.chip.olen s.chip.ctr ws mode rs imm =
      some x ∧ s.chip.ctr / 4096 + 2 ^ 15 ≤ x / 4096) ∧
    (∃ (s : State) (n : Fin 128) (k : Fin 8) (sl : Slot) (ws mode rs imm x : ℕ),
      Issues s n k sl (WInstr.waitx ws mode rs imm) ∧ crossingOperand sl.live s.chip.olen s.chip.ctr ws mode rs imm =
      some x ∧ x ≤ s.chip.ctr) ∧
    (∃ (s : State) (n : Fin 128) (k : Fin 8) (sl : Slot) (ws mode rs imm x : ℕ),
      Issues s n k sl (WInstr.waitx ws mode rs imm) ∧ crossingOperand sl.live s.chip.olen s.chip.ctr ws mode rs imm =
      some x ∧ s.chip.ctr < x ∧ x / 4096 < s.chip.ctr / 4096 + 2 ^ 15) ∧
    (∃ (s : State) (n : Fin 128) (k : Fin 8) (sl : Slot) (wd ws mode rs imm x : ℕ),
      Issues s n k sl (WInstr.waitd wd ws mode rs imm) ∧ crossingOperand sl.live s.chip.olen s.chip.ctr ws mode rs imm
      = some x ∧ (Machine.dist s.chip.olen s.chip.ctr x < -16 ∨ 1007 < Machine.dist s.chip.olen s.chip.ctr x ∨
      (s.chip.decAt x).st = DecState.unused ∨ (s.chip.decAt x).x % 2 ^ 24 ≠ x % 2 ^ 24)) ∧
    (∃ (s : State) (n : Fin 128) (k : Fin 8) (sl : Slot) (wd ws mode rs imm x : ℕ),
      Issues s n k sl (WInstr.waitd wd ws mode rs imm) ∧ crossingOperand sl.live s.chip.olen s.chip.ctr ws mode rs imm
      = some x ∧ -16 ≤ Machine.dist s.chip.olen s.chip.ctr x ∧ Machine.dist s.chip.olen s.chip.ctr x ≤ 1007 ∧
      (s.chip.decAt x).x % 2 ^ 24 = x % 2 ^ 24 ∧ (s.chip.decAt x).st = DecState.known) ∧
    (∃ (s : State) (n : Fin 128) (k : Fin 8) (sl : Slot) (wd ws mode rs imm x : ℕ),
      Issues s n k sl (WInstr.waitd wd ws mode rs imm) ∧ crossingOperand sl.live s.chip.olen s.chip.ctr ws mode rs imm
      = some x ∧ -16 ≤ Machine.dist s.chip.olen s.chip.ctr x ∧ Machine.dist s.chip.olen s.chip.ctr x ≤ 1007 ∧
      (s.chip.decAt x).x % 2 ^ 24 = x % 2 ^ 24 ∧ (s.chip.decAt x).st = DecState.missing) ∧
    (∃ (s : State) (n : Fin 128) (k : Fin 8) (sl : Slot) (wd ws mode rs imm x : ℕ),
      Issues s n k sl (WInstr.waitd wd ws mode rs imm) ∧ crossingOperand sl.live s.chip.olen s.chip.ctr ws mode rs imm
      = some x ∧ -16 ≤ Machine.dist s.chip.olen s.chip.ctr x ∧ Machine.dist s.chip.olen s.chip.ctr x ≤ 1007 ∧
      (s.chip.decAt x).x % 2 ^ 24 = x % 2 ^ 24 ∧ (s.chip.decAt x).st = DecState.opened ∧ s.chip.nearestX (x % 2 ^ 24)
      = x) :=
  ⟨⟨wIWaitx2, 5, 3, sl0, 0, 2, 0, 3, by unfold Issues Meets; decide +kernel⟩,
  ⟨wIWaitxFar, 5, 3, sl0, 0, 1, 0, 4294967295, 4294987778, by unfold Issues Meets; decide +kernel⟩,
  ⟨wIWaitxPast, 5, 3, sl0, 0, 0, 0, 20480, 20480, by unfold Issues Meets; decide +kernel⟩,
  ⟨wIWaitx0, 5, 3, sl0, 0, 0, 0, 20490, 20490, by unfold Issues Meets; decide +kernel⟩,
  ⟨wIWaitdFar, 5, 3, sl0, 4, 0, 1, 0, 2000, 22483, by unfold Issues Meets; decide +kernel⟩,
  ⟨wIWaitdKnown, 5, 3, sl0, 4, 0, 0, 0, 20483, 20483, by unfold Issues Meets; decide +kernel⟩,
  ⟨wIWaitdMiss, 5, 3, sl0, 4, 0, 0, 0, 20483, 20483, by unfold Issues Meets; decide +kernel⟩,
  ⟨wIWaitdOpen, 5, 3, sl0, 4, 0, 0, 0, 20483, 20483, by unfold Issues Meets; decide +kernel⟩⟩

/-- States and operands that meet the hypotheses of `Obligations.SpoolAndTimedWaits`, clause by clause. -/
theorem witness_SpoolAndTimedWaits :
    (∃ (s : State) (n : Fin 128) (k : Fin 8) (sl : Slot) (ws mode m : ℕ),
      Issues s n k sl (WInstr.waits ws mode m) ∧ m < 256 ∧ s.chip.spEn m = En.off) ∧
    (∃ (s : State) (n : Fin 128) (k : Fin 8) (sl : Slot) (ws mode m : ℕ),
      Issues s n k sl (WInstr.waits ws mode m) ∧ m < 256 ∧ s.chip.spEn m ≠ En.off ∧ mode = 1) ∧
    (∃ (s : State) (n : Fin 128) (k : Fin 8) (sl : Slot) (ws mode m : ℕ),
      Issues s n k sl (WInstr.waits ws mode m) ∧ m < 256 ∧ s.chip.spEn m ≠ En.off ∧ mode = 0 ∧ 2 ^ 19 ≤ (signed 32
      (unsigned 32 (↑(BitVec.toNat (sl.live.reg ws)) - ↑(s.chip.wp m)))).natAbs) ∧
    (∃ (s : State) (n : Fin 128) (k : Fin 8) (sl : Slot) (ws mode m : ℕ),
      Issues s n k sl (WInstr.waits ws mode m) ∧ m < 256 ∧ s.chip.spEn m ≠ En.off ∧ mode = 0 ∧ signed 32 (unsigned 32
      (↑(BitVec.toNat (sl.live.reg ws)) - ↑(s.chip.wp m))) < 0 ∧ (signed 32 (unsigned 32 (↑(BitVec.toNat (sl.live.reg
      ws)) - ↑(s.chip.wp m)))).natAbs < 2 ^ 19) ∧
    (∃ (s : State) (n : Fin 128) (k : Fin 8) (sl : Slot) (ws mode m : ℕ),
      Issues s n k sl (WInstr.waits ws mode m) ∧ m < 256 ∧ s.chip.spEn m ≠ En.off ∧ mode = 0 ∧ 0 ≤ signed 32 (unsigned
      32 (↑(BitVec.toNat (sl.live.reg ws)) - ↑(s.chip.wp m))) ∧ (signed 32 (unsigned 32 (↑(BitVec.toNat (sl.live.reg
      ws)) - ↑(s.chip.wp m)))).natAbs < 2 ^ 19) ∧
    (∃ (s : State) (n : Fin 128) (k : Fin 8) (sl : Slot) (line tmo : ℕ),
      Issues s n k sl (WInstr.waitr line tmo) ∧ line < 256 ∧ tmo < 2 ^ 18 ∧ s.chip.bit (Reg.rlCfg line) F.RlCfg.EN =
      false) ∧
    (∃ (s : State) (n : Fin 128) (k : Fin 8) (sl : Slot) (line tmo : ℕ),
      Issues s n k sl (WInstr.waitr line tmo) ∧ line < 256 ∧ tmo < 2 ^ 18 ∧ s.chip.bit (Reg.rlCfg line) F.RlCfg.EN =
      true ∧ s.chip.reqLevel line = false) ∧
    (∃ (s : State) (n : Fin 128) (k : Fin 8) (sl : Slot) (line tmo : ℕ),
      Issues s n k sl (WInstr.waitr line tmo) ∧ line < 256 ∧ tmo < 2 ^ 18 ∧ s.chip.bit (Reg.rlCfg line) F.RlCfg.EN =
      true ∧ s.chip.reqLevel line = true ∧ s.chip.pwr.wakeQ = [] ∧ (leaving sl).aff < 128 ∧ s.chip.needleOn (leaving
      sl).aff = true) ∧
    (∃ (s : State) (u : Fin 262144),
      coreUp s.chip = true ∧ (s.chip.thr ↑u).st = TState.waiting ∧ (s.chip.thr ↑u).kind = kTimer ∧ deadlineReached 28
      (s.chip.thr ↑u).arg s.chip.timer = true ∧ AtHome s.chip ↑u) ∧
    (∃ (s : State) (u : Fin 262144),
      coreUp s.chip = true ∧ (s.chip.thr ↑u).st = TState.waiting ∧ (s.chip.thr ↑u).kind = kTimer ∧ deadlineReached 28
      (s.chip.thr ↑u).arg s.chip.timer = false) ∧
    (∃ (s : State) (u : Fin 262144),
      coreUp s.chip = true ∧ (s.chip.thr ↑u).st = TState.waiting ∧ (s.chip.thr ↑u).kind = kReq ∧ (s.chip.thr ↑u).arg /
      256 % 2 = 1 ∧ deadlineReached 19 ((s.chip.thr ↑u).arg / 512) s.chip.timer = true ∧ AtHome s.chip ↑u) :=
  ⟨⟨wIWaitsOff, 5, 3, sl0, 0, 1, 6, by unfold Issues Meets; decide +kernel⟩,
  ⟨wIWaits1, 5, 3, sl0, 0, 1, 6, by unfold Issues Meets; decide +kernel⟩,
  ⟨wIWaits0far, 5, 3, (slotOf wIWaits0far), 2, 0, 6, by unfold Issues Meets; decide +kernel⟩,
  ⟨wIWaits0past, 5, 3, (slotOf wIWaits0past), 2, 0, 6, by unfold Issues Meets; decide +kernel⟩,
  ⟨wIWaits0, 5, 3, (slotOf wIWaits0), 2, 0, 6, by unfold Issues Meets; decide +kernel⟩,
  ⟨wIWaitrOff, 5, 3, sl0, 30, 100, by unfold Issues Meets; decide +kernel⟩,
  ⟨wIWaitr, 5, 3, sl0, 30, 100, by unfold Issues Meets; decide +kernel⟩,
  ⟨wIWaitrUp, 5, 3, sl0, 30, 100, by unfold Issues Meets; decide +kernel⟩,
  ⟨wTTimer, 9, by unfold AtHome; decide +kernel⟩,
  ⟨wTTimerNo, 9, by decide +kernel⟩,
  ⟨wTReq, 9, by unfold AtHome; decide +kernel⟩⟩

/-- States and operands that meet the hypotheses of `Obligations.CrossAndSetat`, clause by clause. -/
theorem witness_CrossAndSetat :
    (∃ (s : State) (n : Fin 128) (k : Fin 8) (sl : Slot) (wd we : ℕ),
      Issues s n k sl (WInstr.cross wd we 0)) ∧
    (∃ (s : State) (n : Fin 128) (k : Fin 8) (sl : Slot) (wd : ℕ),
      Issues s n k sl (WInstr.cross wd 0 1)) ∧
    (∃ (s : State) (n : Fin 128) (k : Fin 8) (sl : Slot) (wv ws mode rs off imm : ℕ),
      Issues s n k sl (WInstr.setat wv ws mode rs off imm) ∧ Chip.setatAllowed s.prot sl.live.pd (off * 8) = true ∧
      crossingOperand sl.live s.chip.olen s.chip.ctr ws mode rs imm = none) ∧
    (∃ (s : State) (n : Fin 128) (k : Fin 8) (sl : Slot) (wv ws mode rs off imm x : ℕ),
      Issues s n k sl (WInstr.setat wv ws mode rs off imm) ∧ Chip.setatAllowed s.prot sl.live.pd (off * 8) = true ∧
      crossingOperand sl.live s.chip.olen s.chip.ctr ws mode rs imm = some x ∧ s.chip.ctr < x ∧ s.chip.tb.setat.length
      < 256) ∧
    (∃ (s : State) (n : Fin 128) (k : Fin 8) (sl : Slot) (wv ws mode rs off imm x : ℕ),
      Issues s n k sl (WInstr.setat wv ws mode rs off imm) ∧ Chip.setatAllowed s.prot sl.live.pd (off * 8) = true ∧
      crossingOperand sl.live s.chip.olen s.chip.ctr ws mode rs imm = some x ∧ x ≤ s.chip.ctr) ∧
    (∃ (s : State) (n : Fin 128) (k : Fin 8) (sl : Slot) (wv ws mode rs off imm x : ℕ),
      Issues s n k sl (WInstr.setat wv ws mode rs off imm) ∧ Chip.setatAllowed s.prot sl.live.pd (off * 8) = true ∧
      crossingOperand sl.live s.chip.olen s.chip.ctr ws mode rs imm = some x ∧ s.chip.ctr < x ∧ 256 ≤
      s.chip.tb.setat.length) ∧
    (∃ (s : State) (n : Fin 128) (k : Fin 8) (sl : Slot) (wv ws mode rs off imm : ℕ),
      Issues s n k sl (WInstr.setat wv ws mode rs off imm) ∧ Chip.setatAllowed s.prot sl.live.pd (off * 8) = false ∧
      NoLocks s.chip ∧ s.chip.slotOwed (↑n) sl = false ∧ s.chip.faults.length < 256 ∧ sl.live.pc < 2 ^ 16) :=
  ⟨⟨wICross, 5, 3, sl0, 1, 2, by unfold Issues Meets; decide +kernel⟩,
  ⟨wICross1, 5, 3, sl0, 1, by unfold Issues Meets; decide +kernel⟩,
  ⟨wSaNone, 5, 3, sl0, 1, 0, 2, 0, 1056769, 20480, by unfold Issues Meets; decide +kernel⟩,
  ⟨wSaOk, 5, 3, sl0, 1, 0, 0, 0, 1056769, 20490, 20490, by unfold Issues Meets; decide +kernel⟩,
  ⟨wSaPast, 5, 3, sl0, 1, 0, 0, 0, 1056769, 20480, 20480, by unfold Issues Meets; decide +kernel⟩,
  ⟨wSaFull, 5, 3, sl0, 1, 0, 0, 0, 1056769, 20490, 20490, by unfold Issues Meets; decide +kernel⟩,
  ⟨wISetat, 5, 3, sl0, 1, 0, 0, 0, 1056769, 20490, by unfold NoLocks Issues Meets; decide +kernel⟩⟩

/-- States and operands that meet the hypotheses of `Obligations.LocalLocks`, clause by clause. -/
theorem witness_LocalLocks :
    (∃ (s : State) (n : Fin 128) (k : Fin 8) (sl : Slot) (wd ws rs lease lockno : ℕ),
      wd < 8 ∧ Issues s n k sl (WInstr.lock wd ws 1 rs lease lockno) ∧ ((if rs = 1 then BitVec.toNat (sl.live.reg ws)
      % 2 ^ 16 else lockno) < 1024) ∧ ((s.chip.lockAt (if rs = 1 then BitVec.toNat (sl.live.reg ws) % 2 ^ 16 else
      lockno)).st = LockState.free)) ∧
    (∃ (s : State) (n : Fin 128) (k : Fin 8) (sl : Slot) (wd ws rs lease lockno : ℕ),
      wd < 8 ∧ Issues s n k sl (WInstr.lock wd ws 1 rs lease lockno) ∧ ((if rs = 1 then BitVec.toNat (sl.live.reg ws)
      % 2 ^ 16 else lockno) < 1024) ∧ ((s.chip.lockAt (if rs = 1 then BitVec.toNat (sl.live.reg ws) % 2 ^ 16 else
      lockno)).st = LockState.broken)) ∧
    (∃ (s : State) (n : Fin 128) (k : Fin 8) (sl : Slot) (wd ws rs lease lockno : ℕ),
      wd < 8 ∧ Issues s n k sl (WInstr.lock wd ws 1 rs lease lockno) ∧ ((if rs = 1 then BitVec.toNat (sl.live.reg ws)
      % 2 ^ 16 else lockno) < 1024) ∧ ((s.chip.lockAt (if rs = 1 then BitVec.toNat (sl.live.reg ws) % 2 ^ 16 else
      lockno)).st = LockState.held) ∧ ((s.chip.lockAt (if rs = 1 then BitVec.toNat (sl.live.reg ws) % 2 ^ 16 else
      lockno)).owner = sl.t)) ∧
    (∃ (s : State) (n : Fin 128) (k : Fin 8) (sl : Slot) (wd ws rs lease lockno : ℕ),
      wd < 8 ∧ Issues s n k sl (WInstr.lock wd ws 1 rs lease lockno) ∧ ((if rs = 1 then BitVec.toNat (sl.live.reg ws)
      % 2 ^ 16 else lockno) < 1024) ∧ ((s.chip.lockAt (if rs = 1 then BitVec.toNat (sl.live.reg ws) % 2 ^ 16 else
      lockno)).st = LockState.held) ∧ ((s.chip.lockAt (if rs = 1 then BitVec.toNat (sl.live.reg ws) % 2 ^ 16 else
      lockno)).owner ≠ sl.t)) ∧
    (∃ (s : State) (n : Fin 128) (k : Fin 8) (sl : Slot) (wd ws rs lease lockno : ℕ),
      wd < 8 ∧ Issues s n k sl (WInstr.lock wd ws 1 rs lease lockno) ∧ (1024 ≤ if rs = 1 then BitVec.toNat
      (sl.live.reg ws) % 2 ^ 16 else lockno) ∧ ((if rs = 1 then BitVec.toNat (sl.live.reg ws) % 2 ^ 16 else lockno) <
      32768 ∨ 33023 < if rs = 1 then BitVec.toNat (sl.live.reg ws) % 2 ^ 16 else lockno)) ∧
    (∃ (s : State) (n : Fin 128) (k : Fin 8) (sl : Slot) (wd ws rs lease lockno : ℕ),
      wd < 8 ∧ Issues s n k sl (WInstr.lock wd ws 1 rs lease lockno) ∧ (32768 ≤ if rs = 1 then BitVec.toNat
      (sl.live.reg ws) % 2 ^ 16 else lockno) ∧ ((if rs = 1 then BitVec.toNat (sl.live.reg ws) % 2 ^ 16 else lockno) ≤
      33023) ∧ s.chip.inService = false) ∧
    (∃ (s : State) (n : Fin 128) (k : Fin 8) (sl : Slot) (wd ws rs lockno : ℕ),
      wd < 8 ∧ Issues s n k sl (WInstr.unlock wd ws rs lockno) ∧ ((if rs = 1 then BitVec.toNat (sl.live.reg ws) % 2 ^
      16 else lockno) < 1024) ∧ ((s.chip.lockAt (if rs = 1 then BitVec.toNat (sl.live.reg ws) % 2 ^ 16 else
      lockno)).st = LockState.held) ∧ ((s.chip.lockAt (if rs = 1 then BitVec.toNat (sl.live.reg ws) % 2 ^ 16 else
      lockno)).owner = sl.t) ∧ (s.chip.lockWaiters (if rs = 1 then BitVec.toNat (sl.live.reg ws) % 2 ^ 16 else lockno)
      = [])) ∧
    (∃ (s : State) (n : Fin 128) (k : Fin 8) (sl : Slot) (wd ws rs lockno : ℕ),
      wd < 8 ∧ Issues s n k sl (WInstr.unlock wd ws rs lockno) ∧ ((if rs = 1 then BitVec.toNat (sl.live.reg ws) % 2 ^
      16 else lockno) < 1024) ∧ ((s.chip.lockAt (if rs = 1 then BitVec.toNat (sl.live.reg ws) % 2 ^ 16 else
      lockno)).st = LockState.broken) ∧ ((s.chip.lockAt (if rs = 1 then BitVec.toNat (sl.live.reg ws) % 2 ^ 16 else
      lockno)).owner = sl.t)) ∧
    (∃ (s : State) (n : Fin 128) (k : Fin 8) (sl : Slot) (wd ws rs lockno : ℕ),
      wd < 8 ∧ Issues s n k sl (WInstr.unlock wd ws rs lockno) ∧ ((if rs = 1 then BitVec.toNat (sl.live.reg ws) % 2 ^
      16 else lockno) < 1024) ∧ ((s.chip.lockAt (if rs = 1 then BitVec.toNat (sl.live.reg ws) % 2 ^ 16 else
      lockno)).st = LockState.free ∨ (s.chip.lockAt (if rs = 1 then BitVec.toNat (sl.live.reg ws) % 2 ^ 16 else
      lockno)).owner ≠ sl.t)) ∧
    (∃ (s : State) (n : Fin 128) (k : Fin 8) (sl : Slot) (wd ws rs lockno : ℕ),
      wd < 8 ∧ Issues s n k sl (WInstr.unlock wd ws rs lockno) ∧ (1024 ≤ if rs = 1 then BitVec.toNat (sl.live.reg ws)
      % 2 ^ 16 else lockno) ∧ ((if rs = 1 then BitVec.toNat (sl.live.reg ws) % 2 ^ 16 else lockno) < 32768 ∨ 33023 <
      if rs = 1 then BitVec.toNat (sl.live.reg ws) % 2 ^ 16 else lockno)) ∧
    (∃ (s : State) (n : Fin 128) (k : Fin 8) (sl : Slot) (wd ws rs lockno : ℕ),
      wd < 8 ∧ Issues s n k sl (WInstr.unlock wd ws rs lockno) ∧ (32768 ≤ if rs = 1 then BitVec.toNat (sl.live.reg ws)
      % 2 ^ 16 else lockno) ∧ ((if rs = 1 then BitVec.toNat (sl.live.reg ws) % 2 ^ 16 else lockno) ≤ 33023) ∧
      s.chip.inService = false) ∧
    (∃ (s : State) (n : Fin 128) (k : Fin 8) (sl : Slot) (wd ws rs lease lockno : ℕ),
      Issues s n k sl (WInstr.lock wd ws 0 rs lease lockno) ∧ ((if rs = 1 then BitVec.toNat (sl.live.reg ws) % 2 ^ 16
      else lockno) < 1024) ∧ ((s.chip.lockAt (if rs = 1 then BitVec.toNat (sl.live.reg ws) % 2 ^ 16 else lockno)).st =
      LockState.held) ∧ ((s.chip.lockAt (if rs = 1 then BitVec.toNat (sl.live.reg ws) % 2 ^ 16 else lockno)).owner ≠
      sl.t)) ∧
    (∃ (s : State) (l : Fin 1024),
      Ready s ∧ (s.chip.lockAt ↑l).st = LockState.held ∧ s.chip.lockWaiters ↑l = []) ∧
    (∃ (s : State) (l : Fin 1024) (u : ℕ),
      Ready s ∧ (s.chip.lockAt ↑l).st = LockState.held ∧ ((s.chip.waiters kLock fun x => x == ↑l) = [u]) ∧ AtHome
      s.chip u) ∧
    (∃ (s : State) (l : Fin 1024),
      Ready s ∧ (s.chip.lockAt ↑l).st = LockState.broken ∧ s.chip.lockWaiters ↑l = []) :=
  ⟨⟨wILockFree, 5, 3, sl0, 4, 0, 0, 50, 7, by unfold Issues Meets; decide +kernel⟩,
  ⟨wILockBroken, 5, 3, sl0, 4, 0, 0, 50, 7, by unfold Issues Meets; decide +kernel⟩,
  ⟨wILockMine, 5, 3, sl0, 4, 0, 0, 50, 7, by unfold Issues Meets; decide +kernel⟩,
  ⟨wILockOther, 5, 3, sl0, 4, 0, 0, 50, 7, by unfold Issues Meets; decide +kernel⟩,
  ⟨wILockBad, 5, 3, sl0, 4, 0, 0, 50, 2000, by unfold Issues Meets; decide +kernel⟩,
  ⟨wILockRing, 5, 3, sl0, 4, 0, 0, 50, 32771, by unfold Issues Meets; decide +kernel⟩,
  ⟨wIUnlock, 5, 3, sl0, 4, 0, 0, 7, by unfold Issues Meets; decide +kernel⟩,
  ⟨wIUnlockBroken, 5, 3, sl0, 4, 0, 0, 7, by unfold Issues Meets; decide +kernel⟩,
  ⟨wIUnlockFree, 5, 3, sl0, 4, 0, 0, 7, by unfold Issues Meets; decide +kernel⟩,
  ⟨wIUnlockBad, 5, 3, sl0, 4, 0, 0, 2000, by unfold Issues Meets; decide +kernel⟩,
  ⟨wIUnlockRing, 5, 3, sl0, 4, 0, 0, 32771, by unfold Issues Meets; decide +kernel⟩,
  ⟨wILockWait, 5, 3, sl0, 4, 0, 0, 50, 7, by unfold Issues Meets; decide +kernel⟩,
  ⟨wTaskLease, 7, by unfold Ready; decide +kernel⟩,
  ⟨wTLock, 7, 9, by unfold AtHome Ready; decide +kernel⟩,
  ⟨wILockBroken, 7, by unfold Ready; decide +kernel⟩⟩

/-- States and operands that meet the hypotheses of `Obligations.ThreadCommands`, clause by clause. -/
theorem witness_ThreadCommands :
    (∃ (s : State) (u : Fin 262144) (gchk : Bool) (gen : BitVec 16),
      Ready s ∧ ((s.chip.thr ↑u).st = TState.fault → (s.chip.thr ↑u).cmd = none) ∧ (gchk = false ∨ gen.toNat =
      (s.chip.copyOf ↑u).gen) ∧ (s.chip.thr ↑u).st = TState.idle ∧ AtHome s.chip ↑u) ∧
    (∃ (s : State) (u : Fin 262144) (gchk : Bool) (gen : BitVec 16),
      Ready s ∧ ((s.chip.thr ↑u).st = TState.fault → (s.chip.thr ↑u).cmd = none) ∧ (gchk = false ∨ gen.toNat =
      (s.chip.copyOf ↑u).gen) ∧ (s.chip.thr ↑u).st ≠ TState.idle) ∧
    (∃ (s : State) (u : Fin 262144) (gchk : Bool) (gen : BitVec 16) (i : Instr),
      Ready s ∧ ((s.chip.thr ↑u).st = TState.fault → (s.chip.thr ↑u).cmd = none) ∧ (¬(gchk = false ∨ gen.toNat =
      (s.chip.copyOf ↑u).gen)) ∧ i ∈ [Instr.threadStart u gchk gen, Instr.threadHalt u gchk gen, Instr.threadResume u
      gchk gen, Instr.threadKill u gchk gen, Instr.threadDoorbell u gchk gen]) ∧
    (∃ (s : State) (u : Fin 262144),
      Ready s ∧ ((s.chip.thr ↑u).st = TState.fault → (s.chip.thr ↑u).cmd = none) ∧ ((s.chip.thr ↑u).st = TState.ready
      ∨ (s.chip.thr ↑u).st = TState.waiting ∨ (s.chip.thr ↑u).st = TState.parked)) ∧
    (∃ (s : State) (u : Fin 262144),
      Ready s ∧ ((s.chip.thr ↑u).st = TState.fault → (s.chip.thr ↑u).cmd = none) ∧ ((s.chip.thr ↑u).st = TState.idle ∨
      (s.chip.thr ↑u).st = TState.fault)) ∧
    (∃ (s : State) (u : Fin 262144),
      Ready s ∧ ((s.chip.thr ↑u).st = TState.fault → (s.chip.thr ↑u).cmd = none) ∧ (s.chip.thr ↑u).st = TState.halted) ∧
    (∃ (s : State) (u : Fin 262144),
      Ready s ∧ ((s.chip.thr ↑u).st = TState.fault → (s.chip.thr ↑u).cmd = none) ∧ (s.chip.thr ↑u).st ≠ TState.idle ∧
      (s.chip.thr ↑u).st ≠ TState.running ∧ (s.chip.thr ↑u).hv = false ∧ s.chip.suspendedOn ↑u = none ∧ NoLocks s.chip) ∧
    (∃ (s : State) (u : Fin 262144),
      Ready s ∧ ((s.chip.thr ↑u).st = TState.fault → (s.chip.thr ↑u).cmd = none) ∧ (s.chip.thr ↑u).st = TState.idle) :=
  ⟨⟨wTIdle, 9, false, 0x0#16, by unfold AtHome Ready; decide +kernel⟩,
  ⟨wTaskWake, 9, false, 0x0#16, by unfold Ready; decide +kernel⟩,
  ⟨wUp, 0, true, 0x1#16, (Instr.threadStart 0 true 0x1#16), by unfold Ready; decide +kernel⟩,
  ⟨wTaskWake, 9, by unfold Ready; decide +kernel⟩,
  ⟨wUp, 0, by unfold Ready; decide +kernel⟩,
  ⟨wTHalted, 9, by unfold Ready; decide +kernel⟩,
  ⟨wTaskWake, 9, by unfold NoLocks Ready; decide +kernel⟩,
  ⟨wUp, 0, by unfold Ready; decide +kernel⟩⟩

/-- States and operands that meet the hypotheses of `Obligations.ThreadResumesAndBoundaries`, clause by clause. -/
theorem witness_ThreadResumesAndBoundaries :
    (∃ (s : State) (u : Fin 262144),
      Ready s ∧ (s.chip.thr ↑u).st = TState.halted ∧ (s.chip.thr ↑u).kind = kNone ∧ AtHome s.chip ↑u) ∧
    (∃ (s : State) (u : Fin 262144),
      Ready s ∧ (s.chip.thr ↑u).st = TState.halted ∧ (s.chip.thr ↑u).kind = kXing ∧ xingReached (s.chip.thr ↑u).arg
      s.chip.ctr = false) ∧
    (∃ (s : State) (u : Fin 262144),
      Ready s ∧ (s.chip.thr ↑u).st = TState.fault ∧ (s.chip.thr ↑u).cmd = none ∧ s.chip.writesOut ↑u = true) ∧
    (∃ (s : State) (u : Fin 262144),
      coreUp s.chip = true ∧ (s.chip.thr ↑u).st = TState.fault ∧ (s.chip.thr ↑u).sealing = true ∧ s.chip.writesOut ↑u
      = false ∧ s.chip.deadSlot ↑u = false ∧ AtHome s.chip ↑u) ∧
    (∃ (s : State) (u : Fin 262144),
      (s.chip.thr ↑u).st = TState.fault ∧ s.chip.writesOut ↑u = true) ∧
    (∃ (s : State) (u : Fin 262144),
      coreUp s.chip = true ∧ s.chip.findSlot ↑u = none ∧ (s.chip.thr ↑u).st = TState.fault ∧ (s.chip.thr ↑u).cmd =
      some TCmd.halt) ∧
    (∃ (s : State) (u : Fin 262144),
      coreUp s.chip = true ∧ s.chip.findSlot ↑u = none ∧ (s.chip.thr ↑u).st = TState.fault ∧ (s.chip.thr ↑u).cmd =
      some TCmd.kill ∧ (s.chip.thr ↑u).hv = false ∧ s.chip.suspendedOn ↑u = none ∧ NoLocks s.chip) ∧
    (∃ (s : State) (u : Fin 262144) (n k : ℕ) (sl : Slot),
      coreUp s.chip = true ∧ s.chip.findSlot ↑u = some (n, k) ∧ s.chip.slot n k = some sl ∧ sl.t = ↑u ∧
      s.chip.busySlot n k = false ∧ sl.dead = false ∧ sl.live.cmd = some TCmd.halt) ∧
    (∃ (s : State) (u : Fin 262144) (n k : ℕ) (sl : Slot),
      coreUp s.chip = true ∧ s.chip.findSlot ↑u = some (n, k) ∧ s.chip.slot n k = some sl ∧ sl.t = ↑u ∧
      s.chip.busySlot n k = false ∧ sl.dead = false ∧ sl.live.cmd = some TCmd.kill ∧ sl.live.hv = false ∧
      s.chip.suspendedOn ↑u = none ∧ NoLocks s.chip) ∧
    (∃ (s : State) (u : Fin 262144) (n k : ℕ) (sl : Slot),
      coreUp s.chip = true ∧ s.chip.findSlot ↑u = some (n, k) ∧ s.chip.slot n k = some sl ∧ sl.t = ↑u ∧
      s.chip.busySlot n k = false ∧ sl.dead = false ∧ sl.live.cmd = none ∧ s.chip.needleOn n = false ∧
      s.chip.suspendedOn ↑u = none ∧ s.chip.needleOn (Chip.writeBack sl).aff = true) ∧
    (∃ (s : State) (u : Fin 262144) (n k : ℕ) (sl : Slot),
      coreUp s.chip = true ∧ s.chip.findSlot ↑u = some (n, k) ∧ s.chip.slot n k = some sl ∧ sl.t = ↑u ∧
      s.chip.busySlot n k = false ∧ sl.dead = false ∧ sl.live.cmd = none ∧ s.chip.needleOn n = true) :=
  ⟨⟨wTHalted, 9, by unfold AtHome Ready; decide +kernel⟩,
  ⟨wTHaltedX, 9, by unfold Ready; decide +kernel⟩,
  ⟨wTFaultOut, 9, by unfold Ready; decide +kernel⟩,
  ⟨wTFaultSeal, 9, by unfold AtHome; decide +kernel⟩,
  ⟨wTFaultOut, 9, by decide +kernel⟩,
  ⟨wTFaultHalt, 9, by decide +kernel⟩,
  ⟨wTFaultKill, 9, by unfold NoLocks; decide +kernel⟩,
  ⟨wTHalting, 9, 5, 3, (slotOf wTHalting), by decide +kernel⟩,
  ⟨wTKilling, 9, 5, 3, (slotOf wTKilling), by unfold NoLocks; decide +kernel⟩,
  ⟨wTResOff, 9, 5, 3, (slotOf wTResOff), by decide +kernel⟩,
  ⟨wINop, 9, 5, 3, sl0, by decide +kernel⟩⟩

/-- States and operands that meet the hypotheses of `Obligations.FetchesAndDoorbells`, clause by clause. -/
theorem witness_FetchesAndDoorbells :
    (∃ (s : State) (u : Fin 262144) (w : ℕ),
      Ready s ∧ (s.chip.thr ↑u).st = TState.waiting ∧ (s.chip.thr ↑u).kind = kDesc ∧ s.prot.check (s.chip.thr ↑u).pd
      ((s.chip.thr ↑u).dptr * 32) 32 Need.read = Checked.ok w ∧ NoneWaits s.chip (s.prot.home w) ((s.chip.thr ↑u).arg
      % 128) ∧ s.chip.pwr.wakeQ = []) ∧
    (∃ (s : State) (u : Fin 262144),
      Ready s ∧ ((s.chip.thr ↑u).st ≠ TState.waiting ∨ (s.chip.thr ↑u).kind ≠ kDesc) ∧ ((s.chip.thr ↑u).st =
      TState.fault → (s.chip.thr ↑u).cmd = none)) ∧
    (∃ (s : State) (u : Fin 262144) (l : Line),
      coreUp s.chip = true ∧ (List.find? (fun x => x.1 == ↑u) s.chip.dwaitIn = some (↑u, (s.chip.thr ↑u).dptr * 32, l,
      false)) ∧ (s.chip.thr ↑u).st = TState.waiting ∧ (s.chip.thr ↑u).kind = kDesc ∧ (Desc.ofLine ((s.chip.thr
      ↑u).dptr * 32) l).own = true ∧ AtHome s.chip ↑u) ∧
    (∃ (s : State) (u : Fin 262144) (l : Line),
      coreUp s.chip = true ∧ (List.find? (fun x => x.1 == ↑u) s.chip.dwaitIn = some (↑u, (s.chip.thr ↑u).dptr * 32, l,
      false)) ∧ (s.chip.thr ↑u).st = TState.waiting ∧ (s.chip.thr ↑u).kind = kDesc ∧ (Desc.ofLine ((s.chip.thr
      ↑u).dptr * 32) l).own = false) ∧
    (∃ (s : State) (n : Fin 128) (k q u : ℕ) (rest : List ℕ),
      Ready s ∧ s.chip.needleOn ↑n = true ∧ s.chip.pllLocked ↑n = true ∧ s.chip.npwr ↑n = 0 ∧ s.chip.fetches ↑n < 4 ∧
      s.chip.freeSlot ↑n = some k ∧ s.chip.fetchClass ↑n = some q ∧ Chip.queueOf (s.chip.ndl ↑n) q = u :: rest) ∧
    (∃ (s : State) (n : Fin 128) (k : Fin 8) (sl : Slot),
      coreUp s.chip = true ∧ s.chip.npwr ↑n = 0 ∧ s.chip.slot ↑n ↑k = some sl ∧ sl.fetching = true ∧ (∀ j < 8, Tab.get
      false s.chip.eccUe (Chip.recordAt sl.t j) = false ∧ Tab.get false s.chip.eccCe (Chip.recordAt sl.t j) = false) ∧
      (s.chip.ndl ↑n).shadow = none ∧ (s.chip.ndl ↑n).susp = []) ∧
    (∃ (s : State) (n : Fin 128) (k : Fin 8) (sl : Slot),
      coreUp s.chip = true ∧ s.chip.slot ↑n ↑k = some sl ∧ sl.fetching = false ∧ sl.dead = false ∧ s.chip.npwr ↑n = 0
      ∧ (s.chip.ndl ↑n).ib.contains (Chip.lineOf sl.live.pc) = false) :=
  ⟨⟨wTDesc, 9, 0, by unfold Ready NoneWaits; decide +kernel⟩,
  ⟨wUp, 0, by unfold Ready; decide +kernel⟩,
  ⟨wTDescOwn, 9, 0x80008800000000000003#512, by unfold AtHome; decide +kernel⟩,
  ⟨wTDescOff, 9, 0x80000800000000000003#512, by decide +kernel⟩,
  ⟨wTFetch, 5, 0, 1, 9, [], by unfold Ready; decide +kernel⟩,
  ⟨wTFetching, 5, 3, (slotOf wTFetching), by decide +kernel⟩,
  ⟨wTResOff, 5, 3, (slotOf wTResOff), by decide +kernel⟩⟩

/-- States and operands that meet the hypotheses of `Obligations.Needles`, clause by clause. -/
theorem witness_Needles :
    (∃ (s : State) (n : Fin 128),
      (∀ q ∈ s.chip.threads, q.2.st ≠ TState.parked) ∧ Ready s ∧ ((fun c => c.en (Reg.ndlCtl ↑n) F.NdlCtl.EN) s.chip =
      En.off)) ∧
    (∃ (s : State) (n : Fin 128),
      (∀ q ∈ s.chip.threads, q.2.st ≠ TState.parked) ∧ Ready s ∧ ((fun c => c.en (Reg.ndlCtl ↑n) F.NdlCtl.EN) s.chip =
      En.running) ∧ s.chip.slotsEmpty ↑n = true ∧ (s.chip.ndl ↑n).queues.flatten = []) ∧
    (∃ (s : State) (n : Fin 128),
      (∀ q ∈ s.chip.threads, q.2.st ≠ TState.parked) ∧ Ready s ∧ ((fun c => c.en (Reg.ndlCtl ↑n) F.NdlCtl.EN) s.chip =
      En.stopping)) ∧
    (∃ (s : State) (n : Fin 128),
      (∀ q ∈ s.chip.threads, q.2.st ≠ TState.parked) ∧ coreUp s.chip = true ∧ ((fun c => c.en (Reg.ndlCtl ↑n)
      F.NdlCtl.EN) s.chip = En.stopping ∨ (fun c => c.en (Reg.ndlCtl ↑n) F.NdlCtl.EN) s.chip = En.restart) ∧
      s.chip.slotsEmpty ↑n = true) ∧
    (∃ (s : State) (n : Fin 128),
      (∀ q ∈ s.chip.threads, q.2.st ≠ TState.parked) ∧ s.chip.slotsEmpty ↑n = false) ∧
    (∃ (s : State) (n : Fin 128),
      coreUp s.chip = true ∧ s.chip.npwr ↑n = 0 ∧ s.chip.slotsEmpty ↑n = true ∧ (s.chip.ndl ↑n).active = none ∧
      (s.chip.ndl ↑n).shadow = none ∧ Chip.rdyq (s.chip.ndl ↑n) = 0) ∧
    (∃ (s : State) (n : Fin 128),
      coreUp s.chip = true ∧ (¬(s.chip.slotsEmpty ↑n = true ∧ (s.chip.ndl ↑n).active = none ∧ (s.chip.ndl ↑n).shadow =
      none ∧ Chip.rdyq (s.chip.ndl ↑n) = 0 ∧ Chip.suspCount (s.chip.ndl ↑n) = 0))) ∧
    (∃ (s : State) (n : Fin 128),
      coreUp s.chip = true ∧ s.chip.npwr ↑n = 1 ∧ s.chip.fld (Reg.ndlCfg ↑n) F.NdlCfg.PG_IDLE ≠ 0 ∧ (s.chip.slotsEmpty
      ↑n = true ∧ (s.chip.ndl ↑n).active = none ∧ (s.chip.ndl ↑n).shadow = none ∧ Chip.rdyq (s.chip.ndl ↑n) = 0 ∧
      Chip.suspCount (s.chip.ndl ↑n) = 0)) ∧
    (∃ (s : State) (n : Fin 128),
      coreUp s.chip = true ∧ s.chip.npwr ↑n = 3 ∧ s.chip.pllLocked ↑n = true ∧ s.chip.pwr.wakeQ = []) ∧
    (∃ (s : State) (n : Fin 128),
      coreUp s.chip = true ∧ s.chip.npwr ↑n = 3 ∧ s.chip.pllLocked ↑n = false) ∧
    (∃ (s : State) (n m : Fin 128) (rest : List ℕ),
      coreUp s.chip = true ∧ m ≠ n ∧ s.chip.npwr ↑n = 3 ∧ s.chip.pllLocked ↑n = true ∧ s.chip.wakingNow = 8 ∧
      s.chip.pwr.wakeQ = ↑m :: rest ∧ ↑m ∉ rest ∧ (∀ x ∈ rest, s.chip.npwr x = 2) ∧ s.chip.npwr ↑m = 2 ∧
      s.chip.pllLocked ↑m = true ∧ s.chip.bdDown ↑m = false) ∧
    (∃ (s : State) (q : Fin 4) (data : Word),
      Ready s ∧ (∀ (n : ℕ), n / 32 = (q : Nat) → s.chip.fld (Reg.ndlCtl n) F.NdlCtl.EN = 0 ∧ (s.chip.npwr n = 1 ∨
      s.chip.npwr n = 2)) ∧ 20 ≤ fget data F.ClkNpll.MULT ∧ fget data F.ClkNpll.MULT ≤ 80 ∧ fget data F.ClkNpll.MULT ≠
      s.chip.fld (Reg.clkNpll ↑q) F.ClkNpll.MULT) ∧
    (∃ (s : State) (q : Fin 4) (data : Word),
      Ready s ∧ (∀ (n : ℕ), n / 32 = (q : Nat) → s.chip.fld (Reg.ndlCtl n) F.NdlCtl.EN = 0 ∧ (s.chip.npwr n = 1 ∨
      s.chip.npwr n = 2)) ∧ (fget data F.ClkNpll.MULT < 20 ∨ 80 < fget data F.ClkNpll.MULT ∨ fget data F.ClkNpll.MULT
      = s.chip.fld (Reg.clkNpll ↑q) F.ClkNpll.MULT)) ∧
    (∃ (s : State) (q : Fin 4),
      Ready s ∧ (¬∀ (n : ℕ), n / 32 = (q : Nat) → s.chip.fld (Reg.ndlCtl n) F.NdlCtl.EN = 0 ∧ (s.chip.npwr n = 1 ∨
      s.chip.npwr n = 2))) ∧
    (∃ (s : State) (q : Fin 4),
      s.chip.bit (Reg.clkNpll ↑q) F.ClkNpll.LOCK = false ∧ s.chip.pwr.wakeQ = []) ∧
    (∃ (s : State) (q : Fin 4) (n : ℕ),
      n < 128 ∧ (n / 32 = (q : Nat)) ∧ s.chip.bit (Reg.clkNpll ↑q) F.ClkNpll.LOCK = false ∧ s.chip.bdDown n = false ∧
      s.chip.pwr.wakeQ = [n] ∧ s.chip.npwr n = 2 ∧ s.chip.wakingNow < 8 ∧ (∀ (m : ℕ), m / 32 = (q : Nat) → s.chip.npwr
      m ≠ 1)) ∧
    (∃ (s : State) (q : Fin 4),
      s.chip.bit (Reg.clkNpll ↑q) F.ClkNpll.LOCK = true) :=
  ⟨⟨wUp, 0, by unfold Ready; decide +kernel⟩,
  ⟨wTaskWake, 5, by unfold Ready; decide +kernel⟩,
  ⟨wTResOff, 5, by unfold Ready; decide +kernel⟩,
  ⟨wNStop, 5, by decide +kernel⟩,
  ⟨wINop, 5, by decide +kernel⟩,
  ⟨wTaskWake, 5, by decide +kernel⟩,
  ⟨wINop, 5, by decide +kernel⟩,
  ⟨wNStopped, 5, by decide +kernel⟩,
  ⟨wNWaking, 5, by decide +kernel⟩,
  ⟨wNWakingNoPll, 5, by decide +kernel⟩,
  ⟨wNWake8, 0, 9, [], by decide +kernel⟩,
  ⟨wUp, 0, 0x14#64, by unfold Ready; decide +kernel, fun n hn =>
    off_of_lt n (by have h : n / 32 = 0 := hn; omega), by decide +kernel⟩,
  ⟨wUp, 0, 0x0#64, by unfold Ready; decide +kernel, fun n hn =>
    off_of_lt n (by have h : n / 32 = 0 := hn; omega), by decide +kernel⟩,
  ⟨wTaskWake, 0, by unfold Ready; decide +kernel, fun h =>
    absurd (h 5 rfl).1 (by decide +kernel)⟩,
  ⟨State.reset, 0, by decide +kernel⟩,
  ⟨wPllWake, 0, 5, by decide, by decide, by decide +kernel, by decide +kernel, by decide +kernel,
    by decide +kernel, by decide +kernel, fun m hm => not_waking m (by have h : m / 32 = 0 := hm; omega)⟩,
  ⟨wTaskWake, 0, by decide +kernel⟩⟩

/-- States and operands that meet the hypotheses of `Obligations.TransfersStart`, clause by clause. -/
theorem witness_TransfersStart :
    (∃ (s : State) (n : Fin 128) (k : Fin 8) (sl : Slot) (i : WInstr),
      isXfer i = true ∧ Issues s n k sl i ∧ sl.live.pc < 2 ^ 16 ∧ (hostSource i = false ∨ sl.live.addressOk
      (headFields i).ws = true) ∧ (∀ (wd ws mode spec chain wp : ℕ), i = WInstr.patch wd ws mode spec chain wp →
      (Shape.of (BitVec.toNat (sl.live.reg wp)) (BitVec.toNat (sl.live.reg (wp + 1)))).ok (mode == 2) = true) ∧ ((¬∃
      g, sl.grp = some g ∧ g.descs ≠ []) ∨ Chip.isSpec i = true ∨ noDesc i = true)) ∧
    (∃ (s : State) (n : Fin 128) (k : Fin 8) (sl : Slot) (i : WInstr) (code : ℕ),
      isXfer i = true ∧ Issues s n k sl i ∧ sl.live.pc < 2 ^ 16 ∧ (code = 11 ∧ ¬(hostSource i = false ∨
      sl.live.addressOk (headFields i).ws = true) ∨ (code = 13 ∧ (hostSource i = false ∨ sl.live.addressOk (headFields
      i).ws = true) ∧ ¬∀ (wd ws mode spec chain wp : ℕ), i = WInstr.patch wd ws mode spec chain wp → (Shape.of
      (BitVec.toNat (sl.live.reg wp)) (BitVec.toNat (sl.live.reg (wp + 1)))).ok (mode == 2) = true) ∨ code = 9 ∧
      (hostSource i = false ∨ sl.live.addressOk (headFields i).ws = true) ∧ (∀ (wd ws mode spec chain wp : ℕ), i =
      WInstr.patch wd ws mode spec chain wp → (Shape.of (BitVec.toNat (sl.live.reg wp)) (BitVec.toNat (sl.live.reg (wp
      + 1)))).ok (mode == 2) = true) ∧ (∃ g, sl.grp = some g ∧ g.descs ≠ []) ∧ Chip.isSpec i = false ∧ noDesc i =
      false)) ∧
    (∃ (s : State) (n : Fin 128) (k : Fin 8) (sl : Slot) (i : WInstr) (code : ℕ),
      isXfer i = true ∧ Issues s n k sl i ∧ sl.live.pc < 2 ^ 16 ∧ (code = 11 ∧ ¬(hostSource i = false ∨
      sl.live.addressOk (headFields i).ws = true) ∨ (code = 13 ∧ (hostSource i = false ∨ sl.live.addressOk (headFields
      i).ws = true) ∧ ¬∀ (wd ws mode spec chain wp : ℕ), i = WInstr.patch wd ws mode spec chain wp → (Shape.of
      (BitVec.toNat (sl.live.reg wp)) (BitVec.toNat (sl.live.reg (wp + 1)))).ok (mode == 2) = true) ∨ code = 9 ∧
      (hostSource i = false ∨ sl.live.addressOk (headFields i).ws = true) ∧ (∀ (wd ws mode spec chain wp : ℕ), i =
      WInstr.patch wd ws mode spec chain wp → (Shape.of (BitVec.toNat (sl.live.reg wp)) (BitVec.toNat (sl.live.reg (wp
      + 1)))).ok (mode == 2) = true) ∧ (∃ g, sl.grp = some g ∧ g.descs ≠ []) ∧ Chip.isSpec i = false ∧ noDesc i =
      false)) ∧
    (∃ (s : State) (n : Fin 128) (k : Fin 8) (sl : Slot) (i : WInstr) (code : ℕ),
      isXfer i = true ∧ Issues s n k sl i ∧ sl.live.pc < 2 ^ 16 ∧ (code = 11 ∧ ¬(hostSource i = false ∨
      sl.live.addressOk (headFields i).ws = true) ∨ (code = 13 ∧ (hostSource i = false ∨ sl.live.addressOk (headFields
      i).ws = true) ∧ ¬∀ (wd ws mode spec chain wp : ℕ), i = WInstr.patch wd ws mode spec chain wp → (Shape.of
      (BitVec.toNat (sl.live.reg wp)) (BitVec.toNat (sl.live.reg (wp + 1)))).ok (mode == 2) = true) ∨ code = 9 ∧
      (hostSource i = false ∨ sl.live.addressOk (headFields i).ws = true) ∧ (∀ (wd ws mode spec chain wp : ℕ), i =
      WInstr.patch wd ws mode spec chain wp → (Shape.of (BitVec.toNat (sl.live.reg wp)) (BitVec.toNat (sl.live.reg (wp
      + 1)))).ok (mode == 2) = true) ∧ (∃ g, sl.grp = some g ∧ g.descs ≠ []) ∧ Chip.isSpec i = false ∧ noDesc i =
      false)) :=
  ⟨⟨wIMove, 5, 3, sl0, WInstr.move { wd := 4, ws := 0, mode := 1, spec := 0, rc := 0, wc := 0 } 0, rfl,
    by unfold Issues Meets; decide +kernel, by decide +kernel, by decide +kernel, nofun, .inl fun h => nomatch h.choose_spec.1⟩,
  ⟨wIMoveMis, 5, 3, (slotOf wIMoveMis), WInstr.movec { wd := 4, ws := 2, mode := 2, spec := 0, rc := 0, wc := 0 } 5, 11, rfl,
    by unfold Issues Meets; decide +kernel, by decide +kernel, .inl ⟨rfl, by decide +kernel⟩⟩,
  ⟨wIPatchOk, 5, 3, (slotOf wIPatchOk), WInstr.patch 4 0 0 0 0 2, 13, rfl,
    by unfold Issues Meets; decide +kernel, by decide +kernel, .inr (.inl ⟨rfl, by decide +kernel,
    fun h => absurd (h _ _ _ _ _ _ rfl) (by decide +kernel)⟩)⟩,
  ⟨wIStaged, 5, 3, (slotOf wIStaged), WInstr.move { wd := 4, ws := 0, mode := 1, spec := 0, rc := 0, wc := 0 } 0, 9, rfl,
    by unfold Issues Meets; decide +kernel, by decide +kernel, .inr (.inr ⟨rfl, by decide +kernel, nofun,
    ⟨_, rfl, by decide +kernel⟩, rfl, rfl⟩)⟩⟩

/-- States and operands that meet the hypotheses of `Obligations.TransferBursts`, clause by clause. -/
theorem witness_TransferBursts :
    (∃ (x : Xfer) (r : DRec) (w : ℕ × PWord) (ws : List (ℕ × PWord)),
      x.cur = some r ∧ x.forming = w :: ws) ∧
    (∃ (s : State) (n : Fin 128) (x : Xfer) (b : Burst) (rest : List Burst) (w id i : ℕ),
      coreUp s.chip = true ∧ s.chip.npwr ↑n = 0 ∧ (s.chip.ndl ↑n).active = some x ∧ x.queue = b :: rest ∧ x.stage ≠
      XStage.held ∧ AllUp s.chip ∧ NoneWaits s.chip (s.prot.home w) b.req ∧ b.use = BurstFor.xSrc (↑n) id i ∧ b.kind =
      BurstKind.read ∧ s.prot.check x.pd b.addr 64 Need.read = Checked.ok w) ∧
    (∃ (s : State) (n : Fin 128) (x : Xfer) (b : Burst) (rest : List Burst) (w id : ℕ) (r : DRec),
      coreUp s.chip = true ∧ s.chip.npwr ↑n = 0 ∧ (s.chip.ndl ↑n).active = some x ∧ x.queue = b :: rest ∧ x.stage ≠
      XStage.held ∧ AllUp s.chip ∧ NoneWaits s.chip (s.prot.home w) b.req ∧ b.use = BurstFor.xData (↑n) id b.desc ∧
      b.kind = BurstKind.ack ∧ NoFence s.chip ∧ x.cur = some r ∧ r.desc.addr = b.desc ∧ x.closed = [] ∧ s.prot.check
      x.pd b.addr (64 * b.len) Need.ackWrite = Checked.ok w) ∧
    (∃ (s : State) (n : Fin 128) (x : Xfer) (b : Burst) (rest : List Burst) (w id : ℕ) (r : DRec),
      coreUp s.chip = true ∧ s.chip.npwr ↑n = 0 ∧ (s.chip.ndl ↑n).active = some x ∧ x.queue = b :: rest ∧ x.stage ≠
      XStage.held ∧ AllUp s.chip ∧ NoneWaits s.chip (s.prot.home w) b.req ∧ b.use = BurstFor.xStatus (↑n) id b.desc ∧
      b.kind = BurstKind.ack ∧ NoFence s.chip ∧ x.cur = none ∧ x.closed = [r] ∧ r.desc.addr = b.desc ∧ s.prot.check
      x.pd b.addr 64 Need.ackWrite = Checked.ok w) ∧
    (∃ (s : State) (n : Fin 128) (x : Xfer) (b : Burst) (rest : List Burst) (w id : ℕ),
      coreUp s.chip = true ∧ s.chip.npwr ↑n = 0 ∧ (s.chip.ndl ↑n).active = some x ∧ x.queue = b :: rest ∧ x.stage ≠
      XStage.held ∧ AllUp s.chip ∧ NoneWaits s.chip (s.prot.home w) b.req ∧ b.use = BurstFor.xDesc (↑n) id ∧ b.kind =
      BurstKind.read ∧ s.prot.check x.pd b.desc 32 Need.read = Checked.ok w) ∧
    (∃ (s : State) (n : Fin 128) (e : CqEntry) (r : DRec) (w : ℕ),
      Chip.readyEntry s.env (Chip.clearFree s.env s.chip) [] (s.chip.ndl ↑n).cq = some (e, r) ∧ coreUp s.chip = true ∧
      s.chip.npwr ↑n = 0 ∧ s.prot.check e.pd (r.desc.addr / 64 * 64) 64 Need.ackWrite = Checked.ok w ∧ NoneWaits
      s.chip (s.prot.home w) ↑n) ∧
    (∃ (s : State) (n : Fin 128) (e : CqEntry) (r : DRec) (w : ℕ),
      (s.chip.ndl ↑n).cq = [e] ∧ ((fun (e : CqEntry) (r : DRec) => e.spec = false ∧ e.stopped = false ∧ (∃ rest,
      e.descs = r :: rest) ∧ r.own = 0) e r) ∧ ((fun (e : CqEntry) (r : DRec) (w : Nat) => s.prot.check e.pd
      (r.desc.addr / 64 * 64) 64 Need.ackWrite = Checked.ok w ∧ r.pend = 0 ∧ r.statusSent = true) e r w)) ∧
    (∃ (s : State) (n : Fin 128) (e : CqEntry) (r : DRec),
      (s.chip.ndl ↑n).cq = [e] ∧ ((fun (e : CqEntry) (r : DRec) => e.spec = false ∧ e.stopped = false ∧ (∃ rest,
      e.descs = r :: rest) ∧ r.own = 0) e r) ∧ r.pend ≠ 0) ∧
    (∃ (s : State) (n : Fin 128) (e f : CqEntry) (r q : DRec) (v w : ℕ),
      (s.chip.ndl ↑n).cq = [e, f] ∧ ((fun (e : CqEntry) (r : DRec) => e.spec = false ∧ e.stopped = false ∧ (∃ rest,
      e.descs = r :: rest) ∧ r.own = 0) e r) ∧ ((fun (e : CqEntry) (r : DRec) => e.spec = false ∧ e.stopped = false ∧
      (∃ rest, e.descs = r :: rest) ∧ r.own = 0) f q) ∧ e.t ≠ f.t ∧ ((fun (e : CqEntry) (r : DRec) (w : Nat) =>
      s.prot.check e.pd (r.desc.addr / 64 * 64) 64 Need.ackWrite = Checked.ok w ∧ r.pend = 0 ∧ r.statusSent = true) e
      r v) ∧ s.chip.tdDown (s.prot.tdom v) = true ∧ ((fun (e : CqEntry) (r : DRec) (w : Nat) => s.prot.check e.pd
      (r.desc.addr / 64 * 64) 64 Need.ackWrite = Checked.ok w ∧ r.pend = 0 ∧ r.statusSent = true) f q w) ∧
      s.chip.tdDown (s.prot.tdom w) = false) ∧
    (∃ (s : State) (n : Fin 128),
      Chip.readyEntry s.env (Chip.clearFree s.env s.chip) [] (s.chip.ndl ↑n).cq = none) :=
  ⟨⟨xfW, drec, (32800, { data := 0x5#256, poison := false }), [(32832, { data := 0x6#256, poison := true })], by decide +kernel⟩,
  ⟨wXRead, 5, (activeOf wXRead), (queued wXRead), [], 0, 2, 0, by unfold AllUp NoneWaits; decide +kernel⟩,
  ⟨wXWrite, 5, (activeOf wXWrite), (queued wXWrite), [], 0, 2, ((activeOf wXWrite).cur.getD drec), by unfold AllUp NoneWaits NoFence; decide +kernel⟩,
  ⟨wXStat, 5, (activeOf wXStat), (queued wXStat), [], 0, 2, drec, by unfold AllUp NoneWaits NoFence; decide +kernel⟩,
  ⟨wXDescR, 5, (activeOf wXDescR), (queued wXDescR), [], 0, 2, by unfold AllUp NoneWaits; decide +kernel⟩,
  ⟨wCqOne, 5, (closing wCqOne), ((closing wCqOne).descs.headD drec), 0, by unfold NoneWaits; decide +kernel⟩,
  ⟨wCqOne, 5, clean1 0, ((clean1 0).descs.headD drec), 0, by decide +kernel, ⟨rfl, rfl, ⟨[], rfl⟩, rfl⟩, by decide +kernel⟩,
  ⟨wCqOnePend, 5, clean1 1, ((clean1 1).descs.headD drec), by decide +kernel, ⟨rfl, rfl, ⟨[], rfl⟩, rfl⟩, by decide +kernel⟩,
  ⟨wCqTwo, 5, clean1 0, clean2, ((clean1 0).descs.headD drec), (clean2.descs.headD drec), 0, 1, by decide +kernel, ⟨rfl, rfl, ⟨[], rfl⟩, rfl⟩,
    ⟨rfl, rfl, ⟨[], rfl⟩, rfl⟩, by decide +kernel⟩,
  ⟨State.reset, 0, by decide +kernel⟩⟩

/-- States and operands that meet the hypotheses of `Obligations.TransferEnds`, clause by clause. -/
theorem witness_TransferEnds :
    (∃ (s : State) (n : Fin 128) (x : Xfer) (a : ℕ) (l : Line) (bad : Bool) (sl : Slot),
      coreUp s.chip = true ∧ s.chip.npwr ↑n = 0 ∧ (s.chip.ndl ↑n).active = some x ∧ isXfer x.instr = true ∧ x.stage =
      XStage.fetch ∧ x.fetching = true ∧ x.fetch = some a ∧ x.search = none ∧ (s.chip.ndl ↑n).descIn = [(none, a, l,
      bad)] ∧ s.chip.findSlot x.t = some (↑n, x.slot) ∧ s.chip.slot (↑n) x.slot = some sl ∧ sl.t = x.t ∧ NoLocks
      s.chip ∧ (s.chip.ndl ↑n).shadow = none ∧ (s.chip.ndl ↑n).susp = [] ∧ s.chip.faults.length < 256 ∧
      ((s.chip.heldBursts fun b => b.thr == x.t && Chip.threadUse b.use) = []) ∧ bad = true) ∧
    (∃ (s : State) (n : Fin 128) (x : Xfer) (a : ℕ) (l : Line) (bad : Bool) (sl : Slot) (f : ℕ),
      coreUp s.chip = true ∧ s.chip.npwr ↑n = 0 ∧ (s.chip.ndl ↑n).active = some x ∧ isXfer x.instr = true ∧ x.stage =
      XStage.fetch ∧ x.fetching = true ∧ x.fetch = some a ∧ x.search = none ∧ (s.chip.ndl ↑n).descIn = [(none, a, l,
      bad)] ∧ s.chip.findSlot x.t = some (↑n, x.slot) ∧ s.chip.slot (↑n) x.slot = some sl ∧ sl.t = x.t ∧ NoLocks
      s.chip ∧ (s.chip.ndl ↑n).shadow = none ∧ (s.chip.ndl ↑n).susp = [] ∧ s.chip.faults.length < 256 ∧
      ((s.chip.heldBursts fun b => b.thr == x.t && Chip.threadUse b.use) = []) ∧ bad = false ∧ (Desc.ofLine a l).own =
      true ∧ f < 64 ∧ s.chip.bit (Reg.xfFence f) F.XfFence.VALID = true ∧ ((Desc.ofLine a l).ver = 1 ∨ (Desc.ofLine a
      l).ver = 2) ∧ s.chip.fld (Reg.xfFence f) F.XfFence.ADDR = a / 32 ∧ (∀ (g : ℕ), (Desc.ofLine a l).fenceGen = some
      g → s.chip.fld (Reg.xfFence f) F.XfFence.GEN = g) ∧ (∀ j < f, s.chip.bit (Reg.xfFence j) F.XfFence.VALID =
      false)) ∧
    (∃ (s : State) (n : Fin 128) (x : Xfer) (a : ℕ) (l : Line) (bad : Bool) (sl : Slot),
      coreUp s.chip = true ∧ s.chip.npwr ↑n = 0 ∧ (s.chip.ndl ↑n).active = some x ∧ isXfer x.instr = true ∧ x.stage =
      XStage.fetch ∧ x.fetching = true ∧ x.fetch = some a ∧ x.search = none ∧ (s.chip.ndl ↑n).descIn = [(none, a, l,
      bad)] ∧ s.chip.findSlot x.t = some (↑n, x.slot) ∧ s.chip.slot (↑n) x.slot = some sl ∧ sl.t = x.t ∧ NoLocks
      s.chip ∧ (s.chip.ndl ↑n).shadow = none ∧ (s.chip.ndl ↑n).susp = [] ∧ s.chip.faults.length < 256 ∧
      ((s.chip.heldBursts fun b => b.thr == x.t && Chip.threadUse b.use) = []) ∧ bad = false ∧ (Desc.ofLine a l).own =
      true ∧ NoFence s.chip ∧ (Desc.ofLine a l).malformed (kindsOf x.instr) = true) ∧
    (∃ (s : State) (n : Fin 128) (x : Xfer) (a : ℕ) (l : Line) (bad : Bool) (sl : Slot) (w : Option ℕ),
      coreUp s.chip = true ∧ s.chip.npwr ↑n = 0 ∧ (s.chip.ndl ↑n).active = some x ∧ isXfer x.instr = true ∧ x.stage =
      XStage.fetch ∧ x.fetching = true ∧ x.fetch = some a ∧ x.search = none ∧ (s.chip.ndl ↑n).descIn = [(none, a, l,
      bad)] ∧ s.chip.findSlot x.t = some (↑n, x.slot) ∧ s.chip.slot (↑n) x.slot = some sl ∧ sl.t = x.t ∧ NoLocks
      s.chip ∧ (s.chip.ndl ↑n).shadow = none ∧ (s.chip.ndl ↑n).susp = [] ∧ s.chip.faults.length < 256 ∧
      ((s.chip.heldBursts fun b => b.thr == x.t && Chip.threadUse b.use) = []) ∧ bad = false ∧ (Desc.ofLine a l).own =
      true ∧ NoFence s.chip ∧ (Desc.ofLine a l).malformed (kindsOf x.instr) = false ∧ s.prot.check x.pd (Desc.ofLine a
      l).base (Desc.ofLine a l).span Need.ackWrite = Checked.fail w) ∧
    (∃ (s : State) (n : Fin 128) (x : Xfer) (a : ℕ) (l : Line) (bad : Bool) (sl : Slot) (v : ℕ) (w : Option ℕ),
      coreUp s.chip = true ∧ s.chip.npwr ↑n = 0 ∧ (s.chip.ndl ↑n).active = some x ∧ isXfer x.instr = true ∧ x.stage =
      XStage.fetch ∧ x.fetching = true ∧ x.fetch = some a ∧ x.search = none ∧ (s.chip.ndl ↑n).descIn = [(none, a, l,
      bad)] ∧ s.chip.findSlot x.t = some (↑n, x.slot) ∧ s.chip.slot (↑n) x.slot = some sl ∧ sl.t = x.t ∧ NoLocks
      s.chip ∧ (s.chip.ndl ↑n).shadow = none ∧ (s.chip.ndl ↑n).susp = [] ∧ s.chip.faults.length < 256 ∧
      ((s.chip.heldBursts fun b => b.thr == x.t && Chip.threadUse b.use) = []) ∧ bad = false ∧ (Desc.ofLine a l).own =
      true ∧ NoFence s.chip ∧ (Desc.ofLine a l).malformed (kindsOf x.instr) = false ∧ s.prot.check x.pd (Desc.ofLine a
      l).base (Desc.ofLine a l).span Need.ackWrite = Checked.ok v ∧ s.prot.check x.pd a 32 Need.ackWrite =
      Checked.fail w) ∧
    (∃ (s : State) (n : Fin 128) (x : Xfer) (h : XHead) (cnt a : ℕ) (l : Line),
      coreUp s.chip = true ∧ s.chip.npwr ↑n = 0 ∧ (s.chip.ndl ↑n).active = some x ∧ x.instr = WInstr.move h cnt ∧
      h.spec = 0 ∧ x.stage = XStage.fetch ∧ x.fetching = true ∧ x.fetch = some a ∧ x.search = none ∧ (s.chip.ndl
      ↑n).descIn = [(none, a, l, false)] ∧ (Desc.ofLine a l).own = true ∧ NoFence s.chip ∧ (Desc.ofLine a l).malformed
      [0, 1] = false ∧ Chip.bufferFail s.env x.pd (Desc.ofLine a l) = none) ∧
    (∃ (s : State) (n : Fin 128) (x : Xfer) (h : XHead) (cnt a : ℕ) (l : Line),
      coreUp s.chip = true ∧ s.chip.npwr ↑n = 0 ∧ (s.chip.ndl ↑n).active = some x ∧ x.instr = WInstr.move h cnt ∧
      h.spec = 0 ∧ x.stage = XStage.fetch ∧ x.fetching = true ∧ x.fetch = some a ∧ x.search = none ∧ (s.chip.ndl
      ↑n).descIn = [(none, a, l, false)] ∧ (Desc.ofLine a l).own = false ∧ 0 < x.total) ∧
    (∃ (s : State) (n : Fin 128) (x : Xfer) (h : XHead) (cnt a : ℕ) (l : Line) (sl : Slot) (w : ℕ),
      coreUp s.chip = true ∧ s.chip.npwr ↑n = 0 ∧ (s.chip.ndl ↑n).active = some x ∧ x.instr = WInstr.move h cnt ∧
      h.spec = 0 ∧ x.stage = XStage.fetch ∧ x.fetching = true ∧ x.fetch = some a ∧ x.search = none ∧ (s.chip.ndl
      ↑n).descIn = [(none, a, l, false)] ∧ (Desc.ofLine a l).own = false ∧ x.total = 0 ∧ x.glen = 0 ∧ s.chip.slot (↑n)
      x.slot = some sl ∧ sl.live.cmd = none ∧ Chip.hasCq (s.chip.ndl ↑n) x.t = false ∧ (s.chip.ndl ↑n).shadow = none ∧
      (s.chip.ndl ↑n).susp = [] ∧ s.prot.check sl.live.pd (sl.live.dptr * 32) 32 Need.read = Checked.ok w) ∧
    (∃ (s : State) (n : Fin 128) (x : Xfer) (sl : Slot),
      coreUp s.chip = true ∧ s.chip.npwr ↑n = 0 ∧ (s.chip.ndl ↑n).active = some x ∧ x.stage = XStage.close ∧ x.queue =
      [] ∧ s.chip.unsent (↑n) x.t = false ∧ ((s.chip.ndl ↑n).cq.length < 8 ∨ x.closed = []) ∧ (s.chip.ndl ↑n).shadow =
      none ∧ (s.chip.ndl ↑n).susp = [] ∧ s.chip.slot (↑n) x.slot = some sl ∧ ((∃ h cnt, x.instr = WInstr.move h cnt ∨
      x.instr = WInstr.movec h cnt) ∨ (∃ h whole cnt, x.instr = WInstr.fill h whole cnt) ∨ ∃ d ws mode sp chain wp,
      x.instr = WInstr.patch d ws mode sp chain wp)) ∧
    (∃ (s : State) (n : Fin 128) (x : Xfer) (sl : Slot),
      coreUp s.chip = true ∧ s.chip.npwr ↑n = 0 ∧ (s.chip.ndl ↑n).active = some x ∧ x.stage = XStage.close ∧ x.queue =
      [] ∧ s.chip.unsent (↑n) x.t = false ∧ ((s.chip.ndl ↑n).cq.length < 8 ∨ x.closed = []) ∧ (s.chip.ndl ↑n).shadow =
      none ∧ (s.chip.ndl ↑n).susp = [] ∧ s.chip.slot (↑n) x.slot = some sl ∧ ((∃ h cnt, x.instr = WInstr.move h cnt ∨
      x.instr = WInstr.movec h cnt) ∨ (∃ h whole cnt, x.instr = WInstr.fill h whole cnt) ∨ ∃ d ws mode sp chain wp,
      x.instr = WInstr.patch d ws mode sp chain wp)) ∧
    (∃ (s : State) (n : Fin 128) (x : Xfer) (sl : Slot),
      coreUp s.chip = true ∧ s.chip.npwr ↑n = 0 ∧ (s.chip.ndl ↑n).active = some x ∧ x.stage = XStage.close ∧ x.queue =
      [] ∧ s.chip.unsent (↑n) x.t = false ∧ ((s.chip.ndl ↑n).cq.length < 8 ∨ x.closed = []) ∧ (s.chip.ndl ↑n).shadow =
      none ∧ (s.chip.ndl ↑n).susp = [] ∧ s.chip.slot (↑n) x.slot = some sl ∧ ((∃ h cnt, x.instr = WInstr.move h cnt ∨
      x.instr = WInstr.movec h cnt) ∨ (∃ h whole cnt, x.instr = WInstr.fill h whole cnt) ∨ ∃ d ws mode sp chain wp,
      x.instr = WInstr.patch d ws mode sp chain wp)) ∧
    (∃ (s : State) (n : Fin 128) (x : Xfer) (sl : Slot) (h : XHead) (mask cnt : ℕ),
      coreUp s.chip = true ∧ s.chip.npwr ↑n = 0 ∧ (s.chip.ndl ↑n).active = some x ∧ x.stage = XStage.close ∧ x.queue =
      [] ∧ s.chip.unsent (↑n) x.t = false ∧ ((s.chip.ndl ↑n).cq.length < 8 ∨ x.closed = []) ∧ (s.chip.ndl ↑n).shadow =
      none ∧ (s.chip.ndl ↑n).susp = [] ∧ s.chip.slot (↑n) x.slot = some sl ∧ x.instr = WInstr.compare h mask cnt ∧
      x.acc.firstDiff = none) ∧
    (∃ (s : State) (n : Fin 128) (x : Xfer) (sl : Slot) (h : XHead) (mask cnt i : ℕ),
      coreUp s.chip = true ∧ s.chip.npwr ↑n = 0 ∧ (s.chip.ndl ↑n).active = some x ∧ x.stage = XStage.close ∧ x.queue =
      [] ∧ s.chip.unsent (↑n) x.t = false ∧ ((s.chip.ndl ↑n).cq.length < 8 ∨ x.closed = []) ∧ (s.chip.ndl ↑n).shadow =
      none ∧ (s.chip.ndl ↑n).susp = [] ∧ s.chip.slot (↑n) x.slot = some sl ∧ x.instr = WInstr.compare h mask cnt ∧
      x.acc.firstDiff = some i) ∧
    (∃ (s : State) (n : Fin 128) (x : Xfer) (sl : Slot) (h : XHead) (em chain val cb cnt : ℕ),
      coreUp s.chip = true ∧ s.chip.npwr ↑n = 0 ∧ (s.chip.ndl ↑n).active = some x ∧ x.stage = XStage.close ∧ x.queue =
      [] ∧ s.chip.unsent (↑n) x.t = false ∧ ((s.chip.ndl ↑n).cq.length < 8 ∨ x.closed = []) ∧ (s.chip.ndl ↑n).shadow =
      none ∧ (s.chip.ndl ↑n).susp = [] ∧ s.chip.slot (↑n) x.slot = some sl ∧ x.instr = WInstr.expand h em chain val cb
      cnt) ∧
    (∃ (s : State) (n : Fin 128) (x : Xfer) (sl : Slot) (h : XHead) (zs cstep chain ch0 cnt : ℕ),
      coreUp s.chip = true ∧ s.chip.npwr ↑n = 0 ∧ (s.chip.ndl ↑n).active = some x ∧ x.stage = XStage.close ∧ x.queue =
      [] ∧ s.chip.unsent (↑n) x.t = false ∧ ((s.chip.ndl ↑n).cq.length < 8 ∨ x.closed = []) ∧ (s.chip.ndl ↑n).shadow =
      none ∧ (s.chip.ndl ↑n).susp = [] ∧ s.chip.slot (↑n) x.slot = some sl ∧ x.instr = WInstr.pedsub h zs cstep chain
      ch0 cnt) ∧
    (∃ (s : State) (n : Fin 128) (x : Xfer) (sl : Slot) (h : XHead) (rop sgn tsrc wq mask cstep cnt : ℕ) (v : ℤ),
      coreUp s.chip = true ∧ s.chip.npwr ↑n = 0 ∧ (s.chip.ndl ↑n).active = some x ∧ x.stage = XStage.close ∧ x.queue =
      [] ∧ s.chip.unsent (↑n) x.t = false ∧ ((s.chip.ndl ↑n).cq.length < 8 ∨ x.closed = []) ∧ (s.chip.ndl ↑n).shadow =
      none ∧ (s.chip.ndl ↑n).susp = [] ∧ s.chip.slot (↑n) x.slot = some sl ∧ x.instr = WInstr.reduce h rop sgn tsrc wq
      mask cstep cnt ∧ rop = 0 ∧ x.acc.acc = [v]) ∧
    (∃ (s : State) (n : Fin 128) (x : Xfer) (sl : Slot) (h : XHead) (rop sgn tsrc wq mask cstep cnt : ℕ) (v : ℤ) (j :
      ℕ),
      coreUp s.chip = true ∧ s.chip.npwr ↑n = 0 ∧ (s.chip.ndl ↑n).active = some x ∧ x.stage = XStage.close ∧ x.queue =
      [] ∧ s.chip.unsent (↑n) x.t = false ∧ ((s.chip.ndl ↑n).cq.length < 8 ∨ x.closed = []) ∧ (s.chip.ndl ↑n).shadow =
      none ∧ (s.chip.ndl ↑n).susp = [] ∧ s.chip.slot (↑n) x.slot = some sl ∧ x.instr = WInstr.reduce h rop sgn tsrc wq
      mask cstep cnt ∧ rop = 1 ∧ x.acc.best = some (v, j)) ∧
    (∃ (s : State) (n : Fin 128) (x : Xfer) (sl : Slot) (h : XHead) (rop sgn tsrc wq mask cstep cnt : ℕ),
      coreUp s.chip = true ∧ s.chip.npwr ↑n = 0 ∧ (s.chip.ndl ↑n).active = some x ∧ x.stage = XStage.close ∧ x.queue =
      [] ∧ s.chip.unsent (↑n) x.t = false ∧ ((s.chip.ndl ↑n).cq.length < 8 ∨ x.closed = []) ∧ (s.chip.ndl ↑n).shadow =
      none ∧ (s.chip.ndl ↑n).susp = [] ∧ s.chip.slot (↑n) x.slot = some sl ∧ x.instr = WInstr.reduce h rop sgn tsrc wq
      mask cstep cnt ∧ 2 ≤ rop) :=
  ⟨⟨wFPoison, 5, (activeOf wFPoison), 4096, 0x80008800000000000003#512, true, sl0, by unfold NoLocks; decide +kernel⟩,
  ⟨wFFence, 5, (activeOf wFFence), 4096, 0x80008800000000000003#512, false, sl0, 5, by unfold NoLocks; decide +kernel⟩,
  ⟨wFMal, 5, (activeOf wFMal), 4096, 0x80008000000000000003#512, false, sl0, by unfold NoLocks NoFence; decide +kernel⟩,
  ⟨wFProt, 5, (activeOf wFProt), 4096, 0x8000000000008800000000000003#512, false, sl0, none, by unfold NoLocks NoFence; decide +kernel⟩,
  ⟨wFProtD, 5, (activeOf wFProtD), 2199023255552, 0x80008800000000000003#512, false, sl0, 0, none, by unfold NoLocks NoFence; decide +kernel⟩,
  ⟨wXFetchOwn, 5, (activeOf wXFetchOwn), { wd := 4, ws := 2, mode := 2, spec := 0, rc := 0, wc := 0 }, 2, 4096, 0x80008800000000000003#512, by unfold NoFence; decide +kernel⟩,
  ⟨wFOff6, 5, (activeOf wFOff6), { wd := 4, ws := 2, mode := 2, spec := 0, rc := 0, wc := 0 }, 2, 4096, 0x80000800000000000003#512, by decide +kernel⟩,
  ⟨wXFetchOff, 5, (activeOf wXFetchOff), { wd := 4, ws := 2, mode := 2, spec := 0, rc := 0, wc := 0 }, 2, 4096, 0x80000800000000000003#512, sl0, 0, by decide +kernel⟩,
  ⟨wXClose, 5, (activeOf wXClose), (slotOf wXClose), by
    repeat' apply And.intro
    all_goals first | decide +kernel | exact .inl ⟨_, _, .inl rfl⟩⟩,
  ⟨wCFill, 5, (activeOf wCFill), (slotOf wCFill), by
    repeat' apply And.intro
    all_goals first | decide +kernel | exact .inr (.inl ⟨_, _, _, rfl⟩)⟩,
  ⟨wCPatch, 5, (activeOf wCPatch), (slotOf wCPatch), by
    repeat' apply And.intro
    all_goals first | decide +kernel | exact .inr (.inr ⟨_, _, _, _, _, _, rfl⟩)⟩,
  ⟨wCCmp, 5, (activeOf wCCmp), sl0, { wd := 4, ws := 0, mode := 1, spec := 0, rc := 0, wc := 0 }, 1, 0, by decide +kernel⟩,
  ⟨wCCmpD, 5, (activeOf wCCmpD), sl0, { wd := 4, ws := 0, mode := 1, spec := 0, rc := 0, wc := 0 }, 1, 0, 2, by decide +kernel⟩,
  ⟨wCExp, 5, (activeOf wCExp), sl0, { wd := 4, ws := 0, mode := 1, spec := 0, rc := 0, wc := 0 }, 1, 0, 5, 0, 0, by decide +kernel⟩,
  ⟨wCPed, 5, (activeOf wCPed), sl0, { wd := 4, ws := 0, mode := 1, spec := 0, rc := 0, wc := 0 }, 2, 0, 0, 0, 0, by decide +kernel⟩,
  ⟨wCSum, 5, (activeOf wCSum), sl0, { wd := 4, ws := 0, mode := 1, spec := 0, rc := 0, wc := 0 }, 0, 1, 0, 0, 1, 0, 0, 5, by decide +kernel⟩,
  ⟨wCMax, 5, (activeOf wCMax), sl0, { wd := 4, ws := 0, mode := 1, spec := 0, rc := 0, wc := 0 }, 1, 1, 0, 0, 1, 0, 0, -3, 17, by decide +kernel⟩,
  ⟨wCLsum, 5, (activeOf wCLsum), sl0, { wd := 4, ws := 0, mode := 1, spec := 0, rc := 0, wc := 0 }, 2, 1, 0, 0, 1, 0, 0, by decide +kernel⟩⟩

/-- States and operands that meet the hypotheses of `Obligations.Posts`, clause by clause. -/
theorem witness_Posts :
    (∃ (s : State) (n : Fin 128) (k : Fin 8) (sl : Slot) (wd mode : ℕ) (g : Grp),
      Issues s n k sl (WInstr.post wd mode) ∧ mode < 2 ∧ sl.grp = some g ∧ sl.live.pc < 2 ^ 16 ∧ g.descs = []) ∧
    (∃ (s : State) (n : Fin 128) (k : Fin 8) (sl : Slot) (wd mode : ℕ) (g : Grp) (r : DRec) (w : ℕ),
      Issues s n k sl (WInstr.post wd mode) ∧ mode < 2 ∧ sl.grp = some g ∧ sl.live.pc < 2 ^ 16 ∧ g.descs = [r] ∧
      NoFence s.chip ∧ s.prot.check sl.live.pd (r.desc.addr / 64 * 64) 64 Need.ackWrite = Checked.ok w ∧ NoneWaits
      s.chip (s.prot.home w) ↑n) ∧
    (∃ (s : State) (n : Fin 128) (k : Fin 8) (sl : Slot) (a : Act),
      coreUp s.chip = true ∧ s.chip.npwr ↑n = 0 ∧ s.chip.slot ↑n ↑k = some sl ∧ sl.dead = false ∧ sl.act = some a ∧
      (a.kind = ActKind.commit ∨ a.kind = ActKind.discard) ∧ s.chip.postReady (↑n) sl.t a = true) ∧
    (∃ (s : State) (n : Fin 128) (k : Fin 8) (sl : Slot) (a : Act),
      coreUp s.chip = true ∧ s.chip.npwr ↑n = 0 ∧ s.chip.slot ↑n ↑k = some sl ∧ sl.act = some a ∧ a.kind =
      ActKind.commit ∧ a.go = true ∧ a.arg = 0 ∧ a.descs ≠ [] ∧ ((a.descs.all fun r => r.pend == 0) = true) ∧
      (s.chip.ndl ↑n).cq.length < 8) :=
  ⟨⟨wIPostE, 5, 3, (slotOf wIPostE), 4, 0, { descs := [], fill := 0 }, by unfold Issues Meets; decide +kernel⟩,
  ⟨wIPost1, 5, 3, (slotOf wIPost1), 4, 0, ((slotOf wIPost1).grp.getD noGrp), (firstDesc wIPost1), 0, by unfold Issues NoneWaits NoFence Meets; decide +kernel⟩,
  ⟨wPostDone, 5, 3, (slotOf wPostDone), { kind := ActKind.commit, wd := 4, pc := 6, descs := [], fetch := none, fetching := false, redo := false, go := true, arg := 0 }, by decide +kernel⟩,
  ⟨wPostCq, 5, 3, (slotOf wPostCq), (actOf wPostCq), by decide +kernel⟩⟩

/-- States and operands that meet the hypotheses of `Obligations.SealsDsetsAndFences`, clause by clause. -/
theorem witness_SealsDsetsAndFences :
    (∃ (s : State) (n : Fin 128) (k : Fin 8) (sl : Slot),
      sl.live.pc < 2 ^ 16 ∧ Issues s n k sl WInstr.seal) ∧
    (∃ (s : State) (n : Fin 128) (k : Fin 8) (sl : Slot),
      sl.live.pc < 2 ^ 16 ∧ sl.sealing ≠ none ∧ s.chip.slot ↑n ↑k = some sl) ∧
    (∃ (s : State) (n : Fin 128) (k : Fin 8) (sl : Slot),
      sl.live.pc < 2 ^ 16 ∧ coreUp s.chip = true ∧ s.chip.npwr ↑n = 0 ∧ s.chip.slot ↑n ↑k = some sl ∧ sl.sealing ≠
      none ∧ s.chip.writesOut sl.t = false ∧ Chip.hasCq (s.chip.ndl ↑n) sl.t = false ∧ (∀ (a : Act), sl.act = some a →
      a.kind ≠ ActKind.commit ∧ a.kind ≠ ActKind.discard)) ∧
    (∃ (s : State) (n : Fin 128) (k : Fin 8) (sl : Slot),
      sl.live.pc < 2 ^ 16 ∧ s.chip.slot ↑n ↑k = some sl ∧ (s.chip.writesOut sl.t = true ∨ ∃ a, sl.act = some a ∧
      (a.kind = ActKind.commit ∨ a.kind = ActKind.discard))) ∧
    (∃ (s : State) (n : Fin 128) (k : Fin 8) (sl : Slot) (ws : ℕ) (g : Grp),
      sl.live.pc < 2 ^ 16 ∧ Issues s n k sl (WInstr.dset 0 ws 0) ∧ sl.live.addressOk ws = true ∧ sl.grp = some g) ∧
    (∃ (s : State) (n : Fin 128) (k : Fin 8) (sl : Slot) (ws : ℕ),
      sl.live.pc < 2 ^ 16 ∧ Issues s n k sl (WInstr.dset 0 ws 0) ∧ sl.live.addressOk ws = false) ∧
    (∃ (s : State) (n : Fin 128) (k : Fin 8) (sl : Slot) (wd : ℕ),
      sl.live.pc < 2 ^ 16 ∧ Issues s n k sl (WInstr.dset wd 0 1)) ∧
    (∃ (s : State) (n : Fin 128) (k : Fin 8) (sl : Slot) (ws w : ℕ),
      sl.live.pc < 2 ^ 16 ∧ Issues s n k sl (WInstr.dset 0 ws 0) ∧ sl.live.addressOk ws = true ∧ sl.grp = none ∧
      s.prot.check sl.live.pd (sl.base.getD (sl.live.dptr * 32)) 32 Need.read = Checked.ok w ∧ NoneWaits s.chip
      (s.prot.home w) ↑n) ∧
    (∃ (s : State) (w : Word),
      Ready s ∧ fbit w F.XfFence.VALID = true) ∧
    (∃ (s : State) (k : Fin 64) (w : Word),
      Ready s ∧ fbit w F.XfFence.VALID = false ∧ s.chip.fenceLive ↑k = false) ∧
    (∃ (s : State) (k : Fin 64) (w : Word),
      Ready s ∧ fbit w F.XfFence.VALID = false ∧ s.chip.fenceLive ↑k = true) ∧
    (∃ (s : State) (k : Fin 64),
      coreUp s.chip = true ∧ (s.chip.fenceSt ↑k).due = true ∧ s.chip.fenceLive ↑k = false) ∧
    (∃ (s : State) (k : Fin 64),
      ((s.chip.fenceSt ↑k).due = false ∨ s.chip.fenceLive ↑k = true)) :=
  ⟨⟨wISeal, 5, 3, sl0, by unfold Issues Meets; decide +kernel⟩,
  ⟨wSealDone, 5, 3, (slotOf wSealDone), by decide +kernel⟩,
  ⟨wSealDone, 5, 3, (slotOf wSealDone), by decide +kernel⟩,
  ⟨wPostCq, 5, 3, (slotOf wPostCq), by decide +kernel⟩,
  ⟨wIDset, 5, 3, (slotOf wIDset), 2, { descs := [], fill := 0 }, by unfold Issues Meets; decide +kernel⟩,
  ⟨wIDsetBad, 5, 3, (slotOf wIDsetBad), 2, by unfold Issues Meets; decide +kernel⟩,
  ⟨wIDget, 5, 3, sl0, 4, by unfold Issues Meets; decide +kernel⟩,
  ⟨wIDsetNew, 5, 3, (slotOf wIDsetNew), 2, 0, by unfold NoneWaits Issues Meets; decide +kernel⟩,
  ⟨wUp, 0x8000000000000000#64, by unfold Ready; decide +kernel⟩,
  ⟨wUp, 0, 0x0#64, by unfold Ready; decide +kernel⟩,
  ⟨wFenceLive2, 5, 0x0#64, by unfold Ready; decide +kernel⟩,
  ⟨wFenceDue, 5, by decide +kernel⟩,
  ⟨State.reset, 0, by decide +kernel⟩⟩

/-- States and operands that meet the hypotheses of `Obligations.InFlightOperations`, clause by clause. -/
theorem witness_InFlightOperations :
    (∃ (p : Shape) (q j : ℕ),
      p.sf < 3 ∧ q < p.w ∧ j < p.spw ∧ p.pad < 2 ^ 16) ∧
    (∃ (val q k : ℕ),
      val < 2 ^ 16 ∧ q < 16 ∧ k < 16) ∧
    (∃ (a : OpAcc) (val : ℕ),
      val < 2 ^ 16 ∧ a.recs.length < 8) ∧
    (∃ (a : OpAcc) (val cb j : ℕ) (w : PWord) (q : ℕ) (o : PWord) (i : ℕ),
      val < 2 ^ 16 ∧ a.recs.length < 8 ∧ (opExpand a 1 val cb j w).out[q]? = some o ∧ i < 8) ∧
    (∃ (a : OpAcc) (val cb j : ℕ) (w : PWord) (q : ℕ) (o : PWord),
      val < 2 ^ 16 ∧ a.recs.length < 8 ∧ (opExpand a 1 val cb j w).out[q]? = some o) ∧
    (∃ (zs k : ℕ),
      k < 16 ∧ zs < 2) ∧
    (∃ (a : OpAcc),
      a.recs.length < 4) ∧
    (∃ (a : OpAcc) (ch0 cstep j : ℕ) (ent : ℕ → ℕ × ℤ × Bool) (w : PWord) (q : ℕ) (o : PWord) (i : ℕ),
      a.recs.length < 4 ∧ (opPedsub a 2 ch0 cstep j ent w).out[q]? = some o ∧ i < 4) ∧
    (∃ (a : OpAcc) (ch0 cstep j : ℕ) (ent : ℕ → ℕ × ℤ × Bool) (w : PWord) (q : ℕ) (o : PWord),
      a.recs.length < 4 ∧ (opPedsub a 2 ch0 cstep j ent w).out[q]? = some o) ∧
    (∃ (i : WInstr) (b per : ℕ) (a : OpAcc),
      a.recs.length < per ∧ ((b = 32 ∧ per = 8 ∧ ∃ h chain val cb cnt, i = WInstr.expand h 1 chain val cb cnt) ∨ b =
      64 ∧ per = 4 ∧ ∃ h cstep chain ch0 cnt, i = WInstr.pedsub h 2 cstep chain ch0 cnt)) ∧
    (∃ (i : WInstr) (b per : ℕ) (a : OpAcc),
      a.recs.length < per ∧ ((b = 32 ∧ per = 8 ∧ ∃ h chain val cb cnt, i = WInstr.expand h 1 chain val cb cnt) ∨ b =
      64 ∧ per = 4 ∧ ∃ h cstep chain ch0 cnt, i = WInstr.pedsub h 2 cstep chain ch0 cnt)) :=
  ⟨⟨{ sf := 0, c0 := 0, cw := 1, rw := 3, spitch := 2, pad := 0 }, 0, 0, by decide +kernel⟩,
  ⟨0, 0, 0, by decide +kernel⟩,
  ⟨OpAcc.empty, 0, by decide +kernel⟩,
  ⟨OpAcc.empty, 0, 0, 0, { data := 0x7fff8000123456789abcdef0fedcba9876543210ffff000180017fff#256, poison := true }, 0, { data := 0x7000000060000000500000004000000030000000200000001000000000000#256, poison := true }, 0, by decide +kernel⟩,
  ⟨OpAcc.empty, 0, 0, 0, { data := 0x7fff8000123456789abcdef0fedcba9876543210ffff000180017fff#256, poison := true }, 0, { data := 0x7000000060000000500000004000000030000000200000001000000000000#256, poison := true }, by decide +kernel⟩,
  ⟨0, 0, by decide +kernel⟩,
  ⟨OpAcc.empty, by decide +kernel⟩,
  ⟨OpAcc.empty, 0, 0, 0, (fun _ => (0, 0, false)), { data := 0x7fff8000123456789abcdef0fedcba9876543210ffff000180017fff#256, poison := true }, 0, { data := 0x3ffff7fff00000002000100010000000180017fff000000007fff7fff#256, poison := true }, 0, by decide +kernel⟩,
  ⟨OpAcc.empty, 0, 0, 0, (fun _ => (0, 0, false)), { data := 0x7fff8000123456789abcdef0fedcba9876543210ffff000180017fff#256, poison := true }, 0, { data := 0x3ffff7fff00000002000100010000000180017fff000000007fff7fff#256, poison := true }, by decide +kernel⟩,
  ⟨WInstr.pedsub { wd := 4, ws := 2, mode := 2, spec := 0, rc := 0, wc := 0 } 2 0 0 0 0, 64, 4, OpAcc.empty, by decide,
    .inr ⟨rfl, rfl, _, _, _, _, _, rfl⟩⟩,
  ⟨WInstr.expand { wd := 4, ws := 2, mode := 2, spec := 0, rc := 0, wc := 0 } 1 0 5 0 0, 32, 8, OpAcc.empty, by decide,
    .inl ⟨rfl, rfl, _, _, _, _, _, rfl⟩⟩⟩

/-- States and operands that meet the hypotheses of `Obligations.Reductions`, clause by clause. -/
theorem witness_Reductions :
    (∃ (q : ℕ),
      q < 4) ∧
    (∃ (x : Xfer) (h : XHead) (mask cnt i : ℕ),
      x.instr = WInstr.compare h mask cnt ∧ x.acc.firstDiff = some i) ∧
    (∃ (x : Xfer) (h : XHead) (mask cnt : ℕ),
      x.instr = WInstr.compare h mask cnt ∧ x.acc.firstDiff = none) ∧
    (∃ (a : OpAcc) (v : ℤ) (sgn : ℕ),
      sgn < 2 ∧ a.acc = [v]) ∧
    (∃ (x : Xfer) (h : XHead) (sgn tsrc wq mask cstep cnt : ℕ) (v : ℤ),
      x.instr = WInstr.reduce h 0 sgn tsrc wq mask cstep cnt ∧ sgn < 2 ∧ x.acc.acc = [v]) ∧
    (∃ (a : OpAcc) (sgn mask : ℕ),
      sgn < 2 ∧ (a.best ≠ none ∨ ∃ k < 16, mask.testBit k = true)) ∧
    (∃ (sgn k : ℕ),
      sgn < 2 ∧ k < 16) ∧
    (∃ (read q k : ℕ),
      0 < read ∧ q < 2 ∧ k < 8) ∧
    (∃ (a : OpAcc) (sgn : ℕ),
      sgn < 2 ∧ a.recs.length ≤ 240 ∧ a.recs.length < 240) ∧
    (∃ (a : OpAcc) (sgn : ℕ),
      sgn < 2 ∧ a.recs.length ≤ 240 ∧ a.recs.length = 240) ∧
    (∃ (a : OpAcc),
      a.recs.length < 256 ∧ a.recs = []) ∧
    (∃ (a : OpAcc),
      a.recs.length < 256 ∧ a.recs ≠ []) ∧
    (∃ (x : Xfer) (h : XHead) (sgn tsrc wq mask cstep cnt : ℕ),
      x.instr = WInstr.reduce h 3 sgn tsrc wq mask cstep cnt ∧ tsrc < 2) ∧
    (∃ (x : Xfer) (h : XHead) (sgn tsrc wq mask cstep cnt k : ℕ),
      x.instr = WInstr.reduce h 3 sgn tsrc wq mask cstep cnt ∧ tsrc < 2 ∧ k < 16 ∧ tsrc = 1 ∧ (cstep ≠ 0 ∨ x.entries =
      [])) ∧
    (∃ (e : Env) (c : Chip) (n : ℕ) (x : Xfer) (r : DRec) (h : XHead) (mask cnt : ℕ) (src ref : PWord),
      x.instr = WInstr.compare h mask cnt ∧ x.read < x.n ∧ x.dwords ≤ r.desc.len ∧ Xfer.lineGot x.refs (r.desc.base +
      x.read * 32) = some ref ∧ (Chip.srcWord e c n x).2 = Chip.SrcAns.word src ∧ (r.desc.abortPoison = false ∨
      src.poison = false ∧ ref.poison = false)) :=
  ⟨⟨0, by decide +kernel⟩,
  ⟨(xComp (some 3) 0), { wd := 4, ws := 0, mode := 1, spec := 0, rc := 0, wc := 0 }, 1, 0, 3, by decide +kernel⟩,
  ⟨(xComp none 0), { wd := 4, ws := 0, mode := 1, spec := 0, rc := 0, wc := 0 }, 1, 0, by decide +kernel⟩,
  ⟨acc1, 5, 0, by decide +kernel⟩,
  ⟨(xSum 5 false), { wd := 4, ws := 0, mode := 1, spec := 0, rc := 0, wc := 0 }, 1, 0, 0, 1, 0, 0, 5, by decide +kernel⟩,
  ⟨OpAcc.empty, 0, 1, by decide +kernel⟩,
  ⟨0, 0, by decide +kernel⟩,
  ⟨1, 0, 0, by decide +kernel⟩,
  ⟨OpAcc.empty, 0, by decide +kernel⟩,
  ⟨acc3, 0, by decide +kernel⟩,
  ⟨OpAcc.empty, by decide +kernel⟩,
  ⟨acc2, by decide +kernel⟩,
  ⟨xTmap, hh 4 0 1 0, 0, 1, 0, 1, 0, 0, rfl, by decide⟩,
  ⟨xTmap, hh 4 0 1 0, 0, 1, 0, 1, 0, 0, 3, rfl, by decide, by decide, rfl, .inr rfl⟩,
  ⟨wUp.env, wUp.chip, 5, xCmpRead, drec, hh 4 2 2 0, 1, 0, { data := 5, poison := false },
    { data := 6, poison := true }, rfl, by decide, by decide +kernel, by decide +kernel, (by
      unfold Chip.srcWord
      simp only [show hostSource xCmpRead.instr = true by decide +kernel, if_true,
        show Xfer.lineGot xCmpRead.lines (xCmpRead.readAddr xCmpRead.read) = some { data := 5, poison := false } by
          decide +kernel]), .inl (by decide +kernel)⟩⟩

/-- States and operands that meet the hypotheses of `Obligations.ArbitrationRounds`, clause by clause. -/
theorem witness_ArbitrationRounds :
    (∃ (s : State) (p : Fin 16) (w : Burst),
      Live s ∧ BetweenGrants s.chip ↑p ∧ (Chip.irqWaits s.env s.chip ↑p = false ∨ (s.chip.port ↑p).msgTurn = true) ∧
      Wins s.chip (↑p) w ∧ w.use ≠ BurstFor.sample ∧ NoFence s.chip ∧ (∀ x ∈ s.chip.backlog, x.1 = ↑p → x.2.req ≠
      w.req)) ∧
    (∃ (s : State) (p : Fin 16),
      Live s ∧ BetweenGrants s.chip ↑p ∧ (Chip.irqWaits s.env s.chip ↑p = false ∨ (s.chip.port ↑p).msgTurn = true) ∧
      (∀ x ∈ (s.chip.port ↑p).waiting, s.chip.eligible ↑p [] x = false)) :=
  ⟨⟨wMRoundOwn, 2, (waitBurst wMRoundOwn), by unfold Live BetweenGrants Wins NoFence IsForced; decide +kernel⟩,
  ⟨wUp, 0, by unfold Live BetweenGrants; decide +kernel⟩⟩

/-- States and operands that meet the hypotheses of `Obligations.TrainsAndCredits`, clause by clause. -/
theorem witness_TrainsAndCredits :
    (∃ (s : State) (p : Fin 16) (b : Burst) (l n id a : ℕ),
      Live s ∧ (s.chip.port ↑p).granted = none ∧ (s.chip.port ↑p).holder = some (b.req, l, id) ∧ (s.chip.port
      ↑p).waiting = [b] ∧ b.bound = some l ∧ b.use = BurstFor.xData n id a ∧ b.req < 133 ∧ l < 256 ∧ s.chip.reqLevel l
      = true ∧ s.chip.openTo (↑p) b = true ∧ s.chip.lacking (↑p) b = [] ∧ NoFence s.chip) ∧
    (∃ (s : State) (p : Fin 16) (b : Burst) (l n id a : ℕ),
      Live s ∧ (s.chip.port ↑p).granted = none ∧ (s.chip.port ↑p).holder = some (b.req, l, id) ∧ (s.chip.port
      ↑p).waiting = [b] ∧ b.bound = some l ∧ b.use = BurstFor.xData n id a ∧ b.req < 133 ∧ l < 256 ∧ s.chip.reqLevel l
      = false) ∧
    (∃ (s : State) (p : Fin 16) (b : Burst) (l n id a : ℕ),
      Live s ∧ (s.chip.port ↑p).granted = none ∧ (s.chip.port ↑p).holder = some (b.req, l, id) ∧ (s.chip.port
      ↑p).waiting = [b] ∧ b.bound = some l ∧ b.use = BurstFor.xData n id a ∧ b.req < 133 ∧ l < 256 ∧ 0 < s.chip.fld
      (Reg.mpArb ↑p) F.MpArb.HOLD_LIMIT ∧ s.chip.fld (Reg.arbRq b.req) F.ArbRq.HOLDACT < 2) ∧
    (∃ (s : State) (p : Fin 16) (b : Burst) (l n id a : ℕ),
      Live s ∧ (s.chip.port ↑p).granted = none ∧ (s.chip.port ↑p).holder = some (b.req, l, id) ∧ (s.chip.port
      ↑p).waiting = [b] ∧ b.bound = some l ∧ b.use = BurstFor.xData n id a ∧ b.req < 133 ∧ l < 256 ∧ (s.chip.fld
      (Reg.mpArb ↑p) F.MpArb.HOLD_LIMIT = 0 ∨ s.chip.fld (Reg.arbRq b.req) F.ArbRq.HOLDACT = 2)) ∧
    (∃ (s : State),
      Ready s) ∧
    (∃ (s : State),
      ¬Ready s) ∧
    (∃ (s : State) (p : Fin 16) (data : Bool),
      Ready s ∧ (s.chip.fld (Reg.mpCred ↑p) (if data = true then F.MpCred.WD_HELD else F.MpCred.RQ_HELD) < if data =
      true then 64 else 32)) ∧
    (∃ (s : State) (p : Fin 16) (data : Bool),
      Ready s ∧ ((if data = true then 64 else 32) ≤ s.chip.fld (Reg.mpCred ↑p) (if data = true then F.MpCred.WD_HELD
      else F.MpCred.RQ_HELD))) :=
  ⟨⟨wMTrain, 2, (waitBurst wMTrain), 30, 5, 2, 4096, by unfold Live NoFence; decide +kernel⟩,
  ⟨wMTrainOff, 2, (waitBurst wMTrainOff), 30, 5, 2, 4096, by unfold Live; decide +kernel⟩,
  ⟨wMTrain, 2, (waitBurst wMTrain), 30, 5, 2, 4096, by unfold Live; decide +kernel⟩,
  ⟨wMTrainLim0, 2, (waitBurst wMTrainLim0), 30, 5, 2, 4096, by unfold Live; decide +kernel⟩,
  ⟨wUp, by unfold Ready; decide +kernel⟩,
  ⟨State.reset, by unfold Ready; decide +kernel⟩,
  ⟨wUp, 0, false, by unfold Ready; decide +kernel⟩,
  ⟨wCredMax, 2, false, by unfold Ready; decide +kernel⟩⟩

/-- States and operands that meet the hypotheses of `Obligations.MeshAnswers`, clause by clause. -/
theorem witness_MeshAnswers :
    (∃ (s : State) (p : Fin 16) (tag : BitVec 7) (b : Burst) (got ls : List (Line × Bool)),
      Live s ∧ (List.find? (fun o => o.1 == tag.toNat) (s.chip.port ↑p).outst = some (tag.toNat, b, got)) ∧ b.kind =
      BurstKind.read ∧ ls ≠ [] ∧ got.length + ls.length < b.len) ∧
    (∃ (s : State) (p : Fin 16) (tag : BitVec 7) (b : Burst) (got ls : List (Line × Bool)),
      Live s ∧ (List.find? (fun o => o.1 == tag.toNat) (s.chip.port ↑p).outst = some (tag.toNat, b, got)) ∧ b.kind =
      BurstKind.read ∧ ls ≠ [] ∧ got.length + ls.length = b.len ∧ tag.toNat ∈ (s.chip.port ↑p).failing) ∧
    (∃ (s : State) (p : Fin 16) (tag : BitVec 7) (b : Burst) (got ls : List (Line × Bool)) (u : ℕ) (l : Line × Bool),
      Live s ∧ (List.find? (fun o => o.1 == tag.toNat) (s.chip.port ↑p).outst = some (tag.toNat, b, got)) ∧ b.kind =
      BurstKind.read ∧ ls ≠ [] ∧ b.use = BurstFor.dwait u ∧ (got ++ ls).head? = some l ∧ got.length + ls.length =
      b.len ∧ tag.toNat ∉ (s.chip.port ↑p).failing) ∧
    (∃ (s : State) (p : Fin 16) (tag : BitVec 7) (b : Burst) (got : List (Line × Bool)) (err : BitVec 2) (m blk : ℕ),
      Live s ∧ (List.find? (fun o => o.1 == tag.toNat) (s.chip.port ↑p).outst = some (tag.toNat, b, got)) ∧ b.kind =
      BurstKind.read ∧ b.use = BurstFor.refill m blk (s.chip.spool m).run ∧ err ≠ 0 ∧ tag.toNat ∉ (s.chip.port
      ↑p).failing ∧ got.length < b.len) ∧
    (∃ (s : State) (p : Fin 16) (tag : BitVec 7) (b : Burst) (got : List (Line × Bool)) (m blk : ℕ),
      Live s ∧ (List.find? (fun o => o.1 == tag.toNat) (s.chip.port ↑p).outst = some (tag.toNat, b, got)) ∧ b.kind =
      BurstKind.ack ∧ b.use = BurstFor.spill m blk (s.chip.spool m).run) ∧
    (∃ (s : State) (p : Fin 16) (tag : BitVec 7) (b : Burst) (got : List (Line × Bool)) (m blk : ℕ) (err : BitVec 2),
      Live s ∧ (List.find? (fun o => o.1 == tag.toNat) (s.chip.port ↑p).outst = some (tag.toNat, b, got)) ∧ b.kind =
      BurstKind.ack ∧ b.use = BurstFor.spill m blk (s.chip.spool m).run ∧ err ≠ 0) ∧
    (∃ (s : State) (p : Fin 16) (tag : BitVec 7) (b : Burst) (got : List (Line × Bool)) (m blk : ℕ),
      Live s ∧ (List.find? (fun o => o.1 == tag.toNat) (s.chip.port ↑p).outst = some (tag.toNat, b, got)) ∧ b.kind =
      BurstKind.ack ∧ b.use = BurstFor.spill m blk (s.chip.spool m).run ∧ s.chip.fld (Reg.mpCtl ↑p) F.MpCtl.TMO ≠ 0 ∧
      tag.toNat ∉ (s.chip.port ↑p).failing) ∧
    (∃ (s : State) (p : Fin 16) (tag : BitVec 7) (b : Burst) (got : List (Line × Bool)),
      Live s ∧ (List.find? (fun o => o.1 == tag.toNat) (s.chip.port ↑p).outst = some (tag.toNat, b, got)) ∧ s.chip.fld
      (Reg.mpCtl ↑p) F.MpCtl.TMO ≠ 0 ∧ tag.toNat ∈ (s.chip.port ↑p).failing) ∧
    (∃ (s : State) (p : Fin 16) (tag : BitVec 7) (b : Burst) (got : List (Line × Bool)),
      Live s ∧ (List.find? (fun o => o.1 == tag.toNat) (s.chip.port ↑p).outst = some (tag.toNat, b, got)) ∧ s.chip.fld
      (Reg.mpCtl ↑p) F.MpCtl.TMO = 0) ∧
    (∃ (s : State) (p : Fin 16) (tag : BitVec 7),
      Live s ∧ (∀ o ∈ (s.chip.port ↑p).outst, o.1 ≠ tag.toNat) ∧ (∀ o ∈ (s.chip.port ↑p).undrained, o.1 ≠ tag.toNat) ∧
      (∀ o ∈ (s.chip.port ↑p).retired, o.1 ≠ tag.toNat)) ∧
    (∃ (s : State) (p : Fin 16) (tag : BitVec 7) (d : ℕ) (forced : Bool),
      Live s ∧ (∀ o ∈ (s.chip.port ↑p).outst, o.1 ≠ tag.toNat) ∧ (∀ o ∈ (s.chip.port ↑p).undrained, o.1 ≠ tag.toNat) ∧
      (List.find? (fun o => o.1 == tag.toNat) (s.chip.port ↑p).retired = some (tag.toNat, d, forced)) ∧ Tab.get false
      s.chip.pwr.tdForce d = true) ∧
    (∃ (s : State) (p : Fin 16) (tag : BitVec 7) (d : ℕ) (forced : Bool),
      Live s ∧ (∀ o ∈ (s.chip.port ↑p).outst, o.1 ≠ tag.toNat) ∧ (∀ o ∈ (s.chip.port ↑p).undrained, o.1 ≠ tag.toNat) ∧
      (List.find? (fun o => o.1 == tag.toNat) (s.chip.port ↑p).retired = some (tag.toNat, d, forced)) ∧ Tab.get false
      s.chip.pwr.tdForce d = false) :=
  ⟨⟨wMOutRead, 2, 0x3#7, (outBurst wMOutRead), [], [(0x3#512, false)], by unfold Live; decide +kernel⟩,
  ⟨wMFailing, 2, 0x3#7, (outBurst wMFailing), [(0x3#512, false)], [(0x3#512, false)], by unfold Live; decide +kernel⟩,
  ⟨wMOutDwait, 2, 0x3#7, (outBurst wMOutDwait), [], [(0x3#512, false)], 9, (0x3#512, false), by unfold Live; decide +kernel⟩,
  ⟨wMRefillGot, 2, 0x3#7, (outBurst wMRefillGot), [(0x3#512, false)], 0x1#2, 6, 4, by unfold Live; decide +kernel⟩,
  ⟨wMOutSpill, 2, 0x46#7, (outBurst wMOutSpill), [], 6, 0, by unfold Live; decide +kernel⟩,
  ⟨wMOutSpill, 2, 0x46#7, (outBurst wMOutSpill), [], 6, 0, 0x1#2, by unfold Live; decide +kernel⟩,
  ⟨wMOutSpill, 2, 0x46#7, (outBurst wMOutSpill), [], 6, 0, by unfold Live; decide +kernel⟩,
  ⟨wMFailing, 2, 0x3#7, (outBurst wMFailing), [(0x3#512, false)], by unfold Live; decide +kernel⟩,
  ⟨wMOutSpillNoTmo, 2, 0x46#7, (outBurst wMOutSpillNoTmo), [], by unfold Live; decide +kernel⟩,
  ⟨wUp, 0, 0x0#7, by unfold Live; decide +kernel⟩,
  ⟨wMRetForce, 2, 0x46#7, 4, true, by unfold Live; decide +kernel⟩,
  ⟨wMRetired, 2, 0x46#7, 4, false, by unfold Live; decide +kernel⟩⟩

/-- States and operands that meet the hypotheses of `Obligations.RequestLines`, clause by clause. -/
theorem witness_RequestLines :
    (∃ (s : State) (l : Fin 256),
      s.chip.bit (Reg.rlCfg ↑l) F.RlCfg.EN = false) ∧
    (∃ (s : State) (l : Fin 256) (u : ℕ) (th : Thread),
      coreUp s.chip = true ∧ s.chip.bit (Reg.rlCfg ↑l) F.RlCfg.EN = true ∧ s.chip.threads = [(u, th)] ∧ th.st =
      TState.waiting ∧ th.kind = kReq ∧ th.arg % 256 = ↑l ∧ AtHome s.chip u) ∧
    (∃ (s : State) (l : Fin 256) (p : Fin 16) (q : Port) (g : Train),
      s.chip.ports = [(↑p, q)] ∧ q.granted = some g ∧ g.burst.bound = some ↑l ∧ (∀ x ∈ q.waiting, x.req ≠ g.burst.req)) ∧
    (∃ (s : State) (l : Fin 256) (p : Fin 16) (q : Port) (g : Train),
      s.chip.ports = [(↑p, q)] ∧ q.granted = some g ∧ g.burst.bound = some ↑l ∧ (∃ x ∈ q.waiting, x.req = g.burst.req)) ∧
    (∃ (s : State) (l : Fin 256) (p : Fin 16) (q : Port) (g : Train) (st : ℕ),
      s.chip.ports = [(↑p, q)] ∧ q.granted = some g ∧ g.burst.bound = some ↑l ∧ g.burst.use = BurstFor.harvest st ∧
      g.burst.kind = BurstKind.ack ∧ s.chip.backlog = []) ∧
    (∃ (s : State) (l : Fin 256),
      Ready s ∧ s.chip.bit (Reg.rlCfg ↑l) F.RlCfg.EN = false) ∧
    (∃ (s : State) (l : Fin 256),
      Ready s ∧ s.chip.bit (Reg.rlCfg ↑l) F.RlCfg.EN = true) ∧
    (∃ (s : State) (l : Fin 256) (data : Word) (u : ℕ) (th : Thread),
      Ready s ∧ s.chip.bit (Reg.rlCfg ↑l) F.RlCfg.EN = true ∧ fget data F.RlCfg.EN = 0 ∧ s.chip.threads = [(u, th)] ∧
      th.st = TState.waiting ∧ th.kind = kReq ∧ th.arg % 256 = ↑l ∧ AtHome s.chip u) ∧
    (∃ (s : State) (l : Fin 256) (data : Word),
      Ready s ∧ s.chip.bit (Reg.rlCfg ↑l) F.RlCfg.EN = true ∧ (s.chip.threads = [] ∨ fget data F.RlCfg.EN = 1)) ∧
    (∃ (s : State),
      Ready s) :=
  ⟨⟨State.reset, 0, by decide +kernel⟩,
  ⟨wRlWait, 30, 9, (wRlWait.chip.thr 9), by unfold AtHome; decide +kernel⟩,
  ⟨wRlGrant, 30, 2, (wRlGrant.chip.port 2), ((wRlGrant.chip.port 2).granted.getD (tr ackB)), by decide +kernel⟩,
  ⟨wRlGrant2, 30, 2, (wRlGrant2.chip.port 2), ((wRlGrant2.chip.port 2).granted.getD (tr ackB)), by decide +kernel⟩,
  ⟨wRlHarv, 30, 2, (wRlHarv.chip.port 2), ((wRlHarv.chip.port 2).granted.getD (tr ackB)), 1, by decide +kernel⟩,
  ⟨wUp, 0, by unfold Ready; decide +kernel⟩,
  ⟨wIWaitr, 30, by unfold Ready; decide +kernel⟩,
  ⟨wRlWait, 30, 0x0#64, 9, (wRlWait.chip.thr 9), by unfold AtHome Ready; decide +kernel⟩,
  ⟨wIWaitr, 30, 0x8000000000000000#64, by unfold Ready; decide +kernel⟩,
  ⟨wUp, by unfold Ready; decide +kernel⟩⟩

/-- States and operands that meet the hypotheses of `Obligations.InterruptMessages`, clause by clause. -/
theorem witness_InterruptMessages :
    (∃ (s : State) (k : Fin 64),
      Ready s ∧ (∀ src < 1024, s.chip.bit (Reg.irqRt src) F.IrqRt.EN = true → s.chip.fld (Reg.irqRt src) F.IrqRt.LINE
      = ↑k → Chip.asserted s.env s.chip src = false)) ∧
    (∃ (s : State) (k : Fin 64) (src : ℕ) (i : Instr) (w : ℕ),
      Ready s ∧ src < 1024 ∧ s.chip.bit (Reg.irqRt src) F.IrqRt.EN = true ∧ s.chip.fld (Reg.irqRt src) F.IrqRt.LINE =
      ↑k ∧ Chip.asserted s.env s.chip src = true ∧ s.chip.bit (Reg.irqLnCfg ↑k) F.IrqLnCfg.MSI = true ∧ (i =
      Instr.irqMessage k ∧ s.chip.bit (Reg.irqLnCfg ↑k) F.IrqLnCfg.ARMED = true ∨ i = Instr.irqAck k) ∧ s.prot.check
      (s.chip.fld (Reg.irqLnCfg ↑k) F.IrqLnCfg.PD) (s.chip.fld (Reg.irqLnAddr ↑k) F.IrqLnAddr.ADDR * 8) 8
      Need.postedWrite = Checked.ok w ∧ AllUp s.chip ∧ BetweenGrants s.chip (s.prot.home w) ∧ s.chip.bit (Reg.mpArb
      (s.prot.home w)) F.MpArb.FREEZE = false ∧ 0 < s.chip.rqHeld (s.prot.home w) ∧ 0 < s.chip.wdHeld (s.prot.home w)
      ∧ ((s.chip.port (s.prot.home w)).msgTurn = false ∨ (s.chip.port (s.prot.home w)).waiting = [])) ∧
    (∃ (s : State) (k : Fin 64) (src : ℕ) (i : Instr) (w : ℕ),
      Ready s ∧ src < 1024 ∧ s.chip.bit (Reg.irqRt src) F.IrqRt.EN = true ∧ s.chip.fld (Reg.irqRt src) F.IrqRt.LINE =
      ↑k ∧ Chip.asserted s.env s.chip src = true ∧ s.chip.bit (Reg.irqLnCfg ↑k) F.IrqLnCfg.MSI = true ∧ (i =
      Instr.irqMessage k ∧ s.chip.bit (Reg.irqLnCfg ↑k) F.IrqLnCfg.ARMED = true ∨ i = Instr.irqAck k) ∧ s.prot.check
      (s.chip.fld (Reg.irqLnCfg ↑k) F.IrqLnCfg.PD) (s.chip.fld (Reg.irqLnAddr ↑k) F.IrqLnAddr.ADDR * 8) 8
      Need.postedWrite = Checked.ok w ∧ AllUp s.chip ∧ BetweenGrants s.chip (s.prot.home w) ∧ s.chip.bit (Reg.mpArb
      (s.prot.home w)) F.MpArb.FREEZE = false ∧ 0 < s.chip.rqHeld (s.prot.home w) ∧ 0 < s.chip.wdHeld (s.prot.home w)
      ∧ ((s.chip.port (s.prot.home w)).msgTurn = false ∨ (s.chip.port (s.prot.home w)).waiting = [])) ∧
    (∃ (s : State) (k : Fin 64) (src : ℕ) (i : Instr) (w : Option ℕ),
      Ready s ∧ src < 1024 ∧ s.chip.bit (Reg.irqRt src) F.IrqRt.EN = true ∧ s.chip.fld (Reg.irqRt src) F.IrqRt.LINE =
      ↑k ∧ Chip.asserted s.env s.chip src = true ∧ s.chip.bit (Reg.irqLnCfg ↑k) F.IrqLnCfg.MSI = true ∧ (i =
      Instr.irqMessage k ∧ s.chip.bit (Reg.irqLnCfg ↑k) F.IrqLnCfg.ARMED = true ∨ i = Instr.irqAck k) ∧ s.prot.check
      (s.chip.fld (Reg.irqLnCfg ↑k) F.IrqLnCfg.PD) (s.chip.fld (Reg.irqLnAddr ↑k) F.IrqLnAddr.ADDR * 8) 8
      Need.postedWrite = Checked.fail w) :=
  ⟨⟨wUp, 0, by unfold Ready; decide +kernel⟩,
  ⟨wIrq, 5, 672, (Instr.irqMessage 5), 0, by unfold AllUp Ready BetweenGrants; decide +kernel⟩,
  ⟨wIrq, 5, 672, Instr.irqAck 5, 0, by unfold BetweenGrants AllUp Ready; decide +kernel⟩,
  ⟨wIrqNoWin, 5, 672, (Instr.irqMessage 5), none, by unfold Ready; decide +kernel⟩⟩

/-- States and operands that meet the hypotheses of `Obligations.PowerDomains`, clause by clause. -/
theorem witness_PowerDomains :
    (∃ (s : State) (d : Fin 64),
      ((s.chip.heldBursts fun b => Chip.isOwn b.use && b.tdom == ↑d) = [] ∨ coreUp s.chip = false)) ∧
    (∃ (s : State) (d : Fin 64) (p : Fin 16) (q : Port) (b : Burst) (n id a : ℕ),
      coreUp s.chip = true ∧ s.chip.ports = [(↑p, q)] ∧ q.granted = none ∧ q.waiting = [b] ∧ s.chip.backlog = [] ∧
      b.use = BurstFor.own n id a ∧ b.tdom = ↑d) ∧
    (∃ (s : State) (d : Fin 64),
      coreUp s.chip = true ∧ Tab.get false s.chip.pwr.tdReq ↑d = true ∧ (∀ q ∈ s.chip.ports, q.2.granted = none ∧
      q.2.holder = none ∧ ∀ o ∈ q.2.outst, o.2.1.tdom ≠ ↑d)) ∧
    (∃ (s : State) (d : Fin 64),
      coreUp s.chip = true ∧ s.chip.threads = [] ∧ Tab.get false s.chip.pwr.tdForce ↑d = false) ∧
    (∃ (s : State) (d : Fin 64),
      coreUp s.chip = true ∧ s.chip.threads = [] ∧ Tab.get false s.chip.pwr.tdReq ↑d = false) ∧
    (∃ (s : State) (d : Fin 64) (u : ℕ) (th : Thread),
      coreUp s.chip = true ∧ Tab.get false s.chip.pwr.tdForce ↑d = false ∧ s.chip.threads = [(u, th)] ∧ th.st =
      TState.parked ∧ th.kind = kPark ∧ th.arg = parkTarget * 2 ^ 24 + ↑d ∧ AtHome s.chip u) ∧
    (∃ (s : State) (d : Fin 64) (p : Fin 16) (q : Port) (tag m blk : ℕ) (b : Burst) (got : List (Line × Bool)),
      s.chip.ports = [(↑p, q)] ∧ q.granted = none ∧ q.holder = none ∧ q.outst = [(tag, b, got)] ∧ b.tdom = ↑d ∧ b.use
      = BurstFor.spill m blk (s.chip.spool m).run ∧ tag ∉ q.failing ∧ coreUp s.chip = true ∧ s.chip.backlog = [] ∧ (∀
      x ∈ q.waiting, Chip.isOwn x.use = false)) ∧
    (∃ (s : State) (n : ℕ),
      n < 130 ∧ Ready s ∧ n < 128 ∧ s.chip.ndl n = Needle.idle ∧ s.chip.pwr.wakeQ = [] ∧ Tab.get false
      s.chip.pwr.bdReq n = false) ∧
    (∃ (s : State) (n : ℕ),
      n < 130 ∧ Ready s ∧ n < 128 ∧ s.chip.ndl n = Needle.idle ∧ s.chip.pwr.wakeQ = [] ∧ Tab.get false
      s.chip.pwr.bdReq n = true ∧ Tab.get false s.chip.pwr.bdAck n = false) ∧
    (∃ (s : State) (n : ℕ),
      n < 130 ∧ Ready s ∧ n < 128 ∧ s.chip.ndl n = Needle.idle ∧ s.chip.pwr.wakeQ = [] ∧ Tab.get false
      s.chip.pwr.bdReq n = true ∧ s.chip.fld (Reg.ndlCtl n) F.NdlCtl.EN = 0 ∧ s.chip.npwr n = 2 ∧ s.chip.pllLocked n =
      true ∧ s.chip.wakingNow < 8) ∧
    (∃ (s : State) (n : ℕ),
      n < 130 ∧ Ready s ∧ n < 128 ∧ s.chip.ndl n = Needle.idle ∧ s.chip.pwr.wakeQ = [] ∧ Tab.get false
      s.chip.pwr.bdForce n = true) ∧
    (∃ (s : State) (n : ℕ),
      n < 130 ∧ Ready s ∧ n < 128 ∧ s.chip.ndl n = Needle.idle ∧ s.chip.pwr.wakeQ = [] ∧ Tab.get false
      s.chip.pwr.bdForce n = false ∧ s.chip.ports = [] ∧ s.chip.backlog = []) ∧
    (∃ (s : State) (n : ℕ),
      n < 130 ∧ Ready s ∧ n = 128 ∧ Tab.get false s.chip.pwr.bdReq n = true ∧ s.chip.rstate = 0) ∧
    (∃ (s : State) (n : ℕ),
      n < 130 ∧ Ready s ∧ n = 129 ∧ Tab.get false s.chip.pwr.bdReq n = false) ∧
    (∃ (s : State),
      Tab.get false s.chip.pwr.bdForce 129 = false) ∧
    (∃ (s : State) (b : Fin 130),
      s.chip.pwr.phase = Phase.retention ∧ ↑b < 128 ∧ Tab.get false s.chip.pwr.bdReq ↑b = true ∧ Tab.get false
      s.chip.pwr.bdAck ↑b = false ∧ s.chip.ndl ↑b = Needle.idle ∧ s.chip.npwr ↑b = 2) ∧
    (∃ (s : State),
      s.chip.pwr.phase = Phase.retention ∧ Tab.get false s.chip.pwr.bdReq 129 = true) ∧
    (∃ (s : State) (b : Fin 130),
      ↑b < 129 ∧ Tab.get false s.chip.pwr.bdForce ↑b = false ∧ (s.chip.pwr.phase = Phase.retention ∨ s.chip.pwr.phase
      = Phase.quiesce ∧ s.chip.pwr.forRetention = true)) :=
  ⟨⟨State.reset, 0, by decide +kernel⟩,
  ⟨wTdOwnWaits, 4, 2, (wTdOwnWaits.chip.port 2), ownB, 5, 2, 4096, by decide +kernel⟩,
  ⟨wCqOneReq, 4, by decide +kernel⟩,
  ⟨State.reset, 0, by decide +kernel⟩,
  ⟨State.reset, 0, by decide +kernel⟩,
  ⟨wTParked, 4, 9, (wTParked.chip.thr 9), by unfold AtHome; decide +kernel⟩,
  ⟨wMOutSpill, 4, 2, (wMOutSpill.chip.port 2), 70, 6, 0, (outBurst wMOutSpill), [], by decide +kernel⟩,
  ⟨wUp, 0, by unfold Ready; decide +kernel⟩,
  ⟨wNdlDn, 5, by unfold Ready; decide +kernel⟩,
  ⟨wNdlDn, 5, by unfold Ready; decide +kernel⟩,
  ⟨wPFrozForce, 5, by unfold Ready; decide +kernel⟩,
  ⟨wUp, 0, by unfold Ready; decide +kernel⟩,
  ⟨wPFrozReq, 128, by unfold Ready; decide +kernel⟩,
  ⟨wUp, 129, by unfold Ready; decide +kernel⟩,
  ⟨State.reset, by decide +kernel⟩,
  ⟨wPRetNdl, 5, by decide +kernel⟩,
  ⟨wPRetNdl, by decide +kernel⟩,
  ⟨wPRetNdl, 0, by decide +kernel⟩⟩

/-- States and operands that meet the hypotheses of `Obligations.ColdStart`, clause by clause. -/
theorem witness_ColdStart :
    (∃ (s : State),
      s.chip.pwr.phase = Phase.coreOff) ∧
    (∃ (s : State),
      s.chip.pwr.phase ≠ Phase.coreOff) ∧
    (∃ (s : State),
      (¬∀ q < 4, s.chip.bit (Reg.clkNpll q) F.ClkNpll.LOCK = true)) ∧
    (∃ (s : State),
      (¬∀ q < 4, s.chip.bit (Reg.clkNpll q) F.ClkNpll.LOCK = true) ∧ s.chip.pwr.wiping = true) ∧
    (∃ (s : State),
      (∀ q < 4, s.chip.bit (Reg.clkNpll q) F.ClkNpll.LOCK = true) ∧ s.chip.pwr.phase = Phase.starting ∧
      s.chip.pwr.wiping = true ∧ s.chip.pwr.spoolWiped = false ∧ (∀ n < 16, s.chip.fld (Reg.ipCtl n) F.IpCtl.EN = 0)) ∧
    (∃ (s : State),
      s.chip.pwr.phase = Phase.starting ∧ (s.chip.pwr.wiping = true → s.chip.pwr.spoolWiped = true ∧ ∀ q < 4,
      s.chip.bit (Reg.clkNpll q) F.ClkNpll.LOCK = true) ∧ s.chip.bit Reg.spcStat F.SpcStat.WIPE_DONE = true ∧ Tab.get
      false s.chip.pwr.bdReq 129 = false ∧ s.chip.fld Reg.pwrStat F.PwrStat.LASTRST < 3) :=
  ⟨⟨wPOff, by decide +kernel⟩,
  ⟨State.reset, by decide +kernel⟩,
  ⟨State.reset, by decide +kernel⟩,
  ⟨State.reset, by decide +kernel⟩,
  ⟨wPWipe, by decide +kernel⟩,
  ⟨wPReadyLc, by decide +kernel⟩⟩

/-- States and operands that meet the hypotheses of `Obligations.WarmResets`, clause by clause. -/
theorem witness_WarmResets :
    (∃ (s : State) (src : WarmSource),
      Ready s ∧ src ≠ WarmSource.retention) ∧
    (∃ (s : State) (src : WarmSource),
      ¬Ready s ∧ src ≠ WarmSource.retention) ∧
    (∃ (s : State) (timeout : Bool),
      s.chip.pwr.phase = Phase.quiesce ∧ s.chip.pwr.forRetention = false ∧ s.chip.pwr.cause < 8 ∧ (timeout = true ∨
      s.chip.allDrained = true)) ∧
    (∃ (s : State),
      (s.chip.pwr.phase ≠ Phase.quiesce ∨ s.chip.allDrained = false)) ∧
    (∃ (s : State),
      s.chip.pwr.phase = Phase.quiesce ∧ s.chip.pwr.forRetention = true ∧ Tab.get false s.chip.pwr.bdReq 129 = true ∧
      s.chip.allDrained = true) ∧
    (∃ (s : State),
      s.chip.pwr.phase = Phase.retention ∧ Tab.get false s.chip.pwr.bdReq 129 = false) :=
  ⟨⟨wUp, Sys2Proof.WarmSource.pin, by unfold Ready; decide +kernel⟩,
  ⟨State.reset, Sys2Proof.WarmSource.pin, by unfold Ready; decide +kernel⟩,
  ⟨wQuiesced, true, by decide +kernel⟩,
  ⟨State.reset, by decide +kernel⟩,
  ⟨wPRetQ, by decide +kernel⟩,
  ⟨wPRetUp, by decide +kernel⟩⟩

/-- States and operands that meet the hypotheses of `Obligations.DebugAccess`, clause by clause. -/
theorem witness_DebugAccess :
    (∃ (s : State) (r : Reg),
      Ready s ∧ s.prot.debugFull = true ∧ r ∈ [Reg.otLoad, Reg.hvAt, Reg.bbFrzen, Reg.bbTypeen, Reg.seamSendd0,
      Reg.seamSendd1]) ∧
    (∃ (s : State),
      Ready s ∧ s.prot.debugFull = false) ∧
    (∃ (s : State) (a : BitVec 26),
      Ready s ∧ s.prot.debugFull = false ∧ 196608 ≤ a.toNat ∧ (a.toNat < 262144 ∨ 4194304 ≤ a.toNat)) ∧
    (∃ (s : State),
      ¬Ready s) ∧
    (∃ (s : State),
      Ready s) ∧
    (∃ (s : State) (i : Instr) (w : ℕ),
      Ready s ∧ s.prot.debugFull = true ∧ s.chip.bit Reg.dbgCtl F.DbgCtl.MEN = true ∧ s.chip.bit Reg.dbgMcmd
      F.DbgMcmd.BUSY = false ∧ (i = Instr.debugReadLine ∨ i = Instr.debugWriteLine) ∧ (s.prot.check (s.chip.fld
      Reg.dbgMcmd F.DbgMcmd.PD) (s.chip.fld Reg.dbgMaddr F.DbgMaddr.ADDR * 64) 64 (if i = Instr.debugReadLine then
      Need.read else Need.ackWrite) = Checked.ok w) ∧ NoneWaits s.chip (s.prot.home w) 132) ∧
    (∃ (s : State) (i : Instr) (w : ℕ),
      Ready s ∧ s.prot.debugFull = true ∧ s.chip.bit Reg.dbgCtl F.DbgCtl.MEN = true ∧ s.chip.bit Reg.dbgMcmd
      F.DbgMcmd.BUSY = false ∧ (i = Instr.debugReadLine ∨ i = Instr.debugWriteLine) ∧ (s.prot.check (s.chip.fld
      Reg.dbgMcmd F.DbgMcmd.PD) (s.chip.fld Reg.dbgMaddr F.DbgMaddr.ADDR * 64) 64 (if i = Instr.debugReadLine then
      Need.read else Need.ackWrite) = Checked.ok w) ∧ NoneWaits s.chip (s.prot.home w) 132) ∧
    (∃ (s : State) (i : Instr) (w : Option ℕ),
      Ready s ∧ s.prot.debugFull = true ∧ s.chip.bit Reg.dbgCtl F.DbgCtl.MEN = true ∧ s.chip.bit Reg.dbgMcmd
      F.DbgMcmd.BUSY = false ∧ (i = Instr.debugReadLine ∨ i = Instr.debugWriteLine) ∧ (s.prot.check (s.chip.fld
      Reg.dbgMcmd F.DbgMcmd.PD) (s.chip.fld Reg.dbgMaddr F.DbgMaddr.ADDR * 64) 64 (if i = Instr.debugReadLine then
      Need.read else Need.ackWrite) = Checked.fail w)) :=
  ⟨⟨wUp, Reg.otLoad, by unfold Ready; decide +kernel⟩,
  ⟨wDbgOff, by unfold Ready; decide +kernel⟩,
  ⟨wDbgOff, 0x810008#26, by unfold Ready; decide +kernel⟩,
  ⟨State.reset, by unfold Ready; decide +kernel⟩,
  ⟨wUp, by unfold Ready; decide +kernel⟩,
  ⟨wDFull, Instr.debugReadLine, 0, by unfold Ready NoneWaits; decide +kernel⟩,
  ⟨wDFull, Instr.debugWriteLine, 0, by unfold NoneWaits Ready; decide +kernel⟩,
  ⟨wDNoWin, Instr.debugReadLine, none, by unfold Ready; decide +kernel⟩⟩

/-- States and operands that meet the hypotheses of `Obligations.SealAndLifecycle`, clause by clause. -/
theorem witness_SealAndLifecycle :
    (∃ (s : State),
      Ready s) ∧
    (∃ (s : State),
      Ready s ∧ s.prot.isSealed = false) ∧
    (∃ (s : State) (key : BitVec 16) (nx : BitVec 2),
      Ready s ∧ s.prot.isSealed = false ∧ (key ≠ 0 ∨ nx ≠ 0) ∧ (key ≠ 19523#16 ∨ nx.toNat ≠ match s.prot.lcState with
      | 0 => 1 | 1 => 2 | 2 => 3 | _ => 1)) ∧
    (∃ (s : State) (key : BitVec 16) (nx : BitVec 2),
      Ready s ∧ s.prot.isSealed = true ∧ fget (s.prot.rd Reg.seal) F.Seal.VCNT < 2 ^ F.Seal.VCNT.width - 1 ∧ (key ≠ 0
      ∨ nx ≠ 0)) ∧
    (∃ (s : State) (k : Fin 256) (w : Word),
      Ready s ∧ s.prot.isSealed = true ∧ fget (s.prot.rd Reg.seal) F.Seal.VCNT < 2 ^ F.Seal.VCNT.width - 1 ∧ fget w
      F.WinBase.ADDR ≠ fget (s.prot.rd (Reg.winBase ↑k)) F.WinBase.ADDR) :=
  ⟨⟨wUp, by unfold Ready; decide +kernel⟩,
  ⟨wUp, by unfold Ready; decide +kernel⟩,
  ⟨wUp, 0x0#16, 0x1#2, by unfold Ready; decide +kernel⟩,
  ⟨wPSealed, 0x0#16, 0x1#2, by unfold Ready; decide +kernel⟩,
  ⟨wPSealed, 0, 0x5003#64, by unfold Ready; decide +kernel⟩⟩

/-- States and operands that meet the hypotheses of `Obligations.SealHolds`, clause by clause. -/
theorem witness_SealHolds :
    (∃ (s t : State),
      LcChangeSafe s ∧ step s = Host.Outcome.next t) ∧
    (∃ (s t : State),
      LcChangeSafe s ∧ s.prot.isSealed = true ∧ (∀ (on : Bool), s.pending.head? ≠ some (Instr.coldReset on)) ∧ step s
      = Host.Outcome.next t) ∧
    (∃ (s t : State) (r : Reg),
      LcChangeSafe s ∧ s.prot.isSealed = true ∧ (∀ (on : Bool), s.pending.head? ≠ some (Instr.coldReset on)) ∧ step s
      = Host.Outcome.next t ∧ r.offset ≠ Reg.seal.offset ∧ r.offset ≠ Reg.lc.offset) :=
  ⟨⟨wPSealedRun, nextOf (step wPSealedRun), by unfold LcChangeSafe; decide +kernel, next_of _ (by decide +kernel)⟩,
  ⟨wPSealedRun, nextOf (step wPSealedRun), by unfold LcChangeSafe; decide +kernel, by decide +kernel, fun on h => (by
    rw [show wPSealedRun.pending.head? = some (.configCommit false 0) by decide +kernel] at h; cases h),
    next_of _ (by decide +kernel)⟩,
  ⟨wPSealedRun, nextOf (step wPSealedRun), .id, by unfold LcChangeSafe; decide +kernel, by decide +kernel, fun on h => (by
    rw [show wPSealedRun.pending.head? = some (.configCommit false 0) by decide +kernel] at h; cases h),
    next_of _ (by decide +kernel), by decide, by decide⟩⟩

/-- States and operands that meet the hypotheses of `Obligations.FaultQueueAndBlackBox`, clause by clause. -/
theorem witness_FaultQueueAndBlackBox :
    (∃ (s : State),
      Ready s) ∧
    (∃ (s : State) (ev : BbEvent) (rest : List BbEvent),
      ¬s.chip.bit Reg.bbStat F.BbStat.FROZEN = true ∧ s.chip.bb.fifo = ev :: rest ∧ s.chip.bb.postLeft ≠ some 0) ∧
    (∃ (s : State),
      (s.chip.bit Reg.bbStat F.BbStat.FROZEN = true ∨ s.chip.bb.fifo = [])) ∧
    (∃ (s : State),
      Ready s ∧ ¬s.chip.bit Reg.bbStat F.BbStat.FROZEN = true ∧ s.chip.bb.fifo.length < 32) ∧
    (∃ (s : State),
      Ready s ∧ ¬s.chip.bit Reg.bbStat F.BbStat.FROZEN = true ∧ s.chip.bb.fifo.length < 32 ∧ BitVec.toNat (s.chip.rd
      Reg.bbTypeen) / 2 ^ 13 % 2 = 1) ∧
    (∃ (s : State),
      ¬Ready s) ∧
    (∃ (s : State),
      ¬Ready s) ∧
    (∃ (s : State),
      Ready s ∧ ¬s.chip.bit Reg.bbStat F.BbStat.FROZEN = true ∧ 32 ≤ s.chip.bb.fifo.length ∧ BitVec.toNat (s.chip.rd
      Reg.bbTypeen) / 2 ^ 13 % 2 = 1) ∧
    (∃ (s : State),
      ¬s.chip.bit Reg.bbStat F.BbStat.FROZEN = true ∧ s.chip.bb.postLeft = some 0) ∧
    (∃ (s : State),
      Ready s ∧ s.chip.bit Reg.bbStat F.BbStat.FROZEN = true ∧ (∀ q ∈ s.chip.ports, ∀ b ∈ q.2.waiting, b.req ≠ 130) ∧
      (∀ x ∈ s.chip.backlog, x.2.req ≠ 130)) ∧
    (∃ (s : State) (w : ℕ),
      Ready s ∧ s.chip.bit Reg.bbStat F.BbStat.FROZEN = true ∧ s.chip.bb.owed = true ∧ s.chip.backlog = [] ∧ NoneWaits
      s.chip (s.prot.home w) 130 ∧ (∀ i < 32, s.prot.check (s.chip.fld Reg.bbFlush F.BbFlush.PD) (s.chip.fld
      Reg.bbFlush F.BbFlush.ADDR * 2 ^ 15 + i * 1024) 1024 Need.ackWrite = Checked.ok w)) :=
  ⟨⟨wUp, by unfold Ready; decide +kernel⟩,
  ⟨wBb1, { ty := 5, xing := 0x1#64, fine := 0, p0 := 0x2#64, p1 := 0x3#64 }, [], by decide +kernel⟩,
  ⟨State.reset, by decide +kernel⟩,
  ⟨wUp, by unfold Ready; decide +kernel⟩,
  ⟨wUp, by unfold Ready; decide +kernel⟩,
  ⟨State.reset, by unfold Ready; decide +kernel⟩,
  ⟨State.reset, by unfold Ready; decide +kernel⟩,
  ⟨wBbFull, by unfold Ready; decide +kernel⟩,
  ⟨wBbPost0, by decide +kernel⟩,
  ⟨wPFrozForce, by unfold Ready; decide +kernel⟩,
  ⟨wBbOwed, 0, by unfold Ready NoneWaits; decide +kernel⟩⟩

/-- States and operands that meet the hypotheses of `Obligations.SeamTraining`, clause by clause. -/
theorem witness_SeamTraining :
    (∃ (s : State),
      s.chip.rstate = 0) ∧
    (∃ (s : State) (h : SeamHead),
      s.chip.isRef = false ∧ ¬h.src.toNat = s.chip.nodeId ∧ s.chip.rstate ≠ 0 ∧ s.chip.rstate ≠ 5) ∧
    (∃ (s : State) (h : SeamHead) (lo hi : BitVec 4),
      s.chip.isRef = true ∧ h.src.toNat = s.chip.nodeId ∧ s.chip.rstate = 2 ∧ s.chip.seam.helloOut = true ∧ lo.toNat ≤
      hi.toNat) ∧
    (∃ (s : State) (h : SeamHead) (lo hi : BitVec 4),
      s.chip.isRef = true ∧ h.src.toNat = s.chip.nodeId ∧ s.chip.rstate = 2 ∧ s.chip.seam.helloOut = true ∧ hi.toNat <
      lo.toNat) ∧
    (∃ (s : State),
      s.chip.isRef = true ∧ s.chip.seam.helloOut = true ∧ s.chip.rstate = 2) ∧
    (∃ (s : State) (h : SeamHead),
      (s.chip.rstate = 0 ∨ ¬h.src.toNat = s.chip.nodeId)) ∧
    (∃ (s : State) (h : SeamHead),
      s.chip.rstate = 4 ∧ h.src.toNat = s.chip.nodeId ∧ s.chip.seam.claimOut = some h.seq.toNat) ∧
    (∃ (s : State) (h : SeamHead),
      s.chip.rstate ≠ 0 ∧ h.src.toNat = s.chip.nodeId ∧ s.chip.seam.claimOut ≠ some h.seq.toNat) ∧
    (∃ (s : State),
      s.chip.rstate = 4 ∧ s.chip.seam.claimOut ≠ none) ∧
    (∃ (s : State),
      (s.chip.rstate = 2 ∨ s.chip.rstate = 3) ∧ s.chip.isRef = false) ∧
    (∃ (s : State),
      s.chip.rstate = 3 ∧ s.chip.isRef = true ∧ s.chip.seam.full = true) ∧
    (∃ (s : State),
      (s.chip.rstate = 1 ∨ s.chip.rstate = 4 ∨ s.chip.rstate = 6 ∨ s.chip.rstate = 7)) ∧
    (∃ (s : State),
      2 ≤ s.chip.rstate ∧ s.chip.rstate ≠ 7) ∧
    (∃ (s : State),
      (s.chip.rstate ≤ 1 ∨ s.chip.rstate = 7)) ∧
    (∃ (s : State) (h : SeamHead) (k : TokenState) (q : BitVec 16),
      s.chip.seam.token = some k ∧ s.chip.rstate ≠ 0 ∧ s.chip.rstate ≠ 7 ∧ h.dest.toNat = s.chip.nodeId ∧ q.toNat =
      k.pseq ∧ k.done < 7) ∧
    (∃ (s : State) (h : SeamHead) (k : TokenState) (q : BitVec 16),
      s.chip.seam.token = some k ∧ s.chip.rstate ≠ 0 ∧ s.chip.rstate ≠ 7 ∧ h.dest.toNat = s.chip.nodeId ∧ q.toNat =
      k.pseq ∧ 7 ≤ k.done ∧ k.ver < 16 ∧ k.count < 2 ^ 13 ∧ k.curRoot < 16) ∧
    (∃ (s : State) (k : TokenState),
      s.chip.seam.token = some k ∧ s.chip.rstate = 7) ∧
    (∃ (s : State) (k : TokenState),
      s.chip.seam.token = some k ∧ s.chip.rstate ≠ 7 ∧ k.repeats < 16) ∧
    (∃ (s : State) (k : TokenState),
      s.chip.seam.token = some k ∧ s.chip.rstate ≠ 7 ∧ 16 ≤ k.repeats ∧ k.ver < 16 ∧ k.count < 2 ^ 13 ∧ k.curRoot < 16) ∧
    (∃ (s : State) (h : SeamHead) (ver : BitVec 4),
      h.bc = true ∧ h.src.toNat ≠ s.chip.nodeId ∧ ver = 0 ∧ s.chip.rstate ≠ 0 ∧ s.chip.rstate ≠ 5) ∧
    (∃ (s : State) (h : SeamHead) (ver : BitVec 4),
      h.bc = true ∧ h.src.toNat ≠ s.chip.nodeId ∧ s.chip.rstate = 7 ∧ ver ≠ 0) ∧
    (∃ (s : State) (h : SeamHead) (ver : BitVec 4),
      h.bc = true ∧ h.src.toNat ≠ s.chip.nodeId ∧ s.chip.rstate = 3 ∧ ver ≠ 0) :=
  ⟨⟨State.reset, by decide +kernel⟩,
  ⟨wMkRingA, { src := 0x3#12, dest := 0x0#12, bc := false, root := 0x0#4, seq := 0x7#7 }, by decide +kernel⟩,
  ⟨wS2ref, { src := 0x0#12, dest := 0x0#12, bc := false, root := 0x0#4, seq := 0x7#7 }, 0x0#4, 0x0#4, by decide +kernel⟩,
  ⟨wS2ref, { src := 0x0#12, dest := 0x0#12, bc := false, root := 0x0#4, seq := 0x7#7 }, 0x1#4, 0x0#4, by decide +kernel⟩,
  ⟨wS2ref, by decide +kernel⟩,
  ⟨State.reset, { src := 0x3#12, dest := 0x0#12, bc := false, root := 0x0#4, seq := 0x7#7 }, by decide +kernel⟩,
  ⟨wS4c, { src := 0x0#12, dest := 0x0#12, bc := false, root := 0x0#4, seq := 0x7#7 }, by decide +kernel⟩,
  ⟨wISendsS, { src := 0x0#12, dest := 0x0#12, bc := false, root := 0x0#4, seq := 0x7#7 }, by decide +kernel⟩,
  ⟨wS4c, by decide +kernel⟩,
  ⟨wMkRingA, by decide +kernel⟩,
  ⟨wS3ref, by decide +kernel⟩,
  ⟨wEn2tx, by decide +kernel⟩,
  ⟨wISendsS, by decide +kernel⟩,
  ⟨State.reset, by decide +kernel⟩,
  ⟨wS2tok, { src := 0x3#12, dest := 0x0#12, bc := false, root := 0x0#4, seq := 0x7#7 }, { ver := 3, count := 4, curRoot := 1, crv := true, acc := 100, done := 2, pseq := 5, repeats := 1, best := some 50 }, 0x5#16, by decide +kernel⟩,
  ⟨wS2tok7, { src := 0x3#12, dest := 0x0#12, bc := false, root := 0x0#4, seq := 0x7#7 }, { ver := 3, count := 4, curRoot := 1, crv := true, acc := 100, done := 7, pseq := 5, repeats := 1, best := some 50 }, 0x5#16, by decide +kernel⟩,
  ⟨wS7tok, { ver := 3, count := 4, curRoot := 1, crv := true, acc := 100, done := 2, pseq := 5, repeats := 1, best := some 50 }, by decide +kernel⟩,
  ⟨wS2tok, { ver := 3, count := 4, curRoot := 1, crv := true, acc := 100, done := 2, pseq := 5, repeats := 1, best := some 50 }, by decide +kernel⟩,
  ⟨wS2tokR, { ver := 3, count := 4, curRoot := 1, crv := true, acc := 100, done := 2, pseq := 5, repeats := 16, best := some 50 }, by decide +kernel⟩,
  ⟨wMkRingA, { src := 0x3#12, dest := 0x0#12, bc := true, root := 0x0#4, seq := 0x7#7 }, 0x0#4, by decide +kernel⟩,
  ⟨wEn2tx, { src := 0x3#12, dest := 0x0#12, bc := true, root := 0x0#4, seq := 0x7#7 }, 0x1#4, by decide +kernel⟩,
  ⟨wMkRingA, { src := 0x3#12, dest := 0x0#12, bc := true, root := 0x0#4, seq := 0x7#7 }, 0x1#4, by decide +kernel⟩⟩

/-- States and operands that meet the hypotheses of `Obligations.SeamLinksAndMarkers`, clause by clause. -/
theorem witness_SeamLinksAndMarkers :
    (∃ (s : State) (h : SeamHead),
      h.bc = true ∧ h.src.toNat ≠ s.chip.nodeId ∧ s.chip.pwr.phase = Phase.running ∧ s.chip.rstate = 6) ∧
    (∃ (s : State) (h : SeamHead),
      h.bc = true ∧ h.src.toNat ≠ s.chip.nodeId ∧ s.chip.pwr.phase = Phase.running ∧ s.chip.rstate = 5 ∧ NoAsks s.chip) ∧
    (∃ (s : State) (h : SeamHead),
      h.bc = true ∧ h.src.toNat ≠ s.chip.nodeId ∧ s.chip.pwr.phase = Phase.running ∧ s.chip.rstate = 7) ∧
    (∃ (s : State) (h : SeamHead),
      h.bc = true ∧ h.src.toNat ≠ s.chip.nodeId ∧ s.chip.pwr.phase = Phase.running ∧ 1 ≤ s.chip.rstate ∧ s.chip.rstate
      < 5) ∧
    (∃ (s : State) (i : Instr),
      (i = Instr.seamRetrainCmd ∧ Ready s ∧ 2 ≤ s.chip.rstate ∧ s.chip.rstate ≤ 6 ∨ i = Instr.refMarkerLost ∧
      s.chip.rstate = 5 ∧ 16 ≤ s.chip.seam.markersOut) ∧ s.chip.isRef = true ∧ s.chip.bothLocked = true ∧ NoAsks
      s.chip) ∧
    (∃ (s : State) (i : Instr),
      (i = Instr.seamRetrainCmd ∧ Ready s ∧ 2 ≤ s.chip.rstate ∧ s.chip.rstate ≤ 6 ∨ i = Instr.refMarkerLost ∧
      s.chip.rstate = 5 ∧ 16 ≤ s.chip.seam.markersOut) ∧ s.chip.isRef = true ∧ s.chip.bothLocked = true ∧ NoAsks
      s.chip) ∧
    (∃ (s : State),
      Ready s ∧ s.chip.isRef = true ∧ s.chip.rstate = 5 ∧ s.chip.seam.token = none) ∧
    (∃ (s : State),
      s.chip.rstate ≠ 0 ∧ s.chip.seam.lockE = true) ∧
    (∃ (s : State),
      s.chip.rstate ≠ 0 ∧ s.chip.seam.lockW = true) ∧
    (∃ (s : State) (east : Bool),
      ((if east = true then s.chip.seam.hitE else s.chip.seam.hitW) = true) ∧ 2 ≤ s.chip.rstate ∧ s.chip.rstate ≤ 6 ∧
      s.chip.isRef = false ∧ NoAsks s.chip) ∧
    (∃ (s : State),
      s.chip.seam.helloOut = false) ∧
    (∃ (s : State) (h : SeamHead),
      ¬h.src.toNat = s.chip.nodeId ∧ s.chip.rstate ≠ 0 ∧ s.chip.isRef = true) ∧
    (∃ (s : State) (h : SeamHead) (x : Word) (delay tau : BitVec 30) (off ph : Int),
      ¬h.src.toNat = s.chip.nodeId ∧ s.chip.rstate ≠ 0 ∧ s.chip.isRef = false ∧ s.chip.ringMode = true ∧ s.chip.fld
      Reg.otBclk F.OtBclk.MEAS * 10 ≠ 0 ∧ nearestTo (s.chip.fld Reg.otBclk F.OtBclk.MEAS * 10) (markErr s.chip x delay
      tau) off ∧ nearestTo (s.chip.fld Reg.otBclk F.OtBclk.MEAS * 10) ((markErr s.chip x delay tau - off * (s.chip.fld
      Reg.otBclk F.OtBclk.MEAS * 10 : Nat)) * 8) ph) ∧
    (∃ (s : State) (h : SeamHead),
      ¬h.src.toNat = s.chip.nodeId ∧ s.chip.rstate ≠ 0 ∧ s.chip.isRef = false ∧ s.chip.ringMode = false) ∧
    (∃ (s : State) (h : SeamHead),
      h.src.toNat = s.chip.nodeId ∧ s.chip.rstate ≠ 0 ∧ s.chip.isRef = true) ∧
    (∃ (s : State),
      s.chip.rstate = 0) :=
  ⟨⟨wS6, { src := 0x3#12, dest := 0x0#12, bc := true, root := 0x0#4, seq := 0x7#7 }, by decide +kernel⟩,
  ⟨wS5root, { src := 0x3#12, dest := 0x0#12, bc := true, root := 0x0#4, seq := 0x7#7 }, by unfold NoAsks; decide +kernel⟩,
  ⟨wEn2tx, { src := 0x3#12, dest := 0x0#12, bc := true, root := 0x0#4, seq := 0x7#7 }, by decide +kernel⟩,
  ⟨wEn1tx, { src := 0x3#12, dest := 0x0#12, bc := true, root := 0x0#4, seq := 0x7#7 }, by decide +kernel⟩,
  ⟨wS6ref, Instr.seamRetrainCmd, by unfold NoAsks Ready; decide +kernel⟩,
  ⟨wMarkersOut, Instr.refMarkerLost, by unfold NoAsks Ready; decide +kernel⟩,
  ⟨wS5ref, by unfold Ready; decide +kernel⟩,
  ⟨wS6ref, by decide +kernel⟩,
  ⟨wS6ref, by decide +kernel⟩,
  ⟨wS5hit, false, by unfold NoAsks; decide +kernel⟩,
  ⟨State.reset, by decide +kernel⟩,
  ⟨wS2ref, { src := 0x3#12, dest := 0x0#12, bc := false, root := 0x0#4, seq := 0x7#7 }, by decide +kernel⟩,
  ⟨wMkRing, { src := 0x3#12, dest := 0x0#12, bc := true, root := 0x0#4, seq := 0x7#7 }, 20483, 1250, 0, 0, 4,
    by unfold nearestTo; decide +kernel⟩,
  ⟨wISendsS, { src := 0x3#12, dest := 0x0#12, bc := false, root := 0x0#4, seq := 0x7#7 }, by decide +kernel⟩,
  ⟨wS2ref, { src := 0x0#12, dest := 0x0#12, bc := false, root := 0x0#4, seq := 0x7#7 }, by decide +kernel⟩,
  ⟨State.reset, by decide +kernel⟩⟩

/-- States and operands that meet the hypotheses of `Obligations.DecisionsAndHints`, clause by clause. -/
theorem witness_DecisionsAndHints :
    (∃ (s : State) (payload : Word) (h : SeamHead) (i : Instr) (root : ℕ),
      (i = Instr.decisionInject payload ∧ Ready s ∧ s.chip.fld Reg.decCfg F.DecCfg.SRC ≠ 0 ∧ root = 0 ∨ i =
      Instr.decision h payload ∧ Arrives s.chip 17 h ∧ s.chip.fld Reg.decCfg F.DecCfg.SRC ≠ 1 ∧ (s.chip.bit
      Reg.seamRing F.SeamRing.ARV = true ∧ s.chip.fld Reg.seamRing F.SeamRing.ARC_ROOT = h.root.toNat) ∧ root =
      h.root.toNat) ∧ Machine.dist s.chip.olen s.chip.ctr (s.chip.nearestX (BitVec.toNat payload / 2 ^ 40 % 2 ^ 24)) <
      -16) ∧
    (∃ (s : State) (payload : Word) (h : SeamHead) (i : Instr) (root : ℕ),
      (i = Instr.decisionInject payload ∧ Ready s ∧ s.chip.fld Reg.decCfg F.DecCfg.SRC ≠ 0 ∧ root = 0 ∨ i =
      Instr.decision h payload ∧ Arrives s.chip 17 h ∧ s.chip.fld Reg.decCfg F.DecCfg.SRC ≠ 1 ∧ (s.chip.bit
      Reg.seamRing F.SeamRing.ARV = true ∧ s.chip.fld Reg.seamRing F.SeamRing.ARC_ROOT = h.root.toNat) ∧ root =
      h.root.toNat) ∧ Machine.dist s.chip.olen s.chip.ctr (s.chip.nearestX (BitVec.toNat payload / 2 ^ 40 % 2 ^ 24)) <
      -16) ∧
    (∃ (s : State) (payload : Word) (h : SeamHead) (i : Instr) (root : ℕ),
      (i = Instr.decisionInject payload ∧ Ready s ∧ s.chip.fld Reg.decCfg F.DecCfg.SRC ≠ 0 ∧ root = 0 ∨ i =
      Instr.decision h payload ∧ Arrives s.chip 17 h ∧ s.chip.fld Reg.decCfg F.DecCfg.SRC ≠ 1 ∧ (s.chip.bit
      Reg.seamRing F.SeamRing.ARV = true ∧ s.chip.fld Reg.seamRing F.SeamRing.ARC_ROOT = h.root.toNat) ∧ root =
      h.root.toNat) ∧ -16 ≤ Machine.dist s.chip.olen s.chip.ctr (s.chip.nearestX (BitVec.toNat payload / 2 ^ 40 % 2 ^
      24)) ∧ Chip.carries (s.chip.decAt (s.chip.nearestX (BitVec.toNat payload / 2 ^ 40 % 2 ^ 24))) (s.chip.nearestX
      (BitVec.toNat payload / 2 ^ 40 % 2 ^ 24)) = true ∧ (s.chip.decAt (s.chip.nearestX (BitVec.toNat payload / 2 ^ 40
      % 2 ^ 24))).st = DecState.known) ∧
    (∃ (s : State) (payload : Word) (h : SeamHead) (i : Instr) (root : ℕ),
      (i = Instr.decisionInject payload ∧ Ready s ∧ s.chip.fld Reg.decCfg F.DecCfg.SRC ≠ 0 ∧ root = 0 ∨ i =
      Instr.decision h payload ∧ Arrives s.chip 17 h ∧ s.chip.fld Reg.decCfg F.DecCfg.SRC ≠ 1 ∧ (s.chip.bit
      Reg.seamRing F.SeamRing.ARV = true ∧ s.chip.fld Reg.seamRing F.SeamRing.ARC_ROOT = h.root.toNat) ∧ root =
      h.root.toNat) ∧ -16 ≤ Machine.dist s.chip.olen s.chip.ctr (s.chip.nearestX (BitVec.toNat payload / 2 ^ 40 % 2 ^
      24)) ∧ Chip.carries (s.chip.decAt (s.chip.nearestX (BitVec.toNat payload / 2 ^ 40 % 2 ^ 24))) (s.chip.nearestX
      (BitVec.toNat payload / 2 ^ 40 % 2 ^ 24)) = true ∧ (s.chip.decAt (s.chip.nearestX (BitVec.toNat payload / 2 ^ 40
      % 2 ^ 24))).st = DecState.missing) ∧
    (∃ (s : State) (payload : Word) (h : SeamHead) (i : Instr) (root : ℕ),
      (i = Instr.decisionInject payload ∧ Ready s ∧ s.chip.fld Reg.decCfg F.DecCfg.SRC ≠ 0 ∧ root = 0 ∨ i =
      Instr.decision h payload ∧ Arrives s.chip 17 h ∧ s.chip.fld Reg.decCfg F.DecCfg.SRC ≠ 1 ∧ (s.chip.bit
      Reg.seamRing F.SeamRing.ARV = true ∧ s.chip.fld Reg.seamRing F.SeamRing.ARC_ROOT = h.root.toNat) ∧ root =
      h.root.toNat) ∧ ↑s.chip.dlat + ↑s.chip.grace < Machine.dist s.chip.olen s.chip.ctr (s.chip.nearestX
      (BitVec.toNat payload / 2 ^ 40 % 2 ^ 24)) ∧ (¬(Chip.carries (s.chip.decAt (s.chip.nearestX (BitVec.toNat payload
      / 2 ^ 40 % 2 ^ 24))) (s.chip.nearestX (BitVec.toNat payload / 2 ^ 40 % 2 ^ 24)) = true ∧ (s.chip.decAt
      (s.chip.nearestX (BitVec.toNat payload / 2 ^ 40 % 2 ^ 24))).st = DecState.known))) ∧
    (∃ (s : State) (payload : Word) (h : SeamHead) (i : Instr) (root u : ℕ),
      (i = Instr.decisionInject payload ∧ Ready s ∧ s.chip.fld Reg.decCfg F.DecCfg.SRC ≠ 0 ∧ root = 0 ∨ i =
      Instr.decision h payload ∧ Arrives s.chip 17 h ∧ s.chip.fld Reg.decCfg F.DecCfg.SRC ≠ 1 ∧ (s.chip.bit
      Reg.seamRing F.SeamRing.ARV = true ∧ s.chip.fld Reg.seamRing F.SeamRing.ARC_ROOT = h.root.toNat) ∧ root =
      h.root.toNat) ∧ -16 ≤ Machine.dist s.chip.olen s.chip.ctr (s.chip.nearestX (BitVec.toNat payload / 2 ^ 40 % 2 ^
      24)) ∧ Machine.dist s.chip.olen s.chip.ctr (s.chip.nearestX (BitVec.toNat payload / 2 ^ 40 % 2 ^ 24)) ≤
      ↑s.chip.dlat + ↑s.chip.grace ∧ s.chip.nearestX (BitVec.toNat payload / 2 ^ 40 % 2 ^ 24) < 2 ^ 64 ∧ (Chip.carries
      (s.chip.decAt (s.chip.nearestX (BitVec.toNat payload / 2 ^ 40 % 2 ^ 24))) (s.chip.nearestX (BitVec.toNat payload
      / 2 ^ 40 % 2 ^ 24)) = true ∧ (s.chip.decAt (s.chip.nearestX (BitVec.toNat payload / 2 ^ 40 % 2 ^ 24))).st =
      DecState.opened ∨ Chip.carries (s.chip.decAt (s.chip.nearestX (BitVec.toNat payload / 2 ^ 40 % 2 ^ 24)))
      (s.chip.nearestX (BitVec.toNat payload / 2 ^ 40 % 2 ^ 24)) = false ∧ ((s.chip.decAt (s.chip.nearestX
      (BitVec.toNat payload / 2 ^ 40 % 2 ^ 24))).st = DecState.unused ∨ (fun y => s.chip.waiters kDec fun x => x == y
      % 2 ^ 24) (s.chip.decAt (s.chip.nearestX (BitVec.toNat payload / 2 ^ 40 % 2 ^ 24))).x = [])) ∧ ((fun y =>
      s.chip.waiters kDec fun x => x == y % 2 ^ 24) (s.chip.nearestX (BitVec.toNat payload / 2 ^ 40 % 2 ^ 24)) = [u])
      ∧ AtHome s.chip u) ∧
    (∃ (s : State) (payload : Word) (h : SeamHead) (i : Instr) (root : ℕ),
      (i = Instr.decisionInject payload ∧ Ready s ∧ s.chip.fld Reg.decCfg F.DecCfg.SRC ≠ 0 ∧ root = 0 ∨ i =
      Instr.decision h payload ∧ Arrives s.chip 17 h ∧ s.chip.fld Reg.decCfg F.DecCfg.SRC ≠ 1 ∧ (s.chip.bit
      Reg.seamRing F.SeamRing.ARV = true ∧ s.chip.fld Reg.seamRing F.SeamRing.ARC_ROOT = h.root.toNat) ∧ root =
      h.root.toNat) ∧ -16 ≤ Machine.dist s.chip.olen s.chip.ctr (s.chip.nearestX (BitVec.toNat payload / 2 ^ 40 % 2 ^
      24)) ∧ Machine.dist s.chip.olen s.chip.ctr (s.chip.nearestX (BitVec.toNat payload / 2 ^ 40 % 2 ^ 24)) ≤
      ↑s.chip.dlat + ↑s.chip.grace ∧ s.chip.nearestX (BitVec.toNat payload / 2 ^ 40 % 2 ^ 24) < 2 ^ 64 ∧ (Chip.carries
      (s.chip.decAt (s.chip.nearestX (BitVec.toNat payload / 2 ^ 40 % 2 ^ 24))) (s.chip.nearestX (BitVec.toNat payload
      / 2 ^ 40 % 2 ^ 24)) = false ∨ (s.chip.decAt (s.chip.nearestX (BitVec.toNat payload / 2 ^ 40 % 2 ^ 24))).st =
      DecState.opened) ∧ ((fun y => s.chip.waiters kDec fun x => x == y % 2 ^ 24) (s.chip.nearestX (BitVec.toNat
      payload / 2 ^ 40 % 2 ^ 24)) = []) ∧ ((fun y => s.chip.waiters kDec fun x => x == y % 2 ^ 24) (s.chip.decAt
      (s.chip.nearestX (BitVec.toNat payload / 2 ^ 40 % 2 ^ 24))).x = [])) ∧
    (∃ (s : State),
      Ready s ∧ s.chip.fld Reg.decCfg F.DecCfg.SRC = 0) ∧
    (∃ (s : State) (h : SeamHead),
      Arrives s.chip 17 h ∧ s.chip.fld Reg.decCfg F.DecCfg.SRC ≠ 1 ∧ (¬(s.chip.bit Reg.seamRing F.SeamRing.ARV = true
      ∧ s.chip.fld Reg.seamRing F.SeamRing.ARC_ROOT = h.root.toNat))) ∧
    (∃ (s : State) (h : SeamHead),
      Arrives s.chip 17 h ∧ s.chip.fld Reg.decCfg F.DecCfg.SRC = 1) ∧
    (∃ (s : State) (h : SeamHead),
      Arrives s.chip 18 h ∧ s.chip.fld Reg.decCfg F.DecCfg.SRC ≠ 1 ∧ (¬(s.chip.bit Reg.seamRing F.SeamRing.ARV = true
      ∧ s.chip.fld Reg.seamRing F.SeamRing.ARC_ROOT = h.root.toNat))) ∧
    (∃ (s : State) (payload : Word) (h : SeamHead),
      Arrives s.chip 18 h ∧ s.chip.fld Reg.decCfg F.DecCfg.SRC ≠ 1 ∧ (s.chip.bit Reg.seamRing F.SeamRing.ARV = true ∧
      s.chip.fld Reg.seamRing F.SeamRing.ARC_ROOT = h.root.toNat) ∧ Chip.carries (s.chip.decAt (s.chip.nearestX
      (BitVec.toNat payload / 2 ^ 40 % 2 ^ 24))) (s.chip.nearestX (BitVec.toNat payload / 2 ^ 40 % 2 ^ 24)) = true ∧
      (s.chip.decAt (s.chip.nearestX (BitVec.toNat payload / 2 ^ 40 % 2 ^ 24))).st = DecState.opened ∧ -16 ≤
      Machine.dist s.chip.olen s.chip.ctr (s.chip.nearestX (BitVec.toNat payload / 2 ^ 40 % 2 ^ 24)) ∧ Machine.dist
      s.chip.olen s.chip.ctr (s.chip.nearestX (BitVec.toNat payload / 2 ^ 40 % 2 ^ 24)) ≤ 1007) ∧
    (∃ (s : State) (payload : Word) (h : SeamHead),
      Arrives s.chip 18 h ∧ s.chip.fld Reg.decCfg F.DecCfg.SRC ≠ 1 ∧ (s.chip.bit Reg.seamRing F.SeamRing.ARV = true ∧
      s.chip.fld Reg.seamRing F.SeamRing.ARC_ROOT = h.root.toNat) ∧ (s.chip.decAt (s.chip.nearestX (BitVec.toNat
      payload / 2 ^ 40 % 2 ^ 24))).st ≠ DecState.opened) :=
  ⟨⟨wD5wait, 0x50140000000000#64, { src := 0x3#12, dest := 0x0#12, bc := false, root := 0x0#4, seq := 0x7#7 }, (Instr.decisionInject 0x50140000000000#64), 0, by unfold Arrives Ready; decide +kernel⟩,
  ⟨wD5, 0x50140000000000#64, { src := 0x3#12, dest := 0x0#12, bc := true, root := 0x0#4, seq := 0x7#7 },
    Instr.decision { src := 0x3#12, dest := 0x0#12, bc := true, root := 0x0#4, seq := 0x7#7 } 0x50140000000000#64, 0, by unfold Ready Arrives; decide +kernel⟩,
  ⟨wD5know, 0x50030000000000#64, { src := 0x3#12, dest := 0x0#12, bc := false, root := 0x0#4, seq := 0x7#7 }, (Instr.decisionInject 0x50030000000000#64), 0, by unfold Arrives Ready; decide +kernel⟩,
  ⟨wD5miss, 0x50030000000000#64, { src := 0x3#12, dest := 0x0#12, bc := false, root := 0x0#4, seq := 0x7#7 }, (Instr.decisionInject 0x50030000000000#64), 0, by unfold Arrives Ready; decide +kernel⟩,
  ⟨wD5wait, 0x0#64, { src := 0x3#12, dest := 0x0#12, bc := false, root := 0x0#4, seq := 0x7#7 }, (Instr.decisionInject 0x0#64), 0, by unfold Arrives Ready; decide +kernel⟩,
  ⟨wD5wait, 0x50030000000000#64, { src := 0x3#12, dest := 0x0#12, bc := false, root := 0x0#4, seq := 0x7#7 }, (Instr.decisionInject 0x50030000000000#64), 0, 9, by unfold Arrives AtHome Ready; decide +kernel⟩,
  ⟨wD5, 0x50030000000000#64, { src := 0x3#12, dest := 0x0#12, bc := true, root := 0x0#4, seq := 0x7#7 }, (Instr.decision { src := 0x3#12, dest := 0x0#12, bc := true, root := 0x0#4, seq := 0x7#7 } 0x50030000000000#64), 0, by unfold Arrives Ready; decide +kernel⟩,
  ⟨wD5, by unfold Ready; decide +kernel⟩,
  ⟨wD5wait, { src := 0x3#12, dest := 0x0#12, bc := false, root := 0x2#4, seq := 0x7#7 }, by unfold Arrives; decide +kernel⟩,
  ⟨wD5i, { src := 0x3#12, dest := 0x0#12, bc := false, root := 0x0#4, seq := 0x7#7 }, by unfold Arrives; decide +kernel⟩,
  ⟨wD5wait, { src := 0x3#12, dest := 0x0#12, bc := false, root := 0x2#4, seq := 0x7#7 }, by unfold Arrives; decide +kernel⟩,
  ⟨wD5wait, 0x50030000000000#64, { src := 0x3#12, dest := 0x0#12, bc := false, root := 0x0#4, seq := 0x7#7 }, by unfold Arrives; decide +kernel⟩,
  ⟨wD5wait, 0x0#64, { src := 0x3#12, dest := 0x0#12, bc := false, root := 0x0#4, seq := 0x7#7 }, by unfold Arrives; decide +kernel⟩⟩

/-- States and operands that meet the hypotheses of `Obligations.RingLocks`, clause by clause. -/
theorem witness_RingLocks :
    (∃ (s : State) (h : SeamHead) (l : BitVec 8),
      Arrives s.chip 32 h ∧ s.chip.isRef = true ∧ (s.chip.lockAt (32768 + l.toNat)).st = LockState.free) ∧
    (∃ (s : State) (h : SeamHead) (l : BitVec 8) (u : BitVec 18),
      Arrives s.chip 32 h ∧ s.chip.isRef = true ∧ (s.chip.lockAt (32768 + l.toNat)).st = LockState.held ∧
      (s.chip.lockAt (32768 + l.toNat)).owner ≠ h.src.toNat * 2 ^ 18 + u.toNat) ∧
    (∃ (s : State) (h : SeamHead) (l : BitVec 8) (u : BitVec 18),
      Arrives s.chip 32 h ∧ s.chip.isRef = true ∧ (s.chip.lockAt (32768 + l.toNat)).st = LockState.held ∧
      (s.chip.lockAt (32768 + l.toNat)).owner = h.src.toNat * 2 ^ 18 + u.toNat ∧ (s.chip.lockAt (32768 +
      l.toNat)).waiters = []) ∧
    (∃ (s : State) (h : SeamHead) (l : BitVec 8) (u : BitVec 18) (th : Thread) (a : LockAsk),
      Arrives s.chip 33 h ∧ s.chip.threads = [(u.toNat, th)] ∧ th.st = TState.waiting ∧ th.kind = kLock ∧ th.arg =
      32768 + l.toNat ∧ AtHome s.chip u.toNat ∧ s.chip.seam.asks = [a] ∧ a =
      { t := u.toNat, lock := 32768 + l.toNat, seq := h.seq.toNat, isTry := false, isUnlock := false, lapsed := false }) ∧
    (∃ (s : State) (u : Fin 262144) (a : LockAsk) (nd : Fin 128) (k : Fin 8) (sl : Slot) (act : Act),
      coreUp s.chip = true ∧ s.chip.seam.asks = [a] ∧ sl.dead = false ∧ a.t = ↑u ∧ a.lapsed = false ∧ a.isTry = true ∧
      a.isUnlock = false ∧ s.chip.findSlot ↑u = some (↑nd, ↑k) ∧ s.chip.deadSlot ↑u = false ∧ s.chip.slot ↑nd ↑k =
      some sl ∧ sl.act = some act ∧ act.kind = ActKind.lockTry ∧ act.arg = a.lock) :=
  ⟨⟨wS5ref, { src := 0x3#12, dest := 0x0#12, bc := false, root := 0x0#4, seq := 0x7#7 }, 0x0#8, by unfold Arrives; decide +kernel⟩,
  ⟨wRlHeldO, { src := 0x3#12, dest := 0x0#12, bc := false, root := 0x0#4, seq := 0x7#7 }, 0x7#8, 0x0#18, by unfold Arrives; decide +kernel⟩,
  ⟨wRlHeldMine, { src := 0x3#12, dest := 0x0#12, bc := false, root := 0x0#4, seq := 0x7#7 }, 0x7#8, 0x9#18, by unfold Arrives; decide +kernel⟩,
  ⟨wRlRsp, { src := 0x3#12, dest := 0x0#12, bc := false, root := 0x0#4, seq := 0x7#7 }, 0x7#8, 0x9#18, (wRlRsp.chip.thr 9), { t := 9, lock := 32775, seq := 7, isTry := false, isUnlock := false, lapsed := false }, by unfold Arrives AtHome; decide +kernel⟩,
  ⟨wRlTry, 9, { t := 9, lock := 32775, seq := 7, isTry := true, isUnlock := false, lapsed := false }, 5, 3, (slotOf wRlTry), (actOf wRlTry), by decide +kernel⟩⟩

/-- States and operands that meet the hypotheses of `Obligations.RemoteAccesses`, clause by clause. -/
theorem witness_RemoteAccesses :
    (∃ (s : State) (h : SeamHead) (r : Reg),
      s.chip.seam.rxq.length < 250 ∧ Ready s ∧ r ∈ [Reg.otLoad, Reg.hvAt, Reg.bbFrzen, Reg.bbTypeen, Reg.seamSendd0,
      Reg.seamSendd1] ∧ Arrives s.chip 64 h ∧ fbit (s.prot.rd Reg.seamCfg) F.SeamCfg.RRD = true) ∧
    (∃ (s : State) (h : SeamHead) (r : Reg),
      s.chip.seam.rxq.length < 250 ∧ Ready s ∧ r ∈ [Reg.otLoad, Reg.hvAt, Reg.bbFrzen, Reg.bbTypeen, Reg.seamSendd0,
      Reg.seamSendd1] ∧ Arrives s.chip 65 h ∧ fbit (s.prot.rd Reg.seamCfg) F.SeamCfg.RWR = true) ∧
    (∃ (s : State) (h : SeamHead),
      s.chip.seam.rxq.length < 250 ∧ Arrives s.chip 64 h ∧ fbit (s.prot.rd Reg.seamCfg) F.SeamCfg.RRD = false) ∧
    (∃ (s : State) (h : SeamHead),
      s.chip.seam.rxq.length < 250 ∧ Arrives s.chip 65 h ∧ fbit (s.prot.rd Reg.seamCfg) F.SeamCfg.RWR = false) ∧
    (∃ (s : State) (h : SeamHead),
      s.chip.seam.rxq.length < 250 ∧ Arrives s.chip 66 h) ∧
    (∃ (s : State) (tag : BitVec 8) (q dest : ℕ),
      s.chip.seam.rxq.length < 250 ∧ coreUp s.chip = true ∧ s.chip.seam.remotes = [(tag.toNat, q, dest)]) :=
  ⟨⟨wRa, { src := 0x3#12, dest := 0x0#12, bc := false, root := 0x0#4, seq := 0x7#7 }, Reg.otLoad, by unfold Arrives Ready; decide +kernel⟩,
  ⟨wRa, { src := 0x3#12, dest := 0x0#12, bc := false, root := 0x0#4, seq := 0x7#7 }, Reg.otLoad, by unfold Arrives Ready; decide +kernel⟩,
  ⟨wISendsS, { src := 0x3#12, dest := 0x0#12, bc := false, root := 0x0#4, seq := 0x7#7 }, by unfold Arrives; decide +kernel⟩,
  ⟨wISendsS, { src := 0x3#12, dest := 0x0#12, bc := false, root := 0x0#4, seq := 0x7#7 }, by unfold Arrives; decide +kernel⟩,
  ⟨wISendsS, { src := 0x3#12, dest := 0x0#12, bc := false, root := 0x0#4, seq := 0x7#7 }, by unfold Arrives; decide +kernel⟩,
  ⟨wRaBusy, 0x9#8, 7, 3, by decide +kernel⟩⟩

/-- States and operands that meet the hypotheses of `Obligations.SeamMessages`, clause by clause. -/
theorem witness_SeamMessages :
    (∃ (s : State) (w : Word),
      Ready s ∧ fget w F.SeamSendh.TYPE = 80 ∧ s.chip.rstate = 5 ∧ s.chip.seam.tx = []) ∧
    (∃ (s : State) (w : Word),
      Ready s ∧ fget w F.SeamSendh.TYPE = 80 ∧ s.chip.rstate ≠ 5) ∧
    (∃ (s : State) (w : Word) (ws : List Word),
      Ready s ∧ s.chip.seam.rxq = w :: ws) ∧
    (∃ (s : State) (h : SeamHead),
      Arrives s.chip 80 h ∧ s.chip.pwr.phase = Phase.running ∧ s.chip.seam.rxq.length ≤ 254) ∧
    (∃ (s : State) (h : SeamHead),
      Arrives s.chip 80 h ∧ s.chip.pwr.phase = Phase.running ∧ 254 < s.chip.seam.rxq.length) ∧
    (∃ (s : State) (h : SeamHead) (data : List Word),
      Arrives s.chip 73 h ∧ data.length = 4 ∧ s.chip.seam.rxq.length ≤ 250) ∧
    (∃ (s : State) (h : SeamHead),
      (s.chip.rstate = 0 ∨ s.chip.rstate = 5 ∧ h.src.toNat ≠ s.chip.nodeId) ∧ s.chip.seam.islVer = 3 ∧ h.bc = false ∧
      h.dest.toNat = s.chip.seam.islNode ∧ fbit (s.prot.rd Reg.seamCfg) F.SeamCfg.BBR = true ∧ (s.chip.seam.islBusy ≠
      [] ∨ ∃ m ∈ s.chip.seam.laneE, m.ty = 73 ∧ m.h.src.toNat = s.chip.seam.islNode)) ∧
    (∃ (s : State) (h : SeamHead),
      (s.chip.rstate = 0 ∨ s.chip.rstate = 5 ∧ h.src.toNat ≠ s.chip.nodeId) ∧ s.chip.seam.islVer = 3 ∧ h.bc = false ∧
      h.dest.toNat = s.chip.seam.islNode ∧ fbit (s.prot.rd Reg.seamCfg) F.SeamCfg.BBR = true ∧ (¬(s.chip.seam.islBusy
      ≠ [] ∨ ∃ m ∈ s.chip.seam.laneE, m.ty = 73 ∧ m.h.src.toNat = s.chip.seam.islNode))) ∧
    (∃ (s : State),
      s.chip.rstate ≠ 0) ∧
    (∃ (s : State),
      s.chip.rstate = 0) ∧
    (∃ (s : State) (k : Malform),
      s.chip.rstate = 0 ∧ k ≠ Malform.control) ∧
    (∃ (s : State),
      s.chip.pwr.phase ≠ Phase.running) ∧
    (∃ (s : State) (n : Fin 128) (k : Fin 8) (sl : Slot) (wd ws type dest : ℕ),
      Issues s n k sl (WInstr.sends wd ws type dest) ∧ (¬(type = 80 ∨ type = 48 ∨ type = 49 ∨ (type = 17 ∨ type = 18)
      ∧ s.chip.isRoot = true))) ∧
    (∃ (s : State) (n : Fin 128) (k : Fin 8) (sl : Slot) (wd ws type dest : ℕ),
      Issues s n k sl (WInstr.sends wd ws type dest) ∧ (type = 80 ∨ type = 48 ∨ type = 49 ∨ (type = 17 ∨ type = 18) ∧
      s.chip.isRoot = true) ∧ s.chip.inService = false) ∧
    (∃ (s : State) (n : Fin 128) (k : Fin 8) (sl : Slot) (wd ws type dest : ℕ),
      Issues s n k sl (WInstr.sends wd ws type dest) ∧ (type = 80 ∨ type = 48 ∨ type = 49 ∨ (type = 17 ∨ type = 18) ∧
      s.chip.isRoot = true) ∧ s.chip.inService = true ∧ (type = 18 ∧ s.chip.fld Reg.seamRing F.SeamRing.VER < 3)) ∧
    (∃ (s : State) (n : Fin 128) (k : Fin 8) (sl : Slot) (wd ws type dest : ℕ),
      Issues s n k sl (WInstr.sends wd ws type dest) ∧ (type = 80 ∨ type = 48 ∨ type = 49 ∨ (type = 17 ∨ type = 18) ∧
      s.chip.isRoot = true) ∧ s.chip.inService = true ∧ (¬(type = 18 ∧ s.chip.fld Reg.seamRing F.SeamRing.VER < 3)) ∧
      (32 ≤ (List.filter (fun m => Chip.fromThread m.orig) s.chip.seam.tx).length)) ∧
    (∃ (s : State) (n : Fin 128) (k : Fin 8) (sl : Slot) (wd ws type dest : ℕ),
      Issues s n k sl (WInstr.sends wd ws type dest) ∧ (type = 80 ∨ type = 48 ∨ type = 49 ∨ (type = 17 ∨ type = 18) ∧
      s.chip.isRoot = true) ∧ s.chip.inService = true ∧ (¬(type = 18 ∧ s.chip.fld Reg.seamRing F.SeamRing.VER < 3)) ∧
      ((List.filter (fun m => Chip.fromThread m.orig) s.chip.seam.tx).length < 32)) ∧
    (∃ (s : State) (h : SeamHead) (orbit : BitVec 52) (o : ℕ),
      Arrives s.chip 48 h ∧ h.bc = true ∧ 0 < s.chip.gap ∧ s.chip.gap < s.chip.olen ∧ s.chip.ctr % 4096 < s.chip.olen
      ∧ s.chip.ctr / 4096 + 4097 < 2 ^ 52 ∧ orbit.toNat ≤ s.chip.ctr / 4096 + 1 ∧ FirstSafeGap s.chip (max orbit.toNat
      (s.chip.ctr / 4096)) o ∧ s.chip.commitPending = false) ∧
    (∃ (s : State) (h : SeamHead),
      Arrives s.chip 49 h ∧ h.bc = true ∧ s.chip.bit Reg.hvStat F.HvStat.PEND = true) ∧
    (∃ (s : State) (h : SeamHead) (x : Word),
      Arrives s.chip 49 h ∧ h.bc = true ∧ s.chip.bit Reg.hvStat F.HvStat.PEND = false ∧ s.chip.reached (BitVec.toNat
      x) = false) ∧
    (∃ (s : State),
      NoAsks s.chip ∧ Ready s ∧ ((fun c => c.fld Reg.seamCfg F.SeamCfg.EN) s.chip = 0) ∧ (s.chip.bit Reg.seamByp
      F.SeamByp.FORCE = false ∧ s.chip.bdDown 128 = false) ∧ s.chip.isRef = false) ∧
    (∃ (s : State),
      NoAsks s.chip ∧ Ready s ∧ ((fun c => c.fld Reg.seamCfg F.SeamCfg.EN) s.chip = 1) ∧ s.chip.rstate ≠ 0 ∧
      (s.chip.seam.tx = [] ∧ (∀ m ∈ s.chip.seam.west, m.h.src.toNat ≠ s.chip.nodeId) ∧ s.chip.ownOnLane = false)) ∧
    (∃ (s : State),
      NoAsks s.chip ∧ Ready s ∧ ((fun c => c.fld Reg.seamCfg F.SeamCfg.EN) s.chip = 1) ∧ s.chip.rstate ≠ 0 ∧
      (¬(s.chip.seam.tx = [] ∧ (∀ m ∈ s.chip.seam.west, m.h.src.toNat ≠ s.chip.nodeId) ∧ s.chip.ownOnLane = false))) ∧
    (∃ (s : State),
      NoAsks s.chip ∧ Ready s ∧ ((fun c => c.fld Reg.seamCfg F.SeamCfg.EN) s.chip = 1) ∧ s.chip.rstate = 0) ∧
    (∃ (s : State),
      NoAsks s.chip ∧ ((fun c => c.fld Reg.seamCfg F.SeamCfg.EN) s.chip = 2) ∧ (¬(s.chip.seam.tx = [] ∧ (∀ m ∈
      s.chip.seam.west, m.h.src.toNat ≠ s.chip.nodeId) ∧ s.chip.ownOnLane = false) ∨ ¬Ready s)) ∧
    (∃ (s : State),
      NoAsks s.chip ∧ Ready s ∧ ((fun c => c.fld Reg.seamCfg F.SeamCfg.EN) s.chip = 2) ∧ (s.chip.seam.tx = [] ∧ (∀ m ∈
      s.chip.seam.west, m.h.src.toNat ≠ s.chip.nodeId) ∧ s.chip.ownOnLane = false)) ∧
    (∃ (s : State),
      NoAsks s.chip ∧ Ready s) ∧
    (∃ (s : State),
      NoAsks s.chip ∧ Ready s ∧ s.chip.bit Reg.seamByp F.SeamByp.FORCE = true ∧ s.chip.bdDown 128 = false ∧ ((fun c =>
      c.fld Reg.seamCfg F.SeamCfg.EN) s.chip = 1) ∧ s.chip.isRef = false) ∧
    (∃ (s : State),
      NoAsks s.chip ∧ s.chip.bothLocked = true) ∧
    (∃ (s : State),
      NoAsks s.chip ∧ s.chip.bothLocked = false) ∧
    (∃ (s : State),
      NoAsks s.chip) :=
  ⟨⟨wISendsS, 0x50000000000000#64, by unfold Ready; decide +kernel⟩,
  ⟨wUp, 0x50000000000000#64, by unfold Ready; decide +kernel⟩,
  ⟨wRxq1, 0x5#64, [0x6#64, 0x7#64], by unfold Ready; decide +kernel⟩,
  ⟨wISendsS, { src := 0x3#12, dest := 0x0#12, bc := false, root := 0x0#4, seq := 0x7#7 }, by unfold Arrives; decide +kernel⟩,
  ⟨wRxqFull, { src := 0x3#12, dest := 0x0#12, bc := false, root := 0x0#4, seq := 0x7#7 }, by unfold Arrives; decide +kernel⟩,
  ⟨wRaSend, { src := 0x3#12, dest := 0x0#12, bc := false, root := 0x0#4, seq := 0x7#7 }, [0x1#64, 0x2#64, 0x3#64, 0x4#64], by unfold Arrives; decide +kernel⟩,
  ⟨wRaSend, { src := 0x3#12, dest := 0x0#12, bc := false, root := 0x0#4, seq := 0x7#7 }, by decide +kernel⟩,
  ⟨wRaIsl, { src := 0x3#12, dest := 0x0#12, bc := false, root := 0x0#4, seq := 0x7#7 }, by decide +kernel,
    by decide +kernel, by decide, by decide +kernel, by decide +kernel, fun h => h.elim (fun h => h (by decide +kernel))
    fun ⟨m, hm, _⟩ => by rw [show wRaIsl.chip.seam.laneE = none by decide +kernel] at hm; cases hm⟩,
  ⟨wISendsS, by decide +kernel⟩,
  ⟨State.reset, by decide +kernel⟩,
  ⟨State.reset, Sys2Proof.Malform.crc, by decide +kernel⟩,
  ⟨State.reset, by decide +kernel⟩,
  ⟨wISendsBad, 5, 3, sl0, 4, 2, 17, 5, by unfold Issues Meets; decide +kernel⟩,
  ⟨wISends, 5, 3, sl0, 4, 2, 80, 5, by unfold Issues Meets; decide +kernel⟩,
  ⟨wISendsHint, 5, 3, sl0, 4, 2, 18, 5, by unfold Issues Meets; decide +kernel⟩,
  ⟨wISendsFull, 5, 3, sl0, 4, 2, 80, 5, by unfold Issues Meets; decide +kernel⟩,
  ⟨wISendsS, 5, 3, sl0, 4, 2, 80, 5, by unfold Issues Meets; decide +kernel⟩,
  ⟨wISendsS, { src := 0x3#12, dest := 0x0#12, bc := true, root := 0x0#4, seq := 0x7#7 }, 0x0#52, 5, by unfold Arrives FirstSafeGap; decide +kernel⟩,
  ⟨wHv5, { src := 0x3#12, dest := 0x0#12, bc := true, root := 0x0#4, seq := 0x7#7 }, by unfold Arrives; decide +kernel⟩,
  ⟨wISendsS, { src := 0x3#12, dest := 0x0#12, bc := true, root := 0x0#4, seq := 0x7#7 }, 0x810008#64, by unfold Arrives; decide +kernel⟩,
  ⟨wUp, by unfold NoAsks Ready; decide +kernel⟩,
  ⟨wEn1, by unfold NoAsks Ready; decide +kernel⟩,
  ⟨wEn1tx, by unfold NoAsks Ready; decide +kernel⟩,
  ⟨wEn1r0, by unfold Ready NoAsks; decide +kernel⟩,
  ⟨wEn2tx, by unfold NoAsks Ready; decide +kernel⟩,
  ⟨wEn2, by unfold NoAsks Ready; decide +kernel⟩,
  ⟨wUp, by unfold NoAsks Ready; decide +kernel⟩,
  ⟨wByp, by unfold NoAsks Ready; decide +kernel⟩,
  ⟨wS6ref, by unfold NoAsks; decide +kernel⟩,
  ⟨State.reset, by unfold NoAsks; decide +kernel⟩,
  ⟨State.reset, by unfold NoAsks; decide +kernel⟩⟩

/-- States and operands that meet the hypotheses of `Obligations.Services`, clause by clause. -/
theorem witness_Services :
    (∃ (s : State) (m : Fin 4),
      Ready s ∧ s.chip.lanes = [] ∧ (s.chip.fld Reg.svcEn { hi := 1, lo := 0 } = 1 ∧ s.chip.fld Reg.wdCfg
      { hi := 16 * ↑m + 15, lo := 16 * ↑m } ≠ 0) ∧ s.chip.eccCe = [] ∧ s.chip.eccUe = []) ∧
    (∃ (s : State) (m : Fin 4) (j : ℕ),
      Ready s ∧ s.chip.lanes = [] ∧ j < 8 ∧ (s.chip.fld Reg.svcEn { hi := 1, lo := 0 } = 1 ∧ s.chip.fld Reg.wdCfg
      { hi := 16 * ↑m + 15, lo := 16 * ↑m } ≠ 0) ∧ m = 1 ∧ s.chip.bit Reg.wdRing F.WdRing.REN = false ∧ s.chip.eccUe =
      [] ∧ s.chip.eccCe = [(4194304 + Tab.get 0 s.chip.svc.wdNext ↑m * 64 + 8 * j, true)]) ∧
    (∃ (s : State) (m : Fin 4),
      Ready s ∧ s.chip.lanes = [] ∧ (¬(s.chip.fld Reg.svcEn { hi := 1, lo := 0 } = 1 ∧ s.chip.fld Reg.wdCfg
      { hi := 16 * ↑m + 15, lo := 16 * ↑m } ≠ 0))) ∧
    (∃ (s : State) (ch : BitVec 16) (sum k : ℕ),
      Ready s ∧ s.chip.fld Reg.svcEn { hi := 3, lo := 2 } = 1 ∧ s.chip.eccUe = [] ∧ s.chip.eccCe = [] ∧ Tab.get (0, 0,
      0) s.chip.svc.pedSum ch.toNat = (sum, 2 ^ k, k) ∧ 1 ≤ k ∧ (((((sum + 2 ^ (k - 1)) / 2 ^ k : Nat) : Int) -
      ((memWord s.mem (0x800000 + s.chip.activeSet * 0x80000 + 2 * ch.toNat / 8 * 8)).toNat / 2 ^ (16 * (ch.toNat %
      4)) % 2 ^ 16 : Nat)).natAbs ≤ s.chip.fld Reg.calCfg F.CalCfg.MAXDEV)) ∧
    (∃ (s : State) (ch : BitVec 16) (sum k : ℕ),
      Ready s ∧ s.chip.fld Reg.svcEn { hi := 3, lo := 2 } = 1 ∧ s.chip.eccUe = [] ∧ s.chip.eccCe = [] ∧ Tab.get (0, 0,
      0) s.chip.svc.pedSum ch.toNat = (sum, 2 ^ k, k) ∧ 1 ≤ k ∧ (s.chip.fld Reg.calCfg F.CalCfg.MAXDEV < ((((sum + 2 ^
      (k - 1)) / 2 ^ k : Nat) : Int) - ((memWord s.mem (0x800000 + s.chip.activeSet * 0x80000 + 2 * ch.toNat / 8 *
      8)).toNat / 2 ^ (16 * (ch.toNat % 4)) % 2 ^ 16 : Nat)).natAbs)) ∧
    (∃ (s : State) (ch mean : BitVec 16),
      Ready s ∧ s.chip.fld Reg.svcEn { hi := 3, lo := 2 } = 1 ∧ s.chip.eccUe = [] ∧ s.chip.eccCe = [] ∧ s.chip.olen -
      s.chip.gap ≤ s.chip.ctr % 4096 ∧ s.chip.ctr % 4096 < s.chip.olen ∧ s.chip.svc.pedPend = [(ch.toNat, some
      mean.toNat)]) ∧
    (∃ (s : State),
      Ready s ∧ s.chip.fld Reg.svcEn { hi := 3, lo := 2 } = 1 ∧ s.chip.eccUe = [] ∧ s.chip.eccCe = [] ∧ 2 ^
      s.chip.svc.phAvg ≤ s.chip.fld Reg.calPhase F.CalPhase.NMARK ∧ s.chip.svc.phSum % ↑(2 ^ s.chip.svc.phAvg) = 0) ∧
    (∃ (s : State),
      Ready s ∧ s.chip.fld Reg.svcEn { hi := 3, lo := 2 } = 1 ∧ s.chip.eccUe = [] ∧ s.chip.eccCe = [] ∧ s.chip.fld
      Reg.calPhase F.CalPhase.NMARK < 2 ^ s.chip.svc.phAvg) ∧
    (∃ (s : State) (p : Fin 16) (w : FWord) (rest : List FWord),
      Ready s ∧ (s.chip.ip ↑p).fifo = w :: rest ∧ w.sop = true ∧ s.chip.fld Reg.svcEn { hi := 3, lo := 2 } = 1 ∧
      w.spool < 256 ∧ s.chip.spEn w.spool = En.running ∧ s.chip.canTake w.spool = true) ∧
    (∃ (s : State),
      Ready s ∧ s.chip.tb.agenda = [EdgeTask.rotation] ∧ s.chip.fld Reg.svcEn { hi := 5, lo := 4 } = 1 ∧ s.chip.bit
      Reg.rotStat F.RotStat.ACTIVE = false) ∧
    (∃ (s : State),
      Ready s ∧ s.chip.tb.agenda = [EdgeTask.rotation] ∧ s.chip.bit Reg.rotStat F.RotStat.ACTIVE = true) ∧
    (∃ (s : State) (u : ℕ),
      Ready s ∧ s.chip.svc.rotNext = some u ∧ s.chip.needles = [] ∧ s.chip.eccUe = [] ∧ s.chip.eccCe = []) ∧
    (∃ (s : State) (w : ℕ),
      coreUp s.chip = true ∧ s.chip.fld Reg.svcEn { hi := 7, lo := 6 } = 1 ∧ s.chip.fld Reg.svcEn { hi := 5, lo := 4 }
      = 0 ∧ s.chip.tb.agenda = [EdgeTask.monitor] ∧ s.chip.svc.frame = none ∧ s.chip.svc.carry = none ∧ Tab.wf 0
      s.chip.svc.occ = true ∧ s.prot.check (s.chip.fld Reg.monCfg F.MonCfg.PD) (s.chip.fld Reg.monBase F.MonBase.ADDR
      * 2 ^ 18 + 131072) 64 Need.ackWrite = Checked.ok w ∧ NoneWaits s.chip (s.prot.home w) 131) ∧
    (∃ (s : State) (f : Frame),
      s.chip.svc.frame = some f ∧ f.failed = true ∧ s.chip.svc.monOut = [] ∧ (∀ q ∈ s.chip.ports, ∀ b ∈ q.2.waiting,
      b.req ≠ 131) ∧ (∀ x ∈ s.chip.backlog, x.2.req ≠ 131)) ∧
    (∃ (c : Chip) (f o p x : ℕ),
      o < 2 ^ 52 ∧ p < 2 ^ 52 ∧ x < 4096 ∧ c.svc.frameEnd = some f ∧ c.svc.monGap = some p ∧ x ≠ c.olen - c.gap) ∧
    (∃ (c : Chip) (f o p x j : ℕ),
      o < 2 ^ 52 ∧ p < 2 ^ 52 ∧ x < 4096 ∧ c.svc.frameEnd = some f ∧ c.svc.monGap = some p ∧ x = c.olen - c.gap ∧ 0 <
      j ∧ j < 2 ^ 51 ∧ (p + j) % 2 ^ 52 = o) ∧
    (∃ (c : Chip) (f o p x : ℕ),
      o < 2 ^ 52 ∧ p < 2 ^ 52 ∧ x < 4096 ∧ c.svc.frameEnd = some f ∧ c.svc.monGap = some p ∧ x = c.olen - c.gap ∧ (∀
      (j : ℕ), 0 < j → j < 2 ^ 51 → (p + j) % 2 ^ 52 ≠ o)) ∧
    (∃ (s : State) (k : Fin 5),
      Ready s ∧ ((fun t => t.chip.fld Reg.svcEn { hi := 2 * ↑k + 1, lo := 2 * ↑k }) s = 0)) ∧
    (∃ (s : State) (k : Fin 5),
      Ready s ∧ ((fun t => t.chip.fld Reg.svcEn { hi := 2 * ↑k + 1, lo := 2 * ↑k }) s = 1) ∧ s.chip.svcIdle ↑k = true) ∧
    (∃ (s : State) (k : Fin 5),
      Ready s ∧ ((fun t => t.chip.fld Reg.svcEn { hi := 2 * ↑k + 1, lo := 2 * ↑k }) s = 1) ∧ s.chip.svcIdle ↑k = false) ∧
    (∃ (s : State) (k : Fin 5),
      Ready s ∧ ((fun t => t.chip.fld Reg.svcEn { hi := 2 * ↑k + 1, lo := 2 * ↑k }) s = 2) ∧ (s.chip.svcIdle ↑k = true
      ∨ k = 0)) :=
  ⟨⟨wV0, 0, by unfold Ready; decide +kernel⟩,
  ⟨wV0c, 1, 2, by unfold Ready; decide +kernel⟩,
  ⟨wUp, 0, by unfold Ready; decide +kernel⟩,
  ⟨wPed, 0x7#16, 1000, 2, by unfold Ready; decide +kernel⟩,
  ⟨wPedDev, 0x7#16, 1000, 2, by unfold Ready; decide +kernel⟩,
  ⟨wPedWr, 0x7#16, 0x46#16, by unfold Ready; decide +kernel⟩,
  ⟨wPhaseW, by unfold Ready; decide +kernel⟩,
  ⟨wDsk, by unfold Ready; decide +kernel⟩,
  ⟨wDsk, 3, beat, [], by unfold Ready; decide +kernel⟩,
  ⟨wTaskRot, by unfold Ready; decide +kernel⟩,
  ⟨wTaskRotA, by unfold Ready; decide +kernel⟩,
  ⟨wRotNext, 0, by unfold Ready; decide +kernel⟩,
  ⟨wMon, 0, by unfold NoneWaits; decide +kernel⟩,
  ⟨wMonFail, { snap := [(5, 3)], orbit := 4, orbits := 1, tiles := [0], stage := 2, first := 0, failed := true }, by decide +kernel⟩,
  ⟨wSvPass.chip, 3, 0, 2, 0, by decide +kernel⟩,
  ⟨wSvPass.chip, 3, 3, 2, 4095, 1, by decide +kernel⟩,
  ⟨wSvPass.chip, 3, 0, 2, 4095, by decide, by decide, by decide, by decide +kernel, by decide +kernel, by decide +kernel,
    fun j h0 h1 => by omega⟩,
  ⟨wUp, 0, by unfold Ready; decide +kernel⟩,
  ⟨wTaskRot, 2, by unfold Ready; decide +kernel⟩,
  ⟨wTaskRotA, 2, by unfold Ready; decide +kernel⟩,
  ⟨wV2s, 2, by unfold Ready; decide +kernel⟩⟩

/-- States and operands that meet the hypotheses of `Obligations.CountersHarvestsAndSamples`, clause by clause. -/
theorem witness_CountersHarvestsAndSamples :
    (∃ (s : State),
      Ready s) ∧
    (∃ (s : State),
      Ready s) ∧
    (∃ (s : State) (w : ℕ) (i : Instr),
      ¬s.chip.bit Reg.hvStat F.HvStat.BUSY = true ∧ s.prot.check (s.chip.fld Reg.hvCtl F.HvCtl.PD) (s.chip.fld
      Reg.hvAddr F.HvAddr.ADDR * 2 ^ 13) 64 Need.ackWrite = Checked.ok w ∧ NoneWaits s.chip (s.prot.home w) 129 ∧ (i =
      Instr.harvestNow ∧ Ready s ∨ i = Instr.harvestSnapshot ∧ coreUp s.chip = true ∧ s.chip.bit Reg.hvStat
      F.HvStat.PEND = true ∧ s.chip.tb.agenda = [EdgeTask.harvest])) ∧
    (∃ (s : State) (w : ℕ) (i : Instr),
      ¬s.chip.bit Reg.hvStat F.HvStat.BUSY = true ∧ s.prot.check (s.chip.fld Reg.hvCtl F.HvCtl.PD) (s.chip.fld
      Reg.hvAddr F.HvAddr.ADDR * 2 ^ 13) 64 Need.ackWrite = Checked.ok w ∧ NoneWaits s.chip (s.prot.home w) 129 ∧ (i =
      Instr.harvestNow ∧ Ready s ∨ i = Instr.harvestSnapshot ∧ coreUp s.chip = true ∧ s.chip.bit Reg.hvStat
      F.HvStat.PEND = true ∧ s.chip.tb.agenda = [EdgeTask.harvest])) ∧
    (∃ (s : State),
      Ready s ∧ s.chip.bit Reg.hvStat F.HvStat.BUSY = true) ∧
    (∃ (s : State),
      Ready s ∧ s.chip.bit Reg.hvStat F.HvStat.PEND = true) ∧
    (∃ (s : State),
      Ready s ∧ ¬s.chip.bit Reg.hvStat F.HvStat.PEND = true ∧ s.chip.reached (BitVec.toNat (s.chip.rd Reg.hvAt)) =
      false) ∧
    (∃ (s : State) (r : Record),
      coreUp s.chip = true ∧ s.chip.hv.record = some r ∧ r.failed = false ∧ r.stage = 3 ∧ r.pend = 0) ∧
    (∃ (s : State) (r : Record),
      coreUp s.chip = true ∧ s.chip.hv.record = some r ∧ r.failed = true) ∧
    (∃ (s : State),
      Ready s ∧ ((fun t => t.chip.fld Reg.isCfg F.IsCfg.EN) s = 0)) ∧
    (∃ (s : State),
      Ready s ∧ ((fun t => t.chip.fld Reg.isCfg F.IsCfg.EN) s = 1)) ∧
    (∃ (s : State) (n : Fin 128) (w0 w1 : ℕ) (more : List ℕ) (w : ℕ),
      Ready s ∧ (s.chip.ndl ↑n).follow = some (w0 :: w1 :: more) ∧ Chip.following (s.chip.ndl ↑n) (w1 % 2 ^ 18) =
      false ∧ s.chip.hv.samples = [] ∧ s.chip.sampleWaits = false ∧ (s.chip.fld Reg.isIdx F.IsIdx.WIDX + 2 ^ 20 -
      s.chip.fld Reg.isIdx F.IsIdx.RIDX) % 2 ^ 20 ≠ 16 * 2 ^ s.chip.fld Reg.isRing F.IsRing.SIZE ∧ s.prot.check
      (s.chip.fld Reg.isRing F.IsRing.PD) (s.chip.fld Reg.isRing F.IsRing.ADDR * 32 + s.chip.fld Reg.isIdx
      F.IsIdx.WIDX % (16 * 2 ^ s.chip.fld Reg.isRing F.IsRing.SIZE) * 32) 32 Need.postedWrite = Checked.ok w ∧
      NoneWaits s.chip (s.prot.home w) 129) :=
  ⟨⟨wUp, by unfold Ready; decide +kernel⟩,
  ⟨wUp, by unfold Ready; decide +kernel⟩,
  ⟨wDeepSpill, 0, Instr.harvestNow, by unfold Ready NoneWaits; decide +kernel⟩,
  ⟨wHvDue, 0, Instr.harvestSnapshot, by unfold NoneWaits Ready; decide +kernel⟩,
  ⟨wHvBusy, by unfold Ready; decide +kernel⟩,
  ⟨wTaskHarv, by unfold Ready; decide +kernel⟩,
  ⟨wHvFree, by unfold Ready; decide +kernel⟩,
  ⟨wHvDone, { stage := 3, pend := 0, failed := false, h0 := 0x1#64, h1 := 0x2#64, h2 := 0x3#64 }, by decide +kernel⟩,
  ⟨wHvFailed, { stage := 2, pend := 0, failed := true, h0 := 0x1#64, h1 := 0x2#64, h2 := 0x3#64 }, by decide +kernel⟩,
  ⟨wUp, by unfold Ready; decide +kernel⟩,
  ⟨wIsOn, by unfold Ready; decide +kernel⟩,
  ⟨wIsRec, 5, 5, 9, [4, 0], 0, by unfold Ready NoneWaits; decide +kernel⟩⟩

/-- States and operands that meet the hypotheses of `Obligations.CounterQualifiers`, clause by clause. -/
theorem witness_CounterQualifiers :
    (∃ (c : Chip) (i m : ℕ),
      576 ≤ i ∧ i < 584 ∧ c.bit (Reg.pmcCfg i) F.PmcCfg.QV = true ∧ m ≠ c.fld (Reg.pmcCfg i) F.PmcCfg.QSPOOL) ∧
    (∃ (c : Chip) (i m ev : ℕ),
      576 ≤ i ∧ i < 584 ∧ c.bit (Reg.pmcCfg i) F.PmcCfg.QV = true ∧ m = c.fld (Reg.pmcCfg i) F.PmcCfg.QSPOOL ∧ c.bit
      (Reg.pmcCfg i) F.PmcCfg.EN = true ∧ c.fld (Reg.pmcCfg i) F.PmcCfg.EVENT = ev ∧ ev ≠ 0 ∧ c.bit Reg.pmcCtl
      F.PmcCtl.FREEZE = false) ∧
    (∃ (s : State) (i : ℕ) (w : Word),
      Ready s ∧ i < 592 ∧ (¬(576 ≤ i ∧ i < 584)) ∧ fget w F.PmcCfg.QV = 1) :=
  ⟨⟨wPmcQ.chip, 577, 0, by decide +kernel⟩,
  ⟨wPmcQe.chip, 577, 6, 5, by decide +kernel⟩,
  ⟨wUp, 0, 0xffffffffffffffff#64, by unfold Ready; decide +kernel⟩⟩

end Sys2Proof.Tests
end

/-! PROOFS of the statements of 00_scope.md. O2: every command leaves the waiting queue alone. O6: the access types of the
registers, and the one clause on them that fails. -/

namespace Sys2Proof.Machine

/-- A step answers a next state, and the commands that wait in it are those of s. -/
def KeepsQueue (s : State) (o : Host.Outcome State Fault Refusal) : Prop := ∃ t, o = .next t ∧ t.pending = s.pending

theorem keepsQueue_next {s t : State} (h : t.pending = s.pending) : KeepsQueue s (.next t) := ⟨t, rfl, h⟩

/-! Accesses to the CSR window -/

@[simp] theorem State.coldReset_pending (s : State) (kind : Nat) (lc : Option Nat) :
    (s.coldReset kind lc).pending = s.pending := rfl

@[simp] theorem State.violate_pending (s : State) (src off : Nat) : (s.violate src off).pending = s.pending := rfl

@[simp] theorem State.lbWrite_pending (s : State) (src : Nat) (r : Reg) (w : Word) :
    (s.lbWrite src r w).pending = s.pending := by
  unfold State.lbWrite
  split
  · split <;> rfl
  · rfl

@[simp] theorem State.lcRequest_pending (s : State) (src key next : Nat) :
    (s.lcRequest src key next).pending = s.pending := by
  unfold State.lcRequest
  repeat' split
  all_goals rfl

@[simp] theorem State.lcWrite_pending (s : State) (src : Nat) (w : Word) :
    (s.lcWrite src w).pending = s.pending := by
  unfold State.lcWrite
  rw [State.lcRequest_pending]

@[simp] theorem State.regWrite_pending (s : State) (src : Nat) (r : Reg) (w : Word) :
    (s.regWrite src r w).pending = s.pending := by
  unfold State.regWrite
  split
  · rfl
  · exact State.lcWrite_pending ..
  · exact State.lbWrite_pending ..
  · split
    · exact State.lbWrite_pending ..
    · rfl

@[simp] theorem State.regRead_pending (s : State) (r : Reg) : (s.regRead r).1.pending = s.pending := by
  unfold State.regRead
  split <;> rfl

@[simp] theorem State.memRead_pending (s : State) (off : Nat) : (s.memRead off).1.pending = s.pending := by
  unfold State.memRead
  split <;> rfl

@[simp] theorem State.memWrite_pending (s : State) (off be : Nat) (w : Word) :
    (s.memWrite off be w).1.pending = s.pending := by
  unfold State.memWrite
  split
  · rfl
  · rfl
  · dsimp only
    split <;> rfl
  · dsimp only
    repeat' split
    all_goals rfl

@[simp] theorem State.csrRead_pending (s : State) (off : Nat) : (s.csrRead off).1.pending = s.pending := by
  unfold State.csrRead
  repeat' split
  all_goals simp

@[simp] theorem State.csrWrite_pending (s : State) (src off be : Nat) (w : Word) :
    (s.csrWrite src off be w).1.pending = s.pending := by
  unfold State.csrWrite
  repeat' split
  all_goals simp

@[simp] theorem State.respond_pending (s : State) (w : Word) (code : Nat) :
    (s.respond w code).pending = s.pending := rfl

@[simp] theorem State.portAccess_pending (s : State) (write : Bool) (off be : Nat) (w : Word) :
    (s.portAccess write off be w).pending = s.pending := by
  unfold State.portAccess
  split <;> simp

@[simp] theorem State.debugAnswer_pending (s : State) (w : Word) (code : Nat) :
    (s.debugAnswer w code).pending = s.pending := rfl

@[simp] theorem State.debugShift_pending (s : State) (off : Nat) : (s.debugShift off).pending = s.pending := rfl

@[simp] theorem State.debugAccess_pending (s : State) (write : Bool) (off : Nat) (w : Word) :
    (s.debugAccess write off w).pending = s.pending := by
  unfold State.debugAccess
  dsimp only
  repeat' split
  all_goals simp

@[simp] theorem State.rrsp_pending (s : State) (h : SeamHead) (rtag code : Nat) (w : Word) :
    (s.rrsp h rtag code w).pending = s.pending := by
  unfold State.rrsp
  split <;> rfl

@[simp] theorem State.rread_pending (s : State) (h : SeamHead) (off rtag : Nat) :
    (s.rread h off rtag).pending = s.pending := by
  unfold State.rread
  dsimp only
  repeat' split
  all_goals simp

@[simp] theorem State.rwrite_pending (s : State) (h : SeamHead) (off rtag : Nat) (w : Word) :
    (s.rwrite h off rtag w).pending = s.pending := by
  unfold State.rwrite
  dsimp only
  repeat' split
  all_goals simp

/-! The beam-clock edge and its agenda -/

@[simp] theorem State.doTask_pending (s : State) (t : EdgeTask) : (s.doTask t).pending = s.pending := by
  unfold State.doTask
  dsimp only
  split
  · split
    · exact State.csrWrite_pending ..
    · rfl
  · rfl

@[simp] theorem State.drainAgenda_pending (s : State) : s.drainAgenda.pending = s.pending := by
  have keeps (l : List EdgeTask) : ∀ u : State, (l.foldl (fun u t => u.doTask t) u).pending = u.pending := by
    induction l with
    | nil => exact fun _ => rfl
    | cons t l ih => exact fun u => (ih (u.doTask t)).trans (u.doTask_pending t)
  exact keeps s.chip.tb.agenda s

@[simp] theorem State.edgeAdvance_pending (s : State) (m : Chip.Move) (v : Nat) :
    (s.edgeAdvance m v).pending = s.pending := by
  unfold State.edgeAdvance
  dsimp only
  repeat' split
  all_goals simp

@[simp] theorem State.edge_pending (s : State) : s.edge.pending = s.pending := by
  unfold State.edge
  dsimp only
  repeat' split
  all_goals simp

@[simp] theorem State.edgeIf_pending (s : State) (p : Chip → Bool) : (s.edgeIf p).pending = s.pending := by
  unfold State.edgeIf
  split <;> simp

@[simp] theorem State.taskIf_pending (s : State) (p : EdgeTask → Bool) : (s.taskIf p).pending = s.pending := by
  unfold State.taskIf
  repeat' split
  all_goals simp

@[simp] theorem State.fifoWord_pending (s : State) (n : Nat) : (s.fifoWord n).pending = s.pending := by
  unfold State.fifoWord
  dsimp only
  repeat' split
  all_goals rfl

/-! The commands that write memory or the sealed tables by themselves -/

theorem keepsQueue_deepRefillDone (m : Fin 256) (s : State) : KeepsQueue s (execDeepRefillDone m s) := by
  unfold execDeepRefillDone
  dsimp only
  repeat' split
  all_goals exact keepsQueue_next rfl

theorem keepsQueue_spoolWordWrite (p : Fin 16) (s : State) : KeepsQueue s (execSpoolWordWrite p s) := by
  unfold execSpoolWordWrite
  split
  · exact keepsQueue_next (s.fifoWord_pending p)
  · exact keepsQueue_next rfl

theorem keepsQueue_calPedWrite (s : State) : KeepsQueue s (execCalPedWrite s) := by
  unfold execCalPedWrite
  repeat' split
  all_goals exact keepsQueue_next rfl

theorem keepsQueue_coreLossReset (s : State) : KeepsQueue s (execCoreLossReset s) := by
  unfold execCoreLossReset
  split <;> exact keepsQueue_next rfl

theorem keepsQueue_xingWaitWake (t : Fin 262144) (s : State) : KeepsQueue s (execXingWaitWake t s) := by
  unfold execXingWaitWake
  refine keepsQueue_next ?_
  repeat' split
  all_goals simp

theorem keepsQueue_monitorFrameAbort (s : State) : KeepsQueue s (execMonitorFrameAbort s) := by
  unfold execMonitorFrameAbort
  refine keepsQueue_next ?_
  repeat' split
  all_goals simp

/-- No command ends a run or touches the queue. The commands named here go beyond the chip; every other one answers through
`State.chipStep`, whose next state differs in the chip alone. -/
theorem keepsQueue_exec (i : Instr) (s : State) : KeepsQueue s (exec i s) := by
  cases i with
  | controlPortRequest write a be w => exact keepsQueue_next (s.portAccess_pending ..)
  | registerWrite a w => exact keepsQueue_next (by split <;> simp)
  | memoryWindowWrite a be w => exact keepsQueue_next (by split <;> simp)
  | memoryWindowRead a => exact keepsQueue_next (by split <;> simp)
  | bootSeal => exact keepsQueue_next (by split <;> rfl)
  | lifecycleChange key next => exact keepsQueue_next (by split <;> simp)
  | debugRead a => exact keepsQueue_next (s.debugAccess_pending ..)
  | debugWrite a w => exact keepsQueue_next (s.debugAccess_pending ..)
  | rread h off rtag => exact keepsQueue_next (s.rread_pending ..)
  | rwrite h off rtag w => exact keepsQueue_next (s.rwrite_pending ..)
  | bclkEdge => exact keepsQueue_next s.edge_pending
  | timebaseStopComplete => exact keepsQueue_next (s.edgeIf_pending _)
  | resyncStep => exact keepsQueue_next (s.edgeIf_pending _)
  | freeLoadStep => exact keepsQueue_next (s.edgeIf_pending _)
  | setatEntryApply => exact keepsQueue_next (s.taskIf_pending _)
  | xingWaitWake t => exact keepsQueue_xingWaitWake t s
  | configSwap => exact keepsQueue_next (s.taskIf_pending _)
  | lockLeaseEnd l => exact keepsQueue_next (s.taskIf_pending _)
  | decisionMissing k => exact keepsQueue_next (s.taskIf_pending _)
  | harvestSnapshot => exact keepsQueue_next (s.taskIf_pending _)
  | rotationPoint => exact keepsQueue_next (s.taskIf_pending _)
  | monitorFrameEnd => exact keepsQueue_next (by split <;> simp)
  | monitorFrameAbort => exact keepsQueue_monitorFrameAbort s
  | spoolWordWrite p => exact keepsQueue_spoolWordWrite p s
  | calPedWrite => exact keepsQueue_calPedWrite s
  | deepRefillDone m => exact keepsQueue_deepRefillDone m s
  | coldReset powerOn => exact keepsQueue_next (s.coldReset_pending ..)
  | warmReset src => exact keepsQueue_next rfl
  | warmQuiesceEnd timeout => exact keepsQueue_next rfl
  | coreLossReset => exact keepsQueue_coreLossReset s
  | blockReady => exact keepsQueue_next rfl
  | _ => exact keepsQueue_next rfl

/-- With no command waiting a step is an idle tick (log 3). -/
theorem step_of_pending_nil {s : State} (h : s.pending = []) : step s = idle s := by
  simp only [step, h]

/-- Settles O2: every command keeps the queue, and an idle tick changes the chip alone. -/
theorem stepsNeverStop : Obligations.StepsNeverStop := by
  unfold Obligations.StepsNeverStop
  exact ⟨keepsQueue_exec, fun s h => ⟨_, step_of_pending_nil h, h, rfl, rfl⟩⟩

/-! Where the registers lie -/

/-- A register found at an offset is one of a family's, at the place in it that the offset gives (R337). -/
theorem Reg.mem_families_of_find {off : Nat} {r : Reg} {l : List Reg.Family} (h : Reg.find off l = some r) :
    ∃ b s1 c1 s2 c2 mk i j, (b, s1, c1, s2, c2, mk) ∈ l ∧ i < c1 ∧ j < c2 ∧ r = mk i j ∧ off = b + i * s1 + j * s2 := by
  induction l with
  | nil => cases h
  | cons f l ih =>
    obtain ⟨b, s1, c1, s2, c2, mk⟩ := f
    simp only [Reg.find] at h
    split at h
    · rename_i hc
      obtain ⟨hb, hi, hm, hj, -⟩ := hc
      refine ⟨b, s1, c1, s2, c2, mk, _, _, List.mem_cons_self, hi, hj, (Option.some.inj h).symm, ?_⟩
      have h1 := Nat.div_add_mod' (off - b) s1
      have h2 := Nat.div_add_mod' ((off - b) % s1) s2
      omega
    · obtain ⟨b', s1', c1', s2', c2', mk', i, j, hl, hrest⟩ := ih h
      exact ⟨b', s1', c1', s2', c2', mk', i, j, List.mem_cons_of_mem _ hl, hrest⟩

/-- The registers of a family stand on words, below the memory windows. -/
def Reg.Family.onWords (f : Reg.Family) : Bool :=
  let (b, s1, c1, s2, c2, _) := f
  b % 8 == 0 && (s1 % 8 == 0 || c1 == 1) && (s2 % 8 == 0 || c2 == 1) && decide (b + (c1 - 1) * s1 + (c2 - 1) * s2 < 0x400000)

theorem Reg.families_onWords : Reg.families.all Reg.Family.onWords = true := by decide +kernel

/-- A register's offset is that of a word below the memory windows (R337). -/
theorem Reg.offset_of_ofOffset {off : Nat} {r : Reg} (h : Reg.ofOffset off = some r) : off % 8 = 0 ∧ off < 0x400000 := by
  obtain ⟨b, s1, c1, s2, c2, mk, i, j, hl, hi, hj, -, rfl⟩ := Reg.mem_families_of_find h
  have hw := List.all_eq_true.mp Reg.families_onWords _ hl
  simp only [Reg.Family.onWords, Bool.and_eq_true, Bool.or_eq_true, beq_iff_eq, decide_eq_true_eq] at hw
  obtain ⟨⟨⟨hb, h1⟩, h2⟩, hlt⟩ := hw
  have hi' : i * s1 ≤ (c1 - 1) * s1 := Nat.mul_le_mul_right _ (by omega)
  have hj' : j * s2 ≤ (c2 - 1) * s2 := Nat.mul_le_mul_right _ (by omega)
  have di : i * s1 % 8 = 0 := by
    rcases h1 with h1 | h1
    · rw [Nat.mul_mod, h1, Nat.mul_zero, Nat.zero_mod]
    · rw [show i = 0 by omega, Nat.zero_mul]
  have dj : j * s2 % 8 = 0 := by
    rcases h2 with h2 | h2
    · rw [Nat.mul_mod, h2, Nat.mul_zero, Nat.zero_mod]
    · rw [show j = 0 by omega, Nat.zero_mul]
  omega

/-- The registers of which there are as many as R337 says: of those whose Reset value depends on an index, and of the
ingest ports' status. -/
def Reg.counted : Reg → Bool
  | .ipMap i j => decide (i < 16) && decide (j < 16)
  | .spCfg m | .svcSp m => decide (m < 256)
  | .ipStat n => decide (n < 16)
  | _ => true

/-- Every register of a family is counted. -/
def Reg.Family.counted (f : Reg.Family) : Bool :=
  let (_, _, c1, _, c2, mk) := f
  (List.range c1).all fun i => (List.range c2).all fun j => (mk i j).counted

theorem Reg.families_counted : Reg.families.all Reg.Family.counted = true := by decide +kernel

theorem Reg.counted_of_ofOffset {off : Nat} {r : Reg} (h : Reg.ofOffset off = some r) : r.counted = true := by
  obtain ⟨b, s1, c1, s2, c2, mk, i, j, hl, hi, hj, rfl, -⟩ := Reg.mem_families_of_find h
  have hf := List.all_eq_true.mp Reg.families_counted _ hl
  simp only [Reg.Family.counted, List.all_eq_true, List.mem_range] at hf
  exact hf i hi j hj

/-! Work on a register field by field -/

/-- Bit i lies in the field. -/
abbrev Fld.has (f : Fld) (i : Nat) : Prop := f.lo ≤ i ∧ i ≤ f.hi

/-- The fields of a list lie below bit b, each below the one before it. -/
def descend : Nat → List (Fld × Acc) → Bool
  | _, [] => true
  | b, x :: l => decide (x.1.lo ≤ x.1.hi) && decide (x.1.hi < b) && descend x.1.lo l

/-- The fields of every register are listed from the highest down, and no two have a bit in common. -/
theorem Reg.fields_descend (r : Reg) : descend 64 r.fields = true := by
  cases r <;> rfl

theorem below_of_descend {b : Nat} {l : List (Fld × Acc)} (h : descend b l = true) :
    ∀ x ∈ l, x.1.lo ≤ x.1.hi ∧ x.1.hi < b := by
  induction l generalizing b with
  | nil => simp
  | cons y l ih =>
    simp only [descend, Bool.and_eq_true, decide_eq_true_eq] at h
    obtain ⟨⟨hy, hb⟩, hl⟩ := h
    intro x hx
    rcases List.mem_cons.mp hx with rfl | hx
    · exact ⟨hy, hb⟩
    · have := ih hl x hx
      omega

theorem Reg.field_ok {r : Reg} {x : Fld × Acc} (hx : x ∈ r.fields) : x.1.ok :=
  below_of_descend r.fields_descend x hx

/-- Words that agree on the bits of a field have the same value there. -/
theorem fget_congr {f : Fld} (hf : f.ok) {v w : Word} (h : ∀ i, f.has i → v.getLsbD i = w.getLsbD i) :
    fget v f = fget w f := by
  apply Nat.eq_of_testBit_eq
  intro i
  rw [testBit_fget, testBit_fget]
  by_cases hi : i < f.width
  · obtain ⟨hlo, -⟩ := hf
    have hi' := hi
    unfold Fld.width at hi'
    rw [h (f.lo + i) ⟨by omega, by omega⟩]
  · simp [hi]

/-- A change of a word for each field that changes the bits of that field alone. -/
def WithinField (step : Word → Fld × Acc → Word) : Prop :=
  ∀ v x i, x.1.ok → ¬ x.1.has i → (step v x).getLsbD i = v.getLsbD i

section Fold

variable {step : Word → Fld × Acc → Word} {l : List (Fld × Acc)} {b : Nat}

/-- A bit in none of the fields keeps its value. -/
theorem getLsbD_foldl_fields (hs : WithinField step) (hl : ∀ x ∈ l, x.1.ok) {i : Nat} (hi : ∀ x ∈ l, ¬ x.1.has i)
    (v : Word) : (l.foldl step v).getLsbD i = v.getLsbD i := by
  induction l generalizing v with
  | nil => rfl
  | cons y l ih =>
    rw [List.foldl_cons, ih (fun x hx => hl x (List.mem_cons_of_mem _ hx)) fun x hx => hi x (List.mem_cons_of_mem _ hx)]
    exact hs v y i (hl y List.mem_cons_self) (hi y List.mem_cons_self)

/-- A field has the value that its own change gives it, from a word that agrees with the first one there. -/
theorem fget_foldl_fields (hs : WithinField step) (hb : b ≤ 64) (hl : descend b l = true) {x : Fld × Acc} (hx : x ∈ l)
    (v : Word) :
    ∃ u : Word, (∀ i, x.1.has i → u.getLsbD i = v.getLsbD i) ∧ fget (l.foldl step v) x.1 = fget (step u x) x.1 := by
  induction l generalizing b v with
  | nil => cases hx
  | cons y l ih =>
    simp only [descend, Bool.and_eq_true, decide_eq_true_eq] at hl
    obtain ⟨⟨hy, hyb⟩, hl⟩ := hl
    have hyo : y.1.ok := ⟨hy, by omega⟩
    have below := below_of_descend hl
    rcases List.mem_cons.mp hx with rfl | hx
    · refine ⟨v, fun _ _ => rfl, fget_congr hyo fun i hi => ?_⟩
      refine getLsbD_foldl_fields hs (fun z hz => ⟨(below z hz).1, by have := (below z hz).2; omega⟩) ?_ _
      intro z hz hzi
      have := (below z hz).2
      omega
    · obtain ⟨u, hu, hfold⟩ := ih (by omega) hl hx (step v y)
      refine ⟨u, fun i hi => (hu i hi).trans (hs v y i hyo ?_), hfold⟩
      intro hyi
      have := (below x hx).2
      omega

end Fold

/-! A write, field by field (R6, R10) -/

/-- What a write of w does to a word at one field of register r. -/
def writeField (r : Reg) (w v : Word) (x : Fld × Acc) : Word :=
  match x.2 with
  | .rw => if accepts r x.1 (fget w x.1) then fset v x.1 (fget w x.1) else v
  | .w1c => v &&& ~~~(w &&& x.1.mask)
  | _ => v

theorem getLsbD_w1c {f : Fld} (hf : f.ok) (v w : Word) {i : Nat} (hi : i < 64) :
    (v &&& ~~~(w &&& f.mask)).getLsbD i = (v.getLsbD i && !(w.getLsbD i && (decide (f.lo ≤ i) && decide (i ≤ f.hi)))) := by
  rw [BitVec.getLsbD_and, BitVec.getLsbD_not, BitVec.getLsbD_and, getLsbD_mask hf]
  simp [hi]

theorem writeField_within (r : Reg) (w : Word) : WithinField (writeField r w) := by
  intro v x i hx hi
  unfold writeField
  split
  · split
    · rw [getLsbD_fset hx, if_neg hi]
    · rfl
  · by_cases h : i < 64
    · rw [getLsbD_w1c hx v w h]
      simp only [← Bool.decide_and, hi, decide_false, Bool.and_false, Bool.not_false, Bool.and_true]
    · rw [BitVec.getLsbD_of_ge _ _ (by omega), BitVec.getLsbD_of_ge _ _ (by omega)]
  · rfl

theorem fget_writeField (r : Reg) (w v : Word) {x : Fld × Acc} (hx : x.1.ok) :
    fget (writeField r w v x) x.1 = writtenField r x v w := by
  unfold writeField writtenField
  cases x.2 with
  | rw =>
    dsimp only
    split
    · rw [fget_fset_same hx, Nat.mod_eq_of_lt (fget_lt w x.1)]
    · rfl
  | w1c =>
    refine fget_congr hx fun i hi => ?_
    obtain ⟨hlo, hhi⟩ := hi
    have h64 : i < 64 := lt_of_le_of_lt hhi hx.2
    rw [getLsbD_w1c hx v w h64]
    simp [hlo, hhi, h64]
  | _ => rfl

/-- What a write gives a field depends on that field of the word before alone. -/
theorem writtenField_congr (r : Reg) (w : Word) {x : Fld × Acc} (hx : x.1.ok) {u v : Word}
    (h : ∀ i, x.1.has i → u.getLsbD i = v.getLsbD i) : writtenField r x u w = writtenField r x v w := by
  unfold writtenField
  cases x.2 with
  | w1c => exact fget_congr hx fun i hi => by rw [BitVec.getLsbD_and, BitVec.getLsbD_and, h i hi]
  | _ => simp only [fget_congr hx h]

namespace Chip

/-- A property that stands when register r is written stands over a write by the access types. -/
theorem plainWrite_induct {P : Chip → Prop} {r : Reg} (step : ∀ d v, P d → P (d.wr r v)) {c : Chip} (h : P c) (w : Word) :
    P (c.plainWrite r w) := by
  unfold plainWrite
  generalize r.fields = l
  induction l generalizing c with
  | nil => exact h
  | cons x l ih =>
    rw [List.foldl_cons]
    apply ih
    split
    · unfold putField
      split
      · exact step _ _ h
      · exact h
    · exact step _ _ h
    · exact h

theorem plainWrite_only (c : Chip) (r : Reg) (w : Word) : OnlyRegs c (c.plainWrite r w) :=
  plainWrite_induct (P := OnlyRegs c) (fun _ _ h => only_wr h _ _) (only_refl c) w

theorem rd_plainWrite_other (c : Chip) {r q : Reg} (h : q.offset ≠ r.offset) (w : Word) :
    (c.plainWrite r w).rd q = c.rd q :=
  plainWrite_induct (P := fun d => d.rd q = c.rd q) (fun d v hd => (rd_wr_other d h v).trans hd) rfl w

theorem rd_plainWrite (c : Chip) (r : Reg) (w : Word) :
    (c.plainWrite r w).rd r = r.fields.foldl (writeField r w) (c.rd r) := by
  unfold plainWrite
  generalize r.fields = l
  induction l generalizing c with
  | nil => rfl
  | cons x l ih =>
    rw [List.foldl_cons, List.foldl_cons, ih]
    congr 1
    unfold writeField putField
    cases x.2 with
    | rw =>
      dsimp only
      split
      · exact rd_setF_same ..
      · rfl
    | w1c => exact rd_wr_same ..
    | _ => rfl

/-- A field after a write by the access types (R6, R10). -/
theorem fget_plainWrite (c : Chip) {r : Reg} (w : Word) {x : Fld × Acc} (hx : x ∈ r.fields) :
    fget ((c.plainWrite r w).rd r) x.1 = writtenField r x (c.rd r) w := by
  have hok := Reg.field_ok hx
  obtain ⟨u, hu, hfold⟩ := fget_foldl_fields (writeField_within r w) le_rfl r.fields_descend hx (c.rd r)
  rw [rd_plainWrite, hfold, fget_writeField r w u hok, writtenField_congr r w hok hu]

end Chip

theorem reservedBit_iff {r : Reg} {i : Nat} : reservedBit r i = true ↔ ∀ x ∈ r.fields, ¬ x.1.has i := by
  simp only [reservedBit, List.all_eq_true, Bool.or_eq_true, decide_eq_true_eq]
  exact forall₂_congr fun x _ => by omega

/-- A reserved bit keeps its value over a write by the access types (R8). -/
theorem Chip.reserved_plainWrite (c : Chip) {r : Reg} (w : Word) {i : Nat} (hi : reservedBit r i = true) :
    ((c.plainWrite r w).rd r).getLsbD i = (c.rd r).getLsbD i := by
  rw [rd_plainWrite]
  exact getLsbD_foldl_fields (writeField_within r w) (fun _ => Reg.field_ok) (reservedBit_iff.mp hi) _

/-! A read, field by field (R6) -/

/-- The word with the field 0 where its access type is a. -/
def zeroField (a : Acc) (v : Word) (x : Fld × Acc) : Word := if x.2 = a then fset v x.1 0 else v

theorem zeroField_within (a : Acc) : WithinField (zeroField a) := by
  intro v x i hx hi
  unfold zeroField
  split
  · rw [getLsbD_fset hx, if_neg hi]
  · rfl

theorem fget_zeroFields (a : Acc) (r : Reg) (v : Word) {x : Fld × Acc} (hx : x ∈ r.fields) :
    fget (r.fields.foldl (zeroField a) v) x.1 = if x.2 = a then 0 else fget v x.1 := by
  have hok := Reg.field_ok hx
  obtain ⟨u, hu, hfold⟩ := fget_foldl_fields (zeroField_within a) le_rfl r.fields_descend hx v
  rw [hfold, zeroField]
  split
  · rw [fget_fset_same hok, Nat.zero_mod]
  · exact fget_congr hok hu

theorem clearRc_eq (r : Reg) (v : Word) : clearRc r v = r.fields.foldl (zeroField .rc) v := rfl

theorem maskWo_eq (r : Reg) (v : Word) : maskWo r v = r.fields.foldl (zeroField .wo) v := rfl

theorem fget_clearRc (r : Reg) (v : Word) {x : Fld × Acc} (hx : x ∈ r.fields) :
    fget (clearRc r v) x.1 = if x.2 = .rc then 0 else fget v x.1 := fget_zeroFields .rc r v hx

theorem fget_maskWo (r : Reg) (v : Word) {x : Fld × Acc} (hx : x ∈ r.fields) :
    fget (maskWo r v) x.1 = if x.2 = .wo then 0 else fget v x.1 := fget_zeroFields .wo r v hx

theorem reserved_clearRc {r : Reg} (v : Word) {i : Nat} (hi : reservedBit r i = true) :
    (clearRc r v).getLsbD i = v.getLsbD i :=
  getLsbD_foldl_fields (zeroField_within .rc) (fun _ => Reg.field_ok) (reservedBit_iff.mp hi) v

/-- A register without an RC field has none cleared. -/
theorem clearRc_of_not_hasRc {r : Reg} (h : hasRc r = false) (v : Word) : clearRc r v = v := by
  rw [clearRc_eq]
  simp only [hasRc, List.any_eq_false, beq_iff_eq] at h
  generalize r.fields = l at h ⊢
  induction l generalizing v with
  | nil => rfl
  | cons x l ih =>
    rw [List.foldl_cons, zeroField, if_neg (h x List.mem_cons_self)]
    exact ih v fun y hy => h y (List.mem_cons_of_mem _ hy)

/-! Accesses of the control port -/

namespace Chip

/-- The latest answer of the control port is the one just given (R17). -/
@[simp] theorem respond_getLast? (c : Chip) (w : Word) (code : Nat) : (c.respond w code).cpRsp.getLast? = some (w, code) := by
  simp only [respond, List.getLast?_drop, List.length_append, List.length_singleton]
  rw [if_neg (by omega), List.getLast?_concat]

/-- What a write of a plain register judges after its fields: BP_HOL of an ingest port (R53). -/
def afterFields (c : Chip) : Reg → Chip
  | .ipStat n => c.holCheck n
  | _ => c

theorem readEffect_plain (c : Chip) {r : Reg} (hp : plainReg r = true) :
    c.readEffect r = if hasRc r then c.wr r (clearRc r (c.rd r)) else c := by
  cases r <;> cases hp <;> rfl

end Chip

theorem State.regWrite_plain (s : State) (src : Nat) {r : Reg} (hp : plainReg r = true) (w : Word) :
    s.regWrite src r w = { s with chip := (s.chip.plainWrite r w).afterFields r } := by
  cases r <;> cases hp <;> rfl

theorem State.regRead_plain (s : State) {r : Reg} (hp : plainReg r = true) :
    s.regRead r = ({ s with chip := s.chip.readEffect r }, s.chip.readWord s.env r) := by
  cases r <;> cases hp <;> rfl

section Window

variable {s : State} {r : Reg} (hs : Ready s) (hr : Reg.ofOffset r.offset = some r)
include hr

theorem toNat_offset : (BitVec.ofNat 26 r.offset).toNat = r.offset := by
  have := (Reg.offset_of_ofOffset hr).2
  rw [BitVec.toNat_ofNat, Nat.mod_eq_of_lt (by omega)]

include hs

theorem State.csrWrite_reg (src : Nat) (w : Word) : s.csrWrite src r.offset 255 w = (s.regWrite src r w, rspOk) := by
  obtain ⟨h8, hlt⟩ := Reg.offset_of_ofOffset hr
  have hs' : s.chip.pwr.phase = .running := hs
  simp [State.csrWrite, hs', h8, Nat.not_le.mpr hlt, hr]

theorem State.csrRead_reg : s.csrRead r.offset = ((s.regRead r).1, (s.regRead r).2, rspOk) := by
  obtain ⟨h8, hlt⟩ := Reg.offset_of_ofOffset hr
  have hs' : s.chip.pwr.phase = .running := hs
  simp [State.csrRead, hs', h8, Nat.not_le.mpr hlt, hr]

theorem exec_registerWrite (w : Word) :
    exec (.registerWrite (BitVec.ofNat 26 r.offset) w) s = .next (s.regWrite srcPort r w) := by
  obtain ⟨h8, hlt⟩ := Reg.offset_of_ofOffset hr
  have hreg : isRegisterOffset r.offset = true := by simp [isRegisterOffset, h8, hlt]
  change execRegisterWrite _ w s = _
  rw [execRegisterWrite, toNat_offset hr, if_pos hreg, State.csrWrite_reg hs hr]

theorem exec_portWrite (w : Word) :
    exec (.controlPortRequest true (BitVec.ofNat 26 r.offset) 255#8 w) s =
      .next ((s.regWrite srcPort r w).respond 0#64 rspOk) := by
  change execControlPortRequest true _ _ w s = _
  rw [execControlPortRequest, toNat_offset hr]
  simp [State.portAccess, State.csrWrite_reg hs hr]

theorem exec_portRead (be : BitVec 8) (w : Word) :
    exec (.controlPortRequest false (BitVec.ofNat 26 r.offset) be w) s =
      .next ((s.regRead r).1.respond (s.regRead r).2 rspOk) := by
  change execControlPortRequest false _ _ w s = _
  rw [execControlPortRequest, toNat_offset hr]
  simp [State.portAccess, State.csrRead_reg hs hr]

end Window

/-! A write of a plain register (R6, R10) -/

namespace Chip

/-- Whether a spool is at capacity depends on registers from 0x54000 up alone. -/
theorem spFull_congr {c d : Chip} (h : ∀ q : Reg, 0x54000 ≤ q.offset → d.rd q = c.rd q) (m : Nat) :
    d.spFull m = c.spFull m := by
  have hcfg := h (.spCfg m) (Nat.le_add_right _ _)
  have hdeep := h (.spDeepcfg m) (by simp only [Reg.offset]; omega)
  have hwp := h (.spWp m) (by simp only [Reg.offset]; omega)
  have hfp := h (.spFp m) (by simp only [Reg.offset]; omega)
  have hmode : d.spMode m = c.spMode m := by rw [spMode, fld, hcfg]; rfl
  have hcap : d.spCap m = c.spCap m := by simp only [spCap, hmode, spLen, spCount, fld, hcfg, hdeep]
  have hlevel : d.spLevel m = c.spLevel m := by simp only [spLevel, wp, fp, fld, hwp, hfp]
  rw [spFull, spFull, hmode, hcap, hlevel]

theorem headBlocked_congr {c d : Chip} (hi : d.ingest = c.ingest) (h : ∀ q : Reg, 0x54000 ≤ q.offset → d.rd q = c.rd q)
    (n : Nat) : d.headBlocked n = c.headBlocked n := by
  have hctl (m : Nat) := h (.spCtl m) (by simp only [Reg.offset]; omega)
  simp only [headBlocked, ip, hi, spEn, en, fld, hctl, spFull_congr h]

/-- The oldest word of a port is blocked with READY 0 (R53). -/
def HeadHeld (c : Chip) (n : Nat) : Prop :=
  c.quar n = false ∧ 16 ≤ (c.ip n).fifo.length ∧ c.headBlocked n = true

/-- A write of the port's status changes nothing of what BP_HOL is judged by. -/
theorem headHeld_plainWrite (c : Chip) {n : Nat} (hn : n < 16) (w : Word) :
    (c.plainWrite (.ipStat n) w).HeadHeld n ↔ c.HeadHeld n := by
  have hi := ingest_of_only (c.plainWrite_only (.ipStat n) w)
  have hrd (q : Reg) (hq : 0x54000 ≤ q.offset) : (c.plainWrite (.ipStat n) w).rd q = c.rd q := by
    refine c.rd_plainWrite_other ?_ w
    simp only [Reg.offset] at hq ⊢
    omega
  have hquar : fget ((c.plainWrite (.ipStat n) w).rd (.ipStat n)) F.IpStat.QUAR = fget (c.rd (.ipStat n)) F.IpStat.QUAR :=
    c.fget_plainWrite (x := (F.IpStat.QUAR, .ro)) w (by simp [Reg.fields])
  simp only [HeadHeld, quar, bit, fbit, hquar, ip, hi, headBlocked_congr hi hrd]

theorem holCheck_of_headHeld {c : Chip} {n : Nat} (h : c.HeadHeld n) :
    c.holCheck n = c.flag (.ipStat n) F.IpStat.BP_HOL := by
  obtain ⟨hq, hf, hb⟩ := h
  simp [holCheck, hq, hf, hb]

theorem holCheck_of_not_headHeld {c : Chip} {n : Nat} (h : ¬ c.HeadHeld n) : c.holCheck n = c := by
  refine if_neg fun hc => h ?_
  obtain ⟨hq, hf, hb⟩ := hc
  exact ⟨by simpa using hq, hf, hb⟩

/-- After its fields a write sets BP_HOL of a port whose oldest word is blocked, or nothing. -/
theorem afterFields_cases (c : Chip) (r : Reg) :
    (c.afterFields r = c ∧ ∀ n, r = .ipStat n → ¬ c.HeadHeld n) ∨
      ∃ n, r = .ipStat n ∧ c.HeadHeld n ∧ c.afterFields r = c.flag r F.IpStat.BP_HOL := by
  by_cases h : ∃ n, r = .ipStat n
  · obtain ⟨n, rfl⟩ := h
    by_cases hh : c.HeadHeld n
    · exact .inr ⟨n, rfl, hh, holCheck_of_headHeld hh⟩
    · refine .inl ⟨holCheck_of_not_headHeld hh, ?_⟩
      rintro m ⟨⟩
      exact hh
  · refine .inl ⟨?_, fun n hn => absurd ⟨n, hn⟩ h⟩
    cases r with
    | ipStat n => exact absurd ⟨n, rfl⟩ h
    | _ => rfl

theorem afterFields_only (c : Chip) (r : Reg) : OnlyRegs c (c.afterFields r) := by
  rcases c.afterFields_cases r with ⟨h, -⟩ | ⟨n, -, -, h⟩ <;> rw [h]
  · exact only_refl c
  · exact only_wr (only_refl c) _ _

theorem rd_afterFields_other (c : Chip) {r q : Reg} (h : q.offset ≠ r.offset) : (c.afterFields r).rd q = c.rd q := by
  rcases c.afterFields_cases r with ⟨ha, -⟩ | ⟨n, -, -, ha⟩ <;> rw [ha]
  exact rd_flag_other c h _

end Chip

/-- The field BP_HOL of a port whose oldest word is blocked with READY 0 (R53). -/
def HolField (c : Chip) (r : Reg) (x : Fld × Acc) : Prop := ∃ n, r = .ipStat n ∧ x.1 = F.IpStat.BP_HOL ∧ c.HeadHeld n

/-- The other fields of a port's status have no bit in common with BP_HOL. -/
theorem bpHol_apart {n : Nat} {x : Fld × Acc} (hx : x ∈ (Reg.ipStat n).fields) (h : x.1 ≠ F.IpStat.BP_HOL) :
    F.IpStat.BP_HOL.apart x.1 := by
  have above : ∀ y ∈ (Reg.ipStat n).fields, y.1 ≠ F.IpStat.BP_HOL → F.IpStat.BP_HOL.hi < y.1.lo := by simp [Reg.fields]
  exact .inl (above x hx h)

section PlainWrite

variable {c : Chip} {r : Reg} (hr : Reg.ofOffset r.offset = some r) (w : Word)
include hr

/-- What stands of `HeadHeld` before a write of the port's status stands after its fields. -/
theorem headHeld_of_written {n : Nat} (hn : r = .ipStat n) : (c.plainWrite r w).HeadHeld n ↔ c.HeadHeld n := by
  subst hn
  exact c.headHeld_plainWrite (of_decide_eq_true (Reg.counted_of_ofOffset hr)) w

theorem fget_written_hol {x : Fld × Acc} (hh : HolField c r x) :
    fget (((c.plainWrite r w).afterFields r).rd r) x.1 = 1 := by
  obtain ⟨n, hn, hx, hheld⟩ := hh
  have hheld' := (headHeld_of_written hr w hn).mpr hheld
  rcases (c.plainWrite r w).afterFields_cases r with ⟨-, h⟩ | ⟨m, -, -, h⟩
  · exact absurd hheld' (h n hn)
  · rw [h, hx, Chip.flag, Chip.rd_setF_same, fget_fset_same ⟨by decide, by decide⟩]
    decide

theorem fget_written {x : Fld × Acc} (hx : x ∈ r.fields) (hh : ¬ HolField c r x) :
    fget (((c.plainWrite r w).afterFields r).rd r) x.1 = writtenField r x (c.rd r) w := by
  rcases (c.plainWrite r w).afterFields_cases r with ⟨h, -⟩ | ⟨n, hn, hheld, h⟩ <;> rw [h]
  · exact c.fget_plainWrite w hx
  · have hne : x.1 ≠ F.IpStat.BP_HOL := fun e => hh ⟨n, hn, e, (headHeld_of_written hr w hn).mp hheld⟩
    rw [Chip.flag, Chip.rd_setF_same, fget_fset_other ⟨by decide, by decide⟩ (bpHol_apart (hn ▸ hx) hne)]
    exact c.fget_plainWrite w hx

omit hr in
theorem reserved_written {i : Nat} (hi : reservedBit r i = true) :
    (((c.plainWrite r w).afterFields r).rd r).getLsbD i = (c.rd r).getLsbD i := by
  rcases (c.plainWrite r w).afterFields_cases r with ⟨h, -⟩ | ⟨n, rfl, -, h⟩ <;> rw [h]
  · exact c.reserved_plainWrite w hi
  · have hout := reservedBit_iff.mp hi (F.IpStat.BP_HOL, .w1c) (by simp [Reg.fields])
    rw [Chip.flag, Chip.rd_setF_same, getLsbD_fset ⟨by decide, by decide⟩, if_neg hout]
    exact c.reserved_plainWrite w hi

end PlainWrite

/-- The access types at a write (R6, R10, R53): what REGISTER_WRITE does to a plain register of the window. -/
theorem registerWrite_plain {s : State} {r : Reg} (w : Word) (hs : Ready s) (hr : Reg.ofOffset r.offset = some r)
    (hp : plainReg r = true) :
    Completes (.registerWrite (BitVec.ofNat 26 r.offset) w) s fun t =>
      (∀ x ∈ r.fields, HolField s.chip r x → fget (t.chip.rd r) x.1 = 1) ∧
      (∀ x ∈ r.fields, ¬ HolField s.chip r x → fget (t.chip.rd r) x.1 = writtenField r x (s.chip.rd r) w) ∧
      (∀ i, i < 64 → reservedBit r i = true → (t.chip.rd r).getLsbD i = (s.chip.rd r).getLsbD i) ∧
      KeepsRegs s.chip t.chip [r] ∧ OnlyRegs s.chip t.chip ∧ KeepsOutside s t := by
  refine ⟨_, exec_registerWrite hs hr w, ?_⟩
  rw [State.regWrite_plain s srcPort hp]
  refine ⟨fun x _ hh => fget_written_hol hr w hh, fun x hx hh => fget_written hr w hx hh,
    fun i _ hi => reserved_written w hi, fun q hq => ?_, ?_, rfl, rfl, rfl⟩
  · have hne : q.offset ≠ r.offset := hq r List.mem_cons_self
    exact (Chip.rd_afterFields_other _ hne).trans (s.chip.rd_plainWrite_other hne w)
  · exact Chip.only_trans (s.chip.plainWrite_only r w) (Chip.afterFields_only _ r)

/-! A read of a plain register (R6) -/

theorem apart_of_descend {b : Nat} {l : List (Fld × Acc)} (h : descend b l = true) {x y : Fld × Acc} (hx : x ∈ l)
    (hy : y ∈ l) (hxy : x ≠ y) : x.1.apart y.1 := by
  induction l generalizing b with
  | nil => cases hx
  | cons z l ih =>
    simp only [descend, Bool.and_eq_true] at h
    obtain ⟨-, hl⟩ := h
    have below := below_of_descend hl
    rcases List.mem_cons.mp hx with hxz | hx <;> rcases List.mem_cons.mp hy with hyz | hy
    · exact absurd (hxz.trans hyz.symm) hxy
    · exact .inr (hxz ▸ (below y hy).2)
    · exact .inl (hyz ▸ (below x hx).2)
    · exact ih hl hx hy

/-- What a read shows of a plain register is the word held, but for RO fields that the hardware forms. -/
theorem view_cases (e : Env) (c : Chip) {r : Reg} (hp : plainReg r = true) :
    (∀ x ∈ r.fields, x.2 = .ro) ∨
      ∃ l : List (Fld × Nat), c.view e r = setFields (c.rd r) l ∧ ∀ y ∈ l, (y.1, Acc.ro) ∈ r.fields := by
  cases r with
  | lk _ | fltE _ | irqPend _ | decTbl _ | mpCred _ | spcSum _ | pwrTd | pwrTdack | pwrTdwake | pwrNdlq _ | pmcOvf _
  | bbLog _ _ => exact .inl (by simp [Reg.fields])
  | xfFenceSt _ => exact .inr ⟨[(F.XfFenceSt.LIVE, _)], rfl, by simp [Reg.fields]⟩
  | fltStat => exact .inr ⟨[(F.FltStat.COUNT, _)], rfl, by simp [Reg.fields]⟩
  | irqRt _ => exact .inr ⟨[(F.IrqRt.ASSERT, _)], rfl, by simp [Reg.fields]⟩
  | irqLnStat _ => exact .inr ⟨[(F.IrqLnStat.LEVEL, _), (F.IrqLnStat.NSRC, _)], rfl, by simp [Reg.fields]⟩
  | otSetat => exact .inr ⟨[(F.OtSetat.PENDING, _)], rfl, by simp [Reg.fields]⟩
  | seamStat => exact .inr ⟨[(F.SeamStat.RXNE, _)], rfl, by simp [Reg.fields]⟩
  | mpStat _ => exact .inr ⟨[(F.MpStat.DRAINED, _)], rfl, by simp [Reg.fields]⟩
  | rlStat _ => exact .inr ⟨[(F.RlStat.REQ, _)], rfl, by simp [Reg.fields]⟩
  | spLvl _ => exact .inr ⟨[(F.SpLvl.LEVEL, _)], rfl, by simp [Reg.fields]⟩
  | spStat _ => exact .inr ⟨[(F.SpStat.FULL, _)], rfl, by simp [Reg.fields]⟩
  | spCnt _ => exact .inr ⟨[(F.SpCnt.MARKS, _)], rfl, by simp [Reg.fields]⟩
  | dbgCtl => exact .inr ⟨[(F.DbgCtl.FULL, _)], rfl, by simp [Reg.fields]⟩
  | ndlStat n =>
    exact .inr ⟨[(F.NdlStat.RDYQ, Chip.rdyq (c.ndl n)), (F.NdlStat.RES, (bitsOf 8 fun k => (c.slot n k).isSome).toNat),
      (F.NdlStat.SUSP, Chip.suspCount (c.ndl n))], rfl, by simp [Reg.fields]⟩
  | ndlXfCnt _ => exact .inr ⟨[(F.NdlXfCnt.CQ, _)], rfl, by simp [Reg.fields]⟩
  | _ => exact .inr ⟨[], by cases hp <;> rfl, by simp⟩

theorem fget_setFields {f : Fld} {l : List (Fld × Nat)} (h : ∀ y ∈ l, y.1.ok ∧ y.1.apart f) (v : Word) :
    fget (setFields v l) f = fget v f := by
  induction l generalizing v with
  | nil => rfl
  | cons y l ih =>
    obtain ⟨hok, hap⟩ := h y List.mem_cons_self
    exact (ih (fun z hz => h z (List.mem_cons_of_mem _ hz)) _).trans (fget_fset_other hok hap v _)

theorem fget_view (e : Env) (c : Chip) {r : Reg} (hp : plainReg r = true) {x : Fld × Acc} (hx : x ∈ r.fields)
    (hro : x.2 ≠ .ro) : fget (c.view e r) x.1 = fget (c.rd r) x.1 := by
  rcases view_cases e c hp with hall | ⟨l, hv, hl⟩
  · exact absurd (hall x hx) hro
  · rw [hv]
    refine fget_setFields (fun y hy => ⟨Reg.field_ok (hl y hy), ?_⟩) _
    exact apart_of_descend r.fields_descend (hl y hy) hx fun e => hro (congrArg Prod.snd e).symm

theorem Chip.rd_readEffect_plain (c : Chip) {r : Reg} (hp : plainReg r = true) :
    (c.readEffect r).rd r = clearRc r (c.rd r) := by
  rw [c.readEffect_plain hp]
  split
  · exact c.rd_wr_same r _
  · rename_i h
    rw [clearRc_of_not_hasRc (by simpa using h)]

theorem Chip.rd_readEffect_plain_other (c : Chip) {r q : Reg} (hp : plainReg r = true) (h : q.offset ≠ r.offset) :
    (c.readEffect r).rd q = c.rd q := by
  rw [c.readEffect_plain hp]
  split
  · exact c.rd_wr_other h _
  · rfl

/-- The access types at a read (R6): what a read of a plain register answers, and that it clears the RC fields alone. -/
theorem portRead_plain {s : State} {r : Reg} (hs : Ready s) (hr : Reg.ofOffset r.offset = some r) (hp : plainReg r = true) :
    Completes (.controlPortRequest false (BitVec.ofNat 26 r.offset) 255#8 0#64) s fun t =>
      (∃ w : Word, t.chip.cpRsp.getLast? = some (w, rspOk) ∧
        ∀ x ∈ r.fields, (x.2 = .wo → fget w x.1 = 0) ∧
          (x.2 = .rw ∨ x.2 = .w1c ∨ x.2 = .rc → fget w x.1 = fget (s.chip.rd r) x.1)) ∧
      (∀ x ∈ r.fields, fget (t.chip.rd r) x.1 = if x.2 = .rc then 0 else fget (s.chip.rd r) x.1) ∧
      (∀ i, i < 64 → reservedBit r i = true → (t.chip.rd r).getLsbD i = (s.chip.rd r).getLsbD i) ∧
      KeepsRegs s.chip t.chip [r] ∧ KeepsOutside s t := by
  refine ⟨_, exec_portRead hs hr _ _, ?_⟩
  rw [s.regRead_plain hp]
  have held : (s.chip.readEffect r).rd r = clearRc r (s.chip.rd r) := s.chip.rd_readEffect_plain hp
  refine ⟨⟨_, Chip.respond_getLast? _ _ _, fun x hx => ⟨fun ha => ?_, fun ha => ?_⟩⟩, fun x hx => ?_, fun i _ hi => ?_,
    fun q hq => ?_, rfl, rfl, rfl⟩
  · rw [Chip.readWord, fget_maskWo r _ hx, if_pos ha]
  · have hwo : x.2 ≠ .wo := by rintro h; simp [h] at ha
    have hro : x.2 ≠ .ro := by rintro h; simp [h] at ha
    rw [Chip.readWord, fget_maskWo r _ hx, if_neg hwo, fget_view _ _ hp hx hro]
  · exact (congrArg (fget · x.1) held).trans (fget_clearRc r _ hx)
  · exact (congrArg (BitVec.getLsbD · i) held).trans (reserved_clearRc _ hi)
  · exact s.chip.rd_readEffect_plain_other hp (hq r List.mem_cons_self)

/-! Registers of 64 RW bits -/

/-- The registers with the one field VALUE of 64 bits, RW, that accepts every value. -/
def wholeRw : List Reg :=
  [Reg.otLoad, .hvAt, .bbFrzen, .bbTypeen, .seamSendd0, .seamSendd1] ++ (List.range 8).map Reg.dbgMdata

/-- A field of all 64 bits. -/
abbrev Fld.all : Fld := ⟨63, 0⟩

theorem fset_all (v w : Word) : fset v Fld.all (fget w Fld.all) = w := by
  apply BitVec.eq_of_getLsbD_eq
  intro i hi
  rw [getLsbD_fset ⟨by decide, by decide⟩, if_pos ⟨Nat.zero_le i, Nat.le_of_lt_succ hi⟩, testBit_fget]
  simp [Fld.width, hi]

/-- What makes a register one of 64 RW bits: where it stands, its field, and that it shows what it holds. -/
structure WholeRw (r : Reg) : Prop where
  assigned : Reg.ofOffset r.offset = some r
  plain : plainReg r = true
  fields : r.fields = [(Fld.all, .rw)]
  accepts : ∀ v, accepts r Fld.all v = true
  noStatus : ∀ n, r ≠ .ipStat n
  view : ∀ e c, Chip.view e c r = c.rd r

theorem wholeRw_of_mem {r : Reg} (h : r ∈ wholeRw) : WholeRw r := by
  simp only [wholeRw, List.mem_append, List.mem_cons, List.mem_map, List.mem_range, List.not_mem_nil, or_false] at h
  rcases h with (rfl | rfl | rfl | rfl | rfl | rfl) | ⟨i, hi, rfl⟩
  case inr => exact ⟨by interval_cases i <;> decide +kernel, rfl, rfl, fun _ => rfl, by simp, fun _ _ => rfl⟩
  all_goals exact ⟨by decide +kernel, rfl, rfl, fun _ => rfl, by simp, fun _ _ => rfl⟩

section WholeRw

variable {r : Reg} (h : WholeRw r)
include h

theorem State.regWrite_whole (s : State) (src : Nat) (w : Word) :
    s.regWrite src r w = { s with chip := s.chip.wr r w } := by
  have hfields : s.chip.plainWrite r w = s.chip.wr r w := by
    simp only [Chip.plainWrite, h.fields, List.foldl_cons, List.foldl_nil, Chip.putField, h.accepts, if_true, Chip.setF,
      fset_all]
  rw [s.regWrite_plain src h.plain, hfields]
  rcases (s.chip.wr r w).afterFields_cases r with ⟨ha, -⟩ | ⟨n, hn, -⟩
  · rw [ha]
  · exact absurd hn (h.noStatus n)

theorem State.regRead_whole (s : State) : s.regRead r = (s, s.chip.rd r) := by
  have hrc : hasRc r = false := by simp [hasRc, h.fields]
  have heff : s.chip.readEffect r = s.chip := by
    rw [s.chip.readEffect_plain h.plain, if_neg (by simp [hrc])]
  have hwo : s.chip.readWord s.env r = s.chip.rd r := by
    simp [Chip.readWord, h.view, maskWo, h.fields]
  rw [s.regRead_plain h.plain, heff, hwo]

end WholeRw

theorem keepsRegs_wr (c : Chip) (r : Reg) (w : Word) : KeepsRegs c (c.wr r w) [r] :=
  fun _ hq => c.rd_wr_other (hq r List.mem_cons_self) w

/-- A write of a register of 64 RW bits through the control port is read back by the next read, with OK to both. -/
theorem portWrite_portRead_whole {s : State} {r : Reg} (w : Word) (hs : Ready s) (hr : r ∈ wholeRw) :
    Completes (.controlPortRequest true (BitVec.ofNat 26 r.offset) 255#8 w) s fun t =>
      t.chip.rd r = w ∧ KeepsRegs s.chip t.chip [r] ∧ t.mem = s.mem ∧ t.prot = s.prot ∧
      t.chip.cpRsp.getLast? = some (0#64, rspOk) ∧
      Completes (.controlPortRequest false (BitVec.ofNat 26 r.offset) 255#8 0#64) t fun u =>
        u.chip.cpRsp.getLast? = some (w, rspOk) ∧ u.chip.rd r = w ∧ u.mem = s.mem := by
  have h := wholeRw_of_mem hr
  refine ⟨_, exec_portWrite hs h.assigned w, ?_⟩
  rw [State.regWrite_whole h]
  have held : ((s.chip.wr r w).respond 0#64 rspOk).rd r = w := s.chip.rd_wr_same r w
  refine ⟨held, keepsRegs_wr s.chip r w, rfl, rfl, Chip.respond_getLast? _ _ _, ?_⟩
  generalize ht : State.respond { s with chip := s.chip.wr r w } 0#64 rspOk = t
  have ready : Ready t := ht ▸ hs
  have mem : t.mem = s.mem := ht ▸ rfl
  have heldT : t.chip.rd r = w := ht ▸ held
  refine ⟨_, exec_portRead ready h.assigned _ _, ?_⟩
  rw [State.regRead_whole h, heldT]
  exact ⟨Chip.respond_getLast? _ _ _, heldT, mem⟩

/-- REGISTER_WRITE of a register of 64 RW bits stores the word and changes nothing else. -/
theorem registerWrite_whole {s : State} {r : Reg} (w : Word) (hs : Ready s) (hr : r ∈ wholeRw) :
    Completes (.registerWrite (BitVec.ofNat 26 r.offset) w) s fun t =>
      t.chip.rd r = w ∧ KeepsRegs s.chip t.chip [r] ∧ OnlyRegs s.chip t.chip ∧ KeepsOutside s t := by
  have h := wholeRw_of_mem hr
  refine ⟨_, exec_registerWrite hs h.assigned w, ?_⟩
  rw [State.regWrite_whole h]
  exact ⟨s.chip.rd_wr_same r w, keepsRegs_wr s.chip r w, Chip.only_wr (Chip.only_refl _) r w, rfl, rfl, rfl⟩

/-! Accesses that are not carried out (R12, R20) -/

/-- An access of the control port is answered with a code, and nothing else changes. -/
def OnlyAnswers (s : State) (i : Instr) (code : Nat) : Prop :=
  Completes i s fun t => t = { s with chip := { s.chip with cpRsp := t.chip.cpRsp } } ∧
    (t.chip.cpRsp.getLast?.map (·.2)) = some code

section Refused

variable {s : State} {write : Bool} {a : BitVec 26} {be : BitVec 8} {w : Word} {code : Nat}

/-- An access answers alone where its write, or its read, gives the state back with the code. -/
theorem onlyAnswers_of_access (hw : write = true → s.csrWrite srcPort a.toNat be.toNat w = (s, code))
    (hr : write = false → s.csrRead a.toNat = (s, 0#64, code)) :
    OnlyAnswers s (.controlPortRequest write a be w) code := by
  have h : exec (.controlPortRequest write a be w) s = .next (s.respond 0#64 code) := by
    change execControlPortRequest write a be w s = _
    cases write with
    | true => simp [execControlPortRequest, State.portAccess, hw rfl]
    | false => simp [execControlPortRequest, State.portAccess, hr rfl]
  exact ⟨_, h, rfl, by simp [State.respond]⟩

/-- Before READY the control port answers NRDY. -/
theorem access_before_ready (hs : ¬ Ready s) : OnlyAnswers s (.controlPortRequest write a be w) rspNrdy :=
  onlyAnswers_of_access (fun _ => if_pos hs) (fun _ => if_pos hs)

/-- An access off an 8-byte boundary answers ERR. -/
theorem access_off_word (hs : Ready s) (h8 : a.toNat % 8 ≠ 0) :
    OnlyAnswers s (.controlPortRequest write a be w) rspErr := by
  have hs' : s.chip.pwr.phase = .running := hs
  exact onlyAnswers_of_access (fun _ => by simp [State.csrWrite, hs', h8]) (fun _ => by simp [State.csrRead, hs', h8])

/-- A register write without all 8 byte enables answers ERR. -/
theorem portWrite_of_some_bytes (hs : Ready s) (h8 : a.toNat % 8 = 0) (hreg : a.toNat < 0x400000) (hbe : be ≠ 255#8) :
    OnlyAnswers s (.controlPortRequest true a be w) rspErr := by
  have hs' : s.chip.pwr.phase = .running := hs
  have hbe' : be.toNat ≠ 255 := fun h => hbe (BitVec.eq_of_toNat_eq h)
  exact onlyAnswers_of_access (fun _ => by simp [State.csrWrite, hs', h8, Nat.not_le.mpr hreg, hbe']) nofun

/-- An access to an unassigned offset answers OK. -/
theorem access_of_unassigned (hs : Ready s) (h8 : a.toNat % 8 = 0) (hreg : a.toNat < 0x400000)
    (hr : Reg.ofOffset a.toNat = none) : OnlyAnswers s (.controlPortRequest write a 255#8 w) rspOk := by
  have hs' : s.chip.pwr.phase = .running := hs
  exact onlyAnswers_of_access (fun _ => by simp [State.csrWrite, hs', h8, Nat.not_le.mpr hreg, hr])
    (fun _ => by simp [State.csrRead, hs', h8, Nat.not_le.mpr hreg, hr])

end Refused

/-! Reserved bits after reset (R8, R11) -/

/-- Whether the bits of a word that lie in no field of a list are 0. -/
def clearOutside (l : List (Fld × Acc)) (w : Word) : Bool :=
  (List.range 64).all fun i => !(l.all fun x => decide (i < x.1.lo) || decide (x.1.hi < i)) || !w.getLsbD i

theorem getLsbD_of_clearOutside {r : Reg} {w : Word} (h : clearOutside r.fields w = true) {i : Nat} (hi : i < 64)
    (hres : reservedBit r i = true) : w.getLsbD i = false := by
  have := List.all_eq_true.mp h i (List.mem_range.mpr hi)
  simp only [reservedBit] at hres
  simpa [hres] using this

theorem getLsbD_ofNat_small {v b i : Nat} (hv : v < 2 ^ b) (hi : b ≤ i) : (BitVec.ofNat 64 v).getLsbD i = false := by
  rw [BitVec.getLsbD_ofNat, Nat.testBit_lt_two_pow (hv.trans_le (Nat.pow_le_pow_right (by omega) hi)), Bool.and_false]

/-- A reserved bit of a register of the window is 0 after reset. -/
theorem reset_reserved {r : Reg} (hr : Reg.ofOffset r.offset = some r) {i : Nat} (hi : i < 64)
    (hres : reservedBit r i = true) : r.reset.getLsbD i = false := by
  have hcount := Reg.counted_of_ofOffset hr
  cases r with
  | ipMap n k =>
    simp only [Reg.counted, Bool.and_eq_true, decide_eq_true_eq] at hcount
    have hbit : 8 ≤ i := by simp [reservedBit, Reg.fields] at hres; omega
    exact getLsbD_ofNat_small (b := 8) (by omega) hbit
  | spCfg m =>
    simp only [Reg.counted, decide_eq_true_eq] at hcount
    have hbit : 13 ≤ i := by simp [reservedBit, Reg.fields] at hres; omega
    have hconst : (0x1F0000170000#64).getLsbD i = false :=
      getLsbD_of_clearOutside (by simp only [Reg.fields]; decide +kernel) hi hres
    simp only [Reg.reset, BitVec.getLsbD_or, hconst, Bool.false_or]
    exact getLsbD_ofNat_small (b := 13) (by omega) hbit
  | svcSp m =>
    simp only [Reg.counted, decide_eq_true_eq] at hcount
    have hbit : 16 ≤ i := by simp [reservedBit, Reg.fields] at hres; omega
    exact getLsbD_ofNat_small (b := 16) (by omega) hbit
  | _ => exact getLsbD_of_clearOutside (by simp only [Reg.fields, Reg.reset]; decide +kernel) hi hres

/-- Every clause on accesses but the last holds, so the statement stands or falls with its last clause. -/
theorem controlPortAccesses_iff_resets : Obligations.ControlPortAccesses ↔
    ∀ (r : Reg) (i : Nat), i < 64 → reservedBit r i = true → r.reset.getLsbD i = false := by
  unfold Obligations.ControlPortAccesses
  refine ⟨fun ⟨_, _, _, _, _, resets⟩ => resets, fun resets => ⟨?_, ?_, ?_, ?_, ?_, resets⟩⟩
  · exact fun s r w hs hr => portWrite_portRead_whole w hs hr
  · exact fun s r w hs hr => registerWrite_whole w hs hr
  · refine fun s write a be w => ⟨access_before_ready, access_off_word, ?_, ?_⟩
    · rintro hs h8 hreg rfl hbe
      exact portWrite_of_some_bytes hs h8 hreg hbe
    · rintro hs h8 hreg hr rfl
      exact access_of_unassigned hs h8 hreg hr
  · exact fun s r w hs hr hp => registerWrite_plain w hs hr hp
  · exact fun s r hs hr hp => portRead_plain hs hr hp

/-- Refutes O6: its last clause speaks of every `Reg`, and `Reg.ipMap 16 0` names no register of the window, for there are
16 ports. Its Reset value would be 16 · 16, which has bit 8 set, and bit 8 lies in no field of DXW_IPn_MAPs. The clause holds
of every register of the window (`reset_reserved`), and so does the rest of the statement (`controlPortAccesses_iff_resets`). -/
theorem not_controlPortAccesses : ¬ Obligations.ControlPortAccesses := by
  rw [controlPortAccesses_iff_resets]
  intro resets
  have clear : (Reg.ipMap 16 0).reset.getLsbD 8 = false := resets (.ipMap 16 0) 8 (by decide) (by decide)
  exact absurd clear (by decide)

end Sys2Proof.Machine

/-! PROOFS of the statements of 01_block_overview.md. O1: a step is the front command. O3 and O4: which commands can write
memory, and that every write keeps the canonical form. -/

namespace Sys2Proof.Machine

/-- Settles O1: with a command at the front of the queue, `step` is `exec` of it on the state with the rest. -/
theorem stepRunsFront : Obligations.StepRunsFront := fun _ _ _ => rfl

/-! What leaves memory alone -/

@[simp] theorem State.violate_mem (s : State) (src off : Nat) : (s.violate src off).mem = s.mem := rfl

@[simp] theorem State.lbWrite_mem (s : State) (src : Nat) (r : Reg) (w : Word) : (s.lbWrite src r w).mem = s.mem := by
  unfold State.lbWrite
  split
  · split <;> rfl
  · rfl

@[simp] theorem State.regRead_mem (s : State) (r : Reg) : (s.regRead r).1.mem = s.mem := by
  unfold State.regRead
  split <;> rfl

@[simp] theorem State.memRead_mem (s : State) (off : Nat) : (s.memRead off).1.mem = s.mem := by
  unfold State.memRead
  split <;> rfl

/-- A read of the window changes no byte of memory (R19). -/
@[simp] theorem State.csrRead_mem (s : State) (off : Nat) : (s.csrRead off).1.mem = s.mem := by
  unfold State.csrRead
  repeat' split
  all_goals simp

@[simp] theorem State.respond_mem (s : State) (w : Word) (code : Nat) : (s.respond w code).mem = s.mem := rfl

@[simp] theorem State.debugAnswer_mem (s : State) (w : Word) (code : Nat) : (s.debugAnswer w code).mem = s.mem := rfl

@[simp] theorem State.debugShift_mem (s : State) (off : Nat) : (s.debugShift off).mem = s.mem := rfl

@[simp] theorem State.rrsp_mem (s : State) (h : SeamHead) (rtag code : Nat) (w : Word) :
    (s.rrsp h rtag code w).mem = s.mem := by
  unfold State.rrsp
  split <;> rfl

theorem State.portAccess_read_mem (s : State) (off be : Nat) (w : Word) : (s.portAccess false off be w).mem = s.mem := by
  simp [State.portAccess]

theorem State.debugAccess_read_mem (s : State) (off : Nat) (w : Word) : (s.debugAccess false off w).mem = s.mem := by
  unfold State.debugAccess
  dsimp only
  split
  · rfl
  · split
    · rfl
    · exact State.csrRead_mem ..

theorem State.rread_mem (s : State) (h : SeamHead) (off rtag : Nat) : (s.rread h off rtag).mem = s.mem := by
  unfold State.rread
  dsimp only
  repeat' split
  all_goals simp

/-- Of the tasks of an edge only a SETAT entry writes memory (R35). -/
theorem State.doTask_mem (s : State) {t : EdgeTask} (h : ∀ x, t ≠ .setat x) : (s.doTask t).mem = s.mem := by
  cases t with
  | setat x => exact absurd rfl (h x)
  | _ => rfl

theorem State.taskIf_mem (s : State) {p : EdgeTask → Bool} (h : ∀ x, p (.setat x) = false) : (s.taskIf p).mem = s.mem := by
  unfold State.taskIf
  split
  case h_1 t ht =>
    split
    · refine s.doTask_mem fun x hx => ?_
      have hp := List.find?_some ht
      rw [hx, h x] at hp
      cases hp
    · rfl
  case h_2 => rfl

theorem execXingWaitWake_mem (t : Fin 262144) (s : State) :
    Completes (.xingWaitWake t) s fun u => u.mem = s.mem := by
  refine ⟨_, rfl, ?_⟩
  split
  · split
    · exact s.taskIf_mem fun _ => rfl
    · rfl
  · rfl

theorem execMonitorFrameAbort_mem (s : State) : Completes .monitorFrameAbort s fun u => u.mem = s.mem := by
  refine ⟨_, rfl, ?_⟩
  split
  · rfl
  · split
    · rfl
    · split
      · rfl
      · exact s.taskIf_mem fun _ => rfl

/-- A command can write memory, or it leaves every byte. The commands named here are those that can write memory, and those
that go beyond the chip; every other one answers through `State.chipStep`, whose next state differs in the chip alone. -/
theorem mayWriteMemory_or_keeps (i : Instr) (s : State) :
    mayWriteMemory i = true ∨ Completes i s fun t => t.mem = s.mem := by
  cases i with
  | controlPortRequest | registerWrite | memoryWindowWrite | bclkEdge | setatEntryApply | timebaseStopComplete | resyncStep
  | freeLoadStep | spoolWordWrite | calPedWrite | deepRefillDone | rwrite | debugWrite | coldReset | coreLossReset
  | lifecycleChange => exact .inl rfl
  | memoryWindowRead a => exact .inr ⟨_, rfl, by split; exacts [s.portAccess_read_mem .., rfl]⟩
  | debugRead a => exact .inr ⟨_, rfl, s.debugAccess_read_mem ..⟩
  | rread h off rtag => exact .inr ⟨_, rfl, s.rread_mem ..⟩
  | bootSeal => exact .inr ⟨_, rfl, by split <;> rfl⟩
  | xingWaitWake t => exact .inr (execXingWaitWake_mem t s)
  | configSwap => exact .inr ⟨_, rfl, s.taskIf_mem fun _ => rfl⟩
  | lockLeaseEnd l => exact .inr ⟨_, rfl, s.taskIf_mem fun _ => rfl⟩
  | decisionMissing k => exact .inr ⟨_, rfl, s.taskIf_mem fun _ => rfl⟩
  | harvestSnapshot => exact .inr ⟨_, rfl, s.taskIf_mem fun _ => rfl⟩
  | rotationPoint => exact .inr ⟨_, rfl, s.taskIf_mem fun _ => rfl⟩
  | monitorFrameEnd => exact .inr ⟨_, rfl, by split; exacts [s.taskIf_mem fun _ => rfl, rfl]⟩
  | monitorFrameAbort => exact .inr (execMonitorFrameAbort_mem s)
  | _ => exact .inr ⟨_, rfl, rfl⟩

/-- Settles O3: a command that is not one of those that can write memory leaves every byte. -/
theorem memoryFrame : Obligations.MemoryFrame := by
  intro i s h
  exact (mayWriteMemory_or_keeps i s).resolve_left (by simp [h])

/-! What writes memory keeps it in canonical form -/

theorem safe_of_mem_eq {s t : State} (hs : Safe s) (h : t.mem = s.mem) : Safe t := by
  rwa [Safe, h]

theorem safe_withChip {s : State} (hs : Safe s) (c : Chip) : Safe { s with chip := c } := hs

/-- A write of the window writes one word of memory, or none. -/
theorem State.memWrite_mem_cases (s : State) (off be : Nat) (w : Word) :
    (s.memWrite off be w).1.mem = s.mem ∨ ∃ v, (s.memWrite off be w).1.mem = memPutWord s.mem off v := by
  unfold State.memWrite
  split
  case h_1 => exact .inl rfl
  case h_2 => exact .inl rfl
  case h_3 =>
    dsimp only
    split
    · exact .inl rfl
    · exact .inr ⟨_, rfl⟩
  case h_4 k _ _ _ =>
    generalize s.chip.mergeRead _ off be = r
    dsimp only
    by_cases hr : r.2 = true
    · simp [hr]
    · by_cases hb : be = 0
      · simp [hr, hb]
      · exact .inr ⟨_, by simp only [hr, hb]; rfl⟩

/-- A wipe leaves nothing listed (R283). -/
theorem State.coldReset_safe (s : State) (kind : Nat) (lc : Option Nat) : Safe (s.coldReset kind lc) := rfl

section Safe

variable {s : State} (hs : Safe s)
include hs

theorem State.memWrite_safe (off be : Nat) (w : Word) : Safe (s.memWrite off be w).1 := by
  rcases s.memWrite_mem_cases off be w with h | ⟨v, h⟩
  · exact safe_of_mem_eq hs h
  · rw [Safe, h]
    exact memWf_memPutWord hs off v

theorem State.lcRequest_safe (src key next : Nat) : Safe (s.lcRequest src key next) := by
  unfold State.lcRequest
  split
  · exact hs
  · split
    · exact hs
    · split
      · exact s.coldReset_safe ..
      · exact hs

theorem State.lcWrite_safe (src : Nat) (w : Word) : Safe (s.lcWrite src w) := by
  refine State.lcRequest_safe ?_ ..
  exact hs

/-- Of the registers only DXW_LC can change memory, by the cold reset of a lifecycle change (R266). -/
theorem State.regWrite_safe (src : Nat) (r : Reg) (w : Word) : Safe (s.regWrite src r w) := by
  unfold State.regWrite
  split
  · exact hs
  · exact State.lcWrite_safe hs ..
  · exact safe_of_mem_eq hs (s.lbWrite_mem ..)
  · split
    · exact safe_of_mem_eq hs (s.lbWrite_mem ..)
    · exact hs

theorem State.csrWrite_safe (src off be : Nat) (w : Word) : Safe (s.csrWrite src off be w).1 := by
  unfold State.csrWrite
  repeat' split
  · exact hs
  · exact hs
  · exact State.memWrite_safe hs ..
  · exact hs
  · exact hs
  · exact State.regWrite_safe hs ..

theorem State.portAccess_safe (write : Bool) (off be : Nat) (w : Word) : Safe (s.portAccess write off be w) := by
  cases write with
  | true => exact safe_of_mem_eq (State.csrWrite_safe hs srcPort off be w) rfl
  | false => exact safe_of_mem_eq hs (s.portAccess_read_mem off be w)

theorem State.debugAccess_safe (write : Bool) (off : Nat) (w : Word) : Safe (s.debugAccess write off w) := by
  unfold State.debugAccess
  dsimp only
  split
  · exact hs
  · split
    · exact hs
    · split
      · exact safe_of_mem_eq (State.csrWrite_safe (s := s.debugShift off) hs srcDebug off 255 w) rfl
      · exact safe_of_mem_eq hs (by simp)

theorem State.rwrite_safe (h : SeamHead) (off rtag : Nat) (w : Word) : Safe (s.rwrite h off rtag w) := by
  unfold State.rwrite
  dsimp only
  split
  · exact hs
  · split
    · exact safe_of_mem_eq hs (by simp)
    · exact safe_of_mem_eq (State.csrWrite_safe (safe_withChip hs _) srcRemote off 255 w) (State.rrsp_mem ..)

theorem State.doTask_safe (t : EdgeTask) : Safe (s.doTask t) := by
  unfold State.doTask
  dsimp only
  split
  · split
    · exact State.csrWrite_safe (safe_withChip hs _) ..
    · exact hs
  · exact hs

theorem State.drainAgenda_safe : Safe s.drainAgenda := by
  unfold State.drainAgenda
  generalize s.chip.tb.agenda = l
  induction l generalizing s with
  | nil => exact hs
  | cons t l ih => exact ih (State.doTask_safe hs t)

/-- An edge writes memory through the tasks that it does, and by nothing else. -/
theorem State.edgeAdvance_safe (m : Chip.Move) (v : Nat) : Safe (s.edgeAdvance m v) := by
  unfold State.edgeAdvance
  extract_lets _ afresh _ _ _ _ _ counted drained opened
  have hcounted : Safe counted := hs
  have hopened : Safe opened := by
    unfold opened
    split
    · exact safe_withChip (State.drainAgenda_safe hcounted) _
    · exact hcounted
  split
  · exact safe_withChip (State.drainAgenda_safe hopened) _
  · exact hopened

theorem State.edge_safe : Safe s.edge := by
  unfold State.edge
  split
  · dsimp only
    split
    · exact State.edgeAdvance_safe (State.drainAgenda_safe hs) _ _
    · exact State.drainAgenda_safe hs
  · exact hs

theorem State.edgeIf_safe (p : Chip → Bool) : Safe (s.edgeIf p) := by
  unfold State.edgeIf
  split
  · exact State.edge_safe hs
  · exact hs

theorem State.taskIf_safe (p : EdgeTask → Bool) : Safe (s.taskIf p) := by
  unfold State.taskIf
  split
  · split
    · exact State.doTask_safe hs _
    · exact hs
  · exact hs

theorem State.fifoWord_safe (n : Nat) : Safe (s.fifoWord n) := by
  unfold State.fifoWord
  dsimp only
  repeat' split
  · exact hs
  · exact memWf_memPutWords hs _ _
  · exact hs
  · exact hs
  · exact hs

theorem execSpoolWordWrite_safe (p : Fin 16) : Completes (.spoolWordWrite p) s Safe := by
  by_cases h : s.chip.pwr.phase = .running
  · exact ⟨_, if_pos h, State.fifoWord_safe hs p⟩
  · exact ⟨_, if_neg h, hs⟩

theorem execCalPedWrite_safe : Completes .calPedWrite s Safe := by
  change ∃ t, execCalPedWrite s = .next t ∧ Safe t
  unfold execCalPedWrite
  split
  · split
    · exact ⟨_, rfl, memWf_memPutWord hs _ _⟩
    · exact ⟨_, rfl, hs⟩
  · exact ⟨_, rfl, hs⟩

/-- A refill writes the words of its block, or none where it comes with an error (R76). -/
theorem execDeepRefillDone_safe (m : Fin 256) : Completes (.deepRefillDone m) s Safe := by
  change ∃ t, execDeepRefillDone m s = .next t ∧ Safe t
  unfold execDeepRefillDone
  dsimp only
  split
  · exact ⟨_, rfl, hs⟩
  · split
    · exact ⟨_, rfl, hs⟩
    · refine ⟨_, rfl, ?_⟩
      unfold Safe
      dsimp only
      split
      · exact hs
      · exact memWf_memPutWords hs _ _

theorem execCoreLossReset_safe : Completes .coreLossReset s Safe := by
  by_cases h : s.chip.pwr.phase = .coreOff
  · exact ⟨_, if_pos h, rfl⟩
  · exact ⟨_, if_neg h, hs⟩

/-- A command that can write memory keeps it in canonical form. -/
theorem exec_safe_of_mayWrite {i : Instr} (hw : mayWriteMemory i = true) : Completes i s Safe := by
  cases i with
  | controlPortRequest write a be w => exact ⟨_, rfl, State.portAccess_safe hs ..⟩
  | registerWrite a w => exact ⟨_, rfl, by split; exacts [State.csrWrite_safe hs .., hs]⟩
  | memoryWindowWrite a be w => exact ⟨_, rfl, by split; exacts [State.portAccess_safe hs .., hs]⟩
  | bclkEdge => exact ⟨_, rfl, State.edge_safe hs⟩
  | setatEntryApply => exact ⟨_, rfl, State.taskIf_safe hs _⟩
  | timebaseStopComplete => exact ⟨_, rfl, State.edgeIf_safe hs _⟩
  | resyncStep => exact ⟨_, rfl, State.edgeIf_safe hs _⟩
  | freeLoadStep => exact ⟨_, rfl, State.edgeIf_safe hs _⟩
  | spoolWordWrite p => exact execSpoolWordWrite_safe hs p
  | calPedWrite => exact execCalPedWrite_safe hs
  | deepRefillDone m => exact execDeepRefillDone_safe hs m
  | rwrite h off rtag w => exact ⟨_, rfl, State.rwrite_safe hs ..⟩
  | debugWrite a w => exact ⟨_, rfl, State.debugAccess_safe hs ..⟩
  | coldReset powerOn => exact ⟨_, rfl, s.coldReset_safe ..⟩
  | coreLossReset => exact execCoreLossReset_safe hs
  | lifecycleChange key next => exact ⟨_, rfl, by split; exacts [State.lcRequest_safe hs .., hs]⟩
  | _ => cases hw

theorem exec_safe (i : Instr) : Completes i s Safe := by
  rcases mayWriteMemory_or_keeps i s with hw | ⟨t, ht, hm⟩
  · exact exec_safe_of_mayWrite hs hw
  · exact ⟨t, ht, safe_of_mem_eq hs hm⟩

end Safe

/-- Settles O4: an idle tick leaves memory alone (log 3), and the command at the front keeps it in canonical form. -/
theorem memoryStaysCanonical : Obligations.MemoryStaysCanonical := by
  intro s t hs ht
  unfold step at ht
  split at ht
  case h_1 =>
    cases ht
    exact hs
  case h_2 i rest _ =>
    obtain ⟨u, hu, safe⟩ := exec_safe (s := { s with pending := rest }) hs i
    rw [hu] at ht
    cases ht
    exact safe

end Sys2Proof.Machine

/-! PROOFS of the statements of 01_block_overview.md, continued. O7: the accesses of the memory windows, and the two clauses on
them that fail. -/

namespace Sys2Proof.Machine

/-- A merge that enables no byte is the old word (R19). -/
theorem mergeBytes_none (old new : Word) : mergeBytes old new 0 = old := by
  have : ((List.range 8).map fun k => if 0 / 2 ^ k % 2 = 1 then byteOf new k else byteOf old k) =
      (List.range 8).map (byteOf old) := by
    simp [show List.range 8 = [0, 1, 2, 3, 4, 5, 6, 7] from rfl]
  unfold mergeBytes
  rw [this, wordOfBytes_byteOf]

/-! What an error of a memory word leaves (R87, R311) -/

namespace Chip

/-- A write of a line of pattern memory changes the needles' buffers alone (R89). -/
theorem dropLine_only (c : Chip) (l : Nat) : ∃ nds, c.dropLine l = { c with needles := nds } := by
  unfold dropLine
  generalize c.needles.map (·.1) = ns
  induction ns generalizing c with
  | nil => exact ⟨_, rfl⟩
  | cons n ns ih =>
    obtain ⟨nds, h⟩ := ih (c.setNdl n { c.ndl n with ib := (c.ndl n).ib.filter fun x => x != l })
    exact ⟨nds, h⟩

/-- A write of a word of spool memory changes the copies in the spools' registers alone (R62). -/
theorem dropCopies_only (c : Chip) (g w : Nat) : ∃ sps, c.dropCopies g w = { c with spools := sps } := by
  unfold dropCopies
  dsimp only
  generalize c.spools.map (·.1) = ms
  induction ms generalizing c with
  | nil => exact ⟨_, rfl⟩
  | cons m ms ih =>
    obtain ⟨sps, h⟩ := ih (c.setSpool m { c.spool m with
      tail := (c.spool m).tail.filter fun r => r.g != g || r.pos % 32 != w
      head := (c.spool m).head.filter fun r => r.g != g || r.pos % 32 != w })
    exact ⟨sps, h⟩

@[simp] theorem eccUe_clearEcc (c : Chip) (off : Nat) : Tab.get false (c.clearEcc off).eccUe off = false :=
  Tab.get_put_same false c.eccUe off false

@[simp] theorem eccCe_clearEcc (c : Chip) (off : Nat) : Tab.get false (c.clearEcc off).eccCe off = false :=
  Tab.get_put_same false c.eccCe off false

theorem bit_bbEvent (c : Chip) (ty : Nat) (p0 p1 : Word) {r : Reg} (hr : r.offset ≠ Reg.bbStat.offset) (f : Fld) :
    (c.bbEvent ty p0 p1).bit r f = c.bit r f := by
  rw [bit, rd_bbEvent c ty p0 p1 hr]; rfl

theorem fld_bbEvent (c : Chip) (ty : Nat) (p0 p1 : Word) {r : Reg} (hr : r.offset ≠ Reg.bbStat.offset) (f : Fld) :
    (c.bbEvent ty p0 p1).fld r f = c.fld r f := by
  rw [fld, rd_bbEvent c ty p0 p1 hr]; rfl

section Errors

variable (c : Chip) (off : Nat)

/-- An uncorrectable error of pattern memory is counted, flagged and recorded. -/
theorem noteEcc_pattern_ue : c.noteEcc 1 true off =
    ((c.tally .wdEcc F.WdEcc.PM_UE 1).flag .wdStat F.WdStat.UE).bbEvent 0x03 1#64 (BitVec.ofNat 64 off) := rfl

/-- An uncorrectable error of the thread store is counted, flagged, placed and recorded. -/
theorem noteEcc_store_ue : ∃ place, c.noteEcc 0 true off =
    ((((c.tally .tsEcc F.TsEcc.UE_CNT 1).flag .thStat F.ThStat.TS_UE).wr .tsEccAt place).flag .wdStat F.WdStat.UE).bbEvent
      0x03 0#64 (BitVec.ofNat 64 off) :=
  ⟨BitVec.ofNat 64 (2 ^ 63 + (off - 0x1000000) / 64 * 8 + off / 8 % 8), by simp [noteEcc, b2n]⟩

theorem noteEcc_pattern_ue_bit : (c.noteEcc 1 true off).bit .wdStat F.WdStat.UE = true := by
  rw [noteEcc_pattern_ue, bit_bbEvent _ _ _ _ (by decide)]
  exact bit_flag_same _ _ ⟨by decide, by decide⟩

theorem noteEcc_pattern_ue_counts : Counts c (c.noteEcc 1 true off) .wdEcc F.WdEcc.PM_UE 1 := by
  rw [noteEcc_pattern_ue, Counts, fld_bbEvent _ _ _ _ (by decide), fld, rd_flag_other _ (by decide)]
  exact fld_tally_same c .wdEcc ⟨by decide, by decide⟩ 1

theorem noteEcc_pattern_ue_keeps : KeepsRegs c (c.noteEcc 1 true off) [.wdEcc, .wdStat, .bbStat] := by
  intro r hr
  simp only [List.forall_mem_cons, List.not_mem_nil, false_imp_iff, implies_true, and_true] at hr
  obtain ⟨hecc, hstat, hbb⟩ := hr
  rw [noteEcc_pattern_ue, rd_bbEvent _ _ _ _ hbb, rd_flag_other _ hstat, rd_tally_other _ hecc]

/-- A correctable error of pattern memory is flagged. -/
theorem noteEcc_pattern_ce_bit : (c.noteEcc 1 false off).bit .wdStat F.WdStat.CE = true :=
  bit_flag_same _ _ ⟨by decide, by decide⟩

/-- The mark of a correctable error is gone once the word has been read. -/
theorem noteEcc_pattern_ce_mark : Tab.get false (c.noteEcc 1 false off).eccCe off = false :=
  Tab.get_put_same false c.eccCe off false

theorem noteEcc_store_ue_bit : (c.noteEcc 0 true off).bit .thStat F.ThStat.TS_UE = true := by
  obtain ⟨place, h⟩ := c.noteEcc_store_ue off
  rw [h, bit_bbEvent _ _ _ _ (by decide), bit, rd_flag_other _ (by decide), rd_wr_other _ (by decide)]
  exact bit_flag_same _ _ ⟨by decide, by decide⟩

theorem noteEcc_store_ue_counts : Counts c (c.noteEcc 0 true off) .tsEcc F.TsEcc.UE_CNT 1 := by
  obtain ⟨place, h⟩ := c.noteEcc_store_ue off
  rw [h, Counts, fld_bbEvent _ _ _ _ (by decide), fld, rd_flag_other _ (by decide), rd_wr_other _ (by decide),
    rd_flag_other _ (by decide)]
  exact fld_tally_same c .tsEcc ⟨by decide, by decide⟩ 1

/-- The records stand, and the word keeps its mark. -/
theorem noteEcc_store_ue_keeps :
    (c.noteEcc 0 true off).threads = c.threads ∧ (c.noteEcc 0 true off).eccUe = c.eccUe := by
  obtain ⟨place, h⟩ := c.noteEcc_store_ue off
  simp [h]

end Errors

/-! A write of a thread's record (R81) -/

section Record

variable {c : Chip} {u : Nat} (k be : Nat) (w : Word)

/-- The record of a thread at work is not written. -/
theorem recordWrite_busy (h : ¬ ((c.thr u).st = .idle ∨ (c.thr u).st = .halted ∨ (c.thr u).st = .fault)) :
    c.recordWrite u k be w = (c.flag .thStat F.ThStat.REC_BUSY, false) := if_pos h

variable (h : (c.thr u).st = .idle ∨ (c.thr u).st = .halted ∨ (c.thr u).st = .fault)
include h

/-- A write of all 8 bytes of a word of a record at rest. -/
theorem recordWrite_whole :
    c.recordWrite u k 255 w = ((c.setThr u ((c.thr u).setWord k w)).clearEcc (recordAt u k), false) := by
  simp [recordWrite, h, mergeBytes_all]

/-- A write of some bytes of a word with an uncorrectable error is turned away, counted and flagged. -/
theorem recordWrite_ue (hbe : be % 256 ≠ 255) (hue : Tab.get false c.eccUe (recordAt u k) = true) :
    ∃ d, c.recordWrite u k be w = (d, true) ∧ d.threads = c.threads ∧ d.eccUe = c.eccUe ∧
      Counts c d .tsEcc F.TsEcc.UE_CNT 1 ∧ d.bit .thStat F.ThStat.TS_UE = true := by
  obtain ⟨threads, marks⟩ := c.noteEcc_store_ue_keeps (recordAt u k)
  exact ⟨c.noteEcc 0 true (recordAt u k), by simp [recordWrite, h, hbe, readEcc, hue], threads, marks,
    c.noteEcc_store_ue_counts _, c.noteEcc_store_ue_bit _⟩

end Record

end Chip

/-! A word of a memory, by the memory that holds it (R21) -/

section Words

variable (s : State) {off : Nat} (be : Nat) (w : Word)

/-- A byte outside the word written reads as before. -/
theorem State.memWrite_other_byte {x : Nat} (hx : x < off ∨ off + 8 ≤ x) :
    Tab.get 0#8 (s.memWrite off be w).1.mem x = Tab.get 0#8 s.mem x := by
  rcases s.memWrite_mem_cases off be w with h | ⟨v, h⟩
  · rw [h]
  · rw [h]
    have := memByte_memPutWord s.mem off x v
    rwa [if_neg (by omega)] at this

theorem State.memWrite_prot : (s.memWrite off be w).1.prot = s.prot := by
  unfold State.memWrite
  split
  case h_1 | h_2 => rfl
  case h_3 => dsimp only; split <;> rfl
  case h_4 =>
    dsimp only
    repeat' split
    all_goals rfl

theorem State.memWrite_pattern (h : 0x400000 ≤ off ∧ off < 0x480000) : s.memWrite off be w =
    let r := s.chip.mergeRead 1 off be
    if r.2 then ({ s with chip := r.1 }, rspErr)
    else if be = 0 then ({ s with chip := r.1 }, rspOk)
    else ({ s with mem := memPutWord s.mem off (mergeBytes (memWord s.mem off) w be),
                   chip := (r.1.clearEcc off).dropLine (Chip.lineOf ((off - 0x400000) / 8)) }, rspOk) := by
  have hk : memKind off = some .pattern := by simp [memKind, h]
  simp [State.memWrite, hk]

theorem State.memWrite_map (h : 0x800000 ≤ off ∧ off < 0x900000) : s.memWrite off be w =
    let r := s.chip.mergeRead 2 off be
    if r.2 then ({ s with chip := r.1 }, rspErr)
    else if be = 0 then ({ s with chip := r.1 }, rspOk)
    else ({ s with mem := memPutWord s.mem off (mergeBytes (memWord s.mem off) w be &&& mapBits off),
                   chip := r.1.clearEcc off }, rspOk) := by
  have hk : memKind off = some .map := by
    unfold memKind
    rw [if_neg (by omega), if_pos h]
  simp [State.memWrite, hk]

/-- A write of spool memory where no lane disagrees with its parity (R61). -/
theorem State.memWrite_spool (h : 0x2000000 ≤ off ∧ off < 0x2600000) (hl : s.chip.lanes = []) : s.memWrite off be w =
    let p := spoolPlace off
    ({ s with mem := memPutWord s.mem off (mergeBytes (memWord s.mem off) w be),
              chip := (s.chip.setLanes p.1 p.2.1 0).dropCopies p.1 p.2.1 }, rspOk) := by
  have hk : memKind off = some .spool := by
    unfold memKind
    rw [if_neg (by omega), if_neg (by omega), if_neg (by omega), if_pos h]
  simp [State.memWrite, hk, Chip.lanesAt, hl, Chip.noteParity, Chip.noteLanes]

end Words

section Record

variable {u k : Nat} (hu : u < 2 ^ 18) (hk : k < 8)
include hu hk

theorem memKind_recordAt : memKind (Chip.recordAt u k) = some .store := by
  unfold memKind Chip.recordAt
  rw [if_neg (by omega), if_neg (by omega), if_pos (by omega)]

theorem recordAt_toNat : (BitVec.ofNat 26 (Chip.recordAt u k)).toNat = Chip.recordAt u k := by
  rw [BitVec.toNat_ofNat, Nat.mod_eq_of_lt]
  unfold Chip.recordAt
  omega

theorem State.memWrite_record (s : State) (be : Nat) (w : Word) : s.memWrite (Chip.recordAt u k) be w =
    ({ s with chip := (s.chip.recordWrite u k be w).1 }, if (s.chip.recordWrite u k be w).2 then rspErr else rspOk) := by
  have hthread : (Chip.recordAt u k - 0x1000000) / 64 = u := by unfold Chip.recordAt; omega
  have hword : Chip.recordAt u k / 8 % 8 = k := by unfold Chip.recordAt; omega
  simp [State.memWrite, memKind_recordAt hu hk, hthread, hword]

end Record

/-! The accesses as commands (R17, R19) -/

section Access

variable {s : State} {a : BitVec 26} (hs : Ready s) (h8 : a.toNat % 8 = 0) (hlo : 0x400000 ≤ a.toNat)
include hs h8 hlo

theorem exec_memoryWindowWrite (be : BitVec 8) (w : Word) : exec (.memoryWindowWrite a be w) s =
    .next ((s.memWrite a.toNat be.toNat w).1.respond 0#64 (s.memWrite a.toNat be.toNat w).2) := by
  have hs' : s.chip.pwr.phase = .running := hs
  change execMemoryWindowWrite a be w s = _
  simp [execMemoryWindowWrite, isMemoryOffset, State.portAccess, State.csrWrite, hs', h8, hlo]

theorem exec_memoryWindowRead : exec (.memoryWindowRead a) s =
    .next ((s.memRead a.toNat).1.respond (s.memRead a.toNat).2.1 (s.memRead a.toNat).2.2) := by
  have hs' : s.chip.pwr.phase = .running := hs
  change execMemoryWindowRead a s = _
  simp [execMemoryWindowRead, isMemoryOffset, State.portAccess, State.csrRead, hs', h8, hlo]

end Access

theorem exec_recordWindowWrite {s : State} (hs : Ready s) {u k : Nat} (hu : u < 2 ^ 18) (hk : k < 8) {be : BitVec 8} {w : Word}
    {c : Chip} {turned : Bool} (h : s.chip.recordWrite u k be.toNat w = (c, turned)) :
    exec (.memoryWindowWrite (BitVec.ofNat 26 (Chip.recordAt u k)) be w) s =
      .next (State.respond { s with chip := c } 0#64 (if turned then rspErr else rspOk)) := by
  have ha := recordAt_toNat hu hk
  have h8 : Chip.recordAt u k % 8 = 0 := by unfold Chip.recordAt; omega
  have hlo : 0x400000 ≤ Chip.recordAt u k := by unfold Chip.recordAt; omega
  rw [exec_memoryWindowWrite hs (by rwa [ha]) (by rwa [ha]), ha, State.memWrite_record hu hk, h]

theorem exec_threadRecordWrite {s : State} (hs : Ready s) (u : Fin 262144) (k be : _) (w : Word) :
    exec (.threadRecordWrite u k be w) s = .next { s with chip := (s.chip.recordWrite u k be.toNat w).1 } := by
  have hs' : s.chip.pwr.phase = .running := hs
  change execThreadRecordWrite u k be w s = _
  simp [execThreadRecordWrite, State.chipStep, whenReady, hs']

/-! Words with no error (R19) -/

/-- The bits of a memory word that a write can set: all but the reserved bits of the map entries (R8). -/
abbrev keptBits (a : Nat) : Word := if 0x800000 ≤ a ∧ a < 0x900000 then mapBits a else 0xFFFFFFFFFFFFFFFF#64

theorem and_keptBits {a : Nat} (h : ¬ (0x800000 ≤ a ∧ a < 0x900000)) (w : Word) : w &&& keptBits a = w := by
  rw [keptBits, if_neg h]
  exact BitVec.and_allOnes

/-- A word with no mark is read without an error before it is merged. -/
theorem Chip.mergeRead_clean {c : Chip} (hu : c.eccUe = []) (hc : c.eccCe = []) (m off be : Nat) :
    c.mergeRead m off be = (c, false) := by
  simp [mergeRead, readEcc, hu, hc]

section Clean

variable {s : State} {off : Nat} (h : CleanWord s off)
include h

theorem cleanWord_low : 0x400000 ≤ off := by
  obtain ⟨-, hr, -⟩ := h
  omega

/-- A write of a word with no error merges the enabled bytes, completes with OK and changes no register, where the reserved
bits of the word are 0. -/
theorem State.memWrite_clean (be : Nat) (w : Word) (hres : memWord s.mem off &&& keptBits off = memWord s.mem off) :
    memWord (s.memWrite off be w).1.mem off = mergeBytes (memWord s.mem off) w be &&& keptBits off ∧
      (s.memWrite off be w).2 = rspOk ∧ (s.memWrite off be w).1.chip.regs = s.chip.regs := by
  obtain ⟨-, hr, hu, hc, hl⟩ := h
  have hread (m : Nat) := Chip.mergeRead_clean hu hc m off be
  rcases hr with hr | hr | hr
  · rw [and_keptBits (by omega), s.memWrite_pattern be w hr, hread]
    by_cases hb : be = 0
    · simp [hb, mergeBytes_none]
    · obtain ⟨nds, hd⟩ := (s.chip.clearEcc off).dropLine_only (Chip.lineOf ((off - 0x400000) / 8))
      simp [hb, hd, memWord_memPutWord]
  · rw [s.memWrite_map be w hr, hread]
    by_cases hb : be = 0
    · simp [hb, mergeBytes_none, hres]
    · simp [hb, memWord_memPutWord, keptBits, hr]
  · obtain ⟨sps, hd⟩ := (s.chip.setLanes (spoolPlace off).1 (spoolPlace off).2.1 0).dropCopies_only
      (spoolPlace off).1 (spoolPlace off).2.1
    rw [and_keptBits (by omega), s.memWrite_spool be w hr hl]
    simp [hd, memWord_memPutWord]

/-- A write that enables no byte leaves a map word as it is, its reserved bits too. -/
theorem State.memWrite_no_byte (hm : 0x800000 ≤ off ∧ off < 0x900000) (w : Word) : (s.memWrite off 0 w).1.mem = s.mem := by
  obtain ⟨-, -, hu, hc, -⟩ := h
  rw [s.memWrite_map 0 w hm, Chip.mergeRead_clean hu hc]
  rfl

theorem State.memRead_clean : s.memRead off = (s, memWord s.mem off, rspOk) := by
  obtain ⟨-, hr, hu, hc, hl⟩ := h
  unfold State.memRead memKind
  rcases hr with hr | hr | hr
  · rw [if_pos hr]
    simp [Chip.readEcc, hu, hc, State.memGet]
  · rw [if_neg (by omega), if_pos hr]
    simp [Chip.readEcc, hu, hc, State.memGet]
  · rw [if_neg (by omega), if_neg (by omega), if_neg (by omega), if_pos hr]
    simp [Chip.lanesAt, hl, Chip.noteParity, Chip.noteLanes, State.memGet]

end Clean

theorem windowWrite_clean {s : State} {a : BitVec 26} (hs : Ready s) (h : CleanWord s a.toNat)
    (hres : memWord s.mem a.toNat &&& keptBits a.toNat = memWord s.mem a.toNat) (be : BitVec 8) (w : Word) :
    Completes (.memoryWindowWrite a be w) s fun t =>
      memWord t.mem a.toNat = mergeBytes (memWord s.mem a.toNat) w be.toNat &&& keptBits a.toNat ∧
      (∀ x, (x < a.toNat ∨ a.toNat + 8 ≤ x) → Tab.get 0#8 t.mem x = Tab.get 0#8 s.mem x) ∧
      t.chip.cpRsp.getLast? = some (0#64, rspOk) ∧ t.prot = s.prot ∧ t.chip.regs = s.chip.regs := by
  obtain ⟨hword, hcode, hregs⟩ := State.memWrite_clean h be.toNat w hres
  refine ⟨_, exec_memoryWindowWrite hs h.1 (cleanWord_low h) be w, hword, fun x hx => s.memWrite_other_byte _ w hx, ?_,
    s.memWrite_prot _ w, hregs⟩
  rw [hcode]
  exact Chip.respond_getLast? _ _ _

theorem windowRead_clean {s : State} {a : BitVec 26} (hs : Ready s) (h : CleanWord s a.toNat) :
    Completes (.memoryWindowRead a) s fun t =>
      t.chip.cpRsp.getLast? = some (memWord s.mem a.toNat, rspOk) ∧ t.mem = s.mem ∧ t.prot = s.prot ∧
      t.chip.regs = s.chip.regs := by
  refine ⟨_, exec_memoryWindowRead hs h.1 (cleanWord_low h), ?_⟩
  rw [State.memRead_clean h]
  exact ⟨Chip.respond_getLast? _ _ _, rfl, rfl, rfl⟩

/-! Words of pattern memory with an error (R19, R87) -/

section Pattern

variable {s : State} {a : BitVec 26}

theorem State.memRead_pattern (s : State) {off : Nat} (h : 0x400000 ≤ off ∧ off < 0x480000) : s.memRead off =
    ({ s with chip := (s.chip.readEcc 1 off).1 }, memWord s.mem off, if (s.chip.readEcc 1 off).2 then rspErr else rspOk) := by
  have hk : memKind off = some .pattern := by simp [memKind, h]
  simp [State.memRead, hk, State.memGet]

variable (hs : Ready s) (h8 : a.toNat % 8 = 0) (hlo : 0x400000 ≤ a.toNat) (hhi : a.toNat < 0x480000)
include hs h8 hlo hhi

theorem windowRead_pattern_ue (hue : Tab.get false s.chip.eccUe a.toNat = true) :
    Completes (.memoryWindowRead a) s fun t =>
      (t.chip.cpRsp.getLast?.map (·.2)) = some rspErr ∧ t.mem = s.mem ∧ t.chip.bit .wdStat F.WdStat.UE = true := by
  refine ⟨_, exec_memoryWindowRead hs h8 hlo, ?_⟩
  rw [s.memRead_pattern ⟨hlo, hhi⟩, show s.chip.readEcc 1 a.toNat = (s.chip.noteEcc 1 true a.toNat, true) from if_pos hue]
  exact ⟨by simp [State.respond], rfl, s.chip.noteEcc_pattern_ue_bit _⟩

theorem windowRead_pattern_ce (hue : Tab.get false s.chip.eccUe a.toNat = false)
    (hce : Tab.get false s.chip.eccCe a.toNat = true) :
    Completes (.memoryWindowRead a) s fun t =>
      t.chip.cpRsp.getLast? = some (memWord s.mem a.toNat, rspOk) ∧ t.mem = s.mem ∧
      Tab.get false t.chip.eccCe a.toNat = false ∧ t.chip.bit .wdStat F.WdStat.CE = true := by
  refine ⟨_, exec_memoryWindowRead hs h8 hlo, ?_⟩
  have hread : s.chip.readEcc 1 a.toNat = (s.chip.noteEcc 1 false a.toNat, false) := by simp [Chip.readEcc, hue, hce]
  rw [s.memRead_pattern ⟨hlo, hhi⟩, hread]
  exact ⟨Chip.respond_getLast? _ _ _, rfl, s.chip.noteEcc_pattern_ce_mark _, s.chip.noteEcc_pattern_ce_bit _⟩

theorem windowWrite_pattern_some (w : Word) {be : BitVec 8} (hue : Tab.get false s.chip.eccUe a.toNat = true)
    (hbe : be ≠ 255#8) :
    Completes (.memoryWindowWrite a be w) s fun t =>
      (t.chip.cpRsp.getLast?.map (·.2)) = some rspErr ∧ t.mem = s.mem ∧ t.chip.eccUe = s.chip.eccUe ∧
      Counts s.chip t.chip .wdEcc F.WdEcc.PM_UE 1 ∧ t.chip.bit .wdStat F.WdStat.UE = true ∧
      KeepsRegs s.chip t.chip [.wdEcc, .wdStat, .bbStat] := by
  have hbe' : be.toNat ≠ 255 := fun h => hbe (BitVec.eq_of_toNat_eq h)
  have hread : s.chip.mergeRead 1 a.toNat be.toNat = (s.chip.noteEcc 1 true a.toNat, true) := by
    simp [Chip.mergeRead, hbe', Chip.readEcc, hue]
  refine ⟨_, exec_memoryWindowWrite hs h8 hlo be w, ?_⟩
  rw [s.memWrite_pattern be.toNat w ⟨hlo, hhi⟩, hread]
  exact ⟨by simp [State.respond], rfl, by simp [State.respond, Chip.noteEcc_pattern_ue],
    s.chip.noteEcc_pattern_ue_counts _, s.chip.noteEcc_pattern_ue_bit _, s.chip.noteEcc_pattern_ue_keeps _⟩

theorem windowWrite_pattern_whole (w : Word) :
    Completes (.memoryWindowWrite a 255#8 w) s fun t =>
      t.chip.cpRsp.getLast? = some (0#64, rspOk) ∧ memWord t.mem a.toNat = w ∧
      Tab.get false t.chip.eccUe a.toNat = false ∧ Tab.get false t.chip.eccCe a.toNat = false ∧
      t.chip.regs = s.chip.regs := by
  refine ⟨_, exec_memoryWindowWrite hs h8 hlo _ w, ?_⟩
  obtain ⟨nds, hd⟩ := (s.chip.clearEcc a.toNat).dropLine_only (Chip.lineOf ((a.toNat - 0x400000) / 8))
  rw [s.memWrite_pattern _ w ⟨hlo, hhi⟩]
  simp [Chip.mergeRead, mergeBytes_all, hd, memWord_memPutWord, State.respond]

end Pattern

/-! Records of threads (R81) -/

/-- A thread at rest, whose record takes a write. -/
abbrev AtRest (s : State) (u : Nat) : Prop :=
  (s.chip.thr u).st = .idle ∨ (s.chip.thr u).st = .halted ∨ (s.chip.thr u).st = .fault

section Record

variable {s : State} (hs : Ready s)

theorem busy_bit (c : Chip) : (c.flag .thStat F.ThStat.REC_BUSY).bit .thStat F.ThStat.REC_BUSY = true :=
  Chip.bit_flag_same _ _ ⟨by decide, by decide⟩

theorem busy_keeps (c : Chip) : KeepsRegs c (c.flag .thStat F.ThStat.REC_BUSY) [.thStat] :=
  keepsRegs_wr c .thStat _

include hs

section Window

variable {u k : Nat} (hu : u < 2 ^ 18) (hk : k < 8) (w : Word)
include hu hk

theorem windowWrite_record_busy (be : BitVec 8) (h : ¬ AtRest s u) :
    Completes (.memoryWindowWrite (BitVec.ofNat 26 (Chip.recordAt u k)) be w) s fun t =>
      t.chip.cpRsp.getLast? = some (0#64, rspOk) ∧ t.chip.bit .thStat F.ThStat.REC_BUSY = true ∧
      t.chip.threads = s.chip.threads ∧ KeepsRegs s.chip t.chip [.thStat] ∧ KeepsOutside s t := by
  refine ⟨_, exec_recordWindowWrite hs hu hk (Chip.recordWrite_busy k _ w h), ?_⟩
  exact ⟨Chip.respond_getLast? _ _ _, busy_bit _, rfl, busy_keeps _, rfl, rfl, rfl⟩

variable (h : AtRest s u)
include h

theorem windowWrite_record_whole :
    Completes (.memoryWindowWrite (BitVec.ofNat 26 (Chip.recordAt u k)) 255#8 w) s fun t =>
      t.chip.cpRsp.getLast? = some (0#64, rspOk) ∧ t.chip.thr u = (s.chip.thr u).setWord k w ∧
      (∀ v, v ≠ u → t.chip.thr v = s.chip.thr v) ∧ Tab.get false t.chip.eccUe (Chip.recordAt u k) = false ∧
      t.chip.regs = s.chip.regs ∧ KeepsOutside s t := by
  refine ⟨_, exec_recordWindowWrite hs hu hk (Chip.recordWrite_whole k w h), ?_⟩
  exact ⟨Chip.respond_getLast? _ _ _, Chip.thr_setThr_same _ _ _, fun v hv => Chip.thr_setThr_other _ hv _,
    Chip.eccUe_clearEcc _ _, rfl, rfl, rfl, rfl⟩

theorem windowWrite_record_ue {be : BitVec 8} (hbe : be ≠ 255#8)
    (hue : Tab.get false s.chip.eccUe (Chip.recordAt u k) = true) :
    Completes (.memoryWindowWrite (BitVec.ofNat 26 (Chip.recordAt u k)) be w) s fun t =>
      (t.chip.cpRsp.getLast?.map (·.2)) = some rspErr ∧ t.chip.threads = s.chip.threads ∧
      t.chip.eccUe = s.chip.eccUe ∧ Counts s.chip t.chip .tsEcc F.TsEcc.UE_CNT 1 ∧
      t.chip.bit .thStat F.ThStat.TS_UE = true ∧ KeepsOutside s t := by
  have hbe' : be.toNat % 256 ≠ 255 := by
    rw [Nat.mod_eq_of_lt be.isLt]
    exact fun h => hbe (BitVec.eq_of_toNat_eq h)
  obtain ⟨d, turned, threads, marks, counts, flagged⟩ := Chip.recordWrite_ue k _ w h hbe' hue
  refine ⟨_, exec_recordWindowWrite hs hu hk turned, by simp [State.respond], threads, marks, counts, flagged, rfl, rfl, rfl⟩

end Window

section Command

variable (u : Fin 262144) (k : Fin 8) (w : Word)

theorem threadRecordWrite_whole (h : AtRest s u) :
    Completes (.threadRecordWrite u k 255#8 w) s fun t =>
      t.chip.thr u = (s.chip.thr u).setWord k w ∧ (∀ v, v ≠ u.val → t.chip.thr v = s.chip.thr v) ∧
      t.chip.regs = s.chip.regs ∧ Tab.get false t.chip.eccUe (Chip.recordAt u k) = false ∧
      t.chip.needles = s.chip.needles ∧ KeepsOutside s t := by
  refine ⟨_, exec_threadRecordWrite hs u k _ w, ?_⟩
  rw [show (255#8).toNat = 255 from rfl, Chip.recordWrite_whole k w h]
  exact ⟨Chip.thr_setThr_same _ _ _, fun v hv => Chip.thr_setThr_other _ hv _, rfl,
    Chip.eccUe_clearEcc _ _, rfl, rfl, rfl, rfl⟩

theorem threadRecordWrite_busy (h : ¬ AtRest s u) (be : BitVec 8) :
    Completes (.threadRecordWrite u k be w) s fun t =>
      t.chip.bit .thStat F.ThStat.REC_BUSY = true ∧ KeepsRegs s.chip t.chip [.thStat] ∧ OnlyRegs s.chip t.chip ∧
      KeepsOutside s t := by
  refine ⟨_, exec_threadRecordWrite hs u k be w, ?_⟩
  rw [Chip.recordWrite_busy k _ w h]
  exact ⟨busy_bit _, busy_keeps _, rfl, rfl, rfl, rfl⟩

end Command

end Record

/-! The words of a record (R80, R92) -/

/-- The field of a number that a word holds. -/
theorem fget_ofNat (n : Nat) {f : Fld} (hf : f.ok) : fget (BitVec.ofNat 64 n) f = n / 2 ^ f.lo % 2 ^ f.width := by
  obtain ⟨hle, hlt⟩ := hf
  apply Nat.eq_of_testBit_eq
  intro i
  rw [testBit_fget, BitVec.getLsbD_ofNat, Nat.testBit_mod_two_pow, Nat.testBit_div_two_pow, Nat.add_comm]
  by_cases hi : i < f.width
  · have h64 : i + f.lo < 64 := by unfold Fld.width at hi; omega
    simp [hi, h64]
  · simp [hi]

theorem b2n_bits (n i : Nat) : b2n (bits n i i == 1) = n / 2 ^ i % 2 := by
  have hw : i + 1 - i = 1 := by omega
  rw [bits, hw, Nat.pow_one]
  rcases Nat.mod_two_eq_zero_or_one (n / 2 ^ i) with h | h <;> simp [h, b2n]

namespace Thread

variable (th : Thread) (w : Word)

/-- Word 0 as written: GEN and STATE stand, everything else is the word's. -/
theorem word_zero_setWord : (th.setWord 0 w).word 0 =
    BitVec.ofNat 64 (th.gen * 2 ^ 40 + fget w ⟨39, 20⟩ * 2 ^ 20 + th.st.code * 2 ^ 16 + fget w ⟨15, 0⟩) := by
  simp only [setWord, word, b2n_bits]
  refine congrArg (BitVec.ofNat 64) ?_
  simp only [bits, fget, Fld.width]
  omega

/-- Word 1 as written, its spare bits 0. -/
theorem word_one_setWord : (th.setWord 1 w).word 1 = BitVec.ofNat 64 (fget w ⟨45, 0⟩) := by
  simp only [setWord, word, b2n_bits]
  refine congrArg (BitVec.ofNat 64) ?_
  simp only [bits, fget, Fld.width]
  omega

/-- KIND after a write of word 2: that of the word where R92 lists it (R10). -/
def kindAfter : Nat := if kindListed (fget w ⟨31, 28⟩) then fget w ⟨31, 28⟩ else th.kind

/-- Word 2 as written. -/
theorem word_two_setWord : (th.setWord 2 w).word 2 =
    BitVec.ofNat 64 (fget w ⟨55, 32⟩ * 2 ^ 32 + th.kindAfter w * 2 ^ 28 + fget w ⟨27, 0⟩) := rfl

/-- Word 3 as written, its spare bits 0. -/
theorem word_three_setWord : (th.setWord 3 w).word 3 =
    BitVec.ofNat 64 (fget w ⟨49, 24⟩ * 2 ^ 24 + fget w ⟨23, 0⟩) := rfl

/-- Words 4 to 7 hold two work registers each, and nothing else. -/
theorem word_register_setWord {k : Nat} (hk : 4 ≤ k) (hk8 : k < 8) : (th.setWord k w).word k = w := by
  obtain ⟨j, rfl⟩ : ∃ j, k = j + 4 := ⟨k - 4, by omega⟩
  have hlo : ((th.setWord (j + 4) w).reg (2 * j)) = BitVec.ofNat 32 w.toNat := by
    simp only [setWord, Nat.add_sub_cancel, reg, setReg]
    rw [Tab.get_put_other _ _ (by omega), Tab.get_put_same]
  have hhi : ((th.setWord (j + 4) w).reg (2 * j + 1)) = BitVec.ofNat 32 (w.toNat / 2 ^ 32) := by
    simp only [setWord, Nat.add_sub_cancel, reg, setReg, Tab.get_put_same]
  apply BitVec.eq_of_toNat_eq
  have hw := w.isLt
  simp only [word, Nat.add_sub_cancel, hlo, hhi, BitVec.toNat_ofNat]
  omega

/-- No write of a record changes STATE or GEN (R81). -/
theorem setWord_st_gen (k : Nat) : (th.setWord k w).st = th.st ∧ (th.setWord k w).gen = th.gen := by
  unfold setWord
  split <;> exact ⟨rfl, rfl⟩

theorem code_lt (st : TState) : st.code < 2 ^ 4 := by
  cases st <;> decide

theorem kindListed_iff {n : Nat} (hn : n < 2 ^ 4) : kindListed n = true ↔ n ∈ [0, 1, 2, 3, 4, 5, 6, 7, 8, 13, 14] := by
  revert n
  decide

/-- Word 0 field by field. -/
theorem fields_zero_setWord :
    fget ((th.setWord 0 w).word 0) ⟨39, 20⟩ = fget w ⟨39, 20⟩ ∧ fget ((th.setWord 0 w).word 0) ⟨15, 0⟩ = fget w ⟨15, 0⟩ ∧
    fget ((th.setWord 0 w).word 0) ⟨55, 40⟩ = th.gen % 2 ^ 16 ∧ fget ((th.setWord 0 w).word 0) ⟨19, 16⟩ = th.st.code := by
  have hcode := code_lt th.st
  have hhi := fget_lt w ⟨39, 20⟩
  have hlo := fget_lt w ⟨15, 0⟩
  simp only [Fld.width] at hhi hlo
  rw [word_zero_setWord]
  refine ⟨?_, ?_, ?_, ?_⟩ <;> rw [fget_ofNat _ ⟨by decide, by decide⟩] <;> simp only [Fld.width] <;> omega

/-- Word 2 field by field, where the KIND that stands fits its field as far as it reaches into the word. -/
theorem fields_two_setWord (hk : th.kind % 2 ^ 36 < 2 ^ 4) :
    fget ((th.setWord 2 w).word 2) ⟨55, 32⟩ = fget w ⟨55, 32⟩ ∧ fget ((th.setWord 2 w).word 2) ⟨27, 0⟩ = fget w ⟨27, 0⟩ ∧
    fget ((th.setWord 2 w).word 2) ⟨63, 56⟩ = 0 ∧
    fget ((th.setWord 2 w).word 2) ⟨31, 28⟩ =
      (if fget w ⟨31, 28⟩ ∈ [0, 1, 2, 3, 4, 5, 6, 7, 8, 13, 14] then fget w ⟨31, 28⟩ else th.kind % 2 ^ 4) := by
  have hx := fget_lt w ⟨55, 32⟩
  have ha := fget_lt w ⟨27, 0⟩
  have hn := fget_lt w ⟨31, 28⟩
  simp only [Fld.width] at hx ha hn
  have after : th.kindAfter w % 2 ^ 36 < 2 ^ 4 ∧ th.kindAfter w % 2 ^ 4 =
      (if fget w ⟨31, 28⟩ ∈ [0, 1, 2, 3, 4, 5, 6, 7, 8, 13, 14] then fget w ⟨31, 28⟩ else th.kind % 2 ^ 4) := by
    simp only [kindAfter, kindListed_iff hn]
    split <;> omega
  obtain ⟨hfit, hkind⟩ := after
  rw [word_two_setWord, ← hkind]
  refine ⟨?_, ?_, ?_, ?_⟩ <;> rw [fget_ofNat _ ⟨by decide, by decide⟩] <;> simp only [Fld.width] <;> omega

/-- A KIND that does not fit shows in the spare bits of word 2 or in BXING, after a write whose KIND R92 does not list. -/
theorem kind_fits_of_fields (h : ∀ w : Word, fget ((th.setWord 2 w).word 2) ⟨55, 32⟩ = fget w ⟨55, 32⟩ ∧
    fget ((th.setWord 2 w).word 2) ⟨63, 56⟩ = 0) : th.kind % 2 ^ 36 < 2 ^ 4 := by
  obtain ⟨hx, hs⟩ := h (BitVec.ofNat 64 (9 * 2 ^ 28))
  have hkind : th.kindAfter (BitVec.ofNat 64 (9 * 2 ^ 28)) = th.kind := rfl
  rw [word_two_setWord, hkind, fget_ofNat _ ⟨by decide, by decide⟩] at hx hs
  simp only [Fld.width, fget_ofNat _ (f := ⟨55, 32⟩) ⟨by decide, by decide⟩,
    fget_ofNat _ (f := ⟨27, 0⟩) ⟨by decide, by decide⟩] at hx hs
  omega

end Thread

/-! The statement, and the two clauses of it that fail -/

/-- The reserved bits of the map words without a mark are 0, in every state in which the block runs. -/
def ReservedBitsClear : Prop :=
  ∀ (s : State) (a : BitVec 26), Ready s → CleanWord s a.toNat → 0x800000 ≤ a.toNat ∧ a.toNat < 0x900000 →
    memWord s.mem a.toNat &&& mapBits a.toNat = memWord s.mem a.toNat

/-- KIND fits its 4 bits, as far as it reaches into word 2 of the record, in every value of the record. -/
def KindsFit : Prop := ∀ th : Thread, th.kind % 2 ^ 36 < 2 ^ 4

/-- Every other clause on the memory windows holds, so the statement stands or falls with these two. -/
theorem memoryWindows_iff : Obligations.MemoryWindows ↔ ReservedBitsClear ∧ KindsFit := by
  unfold Obligations.MemoryWindows
  constructor
  · rintro ⟨writes, -, -, words, -⟩
    refine ⟨fun s a hs hc hm => ?_, fun th => th.kind_fits_of_fields fun w => ?_⟩
    · obtain ⟨t, ht, hword, -⟩ := writes s a 0#8 0#64 hs hc
      rw [exec_memoryWindowWrite hs hc.1 (cleanWord_low hc)] at ht
      cases ht
      have same : (s.memWrite a.toNat 0 0#64).1.mem = s.mem := State.memWrite_no_byte hc hm _
      rw [if_pos hm, show (0#8).toNat = 0 from rfl, State.respond_mem, same, mergeBytes_none] at hword
      exact hword.symm
    · obtain ⟨-, -, -, -, -, -, -, hx, -, hspare, -⟩ := words th w
      exact ⟨hx, hspare⟩
  · rintro ⟨reserved, kinds⟩
    refine ⟨fun s a be w hs hc => windowWrite_clean hs hc ?_ be w, fun s a hs => ⟨windowRead_clean hs, ?_, ?_⟩,
      ⟨fun s a be w hs h8 hlo hhi hue => ⟨windowWrite_pattern_some hs h8 hlo hhi w hue, ?_⟩,
        fun s u k be w hs hu hk => ⟨fun h => ?_, ?_, fun h => windowWrite_record_ue hs hu hk w h⟩⟩,
      fun th w => ?_, fun s u k w hs => ⟨threadRecordWrite_whole hs u k w, fun h₁ h₂ h₃ => ?_⟩⟩
    · by_cases hm : 0x800000 ≤ a.toNat ∧ a.toNat < 0x900000
      · rw [keptBits, if_pos hm]
        exact reserved s a hs hc hm
      · exact and_keptBits hm _
    · exact fun h8 hlo hhi => windowRead_pattern_ue hs h8 hlo hhi
    · exact fun h8 hlo hhi => windowRead_pattern_ce hs h8 hlo hhi
    · rintro rfl
      exact windowWrite_pattern_whole hs h8 hlo hhi w
    · exact windowWrite_record_busy hs hu hk w be (by tauto)
    · rintro h rfl
      exact windowWrite_record_whole hs hu hk w h
    · obtain ⟨hhi, hlo, hgen, hst⟩ := th.fields_zero_setWord w
      obtain ⟨hx, ha, hspare, hkind⟩ := th.fields_two_setWord w (kinds th)
      exact ⟨fun k => th.word_register_setWord w, hhi, hlo, hgen, (th.setWord_st_gen w 0).2, hst, th.word_one_setWord w,
        hx, ha, hspare, hkind, th.word_three_setWord w, fun k _ => th.setWord_st_gen w k⟩
    · exact threadRecordWrite_busy hs u k w (by tauto)

/-- The block runs, and a reserved bit of the first CMAP entry of configuration set 0 is 1. -/
def reservedBitSet : State :=
  { pending := [], mem := [(0x860000, 0x01#8)], prot := { regs := [] },
    chip := { Chip.reset with pwr := { Power.start with phase := .running } } }

/-- Refutes O7: a write of a memory window that enables no byte writes nothing, and its first clause speaks of every state in
which the block runs, so also of one in which a map word holds a reserved bit (`reservedBitSet`): the bit stays 1 there. The
writes of the windows do not lead there, for they mask the reserved bits (`State.memWrite_map`). The clause on word 2 of
a record fails too, for a KIND that does not fit its 4 bits; every other clause holds (`memoryWindows_iff`). -/
theorem not_memoryWindows : ¬ Obligations.MemoryWindows := by
  rw [memoryWindows_iff]
  rintro ⟨reserved, -⟩
  have clear := reserved reservedBitSet 0x860000#26 rfl (by unfold CleanWord; decide) (by decide)
  exact absurd clear (by decide)

end Sys2Proof.Machine

/-! PROOFS of the statements of 02_orbit_timebase.md. O8: the crossing arithmetic and the crossing operands. -/

namespace Sys2Proof.Machine

/-! Crossings (R26) -/

section Crossing

variable {l x : Nat} (n : Nat) (hl : 0 < l) (hl2 : l ≤ 4096)
include hl hl2

/-- The crossing n crossings on, in orbits and slots. -/
theorem advance_parts : advance l x n / 4096 = x / 4096 + (x % 4096 + n) / l ∧
    advance l x n % 4096 = (x % 4096 + n) % l := by
  have hs : (x % 4096 + n) % l < 4096 := lt_of_lt_of_le (Nat.mod_lt _ hl) hl2
  unfold advance
  dsimp only
  omega

theorem advance_slot_lt : advance l x n % 4096 < l := by
  rw [(advance_parts n hl hl2).2]
  exact Nat.mod_lt _ hl

theorem dist_advance : dist l (advance l x n) x = n := by
  obtain ⟨ho, hs⟩ := advance_parts (x := x) n hl hl2
  have hdiv := Nat.div_add_mod (x % 4096 + n) l
  unfold dist
  rw [ho, hs]
  generalize (x % 4096 + n) / l = q at *
  generalize (x % 4096 + n) % l = r at *
  push_cast
  have hdiv' : (l : Int) * q + r = ((x % 4096 : Nat) : Int) + n := by exact_mod_cast hdiv
  push_cast at hdiv'
  linear_combination hdiv'

theorem retreat_advance (hx : x % 4096 < l) : retreat l (advance l x n) n = x := by
  obtain ⟨ho, hs⟩ := advance_parts (x := x) n hl hl2
  have hdiv := Nat.div_add_mod' (x % 4096 + n) l
  have back : (x / 4096 + (x % 4096 + n) / l) * l + (x % 4096 + n) % l - n = x / 4096 * l + x % 4096 := by
    rw [Nat.add_mul]; omega
  unfold retreat
  dsimp only
  rw [ho, hs, back, Nat.mul_comm (x / 4096) l, Nat.mul_add_div hl, Nat.mul_add_mod, Nat.div_eq_of_lt hx, Nat.mod_eq_of_lt hx]
  omega

end Crossing

/-- A distance is that of the other way, negated. -/
theorem dist_neg (l a b : Nat) : dist l b a = -dist l a b := by
  unfold dist
  ring

/-- The value of w bits with a sign that stands for a difference is the difference, less a multiple of 2^w, and lies in the
range of w bits. -/
theorem signed_unsigned (w : Nat) (hw : 0 < w) (d : Int) :
    ∃ k : Int, signed w (unsigned w d) = d - 2 ^ w * k ∧ -2 ^ (w - 1) ≤ signed w (unsigned w d) ∧
      signed w (unsigned w d) < 2 ^ (w - 1) := by
  have hp : (2 : Int) ^ w = 2 * 2 ^ (w - 1) := by
    rw [← pow_succ', Nat.sub_add_cancel hw]
  have hpos : (0 : Int) < 2 ^ (w - 1) := by positivity
  have hn : (((2 ^ w : Nat) : Int)) = 2 ^ w := by push_cast; rfl
  have h0 := Int.emod_nonneg d (b := 2 ^ w) (by omega)
  have h1 := Int.emod_lt_of_pos d (b := 2 ^ w) (by omega)
  have hd := Int.emod_add_mul_ediv d (2 ^ w)
  have hu : ((unsigned w d % 2 ^ w : Nat) : Int) = d % 2 ^ w := by
    unfold unsigned
    push_cast
    rw [Int.toNat_of_nonneg h0, Int.emod_emod_of_dvd _ dvd_rfl]
  unfold signed
  dsimp only
  split
  · rename_i h
    obtain ⟨h, -⟩ := h
    have h' : (2 : Int) ^ w ≤ 2 * (d % 2 ^ w) := by rw [← hu]; exact_mod_cast h
    exact ⟨d / 2 ^ w + 1, by rw [hu, hn]; linarith, by rw [hu, hn]; linarith, by rw [hu, hn]; linarith⟩
  · rename_i h
    have h' : 2 * (d % 2 ^ w) < (2 : Int) ^ w := by
      rw [← hu]
      exact_mod_cast Nat.lt_of_not_le fun hle => h ⟨hle, hw⟩
    exact ⟨d / 2 ^ w, by rw [hu]; linarith, by rw [hu]; linarith, by rw [hu]; linarith⟩

/-! Crossing operands (R108) -/

/-- The 32-bit value of a crossing operand: the immediate, or the register's sum with it (R108). -/
def operandValue (th : Thread) (ws rs imm : Nat) : Nat := if rs = 1 then ((th.reg ws).toNat + imm) % 2 ^ 32 else imm

theorem operandValue_lt (th : Thread) (ws rs : Nat) {imm : Nat} (h : imm < 2 ^ 32) : operandValue th ws rs imm < 2 ^ 32 := by
  unfold operandValue
  split
  · exact Nat.mod_lt _ (by decide)
  · exact h

/-- MODE 0 away from the ends of the counter: the orbit nearest the counter's with the low bits given. -/
theorem crossingOperand_absolute (th : Thread) (l n ws rs imm : Nat) (hi : imm < 2 ^ 32) (hlo : 2 ^ 19 ≤ n / 4096)
    (hhi : n / 4096 + 2 ^ 19 < 2 ^ 52) :
    let v := operandValue th ws rs imm
    ∃ x, crossingOperand th l n ws 0 rs imm = some x ∧ x % 4096 = v % 4096 ∧ x / 4096 % 2 ^ 20 = v / 4096 ∧
      n / 4096 ≤ x / 4096 + 2 ^ 19 ∧ x / 4096 < n / 4096 + 2 ^ 19 := by
  intro v
  have hv : v < 2 ^ 32 := operandValue_lt th ws rs hi
  obtain ⟨k, hk, hdlo, hdhi⟩ := signed_unsigned 20 (by decide) ((v / 4096 : Nat) - ((n / 4096 : Nat) : Int))
  unfold crossingOperand
  simp only [show (if rs = 1 then ((th.reg ws).toNat + imm) % 2 ^ 32 else imm) = v from rfl]
  generalize signed 20 (unsigned 20 ((v / 4096 : Nat) - ((n / 4096 : Nat) : Int))) = d at *
  generalize n / 4096 = o at *
  rw [if_neg (by omega)]
  refine ⟨_, rfl, ?_⟩
  have hx : ((o + d).toNat : Int) = o + d := Int.toNat_of_nonneg (by omega)
  generalize (o + d).toNat = y at *
  omega

/-- MODE 1: the crossing as many crossings ahead. -/
theorem crossingOperand_ahead (th : Thread) (l n ws rs imm : Nat) (hl : 0 < l) (hl2 : l ≤ 4096) :
    ∃ x, crossingOperand th l n ws 1 rs imm = some x ∧ dist l x n = operandValue th ws rs imm ∧ x % 4096 < l :=
  ⟨_, rfl, dist_advance _ hl hl2, advance_slot_lt _ hl hl2⟩

/-- MODE 2 without a bound crossing. -/
theorem crossingOperand_unbound {th : Thread} (h : th.bv = false) (l n ws rs imm : Nat) :
    crossingOperand th l n ws 2 rs imm = none := by
  simp [crossingOperand, h]

/-- Settles O8: the arithmetic of R26 from the parts of `advance`, and one lemma per MODE of R108. -/
theorem crossings : Obligations.Crossings := by
  unfold Obligations.Crossings
  refine ⟨fun l x n hl hl2 hx => ?_, fun th l n ws rs imm hi => ⟨fun hlo hhi => ?_, fun hl hl2 _ => ?_, fun hbv => ?_⟩⟩
  · refine ⟨advance_slot_lt n hl hl2, dist_advance n hl hl2, ?_, retreat_advance n hl hl2 hx, ?_, ?_⟩
    · rw [dist_neg, dist_advance n hl hl2]
    · simp [dist]
    · unfold advance
      dsimp only
      rw [Nat.add_zero, Nat.div_eq_of_lt hx, Nat.mod_eq_of_lt hx]
      omega
  · exact crossingOperand_absolute th l n ws rs imm hi hlo hhi
  · exact crossingOperand_ahead th l n ws rs imm hl hl2
  · exact crossingOperand_unbound hbv l n ws rs imm

end Sys2Proof.Machine

/-! PROOFS of the statements of 02_orbit_timebase.md, continued. What a command leaves of the registers, and the alignment state.
O9: the beam clock, running and stopping, and missed markers. O10: the geometry, loads and resyncs. -/

namespace Sys2Proof.Machine

/-! Registers that are kept -/

namespace Chip

section Keeps

variable {c d e : Chip} {l : List Reg}

theorem keeps_refl (c : Chip) (l : List Reg) : KeepsRegs c c l := fun _ _ => rfl

theorem keeps_trans (h : KeepsRegs c d l) (k : KeepsRegs d e l) : KeepsRegs c e l := fun r hr => (k r hr).trans (h r hr)

theorem keeps_mono {m : List Reg} (h : KeepsRegs c d m) (hm : m ⊆ l) : KeepsRegs c d l :=
  fun r hr => h r fun q hq => hr q (hm hq)

theorem keeps_of_regs (h : d.regs = c.regs) : KeepsRegs c d l := fun r _ => by simp only [rd, h]

/-- A register at none of the offsets listed reads as before. -/
theorem rd_of_keeps (h : KeepsRegs c d l) {r : Reg} (hr : (l.all fun q => r.offset != q.offset) = true) : d.rd r = c.rd r :=
  h r fun q hq => by simpa using List.all_eq_true.mp hr q hq

theorem fld_of_keeps (h : KeepsRegs c d l) {r : Reg} (hr : (l.all fun q => r.offset != q.offset) = true) (f : Fld) :
    d.fld r f = c.fld r f := congrArg (fget · f) (rd_of_keeps h hr)

theorem bit_of_keeps (h : KeepsRegs c d l) {r : Reg} (hr : (l.all fun q => r.offset != q.offset) = true) (f : Fld) :
    d.bit r f = c.bit r f := congrArg (fbit · f) (rd_of_keeps h hr)

variable (h : KeepsRegs c d l)
include h

theorem keeps_wr {r : Reg} (hr : r ∈ l) (w : Word) : KeepsRegs c (d.wr r w) l :=
  fun q hq => (rd_wr_other d (hq r hr) w).trans (h q hq)

theorem keeps_setF {r : Reg} (hr : r ∈ l) (f : Fld) (v : Nat) : KeepsRegs c (d.setF r f v) l := keeps_wr h hr _

theorem keeps_flag {r : Reg} (hr : r ∈ l) (f : Fld) : KeepsRegs c (d.flag r f) l := keeps_wr h hr _

theorem keeps_tally {r : Reg} (hr : r ∈ l) (f : Fld) (n : Nat) : KeepsRegs c (d.tally r f n) l := keeps_wr h hr _

theorem keeps_bbEvent (hr : Reg.bbStat ∈ l) (ty : Nat) (p0 p1 : Word) : KeepsRegs c (d.bbEvent ty p0 p1) l :=
  fun q hq => (rd_bbEvent d ty p0 p1 (hq _ hr)).trans (h q hq)

theorem keeps_ite {p : Prop} [Decidable p] (k : KeepsRegs c e l) : KeepsRegs c (if p then d else e) l := by
  split <;> assumption

end Keeps

/-! Fields of a register just written -/

theorem fld_flag_apart (c : Chip) (r : Reg) {f g : Fld} (hf : f.ok) (h : f.apart g) : (c.flag r f).fld r g = c.fld r g :=
  c.fld_setF_apart r hf h 1

theorem bit_flag_apart (c : Chip) (r : Reg) {f g : Fld} (hf : f.ok) (h : f.apart g) : (c.flag r f).bit r g = c.bit r g :=
  congrArg (· == 1) (c.fld_flag_apart r hf h)

theorem bit_setF_apart (c : Chip) (r : Reg) {f g : Fld} (hf : f.ok) (h : f.apart g) (v : Nat) :
    (c.setF r f v).bit r g = c.bit r g := congrArg (· == 1) (c.fld_setF_apart r hf h v)

/-- A four-state enable just written. -/
theorem en_setF_same (c : Chip) (r : Reg) {f : Fld} (hf : f.ok) (hw : f.width = 2) (e : En) :
    (c.setF r f e.code).en r f = e := by
  unfold en
  rw [c.fld_setF_same r hf, hw]
  cases e <;> rfl

/-! The alignment state (R43) -/

theorem armResync_regs (c : Chip) : c.armResync.regs = c.regs := by
  unfold armResync
  split <;> rfl

theorem armResync_of_armed {c : Chip} (h : c.tb.resync = true) : c.armResync = c := by simp [armResync, h]

/-- The state written, and the partial mean of the residuals discarded where the state moves to another than LOCKED. -/
def alignMoved (c : Chip) (st : Nat) : Chip :=
  let d := c.setF .otAlign F.OtAlign.STATE st
  if c.alignSt = st ∨ st = 3 then d else d.phaseDrop

section Align

variable (c : Chip) (st : Nat)

theorem alignMoved_keeps : KeepsRegs c (c.alignMoved st) [.otAlign, .calPhase] := by
  have h : KeepsRegs c (c.setF .otAlign F.OtAlign.STATE st) [.otAlign, .calPhase] := keeps_setF (keeps_refl _ _) (by simp) _ _
  exact keeps_ite h (keeps_setF (r := .calPhase) h (by simp) _ _)

theorem rd_alignMoved : (c.alignMoved st).rd .otAlign = fset (c.rd .otAlign) F.OtAlign.STATE st := by
  unfold alignMoved
  refine rd_ite (rd_setF_same ..) ?_
  exact (rd_setF_other _ (by decide) _ _).trans (rd_setF_same ..)

theorem alignMoved_tb : (c.alignMoved st).tb = c.tb := by
  unfold alignMoved
  dsimp only
  split <;> rfl

/-- What a move of the state does beside the state itself: nothing, BCLK_LOST with its event, or ALIGN_LOST with its event and,
at an entry into MISALIGNED, perhaps an armed resync. -/
theorem setAlign_cases :
    ((c.alignSt = st ∨ st < 5 ∨ 8 < st) ∧ c.setAlign st = c.alignMoved st) ∨
    (c.alignSt ≠ st ∧ st = 8 ∧ ∃ w, c.setAlign st = ((c.alignMoved st).flag .otStat F.OtStat.BCLK_LOST).bbEvent 0x06 w 0#64) ∨
    (c.alignSt ≠ st ∧ (st = 5 ∨ st = 6 ∨ st = 7) ∧ ∃ w,
      let d := ((c.alignMoved st).flag .otStat F.OtStat.ALIGN_LOST).bbEvent 0x06 w 0#64
      c.setAlign st = d ∨ (st = 6 ∧ c.setAlign st = d.armResync)) := by
  by_cases h : c.alignSt = st
  · exact .inl ⟨.inl h, by simp [setAlign, alignMoved, h]⟩
  · by_cases h8 : st = 8
    · refine .inr (.inl ⟨h, h8, ((c.alignMoved st).flag .otStat F.OtStat.BCLK_LOST).rd .otAlign, ?_⟩)
      unfold setAlign
      rw [if_neg h, if_neg (by omega), if_pos h8]
      rfl
    · by_cases h5 : st = 5 ∨ st = 6 ∨ st = 7
      · refine .inr (.inr ⟨h, h5, ((c.alignMoved st).flag .otStat F.OtStat.ALIGN_LOST).rd .otAlign, ?_⟩)
        by_cases h6 : st = 6 ∧ (((c.alignMoved st).flag .otStat F.OtStat.ALIGN_LOST).bbEvent 0x06
            (((c.alignMoved st).flag .otStat F.OtStat.ALIGN_LOST).rd .otAlign) 0#64).bit .otAlignCfg F.OtAlignCfg.AUTO_RESYNC
        · refine .inr ⟨h6.1, ?_⟩
          unfold setAlign
          rw [if_neg h, if_pos h5]
          exact if_pos h6
        · refine .inl ?_
          unfold setAlign
          rw [if_neg h, if_pos h5]
          exact if_neg h6
      · refine .inl ⟨by omega, ?_⟩
        unfold setAlign
        rw [if_neg h, if_neg h5, if_neg h8]
        rfl

theorem rd_setAlign : (c.setAlign st).rd .otAlign = fset (c.rd .otAlign) F.OtAlign.STATE st := by
  have hf (d : Chip) (f : Fld) (w : Word) : ((d.flag .otStat f).bbEvent 0x06 w 0#64).rd .otAlign = d.rd .otAlign :=
    (rd_bbEvent _ _ _ _ (by decide)).trans (rd_flag_other d (by decide) f)
  have ha (d : Chip) : d.armResync.rd .otAlign = d.rd .otAlign := by simp only [rd, armResync_regs]
  rcases c.setAlign_cases st with ⟨-, h⟩ | ⟨-, -, w, h⟩ | ⟨-, -, w, h | ⟨-, h⟩⟩
  · rw [h, rd_alignMoved]
  · rw [h, hf, rd_alignMoved]
  · rw [h, hf, rd_alignMoved]
  · rw [h, ha, hf, rd_alignMoved]

theorem alignSt_setAlign {st : Nat} (h : st < 16) : (c.setAlign st).alignSt = st := by
  unfold alignSt fld
  rw [rd_setAlign, fget_fset_same ⟨by decide, by decide⟩]
  exact Nat.mod_eq_of_lt h

/-- Another field of the register stands. -/
theorem fld_setAlign_apart {f : Fld} (h : F.OtAlign.STATE.apart f) : (c.setAlign st).fld .otAlign f = c.fld .otAlign f := by
  unfold fld
  rw [rd_setAlign, fget_fset_other ⟨by decide, by decide⟩ h]

theorem setAlign_keeps : KeepsRegs c (c.setAlign st) [.otAlign, .otStat, .calPhase, .bbStat] := by
  have hm : KeepsRegs c (c.alignMoved st) [.otAlign, .otStat, .calPhase, .bbStat] :=
    keeps_mono (c.alignMoved_keeps st) (by simp)
  have hf (f : Fld) (w : Word) : KeepsRegs c (((c.alignMoved st).flag .otStat f).bbEvent 0x06 w 0#64)
      [.otAlign, .otStat, .calPhase, .bbStat] := keeps_bbEvent (keeps_flag hm (by simp) f) (by simp) _ _ _
  rcases c.setAlign_cases st with ⟨-, h⟩ | ⟨-, -, w, h⟩ | ⟨-, -, w, h | ⟨-, h⟩⟩
  · rw [h]; exact hm
  · rw [h]; exact hf _ _
  · rw [h]; exact hf _ _
  · rw [h]; exact keeps_trans (hf _ _) (keeps_of_regs (armResync_regs _))

/-- A state below DRIFT is entered without a flag. -/
theorem setAlign_keeps_quiet {st : Nat} (h : st < 5) : KeepsRegs c (c.setAlign st) [.otAlign, .calPhase] := by
  rcases c.setAlign_cases st with ⟨-, hs⟩ | ⟨-, h8, -⟩ | ⟨-, h5, -⟩
  · rw [hs]; exact c.alignMoved_keeps st
  · omega
  · omega

theorem setAlign_tb {st : Nat} (h : st ≠ 6) : (c.setAlign st).tb = c.tb := by
  rcases c.setAlign_cases st with ⟨-, hs⟩ | ⟨-, -, w, hs⟩ | ⟨-, -, w, hs | ⟨h6, -⟩⟩
  · rw [hs, alignMoved_tb]
  · rw [hs, bbEvent_tb, flag_tb, alignMoved_tb]
  · rw [hs, bbEvent_tb, flag_tb, alignMoved_tb]
  · exact absurd h6 h

/-- A resync that is armed already stays armed as it is. -/
theorem setAlign_tb_of_armed (h : c.tb.resync = true) : (c.setAlign st).tb = c.tb := by
  rcases c.setAlign_cases st with ⟨-, hs⟩ | ⟨-, -, w, hs⟩ | ⟨-, -, w, hs | ⟨-, hs⟩⟩
  · rw [hs, alignMoved_tb]
  · rw [hs, bbEvent_tb, flag_tb, alignMoved_tb]
  · rw [hs, bbEvent_tb, flag_tb, alignMoved_tb]
  · rw [hs, armResync_of_armed (by rw [bbEvent_tb, flag_tb, alignMoved_tb, h]), bbEvent_tb, flag_tb, alignMoved_tb]

/-- The loss of the clock is flagged as NOCLK is entered. -/
theorem setAlign_noclk (h : c.alignSt ≠ 8) : (c.setAlign 8).bit .otStat F.OtStat.BCLK_LOST = true := by
  rcases c.setAlign_cases 8 with ⟨h8, -⟩ | ⟨-, -, w, hs⟩ | ⟨-, h5, -⟩
  · omega
  · rw [hs, bit_bbEvent _ _ _ _ (by decide)]
    exact bit_flag_same _ _ ⟨by decide, by decide⟩
  · omega

/-- The loss of alignment is flagged as LOST is entered. -/
theorem setAlign_lost (h : c.alignSt ≠ 7) : (c.setAlign 7).bit .otStat F.OtStat.ALIGN_LOST = true := by
  rcases c.setAlign_cases 7 with ⟨h7, -⟩ | ⟨-, h8, -⟩ | ⟨-, -, w, hs | ⟨h6, -⟩⟩
  · omega
  · omega
  · rw [hs, bit_bbEvent _ _ _ _ (by decide)]
    exact bit_flag_same _ _ ⟨by decide, by decide⟩
  · omega

/-- ALIGN_LOST and BCLK_LOST aside, the status bits stand. -/
theorem bit_otStat_setAlign {f : Fld} (h : 2 < f.lo) : (c.setAlign st).bit .otStat f = c.bit .otStat f := by
  have hm : (c.alignMoved st).bit .otStat f = c.bit .otStat f := bit_of_keeps (c.alignMoved_keeps st) (by decide) f
  have ha (d : Chip) : d.armResync.bit .otStat f = d.bit .otStat f := by simp only [bit, rd, armResync_regs]
  rcases c.setAlign_cases st with ⟨-, hs⟩ | ⟨-, -, w, hs⟩ | ⟨-, -, w, hs | ⟨-, hs⟩⟩
  · rw [hs, hm]
  · rw [hs, bit_bbEvent _ _ _ _ (by decide), bit_flag_apart _ _ ⟨by decide, by decide⟩ (.inl (by show 0 < _; omega)), hm]
  · rw [hs, bit_bbEvent _ _ _ _ (by decide), bit_flag_apart _ _ ⟨by decide, by decide⟩ (.inl h), hm]
  · rw [hs, ha, bit_bbEvent _ _ _ _ (by decide), bit_flag_apart _ _ ⟨by decide, by decide⟩ (.inl h), hm]

end Align
end Chip
end Sys2Proof.Machine

namespace Sys2Proof.Machine

/-! Commands that change the chip alone -/

/-- A command with a condition completes with its effect on the chip, where the condition holds. -/
theorem completes_when {i : Instr} {s : State} {P : State → Prop} {p : Prop} [Decidable p] {c d e : Chip}
    (hi : exec i s = .next { s with chip := if p then c else d }) (hp : p) (he : c = e) (hP : P { s with chip := e }) :
    Completes i s P :=
  ⟨_, by rw [hi, if_pos hp, he], hP⟩

theorem keepsOutside_chip (s : State) (d : Chip) : KeepsOutside s { s with chip := d } := ⟨rfl, rfl, rfl⟩

/-! The beam clock (R23, R43) -/

namespace Chip

/-- RUN stands over a move of the state. -/
theorem runEn_setAlign (c : Chip) (st : Nat) : (c.setAlign st).runEn = c.runEn :=
  congrArg En.dec (fld_of_keeps (c.setAlign_keeps st) (by decide) _)

theorem ctr_setAlign (c : Chip) (st : Nat) : (c.setAlign st).ctr = c.ctr :=
  congrArg BitVec.toNat (rd_of_keeps (c.setAlign_keeps st) (by decide))

/-- RUN just written. -/
theorem runEn_setF (c : Chip) (e : En) : (c.setF .otCtl F.OtCtl.RUN e.code).runEn = e :=
  c.en_setF_same .otCtl ⟨by decide, by decide⟩ rfl e

theorem ringMode_setF_run (c : Chip) (v : Nat) : (c.setF .otCtl F.OtCtl.RUN v).ringMode = c.ringMode :=
  c.bit_setF_apart .otCtl ⟨by decide, by decide⟩ (.inl (by decide)) v

theorem alignSt_setF_run (c : Chip) (v : Nat) : (c.setF .otCtl F.OtCtl.RUN v).alignSt = c.alignSt :=
  c.fld_setF_other (by decide) _ _ v

theorem ctr_setF_run (c : Chip) (v : Nat) : (c.setF .otCtl F.OtCtl.RUN v).ctr = c.ctr :=
  congrArg BitVec.toNat (c.rd_setF_other (by decide) _ v)

/-- The state at a loss of the beam clock, before a pending stop completes. -/
def clockGone (c : Chip) : Chip :=
  ({ c with tb := { c.tb with present := false } }.setF .otBclk F.OtBclk.MEAS 0).setAlign 8

/-- A loss of the clock completes a pending stop, and changes nothing else (log 14). -/
theorem bclkLost_cases {c : Chip} (h : c.tb.present = true) :
    ((c.runEn ≠ .stopping ∧ c.runEn ≠ .restart) ∧ c.bclkLost = c.clockGone) ∨
      ((c.runEn = .stopping ∨ c.runEn = .restart) ∧
        c.bclkLost = (c.clockGone.setF .otCtl F.OtCtl.RUN (c.runEn.complete true).code).dropLoads) := by
  have hrun : c.clockGone.runEn = c.runEn :=
    (runEn_setAlign _ 8).trans (congrArg En.dec (fld_setF_other _ (by decide) _ _ 0))
  have hlost : c.bclkLost = if c.clockGone.runEn = .stopping then (c.clockGone.setF .otCtl F.OtCtl.RUN 0).dropLoads
      else if c.clockGone.runEn = .restart then (c.clockGone.setF .otCtl F.OtCtl.RUN 1).dropLoads else c.clockGone :=
    if_neg (not_not_intro h)
  rw [hlost, hrun]
  cases hr : c.runEn with
  | off | running => exact .inl ⟨by simp, by simp⟩
  | stopping | restart => exact .inr ⟨by simp, by simp [En.complete, En.code]⟩

/-- RUN moves as at the completion of a stop, and no other register that `clockGone` does not name. -/
theorem bclkLost_runEn {c : Chip} (h : c.tb.present = true) : c.bclkLost.runEn = c.runEn.complete true := by
  have hrun : c.clockGone.runEn = c.runEn :=
    (runEn_setAlign _ 8).trans (congrArg En.dec (fld_setF_other _ (by decide) _ _ 0))
  rcases bclkLost_cases h with ⟨hr, hl⟩ | ⟨-, hl⟩ <;> rw [hl]
  · rw [hrun]
    revert hr
    cases c.runEn <;> simp [En.complete]
  · exact runEn_setF _ _

/-- What reads as after the loss itself: every register but DXW_OT_CTL. -/
theorem bclkLost_keeps {c : Chip} (h : c.tb.present = true) : KeepsRegs c.clockGone c.bclkLost [.otCtl] := by
  rcases bclkLost_cases h with ⟨-, hl⟩ | ⟨-, hl⟩ <;> rw [hl]
  · exact keeps_refl _ _
  · exact keeps_setF (keeps_refl _ _) (by simp) _ _

theorem bclkLost_present {c : Chip} (h : c.tb.present = true) : c.bclkLost.tb.present = false := by
  have hg : c.clockGone.tb.present = false := congrArg Timebase.present (setAlign_tb _ (by decide))
  rcases bclkLost_cases h with ⟨-, hl⟩ | ⟨-, hl⟩ <;> rw [hl]
  · exact hg
  · exact hg

end Chip

theorem bclkLost_completes {s : State} (hc : coreUp s.chip = true) (hp : s.chip.tb.present = true)
    (ha : s.chip.alignSt ≠ 8) : Completes .bclkLost s fun t =>
      t.chip.tb.present = false ∧ t.chip.alignSt = 8 ∧ t.chip.bit .otStat F.OtStat.BCLK_LOST = true ∧
      t.chip.fld .otBclk F.OtBclk.MEAS = 0 ∧ t.chip.ctr = s.chip.ctr ∧
      t.chip.runEn = s.chip.runEn.complete true ∧ KeepsOutside s t := by
  refine completes_when rfl hc rfl ?_
  have keeps := Chip.bclkLost_keeps hp
  refine ⟨Chip.bclkLost_present hp, ?_, ?_, ?_, ?_, Chip.bclkLost_runEn hp, keepsOutside_chip ..⟩
  · exact (Chip.fld_of_keeps keeps (by decide) _).trans (Chip.alignSt_setAlign _ (by decide))
  · refine (Chip.bit_of_keeps keeps (by decide) _).trans (Chip.setAlign_noclk _ ?_)
    exact fun h => ha ((Chip.fld_setF_other _ (by decide) _ _ 0).symm.trans h)
  · refine (Chip.fld_of_keeps keeps (by decide) _).trans ?_
    exact (Chip.fld_of_keeps (Chip.setAlign_keeps _ 8) (by decide) _).trans (Chip.fld_setF_same _ _ ⟨by decide, by decide⟩ 0)
  · refine congrArg BitVec.toNat ((Chip.rd_of_keeps keeps (by decide)).trans ?_)
    exact (Chip.rd_of_keeps (Chip.setAlign_keeps _ 8) (by decide)).trans (Chip.rd_setF_other _ (by decide) _ 0)

/-- The state that a return of the beam clock enters (R43). -/
def Chip.returnAlign (c : Chip) : Nat := if c.runEn = .off then 0 else if c.ringMode then 4 else 1

theorem Chip.returnAlign_lt (c : Chip) : c.returnAlign < 5 := by
  unfold returnAlign
  split
  · decide
  · split <;> decide

theorem bclkPresent_completes {s : State} (hc : coreUp s.chip = true) (hp : s.chip.tb.present = false) :
    Completes .bclkPresent s fun t =>
      t.chip.tb.present = true ∧ t.chip.alignSt = s.chip.returnAlign ∧ t.chip.ctr = s.chip.ctr ∧
      t.chip.runEn = s.chip.runEn ∧ KeepsOutside s t := by
  obtain ⟨d, hd, hregs, hpres⟩ : ∃ d : Chip, s.chip.bclkPresent = d.setAlign d.returnAlign ∧ d.regs = s.chip.regs ∧
      d.tb.present = true := ⟨_, if_neg (by simp [hp]), rfl, rfl⟩
  have hread (r : Reg) : d.rd r = s.chip.rd r := by simp only [Chip.rd, hregs]
  have hrun : d.runEn = s.chip.runEn := by simp only [Chip.runEn, Chip.en, Chip.fld, hread]
  have hmode : d.ringMode = s.chip.ringMode := by simp only [Chip.ringMode, Chip.bit, hread]
  have hst : d.returnAlign = s.chip.returnAlign := by rw [Chip.returnAlign, Chip.returnAlign, hrun, hmode]
  have hlt := s.chip.returnAlign_lt
  rw [hst] at hd
  refine completes_when rfl hc hd ⟨?_, Chip.alignSt_setAlign _ (by omega), ?_, ?_, keepsOutside_chip ..⟩
  · exact (congrArg Timebase.present (Chip.setAlign_tb _ (by omega))).trans hpres
  · exact (Chip.ctr_setAlign ..).trans (congrArg BitVec.toNat (hread _))
  · exact (Chip.runEn_setAlign ..).trans hrun

theorem bclkMeasure_completes {s : State} (p : BitVec 16) (hc : coreUp s.chip = true) (hp : s.chip.tb.present = true) :
    Completes (.bclkMeasure p) s fun t =>
      t.chip.fld .otBclk F.OtBclk.MEAS = p.toNat ∧ t.chip.fld .otBclk F.OtBclk.NOM = s.chip.fld .otBclk F.OtBclk.NOM ∧
      KeepsRegs s.chip t.chip [.otBclk, .otStat] ∧ OnlyRegs s.chip t.chip ∧ KeepsOutside s t := by
  refine completes_when rfl hc (if_neg (not_not_intro hp)) ?_
  have hf : KeepsRegs (s.chip.setF .otBclk F.OtBclk.MEAS p.toNat) ((s.chip.setF .otBclk F.OtBclk.MEAS p.toNat).flag
    .otStat F.OtStat.BCLK_OFFNOM) [.otStat] := Chip.keeps_flag (Chip.keeps_refl _ _) (by simp) _
  have judged {q : Prop} [Decidable q] : KeepsRegs (s.chip.setF .otBclk F.OtBclk.MEAS p.toNat)
      (if q then (s.chip.setF .otBclk F.OtBclk.MEAS p.toNat).flag .otStat F.OtStat.BCLK_OFFNOM
        else s.chip.setF .otBclk F.OtBclk.MEAS p.toNat) [.otStat] := Chip.keeps_ite hf (Chip.keeps_refl _ _)
  refine ⟨?_, ?_, ?_, Chip.only_ite (Chip.only_wr (Chip.only_wr (Chip.only_refl _) _ _) _ _) (Chip.only_wr (Chip.only_refl _) _ _), keepsOutside_chip ..⟩
  · refine (Chip.fld_of_keeps judged (by decide) _).trans ((Chip.fld_setF_same _ _ ⟨by decide, by decide⟩ _).trans ?_)
    exact Nat.mod_eq_of_lt p.isLt
  · exact (Chip.fld_of_keeps judged (by decide) _).trans (Chip.fld_setF_apart _ _ ⟨by decide, by decide⟩ (.inr (by decide)) _)
  · exact Chip.keeps_trans (Chip.keeps_setF (Chip.keeps_refl _ _) (by simp) _ _) (Chip.keeps_mono judged (by simp))

/-! Running and stopping (R29) -/

section Run

variable {s : State} (hs : Ready s)
include hs

theorem timebaseRun_completes (hr : s.chip.runEn = .off) : Completes .timebaseRun s fun t =>
      t.chip.runEn = .running ∧ t.chip.ctr = s.chip.ctr ∧
      (s.chip.tb.present = true → t.chip.alignSt = if s.chip.ringMode then 2 else 1) ∧
      (s.chip.tb.present = false → t.chip.alignSt = s.chip.alignSt) ∧ KeepsOutside s t := by
  have started : s.chip.runWrite 1 = (s.chip.setF .otCtl F.OtCtl.RUN 1).startedAlign := by
    simp [Chip.runWrite, hr, En.write, En.code]
  have hrun : (s.chip.setF .otCtl F.OtCtl.RUN 1).runEn = .running := s.chip.runEn_setF .running
  refine completes_when rfl hs started ?_
  by_cases hp : s.chip.tb.present = true
  · have hst : (if s.chip.ringMode then 2 else 1) < 5 := by split <;> decide
    have moved : (s.chip.setF .otCtl F.OtCtl.RUN 1).startedAlign =
        { s.chip.setF .otCtl F.OtCtl.RUN 1 with tb := { s.chip.tb with opening := true } }.setAlign
          (if s.chip.ringMode then 2 else 1) := by
      rw [← s.chip.ringMode_setF_run 1]
      exact if_neg (not_not_intro hp)
    rw [moved]
    exact ⟨(Chip.runEn_setAlign ..).trans hrun, (Chip.ctr_setAlign ..).trans (s.chip.ctr_setF_run 1),
      fun _ => Chip.alignSt_setAlign _ (by omega), fun h => absurd hp (by simp [h]), keepsOutside_chip ..⟩
  · have stays : (s.chip.setF .otCtl F.OtCtl.RUN 1).startedAlign =
        { s.chip.setF .otCtl F.OtCtl.RUN 1 with tb := { s.chip.tb with opening := true } } := if_pos hp
    rw [stays]
    exact ⟨hrun, s.chip.ctr_setF_run 1, fun h => absurd h hp, fun _ => s.chip.alignSt_setF_run 1, keepsOutside_chip ..⟩

theorem timebaseStop_pends (hr : s.chip.runEn = .running) (h2 : s.chip.alignSt ≠ 2) (h8 : s.chip.alignSt ≠ 8) :
    Completes .timebaseStop s fun t =>
      t.chip.runEn = .stopping ∧ t.chip.alignSt = s.chip.alignSt ∧ KeepsRegs s.chip t.chip [.otCtl] ∧
      OnlyRegs s.chip t.chip ∧ KeepsOutside s t := by
  have pends : s.chip.runWrite 0 = s.chip.setF .otCtl F.OtCtl.RUN En.stopping.code := by
    simp [Chip.runWrite, hr, En.write, h2, h8]
  refine completes_when rfl hs pends ?_
  exact ⟨s.chip.runEn_setF .stopping, s.chip.alignSt_setF_run _, Chip.keeps_setF (Chip.keeps_refl _ _) (by simp) _ _,
    Chip.only_wr (Chip.only_refl _) _ _, keepsOutside_chip ..⟩

theorem timebaseStop_at_once (hr : s.chip.runEn = .running) (h : s.chip.alignSt = 2 ∨ s.chip.alignSt = 8) :
    Completes .timebaseStop s fun t => t.chip.runEn = .off ∧ t.chip.ctr = s.chip.ctr ∧ KeepsOutside s t := by
  have stops : s.chip.runWrite 0 = (s.chip.setF .otCtl F.OtCtl.RUN En.off.code).stoppedAlign := by
    simp [Chip.runWrite, hr, En.write, h]
  have hrun : (s.chip.setF .otCtl F.OtCtl.RUN En.off.code).runEn = .off := s.chip.runEn_setF .off
  refine completes_when rfl hs stops ?_
  rw [Chip.stoppedAlign]
  split
  · exact ⟨(Chip.runEn_setAlign ..).trans hrun, (Chip.ctr_setAlign ..).trans (s.chip.ctr_setF_run _), keepsOutside_chip ..⟩
  · exact ⟨hrun, s.chip.ctr_setF_run _, keepsOutside_chip ..⟩

theorem timebaseModeWrite_off (m : Fin 2) (hr : s.chip.runEn = .off) : Completes (.timebaseModeWrite m) s fun t =>
      t.chip.fld .otCtl F.OtCtl.MODE = m ∧ t.chip.runEn = .off ∧ KeepsRegs s.chip t.chip [.otCtl] ∧
      OnlyRegs s.chip t.chip ∧ KeepsOutside s t := by
  by_cases hm : s.chip.fld .otCtl F.OtCtl.MODE = m
  · refine completes_when rfl hs (if_pos hm) ?_
    exact ⟨hm, hr, Chip.keeps_refl _ _, rfl, keepsOutside_chip ..⟩
  · refine completes_when rfl hs ((if_neg hm).trans (if_pos hr)) ?_
    refine ⟨(Chip.fld_setF_same _ _ ⟨by decide, by decide⟩ _).trans (Nat.mod_eq_of_lt m.isLt), ?_,
      Chip.keeps_setF (Chip.keeps_refl _ _) (by simp) _ _, Chip.only_wr (Chip.only_refl _) _ _, keepsOutside_chip ..⟩
    exact (congrArg En.dec (Chip.fld_setF_apart _ _ ⟨by decide, by decide⟩ (.inr (by decide)) _)).trans hr

theorem timebaseModeWrite_locked (m : Fin 2) (hr : s.chip.runEn ≠ .off) (hm : s.chip.fld .otCtl F.OtCtl.MODE ≠ m) :
    Completes (.timebaseModeWrite m) s fun t =>
      t.chip.bit .otStat F.OtStat.GEOM_LOCKED = true ∧ KeepsRegs s.chip t.chip [.otStat] ∧ OnlyRegs s.chip t.chip ∧
      KeepsOutside s t := by
  refine completes_when rfl hs ((if_neg hm).trans (if_neg hr)) ?_
  exact ⟨Chip.bit_flag_same _ _ ⟨by decide, by decide⟩, Chip.keeps_flag (Chip.keeps_refl _ _) (by simp) _,
    Chip.only_wr (Chip.only_refl _) _ _, keepsOutside_chip ..⟩

end Run

/-! Orbit starts without a marker (R43) -/

theorem markerMissed_completes {s : State} (hm : s.chip.ringMode = true) (hc : coreUp s.chip = true)
    (hr : s.chip.isRef = false) (h3 : 3 ≤ s.chip.alignSt) (h7 : s.chip.alignSt ≤ 7) : Completes .markerMissed s fun t =>
      Counts s.chip t.chip .otAlign F.OtAlign.MISSED 1 ∧
      t.chip.alignSt = (if s.chip.alignSt = 7 then 7 else 4) ∧ t.chip.ctr = s.chip.ctr ∧
      KeepsRegs s.chip t.chip [.otAlign, .calPhase] ∧ KeepsOutside s t := by
  obtain ⟨tb, missed⟩ : ∃ tb : Timebase, s.chip.markerMissed =
      if s.chip.alignSt = 3 ∨ s.chip.alignSt = 5 ∨ s.chip.alignSt = 6
        then ({ s.chip with tb := tb }.tally .otAlign F.OtAlign.MISSED 1).setAlign 4
        else { s.chip with tb := tb }.tally .otAlign F.OtAlign.MISSED 1  := by
    have h : ¬ (s.chip.alignSt < 3 ∨ s.chip.alignSt > 7 ∨ s.chip.isRef = true) := by simp [hr]; omega
    unfold Chip.markerMissed
    rw [if_neg h]
    exact ⟨_, rfl⟩
  generalize hcounted : { s.chip with tb := tb }.tally .otAlign F.OtAlign.MISSED 1 = counted at missed
  have hcount : Counts s.chip counted .otAlign F.OtAlign.MISSED 1 :=
    hcounted ▸ Chip.fld_tally_same _ _ ⟨by decide, by decide⟩ 1
  have hst : counted.alignSt = s.chip.alignSt := by
    unfold Chip.alignSt Chip.fld
    rw [← hcounted, Chip.tally, Chip.rd_wr_same, fget_fsat_other ⟨by decide, by decide⟩ (.inr (by decide))]
    rfl
  have hkeep : KeepsRegs s.chip counted [.otAlign, .calPhase] :=
    hcounted ▸ Chip.keeps_tally (Chip.keeps_refl _ _) (by simp) _ _
  refine completes_when rfl ⟨hm, hc⟩ missed ?_
  split
  · rename_i h
    refine ⟨(Chip.fld_setAlign_apart _ _ (.inl (by decide))).trans hcount, ?_, ?_, ?_, keepsOutside_chip ..⟩
    · rw [if_neg (by omega)]
      exact Chip.alignSt_setAlign _ (by decide)
    · exact (Chip.ctr_setAlign ..).trans (congrArg BitVec.toNat (Chip.rd_of_keeps hkeep (by decide)))
    · exact Chip.keeps_trans hkeep (Chip.setAlign_keeps_quiet _ (by decide))
  · refine ⟨hcount, ?_, congrArg BitVec.toNat (Chip.rd_of_keeps hkeep (by decide)), hkeep, keepsOutside_chip ..⟩
    show counted.alignSt = _
    rw [hst]
    split <;> omega

/-- The rules on markers do not apply to the reference (R246). -/
theorem markerMissed_reference {s : State} (hr : s.chip.isRef = true) : Completes .markerMissed s fun t => t = s := by
  have stands : s.chip.markerMissed = s.chip := if_pos (.inr (.inr hr))
  have hstep : exec .markerMissed s = .next s := by
    change s.chipStep (fun _ c => if c.ringMode = true ∧ coreUp c = true then c.markerMissed else c) = _
    rw [State.chipStep, stands, ite_self]
  exact ⟨s, hstep, rfl⟩

theorem holdoverExpire_waits {s : State} (hc : coreUp s.chip = true)
    (hm : s.chip.fld .otAlign F.OtAlign.MISSED + b2n s.chip.tb.missedOver < s.chip.fld .otAlignCfg F.OtAlignCfg.HOLD_ORBITS + 1) :
    Completes .holdoverExpire s fun t => t = s := by
  exact completes_when rfl hc (if_neg (by omega)) rfl

theorem holdoverExpire_lost {s : State} (hc : coreUp s.chip = true) (h4 : s.chip.alignSt = 4)
    (hm : s.chip.fld .otAlignCfg F.OtAlignCfg.HOLD_ORBITS + 1 ≤ s.chip.fld .otAlign F.OtAlign.MISSED + b2n s.chip.tb.missedOver) :
    Completes .holdoverExpire s fun t =>
      t.chip.alignSt = 7 ∧ t.chip.bit .otStat F.OtStat.ALIGN_LOST = true ∧ t.chip.ctr = s.chip.ctr ∧
      KeepsRegs s.chip t.chip [.otAlign, .otStat, .calPhase, .bbStat] ∧ KeepsOutside s t := by
  refine completes_when rfl hc (if_pos ⟨h4, hm⟩) ?_
  exact ⟨Chip.alignSt_setAlign _ (by decide), Chip.setAlign_lost _ (by omega), Chip.ctr_setAlign .., Chip.setAlign_keeps _ _,
    keepsOutside_chip ..⟩

/-- Settles O9: one lemma per event of the beam clock, per write of RUN and MODE, and per rule on missed markers. -/
theorem clockAndRun : Obligations.ClockAndRun := by
  unfold Obligations.ClockAndRun
  refine ⟨⟨fun s => bclkLost_completes, fun s => bclkPresent_completes, fun s p => bclkMeasure_completes p⟩,
    ⟨fun s hs => timebaseRun_completes hs, fun s hs => timebaseStop_pends hs, fun s hs => timebaseStop_at_once hs,
      fun s m hs => timebaseModeWrite_off hs m, fun s m hs => timebaseModeWrite_locked hs m⟩,
    fun s => markerMissed_completes, fun s => markerMissed_reference, fun s hc _ => holdoverExpire_waits hc,
    fun s => holdoverExpire_lost⟩

end Sys2Proof.Machine

/-! PROOFS of the statements of 02_orbit_timebase.md, continued. What the waking of threads leaves alone. O10: the geometry,
loads and resyncs. -/

namespace Sys2Proof.Machine

namespace Chip

/-! Threads that become READY (R90, R95) -/

/-- d is c after threads have become READY: it differs in the threads, the needles, the queue of needles that wait to wake, and
the registers that count and show them, which lie above the timebase's and the spools'. -/
structure Woken (c d : Chip) : Prop where
  only : d = { c with
    regs := d.regs, threads := d.threads, needles := d.needles, pwr := { c.pwr with wakeQ := d.pwr.wakeQ } }
  low : ∀ r : Reg, r.offset < 0x70000 → d.rd r = c.rd r

theorem Woken.refl (c : Chip) : Woken c c := ⟨rfl, fun _ _ => rfl⟩

section Woken

variable {c d e : Chip}

theorem Woken.trans (h : Woken c d) (k : Woken d e) : Woken c e := by
  refine ⟨?_, fun r hr => (k.low r hr).trans (h.low r hr)⟩
  have hk := k.only
  rw [h.only] at hk
  exact hk

theorem Woken.of_only (h : OnlyRegs c d) (low : ∀ r : Reg, r.offset < 0x70000 → d.rd r = c.rd r) : Woken c d :=
  ⟨by rw [show d = { c with regs := d.regs } from h], low⟩

omit d e in
theorem woken_parts (c : Chip) (ths : Tab Thread) (nds : Tab Needle) (q : List Nat) :
    Woken c { c with threads := ths, needles := nds, pwr := { c.pwr with wakeQ := q } } := ⟨rfl, fun _ _ => rfl⟩

theorem Woken.foldl {α : Type} {f : Chip → α → Chip} (hf : ∀ d a, Woken d (f d a)) (l : List α) (c : Chip) :
    Woken c (l.foldl f c) := by
  induction l generalizing c with
  | nil => exact .refl c
  | cons a l ih => exact (hf c a).trans (ih _)

variable (h : Woken c d)
include h

theorem Woken.tb : d.tb = c.tb := by rw [h.only]
theorem Woken.dec : d.dec = c.dec := by rw [h.only]
theorem Woken.svc : d.svc = c.svc := by rw [h.only]
theorem Woken.spools : d.spools = c.spools := by rw [h.only]
theorem Woken.phase : d.pwr.phase = c.pwr.phase := by rw [h.only]

end Woken

/-- One counter's event leaves every register below the counters' region alone, whatever counter it names. -/
theorem rd_bump_low (c : Chip) (ev n : Nat) (q : Option Nat) (i : Nat) {r : Reg} (hr : r.offset < 0x70000) :
    (c.bump ev n q i).rd r = c.rd r := by
  have h1 : r.offset ≠ (Reg.pmcCnt i).offset := by simp only [Reg.offset] at hr ⊢; omega
  have h2 : r.offset ≠ Reg.pmcCtl.offset := by simp only [Reg.offset] at hr ⊢; omega
  have hv : (c.setF (.pmcCnt i) F.PmcCnt.VALUE (c.fld (.pmcCnt i) F.PmcCnt.VALUE + n)).rd r = c.rd r := rd_setF_other c h1 _ _
  have ho := (rd_flag_other (c.setF (.pmcCnt i) F.PmcCnt.VALUE (c.fld (.pmcCnt i) F.PmcCnt.VALUE + n)) h1 F.PmcCnt.OVF).trans hv
  unfold bump
  exact rd_ite (rd_ite (rd_ite ((rd_flag_other _ h2 _).trans ho) ho) hv) rfl

theorem woken_bump (c : Chip) (ev n : Nat) (q : Option Nat) (i : Nat) : Woken c (c.bump ev n q i) :=
  .of_only (c.bump_only ev n q i) fun _ hr => c.rd_bump_low ev n q i hr

theorem woken_countOn (c : Chip) (lo k ev n : Nat) (q : Option Nat) : Woken c (c.countOn lo k ev n q) := by
  unfold countOn
  split
  · exact .refl c
  · exact .foldl (fun d j => d.woken_bump ev n q (lo + j)) _ c

theorem woken_cntNeedle (c : Chip) (nd ev n : Nat) : Woken c (c.cntNeedle nd ev n) := by
  unfold cntNeedle
  split
  · exact c.woken_countOn ..
  · exact .refl c

theorem woken_setPwr (c : Chip) (n v : Nat) : Woken c (c.setF (.ndlStat n) F.NdlStat.PWR v) :=
  .of_only rfl fun r hr => rd_setF_other c (by simp only [Reg.offset] at hr ⊢; omega) _ _

theorem woken_startWake (c : Chip) (n : Nat) : Woken c (c.startWake n) := by
  have hq : Woken c (c.unqueueWake n) := woken_parts c _ _ _
  unfold startWake
  split
  · exact .refl c
  · split
    · exact (hq.trans (woken_setPwr _ _ _)).trans (woken_cntNeedle ..)
    · split
      · exact hq.trans (woken_setPwr _ _ _)
      · exact .refl c
    · exact hq

theorem woken_wantClock (c : Chip) (n : Nat) : Woken c (c.wantClock n) := by
  unfold wantClock
  split
  · exact .refl c
  · dsimp only
    split
    · exact .foldl woken_startWake _ c
    · exact Woken.trans (woken_parts c _ _ _) (.foldl woken_startWake _ _)

theorem woken_enqueue (c : Chip) (t n : Nat) : Woken c (c.enqueue t n) := by
  have hst : Woken c ((c.setSt t .ready).cntStore 0x133 1) := Woken.trans (woken_parts c _ _ _) (woken_countOn ..)
  exact (hst.trans (woken_parts _ _ _ _)).trans (woken_wantClock ..)

theorem woken_makeReady (c : Chip) (t : Nat) : Woken c (c.makeReady t) := by
  unfold makeReady
  dsimp only
  split
  · split
    · exact c.woken_enqueue ..
    · exact woken_parts c _ _ _
  · split
    · exact c.woken_enqueue ..
    · split
      · exact woken_parts c _ _ _
      · split
        · exact Woken.trans (woken_parts c _ _ _) (woken_enqueue ..)
        · exact woken_parts c _ _ _

theorem woken_wake (c : Chip) (t : Nat) (f : Thread → Thread) : Woken c (c.wake t f) :=
  Woken.trans (woken_parts c _ _ _) (woken_makeReady ..)

theorem woken_decWake (c : Chip) (x word : Nat) (missing : Bool) : Woken c (c.decWake x word missing) :=
  .foldl (fun d t => d.woken_wake t _) _ c

/-- A change of the orbit length clears the decision record, and beside that only wakes threads (R192). -/
theorem woken_clearDec (c : Chip) : Woken { c with dec := [] } c.clearDec :=
  Woken.foldl (fun d (p : Nat × DecEntry) => d.woken_decWake p.2.x wordExp true) _ _

theorem clearDec_dec (c : Chip) : c.clearDec.dec = [] := c.woken_clearDec.dec

theorem rd_clearDec (c : Chip) {r : Reg} (hr : r.offset < 0x70000) : c.clearDec.rd r = c.rd r := c.woken_clearDec.low r hr

/-! The geometry (R30) -/

/-- The three fields of the geometry, written. -/
def setGeom (c : Chip) (w : Word) : Chip :=
  ((c.setF .otGeom F.OtGeom.OLEN (fget w F.OtGeom.OLEN)).setF .otGeom F.OtGeom.GAP (fget w F.OtGeom.GAP)).setF .otGeom
    F.OtGeom.DLAT (fget w F.OtGeom.DLAT)

theorem setGeom_fields (c : Chip) (w : Word) :
    (c.setGeom w).fld .otGeom F.OtGeom.OLEN = fget w F.OtGeom.OLEN ∧
      (c.setGeom w).fld .otGeom F.OtGeom.GAP = fget w F.OtGeom.GAP ∧
      (c.setGeom w).fld .otGeom F.OtGeom.DLAT = fget w F.OtGeom.DLAT := by
  have ho : F.OtGeom.OLEN.ok := ⟨by decide, by decide⟩
  have hg : F.OtGeom.GAP.ok := ⟨by decide, by decide⟩
  have hd : F.OtGeom.DLAT.ok := ⟨by decide, by decide⟩
  have written {f : Fld} (hf : f.ok) (d : Chip) : (d.setF .otGeom f (fget w f)).fld .otGeom f = fget w f :=
    (fld_setF_same d _ hf _).trans (Nat.mod_eq_of_lt (fget_lt w f))
  refine ⟨?_, ?_, written hd _⟩
  · exact (fld_setF_apart _ _ hd (.inr (by decide)) _).trans ((fld_setF_apart _ _ hg (.inr (by decide)) _).trans (written ho _))
  · exact (fld_setF_apart _ _ hd (.inr (by decide)) _).trans (written hg _)

/-- A valid write of an OFF timebase: the fields, the decision record cleared where L changes, and perhaps SLIPPED (R270). -/
theorem otGeomWrite_valid {c : Chip} {w : Word} (hr : c.runEn = .off) (hl : 15 ≤ fget w F.OtGeom.OLEN)
    (hg : 0 < fget w F.OtGeom.GAP) (hgl : fget w F.OtGeom.GAP ≤ fget w F.OtGeom.OLEN) :
    ∃ d, (d = if c.fld .otGeom F.OtGeom.OLEN = fget w F.OtGeom.OLEN then c.setGeom w else (c.setGeom w).clearDec) ∧
      (c.otGeomWrite w = d ∨ c.otGeomWrite w = d.flag .commitStat F.CommitStat.SLIPPED) := by
  refine ⟨_, rfl, ?_⟩
  unfold otGeomWrite
  rw [if_neg (not_not_intro hr), if_neg (by omega)]
  exact (ite_eq_or_eq _ _ _).symm

end Chip

section Geometry

variable {s : State} (w : Word) (hs : Ready s)
include hs

theorem otGeomWrite_completes (hr : s.chip.runEn = .off) (hl : 15 ≤ fget w F.OtGeom.OLEN) (hg : 0 < fget w F.OtGeom.GAP)
    (hgl : fget w F.OtGeom.GAP ≤ fget w F.OtGeom.OLEN) : Completes (.otGeomWrite w) s fun t =>
      t.chip.fld .otGeom F.OtGeom.OLEN = fget w F.OtGeom.OLEN ∧ t.chip.fld .otGeom F.OtGeom.GAP = fget w F.OtGeom.GAP ∧
      t.chip.fld .otGeom F.OtGeom.DLAT = fget w F.OtGeom.DLAT ∧
      (s.chip.fld .otGeom F.OtGeom.OLEN ≠ fget w F.OtGeom.OLEN → t.chip.dec = []) ∧
      (s.chip.fld .otGeom F.OtGeom.OLEN = fget w F.OtGeom.OLEN → t.chip.dec = s.chip.dec) ∧ KeepsOutside s t := by
  obtain ⟨d, hd, hw⟩ := Chip.otGeomWrite_valid hr hl hg hgl
  have hgeom : d.rd .otGeom = (s.chip.setGeom w).rd .otGeom := by
    rw [hd]
    exact Chip.rd_ite rfl (Chip.rd_clearDec _ (by decide))
  have hdec : d.dec = if s.chip.fld .otGeom F.OtGeom.OLEN = fget w F.OtGeom.OLEN then s.chip.dec else [] := by
    rw [hd]
    split
    · rfl
    · exact Chip.clearDec_dec _
  obtain ⟨e, he, hregs, hdecs⟩ : ∃ e, s.chip.otGeomWrite w = e ∧ e.rd .otGeom = d.rd .otGeom ∧ e.dec = d.dec := by
    rcases hw with hw | hw
    · exact ⟨_, hw, rfl, rfl⟩
    · exact ⟨_, hw, Chip.rd_flag_other _ (by decide) _, rfl⟩
  obtain ⟨ho, hga, hdl⟩ := s.chip.setGeom_fields w
  have hfld (f : Fld) : e.fld .otGeom f = (s.chip.setGeom w).fld .otGeom f := congrArg (fget · f) (hregs.trans hgeom)
  refine completes_when rfl hs he ⟨(hfld _).trans ho, (hfld _).trans hga, (hfld _).trans hdl, fun h => ?_, fun h => ?_,
    keepsOutside_chip ..⟩
  · rw [hdecs, hdec, if_neg h]
  · rw [hdecs, hdec, if_pos h]

theorem otGeomWrite_locked (hr : s.chip.runEn ≠ .off) : Completes (.otGeomWrite w) s fun t =>
      t.chip.bit .otStat F.OtStat.GEOM_LOCKED = true ∧ KeepsRegs s.chip t.chip [.otStat] ∧ OnlyRegs s.chip t.chip :=
  completes_when rfl hs (if_pos hr) ⟨Chip.bit_flag_same _ _ ⟨by decide, by decide⟩,
    Chip.keeps_flag (Chip.keeps_refl _ _) (by simp) _, Chip.only_wr (Chip.only_refl _) _ _⟩

theorem otGeomWrite_bad (hr : s.chip.runEn = .off)
    (h : fget w F.OtGeom.OLEN < 15 ∨ fget w F.OtGeom.GAP = 0 ∨ fget w F.OtGeom.OLEN < fget w F.OtGeom.GAP) :
    Completes (.otGeomWrite w) s fun t =>
      t.chip.bit .otStat F.OtStat.GEOM_BAD = true ∧ KeepsRegs s.chip t.chip [.otStat] ∧ OnlyRegs s.chip t.chip :=
  completes_when rfl hs ((if_neg (not_not_intro hr)).trans (if_pos h)) ⟨Chip.bit_flag_same _ _ ⟨by decide, by decide⟩,
    Chip.keeps_flag (Chip.keeps_refl _ _) (by simp) _, Chip.only_wr (Chip.only_refl _) _ _⟩

end Geometry

/-! Loads and resyncs (R45, R48) -/

section Load

variable {s : State} (hs : Ready s)
include hs

theorem loadGo_stopped (ha : s.chip.alignSt = 0) (hv : (s.chip.rd .otLoad).toNat % 4096 < s.chip.olen) :
    Completes .loadGo s fun t =>
      t.chip.rd .otXing = s.chip.rd .otLoad ∧ t.chip.rd .otStepFrom = s.chip.rd .otXing ∧
      KeepsRegs s.chip t.chip [.otXing, .otStepFrom] ∧ KeepsOutside s t := by
  refine completes_when rfl hs ((if_neg (by omega)).trans (if_pos ha)) ⟨Chip.rd_wr_same .., ?_, ?_, keepsOutside_chip ..⟩
  · exact (Chip.rd_wr_other _ (by decide) _).trans (Chip.rd_wr_same ..)
  · exact Chip.keeps_wr (Chip.keeps_wr (Chip.keeps_refl _ _) (by simp) _) (by simp) _

theorem loadGo_free (ha : s.chip.alignSt = 1) (hv : (s.chip.rd .otLoad).toNat % 4096 < s.chip.olen) :
    Completes .loadGo s fun t =>
      t.chip.tb.freeLoad = some (s.chip.rd .otLoad).toNat ∧ t.chip.regs = s.chip.regs ∧ KeepsOutside s t :=
  completes_when rfl hs ((if_neg (by omega)).trans (if_neg (by omega))) ⟨rfl, rfl, keepsOutside_chip ..⟩

theorem loadGo_ignored (h : s.chip.olen ≤ (s.chip.rd .otLoad).toNat % 4096 ∨ (s.chip.alignSt ≠ 0 ∧ s.chip.alignSt ≠ 1)) :
    Completes .loadGo s fun t =>
      t.chip.bit .otStat F.OtStat.LOAD_IGNORED = true ∧ KeepsRegs s.chip t.chip [.otStat] ∧ OnlyRegs s.chip t.chip :=
  completes_when rfl hs (if_pos h) ⟨Chip.bit_flag_same _ _ ⟨by decide, by decide⟩,
    Chip.keeps_flag (Chip.keeps_refl _ _) (by simp) _, Chip.only_wr (Chip.only_refl _) _ _⟩

theorem resyncArm_ring (hm : s.chip.ringMode = true) : Completes .resyncArm s fun t =>
    t.chip.tb.resync = true ∧ t.chip.regs = s.chip.regs ∧ KeepsOutside s t := by
  refine completes_when rfl hs (if_pos hm) ⟨?_, s.chip.armResync_regs, keepsOutside_chip ..⟩
  unfold Chip.armResync
  split
  · assumption
  · rfl

theorem resyncArm_local (hm : s.chip.ringMode = false) : Completes .resyncArm s fun t => t = s :=
  completes_when rfl hs (if_neg (by simp [hm])) rfl

end Load

/-- Settles O10: one lemma per outcome of a geometry write, of a load and of an arming. -/
theorem geometryAndLoads : Obligations.GeometryAndLoads := by
  unfold Obligations.GeometryAndLoads
  exact ⟨⟨fun s w hs => otGeomWrite_completes w hs, fun s w hs => otGeomWrite_locked w hs,
      fun s w hs => otGeomWrite_bad w hs⟩,
    fun s hs => loadGo_stopped hs, fun s hs => loadGo_free hs, fun s hs => loadGo_ignored hs,
    fun s hs => resyncArm_ring hs, fun s hs => resyncArm_local hs⟩

end Sys2Proof.Machine

/-! PROOFS of the statements of 02_orbit_timebase.md, continued. The beam-clock edge, part by part: the counter's value, the
passes over the units, the agenda, the entries opened. O11: an edge that advances the counter. -/

namespace Sys2Proof.Machine

namespace Chip

/-! The next value (R24, R28) -/

theorem olen_le (c : Chip) : c.olen ≤ 4096 := Nat.succ_le_of_lt (fget_lt (c.rd .otGeom) F.OtGeom.OLEN)

section NextCount

variable {c : Chip}

theorem nextCount_within (h : c.ctr % 4096 + 1 < c.olen) : c.nextCount = (c.ctr + 1, false) := if_pos h

theorem nextCount_orbit (h : c.olen ≤ c.ctr % 4096 + 1) (ho : c.ctr / 4096 + 1 < 2 ^ 52) :
    c.nextCount = ((c.ctr / 4096 + 1) * 4096, false) := (if_neg (by omega)).trans (if_pos ho)

theorem nextCount_wrap (h : c.olen ≤ c.ctr % 4096 + 1) (ho : c.ctr / 4096 + 1 = 2 ^ 52) : c.nextCount = (0, true) :=
  (if_neg (by omega)).trans (if_neg (by omega))

/-- The next value is a value of the counter. -/
theorem nextCount_lt (c : Chip) : c.nextCount.1 < 2 ^ 64 := by
  have hx : c.ctr < 2 ^ 64 := (c.rd .otXing).isLt
  have hl := c.olen_le
  unfold nextCount
  split
  · dsimp only
    omega
  · split
    · dsimp only
      omega
    · decide

theorem alignSt_ne_of_counting (h : c.counting = true) : c.alignSt ≠ 2 := by
  intro h2
  simp only [counting, show c.fld .otAlign F.OtAlign.STATE = 2 from h2] at h
  exact absurd h (by decide)

theorem counting_of_locked (h3 : 3 ≤ c.alignSt) (h7 : c.alignSt ≤ 7) : c.counting = true := by
  have : c.fld .otAlign F.OtAlign.STATE = c.alignSt := rfl
  simp [counting, this, h3, h7]

/-- An edge counts where no load waits and no resync takes effect. -/
theorem edgeMove_count (hc : c.counting = true) (hf : c.tb.freeLoad = none)
    (hr : c.resyncNow c.nextCount.1 = false ∨ c.otOffset = 0) :
    c.edgeMove = some (if c.nextCount.2 then .wrap else .count, c.nextCount.1) := by
  have hn : ¬ (c.resyncNow c.nextCount.1 = true ∧ c.otOffset ≠ 0) := by
    rintro ⟨h, ho⟩
    rcases hr with hr | hr
    · rw [h] at hr; cases hr
    · exact ho hr
  unfold edgeMove
  rw [if_neg (alignSt_ne_of_counting hc), if_neg (not_not_intro hc)]
  dsimp only
  rw [hf]
  exact if_neg hn

theorem resyncNow_of_unarmed (h : c.tb.resync = false) (n : Nat) : c.resyncNow n = false := by simp [resyncNow, h]

end NextCount

/-! The chip after its passes -/

/-- The timebase as an edge leaves it, but for the agenda: the loads dropped, an armed resync used up where it has fired. -/
def edgeTb (tb : Timebase) (fired : Bool) : Timebase :=
  { tb with freeLoad := none, ringLoad := none, opening := false, resync := tb.resync && !fired
            resyncMarker := tb.resyncMarker && !fired }

theorem edgeSet_count (c : Chip) (v : Nat) : c.edgeSet .count v =
    { c.wr .otXing (BitVec.ofNat 64 v) with tb := edgeTb c.tb (c.resyncNow c.nextCount.1) } := rfl

theorem edgeSet_wrap (c : Chip) (v : Nat) : c.edgeSet .wrap v =
    { (c.flag .otStat F.OtStat.WRAP).wr .otXing (BitVec.ofNat 64 v) with
      tb := edgeTb c.tb ((c.flag .otStat F.OtStat.WRAP).resyncNow c.nextCount.1) } := rfl

/-- The chip once the counter has its value and every unit has counted the edge. -/
def edgeCounted (c : Chip) (m : Move) (v : Nat) : Chip := ((c.edgeSet m v).cntAll c.pmcOn 0x001 1).monPass v

/-- The tasks of the edge. -/
def edgeDue (c : Chip) (m : Move) (v : Nat) : List EdgeTask := (c.edgeCounted m v).edgeTasks v (m == .wrap)

/-- The mark that an expired fence gets at the edge. -/
def markFence (c : Chip) : EdgeTask → Chip
  | .fence k => c.fenceMark k
  | _ => c

/-- The chip with its agenda made, and the shadow taken and the marker sent at slot 0. -/
def edgeMarked (c : Chip) (m : Move) (v : Nat) : Chip :=
  let d := ((c.edgeDue m v).foldl markFence (c.edgeCounted m v)).setAgenda (c.edgeDue m v)
  if v % 4096 = 0 then (d.wr .otShadow (BitVec.ofNat 64 v)).sendMarker else d

/-- What the passes of an edge that gives v leave of the chip e that has just taken it. -/
structure EdgePassed (v : Nat) (e d : Chip) : Prop where
  only : d = { e with
    regs := d.regs, svc := d.svc, fences := d.fences, tb := { e.tb with agenda := d.tb.agenda }, free := d.free
    seam := d.seam }
  low : ∀ r : Reg, r.offset < 0x70000 → r.offset ≠ Reg.otShadow.offset → d.rd r = e.rd r
  shadow : d.rd .otShadow = if v % 4096 = 0 then BitVec.ofNat 64 v else e.rd .otShadow

theorem woken_cntAll (c : Chip) (on : Bool) (ev n : Nat) : Woken c (c.cntAll on ev n) := by
  unfold cntAll cntEvery
  split
  · exact .foldl (fun d i => d.woken_bump ..) _ c
  · exact .refl c

theorem cntAll_only (c : Chip) (on : Bool) (ev n : Nat) : OnlyRegs c (c.cntAll on ev n) := by
  have fold : ∀ (l : List Nat) (d : Chip),
      OnlyRegs d (l.foldl (fun c i => c.bump ev n (some (c.fld (.pmcCfg i) F.PmcCfg.QSPOOL)) i) d) := by
    intro l
    induction l with
    | nil => exact fun d => rfl
    | cons i l ih => exact fun d => only_trans (bump_only ..) (ih _)
  unfold cntAll cntEvery
  split
  · exact fold _ c
  · rfl

theorem monPass_svc (c : Chip) (n : Nat) : ∃ v, c.monPass n = c.setSvc v := by
  rcases c.monPass_cases n with h | ⟨-, j, -, h⟩
  · exact ⟨c.svc, h⟩
  · exact ⟨_, h⟩

theorem markFences_fences (l : List EdgeTask) (c : Chip) : ∃ fs, l.foldl markFence c = { c with fences := fs } := by
  induction l generalizing c with
  | nil => exact ⟨_, rfl⟩
  | cons t l ih =>
    obtain ⟨fs, h⟩ := ih (c.markFence t)
    refine ⟨fs, h.trans ?_⟩
    cases t <;> rfl

theorem sendMarker_parts (c : Chip) : ∃ f sm, c.sendMarker = { c with free := f, seam := sm } := by
  unfold sendMarker
  split
  · unfold sendMsg
    dsimp only
    split
    · exact ⟨_, _, rfl⟩
    · exact ⟨_, _, rfl⟩
  · exact ⟨_, _, rfl⟩

theorem edgeCounted_parts (c : Chip) (m : Move) (v : Nat) : ∃ rg sv,
    c.edgeCounted m v = { c.edgeSet m v with regs := rg, svc := sv } ∧
      ∀ r : Reg, r.offset < 0x70000 → (c.edgeCounted m v).rd r = (c.edgeSet m v).rd r := by
  obtain ⟨sv, h⟩ := monPass_svc ((c.edgeSet m v).cntAll c.pmcOn 0x001 1) v
  have honly := cntAll_only (c.edgeSet m v) c.pmcOn 0x001 1
  have hlow := (woken_cntAll (c.edgeSet m v) c.pmcOn 0x001 1).low
  have hc : c.edgeCounted m v = ((c.edgeSet m v).cntAll c.pmcOn 0x001 1).setSvc sv := h
  generalize (c.edgeSet m v).cntAll c.pmcOn 0x001 1 = d at *
  generalize c.edgeSet m v = e at *
  refine ⟨d.regs, sv, ?_, fun r hr => ?_⟩
  · rw [hc, show d = { e with regs := d.regs } from honly, setSvc]
  · rw [hc]
    exact hlow r hr

theorem edgeMarked_passed (c : Chip) (m : Move) (v : Nat) : EdgePassed v (c.edgeSet m v) (c.edgeMarked m v) := by
  obtain ⟨rg, sv, hk, hlow⟩ := c.edgeCounted_parts m v
  obtain ⟨fs, hf⟩ := markFences_fences (c.edgeDue m v) (c.edgeCounted m v)
  unfold edgeMarked
  rw [hf]
  generalize c.edgeDue m v = l at *
  generalize c.edgeCounted m v = k at *
  generalize c.edgeSet m v = e at *
  have hread (r : Reg) : ({ k with fences := fs }.setAgenda l).rd r = k.rd r := rfl
  dsimp only
  split
  · rename_i h0
    obtain ⟨f, sm, hs⟩ := sendMarker_parts (({ k with fences := fs }.setAgenda l).wr .otShadow (BitVec.ofNat 64 v))
    rw [hs]
    refine ⟨by rw [hk]; rfl, fun r hr hne => ?_, ?_⟩
    · exact (rd_wr_other _ hne _).trans ((hread r).trans (hlow r hr))
    · rw [if_pos h0]
      exact rd_wr_same ..
  · rename_i h0
    refine ⟨by rw [hk]; rfl, fun r hr _ => (hread r).trans (hlow r hr), ?_⟩
    rw [if_neg h0]
    exact (hread _).trans (hlow _ (by decide))

theorem edgeMarked_agenda (c : Chip) (m : Move) (v : Nat) : (c.edgeMarked m v).tb.agenda = c.edgeDue m v := by
  unfold edgeMarked
  dsimp only
  split
  · obtain ⟨f, sm, hs⟩ := sendMarker_parts ((((c.edgeDue m v).foldl markFence (c.edgeCounted m v)).setAgenda
      (c.edgeDue m v)).wr .otShadow (BitVec.ofNat 64 v))
    rw [hs]
    rfl
  · rfl

/-! The entries opened (R186) -/

/-- d is c after entries of the decision record have been opened, which wakes threads that waited on older ones. -/
structure Opened (c d : Chip) : Prop where
  only : d = { c with
    regs := d.regs, threads := d.threads, needles := d.needles, pwr := { c.pwr with wakeQ := d.pwr.wakeQ }, dec := d.dec }
  low : ∀ r : Reg, r.offset < 0x70000 → d.rd r = c.rd r

theorem Opened.refl (c : Chip) : Opened c c := ⟨rfl, fun _ _ => rfl⟩

theorem Opened.trans {c d e : Chip} (h : Opened c d) (k : Opened d e) : Opened c e := by
  refine ⟨?_, fun r hr => (k.low r hr).trans (h.low r hr)⟩
  have hk := k.only
  rw [h.only] at hk
  exact hk

theorem Opened.tb {c d : Chip} (h : Opened c d) : d.tb = c.tb := by rw [h.only]

theorem opened_setDec {c d : Chip} (h : Woken c d) (x : Nat) (v : DecEntry) : Opened c (d.setDec x v) := by
  refine ⟨?_, h.low⟩
  rw [show (d.setDec x v).regs = d.regs from rfl, show (d.setDec x v).threads = d.threads from rfl,
    show (d.setDec x v).needles = d.needles from rfl, show (d.setDec x v).pwr = d.pwr from rfl]
  generalize hq : Tab.put DecEntry.unused d.dec (d.decPos x) v = t
  rw [show d.setDec x v = { d with dec := t } by rw [← hq]; rfl]
  conv_lhs => rw [h.only]

theorem opened_openDec (c : Chip) (x : Nat) : Opened c (c.openDec x) := by
  unfold openDec
  dsimp only
  split
  · exact .refl c
  · refine opened_setDec ?_ x _
    split
    · exact .refl c
    · exact c.woken_decWake ..

theorem opened_openRange (c : Chip) (n : Nat) : Opened c (c.openRange n) := by
  unfold openRange
  generalize List.range 17 = l
  induction l generalizing c with
  | nil => exact .refl c
  | cons j l ih => exact (c.opened_openDec _).trans (ih _)

end Chip

/-! The edge as a step of the state -/

/-- The state once the entries are opened: after a step, a load or a stop the agenda is done first (R188). -/
def State.edgeOpened (s : State) (m : Chip.Move) (v : Nat) : State :=
  let t : State := { s with chip := s.chip.edgeMarked m v }
  if s.chip.tb.opening || m != .count then { t.drainAgenda with chip := t.drainAgenda.chip.openRange v }
  else { t with chip := t.chip.openDec (advance t.chip.olen v 16) }

theorem State.edgeAdvance_eq (s : State) (m : Chip.Move) (v : Nat) : s.edgeAdvance m v =
    let t := s.edgeOpened m v
    if v % 4096 = 0 ∧ (t.chip.runEn = .stopping ∨ t.chip.runEn = .restart) then
      { t.drainAgenda with
        chip := if t.chip.runEn.complete true = .off
          then (t.drainAgenda.chip.setF .otCtl F.OtCtl.RUN (t.chip.runEn.complete true).code).stoppedAlign
          else (t.drainAgenda.chip.setF .otCtl F.OtCtl.RUN (t.chip.runEn.complete true).code).startedAlign }
    else t := rfl

theorem State.drainAgenda_nil {s : State} (h : s.chip.tb.agenda = []) : s.drainAgenda = s := by
  simp [State.drainAgenda, h]

/-- An edge with nothing left to do advances as its move says. -/
theorem State.edge_eq {s : State} (hp : s.chip.tb.present = true) (hr : Ready s ∨ s.chip.pwr.phase = .quiesce)
    (ha : s.chip.tb.agenda = []) {m : Chip.Move} {v : Nat} (hm : s.chip.edgeMove = some (m, v)) :
    s.edge = s.edgeAdvance m v := by
  unfold State.edge
  rw [if_pos ⟨hp, hr⟩, State.drainAgenda_nil ha]
  dsimp only
  rw [hm]

/-- What an edge leaves of the chip that has just taken its value, where its agenda is empty or waits for the next edge. -/
theorem State.edgeOpened_chip {s : State} {m : Chip.Move} {v : Nat}
    (h : (s.chip.tb.opening = false ∧ m = .count) ∨ s.chip.edgeDue m v = []) :
    ∃ d, s.edgeOpened m v = { s with chip := d } ∧ Chip.Opened (s.chip.edgeMarked m v) d := by
  unfold State.edgeOpened
  dsimp only
  split
  · rename_i hfresh
    have hdue : s.chip.edgeDue m v = [] := by
      rcases h with ⟨ho, rfl⟩ | h
      · simp [ho] at hfresh
      · exact h
    rw [State.drainAgenda_nil ((s.chip.edgeMarked_agenda m v).trans hdue)]
    exact ⟨_, rfl, Chip.opened_openRange ..⟩
  · exact ⟨_, rfl, Chip.opened_openDec ..⟩

end Sys2Proof.Machine

namespace Sys2Proof.Machine

namespace Chip

/-! The tasks of an edge (R35, R119) -/

theorem mem_setatInsert (e x : SetatEntry) (l : List SetatEntry) : x ∈ setatInsert e l ↔ x = e ∨ x ∈ l := by
  induction l with
  | nil => simp [setatInsert]
  | cons y l ih =>
    simp only [setatInsert]
    split
    · simp
    · simp only [List.mem_cons, ih]
      tauto

theorem mem_setatDue (l : List SetatEntry) (n : Nat) (all : Bool) (x : SetatEntry) :
    x ∈ setatDue l n all ↔ x ∈ l ∧ (all = true ∨ x.target ≤ n) := by
  have fold (m : List SetatEntry) : ∀ acc, x ∈ m.foldl (fun acc e => setatInsert e acc) acc ↔ x ∈ m ∨ x ∈ acc := by
    induction m with
    | nil => simp
    | cons y m ih =>
      intro acc
      rw [List.foldl_cons, ih, mem_setatInsert, List.mem_cons]
      tauto
  rw [setatDue, fold]
  simp

theorem mem_leasesDue_local {c : Chip} {n : Nat} {w : Bool} {p : Nat × Lock} (hp : p ∈ c.locks) (hst : p.2.st = .held)
    (hd : p.2.leaseEnd ≤ n) : EdgeTask.lease p.1 p.2.leaseEnd ∈ c.leasesDue n w := by
  unfold leasesDue
  refine List.mem_append_left _ (List.mem_filterMap.mpr ⟨p, hp, ?_⟩)
  dsimp only
  rw [if_pos ⟨hst, .inr hd⟩, Nat.zero_add]

section Tasks

variable (c : Chip) (n : Nat) (w : Bool)

theorem setatDue_sub_edgeTasks (x : SetatEntry) (h : x ∈ setatDue c.tb.setat n w) : EdgeTask.setat x ∈ c.edgeTasks n w :=
  List.mem_flatten.mpr ⟨_, by simp only [List.mem_cons, true_or, or_true], List.mem_map_of_mem h⟩

theorem xingDue_sub_edgeTasks (x : EdgeTask) (h : x ∈ c.xingDue n w) : x ∈ c.edgeTasks n w :=
  List.mem_flatten.mpr ⟨_, by simp only [List.mem_cons, true_or, or_true], h⟩

theorem leasesDue_sub_edgeTasks (x : EdgeTask) (h : x ∈ c.leasesDue n w) : x ∈ c.edgeTasks n w :=
  List.mem_flatten.mpr ⟨c.leasesDue n w, by simp only [List.mem_cons, true_or, or_true], h⟩

/-- The waits on the agenda are those that `xingDue` names. -/
theorem wake_mem_edgeTasks (u x : Nat) (h : EdgeTask.wake u x ∈ c.edgeTasks n w) : EdgeTask.wake u x ∈ c.xingDue n w := by
  have lease : EdgeTask.wake u x ∉ c.leasesDue n w := by simp [leasesDue]
  obtain ⟨l, hl, hx⟩ := List.mem_flatten.mp h
  simp only [List.mem_cons, List.not_mem_nil, or_false] at hl
  rcases hl with rfl | rfl | rfl | rfl | rfl | rfl | rfl | rfl | rfl
  · simp at hx
  · simp at hx
  · exact hx
  · exact absurd hx lease
  all_goals simp at hx

end Tasks

section Quiet

variable {c : Chip} {n : Nat} {w : Bool}

/-- With nothing scheduled, waiting, held or open, an edge away from the gap start has no task. -/
theorem edgeTasks_nil (hcommit : c.commitPending = false) (hsetat : c.tb.setat = []) (hthr : c.threads = [])
    (hlocks : c.locks = []) (hring : c.seam.ringLocks = []) (hdec : c.dec = []) (hfences : c.fences = [])
    (hhv : c.hv.target = none) (hgap : n % 4096 ≠ c.olen - c.gap) : c.edgeTasks n w = [] := by
  have fences : (List.range 64).filter (c.fenceDue n w) = [] := by
    refine List.filter_eq_nil_iff.mpr fun k _ => ?_
    simp [fenceDue, fenceSt, hfences, FenceSt.none]
  simp [edgeTasks, hcommit, hsetat, xingDue, hthr, leasesDue, hlocks, hring, hdec, fences, hhv, setatDue, hgap]

end Quiet

end Chip

namespace Chip

/-! What the taking of the value leaves alone -/

/-- d is c but for registers, the black box, the services, and in the timebase what the next edges take up. -/
structure Stepped (c d : Chip) : Prop where
  only : d = { c with regs := d.regs, free := d.free, bb := d.bb, svc := d.svc, tb := d.tb }
  setat : d.tb.setat = c.tb.setat
  agenda : d.tb.agenda = c.tb.agenda
  present : d.tb.present = c.tb.present
  keeps : KeepsRegs c d [.otXing, .otStat, .otStepFrom, .otAlign, .calPhase, .bbStat]

section Stepped

variable {c d e : Chip}

theorem Stepped.refl (c : Chip) : Stepped c c := ⟨rfl, rfl, rfl, rfl, keeps_refl _ _⟩

theorem Stepped.trans (h : Stepped c d) (k : Stepped d e) : Stepped c e := by
  refine ⟨?_, k.setat.trans h.setat, k.agenda.trans h.agenda, k.present.trans h.present, keeps_trans h.keeps k.keeps⟩
  have hk := k.only
  rw [h.only] at hk
  exact hk

theorem stepped_wr (c : Chip) {r : Reg} (hr : r ∈ [Reg.otXing, .otStat, .otStepFrom, .otAlign, .calPhase, .bbStat]) (w : Word) :
    Stepped c (c.wr r w) := ⟨rfl, rfl, rfl, rfl, keeps_wr (keeps_refl _ _) hr w⟩

theorem stepped_bbEvent (c : Chip) (ty : Nat) (p0 p1 : Word) : Stepped c (c.bbEvent ty p0 p1) := by
  refine ⟨?_, by simp, by simp, by simp, keeps_bbEvent (keeps_refl _ _) (by simp) _ _ _⟩
  conv_lhs => rw [bbEvent_only]
  rw [bbEvent_svc, bbEvent_tb]

theorem stepped_alignMoved (c : Chip) (st : Nat) : Stepped c (c.alignMoved st) := by
  refine ⟨?_, by rw [alignMoved_tb], by rw [alignMoved_tb], by rw [alignMoved_tb], keeps_mono (c.alignMoved_keeps st) (by simp)⟩
  unfold alignMoved
  dsimp only
  split <;> rfl

theorem stepped_armResync (c : Chip) : Stepped c c.armResync := by
  unfold armResync
  split
  · exact .refl c
  · exact ⟨rfl, rfl, rfl, rfl, keeps_refl _ _⟩

theorem stepped_setAlign (c : Chip) (st : Nat) : Stepped c (c.setAlign st) := by
  have flagged (f : Fld) (w : Word) : Stepped c (((c.alignMoved st).flag .otStat f).bbEvent 0x06 w 0#64) :=
    ((c.stepped_alignMoved st).trans (stepped_wr _ (by simp) _)).trans (stepped_bbEvent ..)
  rcases c.setAlign_cases st with ⟨-, h⟩ | ⟨-, -, w, h⟩ | ⟨-, -, w, h | ⟨-, h⟩⟩ <;> rw [h]
  · exact c.stepped_alignMoved st
  · exact flagged _ _
  · exact flagged _ _
  · exact (flagged _ _).trans (stepped_armResync _)

theorem stepped_stepFrom (c : Chip) (n : Nat) : Stepped c (c.stepFrom n) :=
  ((stepped_wr c (r := .otStat) (by simp) _).trans (stepped_wr _ (r := .otStepFrom) (by simp) _)).trans (stepped_bbEvent ..)

/-- The chip after a resync's step, its state that of a marker with OFFSET 0 where it was MISALIGNED (R45). -/
def resynced (c : Chip) : Chip :=
  let d := c.stepFrom c.nextCount.1
  if d.alignSt = 6 then d.setAlign (markerState 0 (signed 8 (d.fld .otAlign F.OtAlign.PHASE))) else d

theorem edgeSet_load (c : Chip) (v : Nat) : c.edgeSet .load v =
    { (c.stepFrom c.nextCount.1).wr .otXing (BitVec.ofNat 64 v) with
      tb := edgeTb (c.stepFrom c.nextCount.1).tb ((c.stepFrom c.nextCount.1).resyncNow c.nextCount.1) } := rfl

theorem edgeSet_resync (c : Chip) (v : Nat) : c.edgeSet .resync v =
    { c.resynced.wr .otXing (BitVec.ofNat 64 v) with tb := edgeTb c.resynced.tb (c.resynced.resyncNow c.nextCount.1) } := rfl

theorem stepped_resynced (c : Chip) : Stepped c c.resynced := by
  unfold resynced
  dsimp only
  split
  · exact (c.stepped_stepFrom _).trans (stepped_setAlign ..)
  · exact c.stepped_stepFrom _

theorem stepped_edgeSet (c : Chip) (m : Move) (v : Nat) : Stepped c (c.edgeSet m v) := by
  obtain ⟨d, hd, fired, hset⟩ : ∃ d, Stepped c d ∧ ∃ fired,
      c.edgeSet m v = { d.wr .otXing (BitVec.ofNat 64 v) with tb := edgeTb d.tb fired } := by
    cases m with
    | count => exact ⟨c, .refl c, _, rfl⟩
    | wrap => exact ⟨_, stepped_wr c (r := .otStat) (by simp) _, _, rfl⟩
    | load => exact ⟨_, c.stepped_stepFrom _, _, c.edgeSet_load v⟩
    | resync => exact ⟨_, c.stepped_resynced, _, c.edgeSet_resync v⟩
    | training =>
      exact ⟨_, ((stepped_wr c (r := .otStepFrom) (by simp) _).trans (stepped_wr _ (r := .otAlign) (by simp) _)).trans
        (stepped_setAlign ..), _, rfl⟩
  rw [hset]
  exact hd.trans ⟨rfl, rfl, rfl, rfl, keeps_wr (keeps_refl _ _) (by simp) _⟩

end Stepped
end Chip

/-- On quiet edges an edge away from the gap start has no task. -/
theorem edgeDue_nil {s : State} (hq : QuietEdges s) (m : Chip.Move) {v : Nat}
    (hv : v % 4096 ≠ s.chip.olen - s.chip.gap) : s.chip.edgeDue m v = [] := by
  obtain ⟨-, hsetat, hthr, hlocks, hring, hdec, hfences, hcommit, hhv⟩ := hq
  obtain ⟨rg, sv, hk, hlow⟩ := s.chip.edgeCounted_parts m v
  have hst := s.chip.stepped_edgeSet m v
  have hread (r : Reg) (h : r.offset < 0x70000)
      (hr : ([Reg.otXing, .otStat, .otStepFrom, .otAlign, .calPhase, .bbStat].all fun q => r.offset != q.offset) = true) :
      (s.chip.edgeCounted m v).rd r = s.chip.rd r := (hlow r h).trans (Chip.rd_of_keeps hst.keeps hr)
  have hgeom := hread .otGeom (by decide) (by decide)
  have hparts : (s.chip.edgeCounted m v).tb.setat = [] ∧ (s.chip.edgeCounted m v).threads = [] ∧
      (s.chip.edgeCounted m v).locks = [] ∧ (s.chip.edgeCounted m v).seam.ringLocks = [] ∧
      (s.chip.edgeCounted m v).dec = [] ∧ (s.chip.edgeCounted m v).fences = [] ∧
      (s.chip.edgeCounted m v).hv.target = none := by
    rw [hk, hst.only]
    exact ⟨hst.setat.trans hsetat, hthr, hlocks, hring, hdec, hfences, hhv⟩
  obtain ⟨ksetat, kthr, klocks, kring, kdec, kfences, khv⟩ := hparts
  have kcommit : (s.chip.edgeCounted m v).commitPending = false :=
    (congrArg (fbit · F.Cfgset.PEND) (hread .cfgset (by decide) (by decide))).trans hcommit
  have kgap : v % 4096 ≠ (s.chip.edgeCounted m v).olen - (s.chip.edgeCounted m v).gap := by
    simpa only [Chip.olen, Chip.gap, Chip.fld, hgeom] using hv
  exact Chip.edgeTasks_nil kcommit ksetat kthr klocks kring kdec kfences khv kgap

/-! An edge that counts (R24, R28, R35) -/

/-- What an edge that gives v leaves: below the counters every register but the shadow as when the counter had just taken v, the
shadow, and the agenda. -/
theorem State.edgeOpened_reads {s : State} {m : Chip.Move} {v : Nat}
    (h : (s.chip.tb.opening = false ∧ m = .count) ∨ s.chip.edgeDue m v = []) :
    ∃ d, s.edgeOpened m v = { s with chip := d } ∧
      (∀ r : Reg, r.offset < 0x70000 → r.offset ≠ Reg.otShadow.offset → d.rd r = (s.chip.edgeSet m v).rd r) ∧
      d.rd .otShadow = (if v % 4096 = 0 then BitVec.ofNat 64 v else (s.chip.edgeSet m v).rd .otShadow) ∧
      d.tb = { (s.chip.edgeSet m v).tb with agenda := s.chip.edgeDue m v } := by
  obtain ⟨d, hd, ho⟩ := State.edgeOpened_chip h
  have hp := s.chip.edgeMarked_passed m v
  refine ⟨d, hd, fun r hr hne => (ho.low r hr).trans (hp.low r hr hne), (ho.low _ (by decide)).trans hp.shadow, ?_⟩
  rw [ho.tb, ← s.chip.edgeMarked_agenda m v]
  conv_lhs => rw [hp.only]

/-- An edge of a timebase that is not stopping ends with the entries opened. -/
theorem State.edgeAdvance_running {s : State} {m : Chip.Move} {v : Nat} (h : (s.edgeOpened m v).chip.runEn = .running) :
    s.edgeAdvance m v = s.edgeOpened m v := by
  rw [State.edgeAdvance_eq]
  exact if_neg (by rw [h]; simp)

/-- The counter just given a value. -/
theorem Chip.ctr_of_rd {d : Chip} {v : Nat} (h : d.rd .otXing = BitVec.ofNat 64 v) (hv : v < 2 ^ 64) : d.ctr = v := by
  unfold Chip.ctr
  rw [h, BitVec.toNat_ofNat, Nat.mod_eq_of_lt hv]

/-- The registers that a counting edge writes: the counter, and WRAP at the wrap. -/
theorem Chip.rd_edgeSet_count (c : Chip) (v : Nat) {r : Reg} (hr : r.offset ≠ Reg.otXing.offset) :
    (c.edgeSet .count v).rd r = c.rd r := by
  rw [Chip.edgeSet_count]
  exact Chip.rd_wr_other c hr _

theorem Chip.rd_edgeSet_wrap (c : Chip) (v : Nat) {r : Reg} (hr : r.offset ≠ Reg.otXing.offset) :
    (c.edgeSet .wrap v).rd r = (c.flag .otStat F.OtStat.WRAP).rd r := by
  rw [Chip.edgeSet_wrap]
  exact Chip.rd_wr_other (c.flag .otStat F.OtStat.WRAP) hr _

section Advance

variable {s : State} (hs : Ready s ∨ s.chip.pwr.phase = .quiesce) (hp : s.chip.tb.present = true)
  (ha : s.chip.tb.agenda = []) (hc : s.chip.counting = true) (hf : s.chip.tb.freeLoad = none)
  (hr : s.chip.runEn = .running)
include hs hp ha hc hf hr

/-- An edge that counts to the next crossing, the next orbit or the wrap, of a timebase that runs on. -/
theorem bclkEdge_counts (hz : s.chip.tb.resync = false) {m : Chip.Move} (hm : m = if s.chip.nextCount.2 then .wrap else .count)
    (hq : (s.chip.tb.opening = false ∧ m = .count) ∨ s.chip.edgeDue m s.chip.nextCount.1 = []) :
    ∃ d, s.edge = { s with chip := d } ∧ d.ctr = s.chip.nextCount.1 ∧
      (∀ r : Reg, r.offset < 0x70000 → r.offset ≠ Reg.otShadow.offset →
        d.rd r = (s.chip.edgeSet m s.chip.nextCount.1).rd r) ∧
      d.rd .otShadow = (if s.chip.nextCount.1 % 4096 = 0 then BitVec.ofNat 64 s.chip.nextCount.1
        else (s.chip.edgeSet m s.chip.nextCount.1).rd .otShadow) ∧
      d.tb = { (s.chip.edgeSet m s.chip.nextCount.1).tb with agenda := s.chip.edgeDue m s.chip.nextCount.1 } := by
  have hmove := Chip.edgeMove_count hc hf (.inl (Chip.resyncNow_of_unarmed hz _))
  rw [← hm] at hmove
  obtain ⟨d, hd, hlow, hshadow, htb⟩ := State.edgeOpened_reads hq
  have hx : d.rd .otXing = BitVec.ofNat 64 s.chip.nextCount.1 := by
    rw [hlow _ (by decide) (by decide)]
    exact Chip.rd_wr_same ..
  have hctl : d.rd .otCtl = s.chip.rd .otCtl := by
    rw [hlow _ (by decide) (by decide), hm]
    split
    · exact (Chip.rd_wr_other _ (by decide) _).trans (Chip.rd_flag_other _ (by decide) _)
    · exact Chip.rd_edgeSet_count _ _ (by decide)
  have hrun : (s.edgeOpened m s.chip.nextCount.1).chip.runEn = .running := by
    rw [hd]
    exact (congrArg (fun w => En.dec (fget w F.OtCtl.RUN)) hctl).trans hr
  refine ⟨d, ?_, Chip.ctr_of_rd hx s.chip.nextCount_lt, hlow, hshadow, htb⟩
  rw [State.edge_eq hp hs ha hmove, State.edgeAdvance_running hrun, hd]

variable (ho : s.chip.tb.opening = false) (hz : s.chip.tb.resync = false)
include ho hz

/-- Within the orbit: what the edge reaches is on its agenda. -/
theorem bclkEdge_within (hw : s.chip.ctr % 4096 + 1 < s.chip.olen) : Completes .bclkEdge s fun t =>
      t.chip.ctr = s.chip.ctr + 1 ∧ t.chip.alignSt = s.chip.alignSt ∧ t.mem = s.mem ∧ t.prot = s.prot ∧
      t.chip.tb.setat = s.chip.tb.setat ∧ t.chip.rd .otGeom = s.chip.rd .otGeom ∧
      t.chip.rd .otShadow = s.chip.rd .otShadow ∧
      (∀ e ∈ s.chip.tb.setat, e.target ≤ s.chip.ctr + 1 → EdgeTask.setat e ∈ t.chip.tb.agenda) ∧
      (∀ p ∈ s.chip.threads, p.2.st = .waiting → p.2.kind = kXing → p.2.target ≤ s.chip.ctr + 1 →
        EdgeTask.wake p.1 p.2.target ∈ t.chip.tb.agenda) ∧
      (∀ u x, EdgeTask.wake u x ∈ t.chip.tb.agenda → x ≤ s.chip.ctr + 1) ∧
      (∀ p ∈ s.chip.locks, p.2.st = .held → p.2.leaseEnd ≤ s.chip.ctr + 1 →
        EdgeTask.lease p.1 p.2.leaseEnd ∈ t.chip.tb.agenda) := by
  have hn := Chip.nextCount_within hw
  obtain ⟨d, hd, hctr, hlow, hshadow, htb⟩ := bclkEdge_counts (m := .count) hs hp ha hc hf hr hz (by rw [hn]; rfl) (.inl ⟨ho, rfl⟩)
  obtain ⟨rg, sv, hk, -⟩ := s.chip.edgeCounted_parts .count (s.chip.ctr + 1)
  rw [hn] at hctr hlow hshadow htb
  dsimp only at hctr hlow hshadow htb
  have hl := s.chip.olen_le
  have hkeep (r : Reg) (h1 : r.offset < 0x70000) (h2 : r.offset ≠ Reg.otShadow.offset) (h3 : r.offset ≠ Reg.otXing.offset) :
      d.rd r = s.chip.rd r := (hlow r h1 h2).trans (s.chip.rd_edgeSet_count _ h3)
  have hagenda : d.tb.agenda = (s.chip.edgeCounted .count (s.chip.ctr + 1)).edgeTasks (s.chip.ctr + 1) false :=
    congrArg Timebase.agenda htb
  have hsetat : (s.chip.edgeCounted .count (s.chip.ctr + 1)).tb.setat = s.chip.tb.setat := by rw [hk]; rfl
  have hthreads : (s.chip.edgeCounted .count (s.chip.ctr + 1)).threads = s.chip.threads := by rw [hk]; rfl
  have hlocks : (s.chip.edgeCounted .count (s.chip.ctr + 1)).locks = s.chip.locks := by rw [hk]; rfl
  refine ⟨_, congrArg Host.Outcome.next hd, hctr, congrArg (fget · _) (hkeep _ (by decide) (by decide) (by decide)), rfl, rfl,
    (congrArg Timebase.setat htb).trans rfl, hkeep _ (by decide) (by decide) (by decide), ?_, fun e he ht => ?_, fun p hp' hst hk' ht => ?_,
    fun u x hx => ?_, fun p hp' hst ht => ?_⟩
  · have h0 : ¬ (s.chip.ctr + 1) % 4096 = 0 := by omega
    rw [if_neg h0] at hshadow
    exact hshadow.trans (s.chip.rd_edgeSet_count _ (by decide))
  · show _ ∈ d.tb.agenda
    rw [hagenda]
    exact Chip.setatDue_sub_edgeTasks _ _ _ e (by rw [hsetat, Chip.mem_setatDue]; exact ⟨he, .inr ht⟩)
  · show _ ∈ d.tb.agenda
    rw [hagenda]
    refine Chip.xingDue_sub_edgeTasks _ _ _ _ ((Chip.mem_xingDue ..).mpr ⟨p.1, p.2, ?_, hst, hk', .inr ht, rfl⟩)
    rw [hthreads]
    exact hp'
  · have hx' : EdgeTask.wake u x ∈ d.tb.agenda := hx
    rw [hagenda] at hx'
    obtain ⟨t, th, -, -, -, hd', he⟩ := (Chip.mem_xingDue ..).mp (Chip.wake_mem_edgeTasks _ _ _ u x hx')
    cases he
    simpa using hd'
  · show _ ∈ d.tb.agenda
    rw [hagenda]
    exact Chip.leasesDue_sub_edgeTasks _ _ _ _ (Chip.mem_leasesDue_local (by rw [hlocks]; exact hp') hst ht)

/-- To slot 0 of the next orbit, which DXW_OT_SHADOW takes. -/
theorem bclkEdge_orbit (hw : s.chip.olen ≤ s.chip.ctr % 4096 + 1) (hlast : s.chip.ctr / 4096 + 1 < 2 ^ 52) :
    Completes .bclkEdge s fun t =>
      t.chip.ctr = (s.chip.ctr / 4096 + 1) * 4096 ∧ t.chip.rd .otShadow = t.chip.rd .otXing ∧
      t.chip.alignSt = s.chip.alignSt ∧ t.mem = s.mem ∧ t.prot = s.prot := by
  have hn := Chip.nextCount_orbit hw hlast
  obtain ⟨d, hd, hctr, hlow, hshadow, -⟩ := bclkEdge_counts (m := .count) hs hp ha hc hf hr hz (by rw [hn]; rfl) (.inl ⟨ho, rfl⟩)
  rw [hn] at hctr hlow hshadow
  dsimp only at hctr hlow hshadow
  refine ⟨_, congrArg Host.Outcome.next hd, hctr, ?_, ?_, rfl, rfl⟩
  · rw [if_pos (by omega)] at hshadow
    have hx := (hlow .otXing (by decide) (by decide)).trans (Chip.rd_wr_same ..)
    exact hshadow.trans hx.symm
  · exact congrArg (fget · _) ((hlow .otAlign (by decide) (by decide)).trans (s.chip.rd_edgeSet_count _ (by decide)))

omit ha ho in
/-- Past the last crossing to 0, with WRAP (R28). -/
theorem bclkEdge_wrap (hw : s.chip.olen ≤ s.chip.ctr % 4096 + 1) (hlast : s.chip.ctr / 4096 + 1 = 2 ^ 52) (hq : QuietEdges s)
    (hg : s.chip.gap < s.chip.olen) : Completes .bclkEdge s fun t =>
      t.chip.ctr = 0 ∧ t.chip.bit .otStat F.OtStat.WRAP = true ∧ t.mem = s.mem ∧ t.prot = s.prot := by
  have hn := Chip.nextCount_wrap hw hlast
  have hdue : s.chip.edgeDue .wrap s.chip.nextCount.1 = [] := edgeDue_nil hq _ (by rw [hn]; dsimp only; omega)
  obtain ⟨d, hd, hctr, hlow, -, -⟩ := bclkEdge_counts (m := .wrap) hs hp hq.1 hc hf hr hz (by rw [hn]; rfl) (.inr hdue)
  rw [hn] at hctr hlow
  refine ⟨_, congrArg Host.Outcome.next hd, hctr, ?_, rfl, rfl⟩
  have hstat := (hlow .otStat (by decide) (by decide)).trans (s.chip.rd_edgeSet_wrap 0 (by decide))
  exact (congrArg (fbit · F.OtStat.WRAP) hstat).trans (Chip.bit_flag_same _ _ ⟨by decide, by decide⟩)

end Advance

/-- Settles O11: the three values that the next edge can give a counting timebase, one lemma each. -/
theorem edgeAdvances : Obligations.EdgeAdvances := by
  intro s hs hp ha hc ho hf hz hr
  exact ⟨bclkEdge_within hs hp ha hc hf hr ho hz, bclkEdge_orbit hs hp ha hc hf hr ho hz, bclkEdge_wrap hs hp hc hf hr hz⟩

end Sys2Proof.Machine

/-! PROOFS of the statements of 02_orbit_timebase.md, continued. O12: edges that load, resync or stop the counter. -/

namespace Sys2Proof.Machine

namespace Chip

/-! A step of the counter (R45, R48) -/

section StepFrom

variable (c : Chip) (n : Nat)

theorem rd_stepFrom : (c.stepFrom n).rd .otStepFrom = BitVec.ofNat 64 n :=
  (rd_bbEvent _ _ _ _ (by decide)).trans (rd_wr_same ..)

theorem bit_stepFrom : (c.stepFrom n).bit .otStat F.OtStat.STEP = true := by
  refine (bit_bbEvent _ _ _ _ (by decide) _).trans ?_
  exact (congrArg (fbit · F.OtStat.STEP) (rd_wr_other _ (by decide) _)).trans (bit_flag_same c _ ⟨by decide, by decide⟩)

theorem stepFrom_keeps : KeepsRegs c (c.stepFrom n) [.otStat, .otStepFrom, .bbStat] :=
  keeps_bbEvent (keeps_wr (keeps_flag (keeps_refl _ _) (by simp) _) (by simp) _) (by simp) _ _ _

theorem stepFrom_tb : (c.stepFrom n).tb = c.tb := bbEvent_tb ..

end StepFrom

theorem rd_resynced (c : Chip) : c.resynced.rd .otStepFrom = BitVec.ofNat 64 c.nextCount.1 := by
  unfold resynced
  dsimp only
  refine rd_ite ((rd_of_keeps (setAlign_keeps _ _) (by decide)).trans ?_) ?_ <;> exact c.rd_stepFrom _

theorem bit_resynced (c : Chip) : c.resynced.bit .otStat F.OtStat.STEP = true := by
  unfold resynced
  dsimp only
  split
  · exact (bit_otStat_setAlign _ _ (by decide)).trans (c.bit_stepFrom _)
  · exact c.bit_stepFrom _

/-- A resync that takes effect leaves the timebase as it is until the counter has its value. -/
theorem resynced_tb {c : Chip} (h : c.tb.resync = true) : c.resynced.tb = c.tb := by
  unfold resynced
  dsimp only
  split
  · exact (setAlign_tb_of_armed _ _ ((congrArg Timebase.resync (c.stepFrom_tb _)).trans h)).trans (c.stepFrom_tb _)
  · exact c.stepFrom_tb _

theorem resync_of_resyncNow {c : Chip} {n : Nat} (h : c.resyncNow n = true) : c.tb.resync = true := by
  simp only [resyncNow, Bool.and_eq_true] at h
  exact h.1.1.1

/-- A resync that takes effect is used up. -/
theorem edgeTb_fired (tb : Timebase) : (edgeTb tb true).resync = false := by simp [edgeTb]

theorem edgeSet_resync_used {c : Chip} (h : c.resyncNow c.nextCount.1 = true) (v : Nat) :
    (c.edgeSet .resync v).tb.resync = false := by
  have hkeep := c.stepped_resynced.keeps
  have hgeom := rd_of_keeps hkeep (r := .otGeom) (by decide)
  have hctl := rd_of_keeps hkeep (r := .otCtl) (by decide)
  have hnow : c.resynced.resyncNow c.nextCount.1 = c.resyncNow c.nextCount.1 := by
    simp only [resyncNow, resynced_tb (resync_of_resyncNow h), ringMode, bit, hctl, olen, gap, fld, hgeom]
  rw [edgeSet_resync, hnow, h]
  exact edgeTb_fired _

section Move

variable {c : Chip} {v : Nat}

theorem edgeMove_load (ha : c.alignSt = 1) (hf : c.tb.freeLoad = some v) (hne : v ≠ c.nextCount.1) :
    c.edgeMove = some (.load, v) := by
  have hc : c.counting = true := by simp [counting, show c.fld .otAlign F.OtAlign.STATE = 1 from ha]
  unfold edgeMove
  rw [if_neg (alignSt_ne_of_counting hc), if_neg (not_not_intro hc)]
  dsimp only
  rw [hf]
  exact if_pos ⟨ha, hne⟩

theorem edgeMove_resync (hc : c.counting = true) (hf : c.tb.freeLoad = none) (hr : c.resyncNow c.nextCount.1 = true)
    (ho : c.otOffset ≠ 0) : c.edgeMove = some (.resync, c.shiftX c.nextCount.1 c.otOffset) := by
  unfold edgeMove
  rw [if_neg (alignSt_ne_of_counting hc), if_neg (not_not_intro hc)]
  dsimp only
  rw [hf]
  exact if_pos ⟨hr, ho⟩

end Move

/-! RUN at the end of the orbit (R29) -/

/-- The chip at the end of its orbit with RUN just e: stopped, or started again. -/
def stopEnd (c : Chip) (e : En) : Chip :=
  if e = .off then (c.setF .otCtl F.OtCtl.RUN e.code).stoppedAlign else (c.setF .otCtl F.OtCtl.RUN e.code).startedAlign

theorem startedAlign_of_present {c : Chip} (hp : c.tb.present = true) : ∃ d : Chip, d.regs = c.regs ∧
    c.startedAlign = d.setAlign (if d.ringMode then 2 else 1) :=
  ⟨{ c with tb := { c.tb with opening := true } }, rfl, if_neg (not_not_intro hp)⟩

theorem stoppedAlign_of_present {c : Chip} (hp : c.tb.present = true) : c.stoppedAlign = c.dropLoads.setAlign 0 := if_pos hp

/-- The state entered when a stop completes, where the beam clock is present: STOPPED, or the start's. -/
theorem stopEnd_cases {c : Chip} (hp : c.tb.present = true) (e : En) : ∃ (d : Chip) (st : Nat),
    d.regs = (c.setF .otCtl F.OtCtl.RUN e.code).regs ∧ c.stopEnd e = d.setAlign st ∧
      st = if e = .off then 0 else if c.ringMode then 2 else 1 := by
  unfold stopEnd
  split
  · exact ⟨(c.setF .otCtl F.OtCtl.RUN e.code).dropLoads, 0, rfl, stoppedAlign_of_present hp, rfl⟩
  · obtain ⟨d, hregs, hd⟩ := startedAlign_of_present (c := c.setF .otCtl F.OtCtl.RUN e.code) hp
    have hmode : d.ringMode = c.ringMode := by
      rw [← c.ringMode_setF_run e.code]
      simp only [ringMode, bit, rd, hregs]
    exact ⟨d, _, hregs, hd, by rw [hmode]⟩

end Chip

section EdgeSteps

variable {s : State} (hs : Ready s) (hp : s.chip.tb.present = true) (hq : QuietEdges s)
include hs hp

/-- The edge of one of the kinds that a command waits for. -/
theorem edgeIf_eq (ha : s.chip.tb.agenda = []) {p : Chip → Bool} (h : p s.chip = true) {m : Chip.Move} {v : Nat}
    (hm : s.chip.edgeMove = some (m, v)) : s.edgeIf p = s.edgeAdvance m v := by
  rw [State.edgeIf, State.drainAgenda_nil ha, if_pos h, State.edge_eq hp (.inl hs) ha hm]

include hq

/-- An edge that steps the counter to v away from the gap start: below the counters every register but the shadow is as when the
counter had just taken v. -/
theorem edge_steps {p : Chip → Bool} (h : p s.chip = true) (hr : s.chip.runEn = .running) {m : Chip.Move} {v : Nat}
    (hm : s.chip.edgeMove = some (m, v)) (hv : v < 2 ^ 64)
    (hdue : (s.chip.tb.opening = false ∧ m = .count) ∨ v % 4096 ≠ s.chip.olen - s.chip.gap) :
    ∃ d, s.edgeIf p = { s with chip := d } ∧ d.ctr = v ∧
      (∀ r : Reg, r.offset < 0x70000 → r.offset ≠ Reg.otShadow.offset → d.rd r = (s.chip.edgeSet m v).rd r) ∧
      d.tb = { (s.chip.edgeSet m v).tb with agenda := s.chip.edgeDue m v } := by
  obtain ⟨d, hd, hlow, -, htb⟩ := State.edgeOpened_reads (s := s) (m := m) (v := v) (hdue.imp_right (edgeDue_nil hq m))
  have hctl : d.rd .otCtl = s.chip.rd .otCtl := (hlow _ (by decide) (by decide)).trans
    (Chip.rd_of_keeps (s.chip.stepped_edgeSet m v).keeps (by decide))
  have hrun : (s.edgeOpened m v).chip.runEn = .running := by
    rw [hd]
    exact (congrArg (fun w => En.dec (fget w F.OtCtl.RUN)) hctl).trans hr
  refine ⟨d, ?_, Chip.ctr_of_rd ((hlow _ (by decide) (by decide)).trans (Chip.rd_wr_same ..)) hv, hlow, htb⟩
  rw [edgeIf_eq hs hp hq.1 h hm, State.edgeAdvance_running hrun, hd]

theorem freeLoadStep_completes {v : Nat} (ha : s.chip.alignSt = 1) (hf : s.chip.tb.freeLoad = some v) (hv : v < 2 ^ 64)
    (hne : v ≠ s.chip.nextCount.1) (hg : v % 4096 ≠ s.chip.olen - s.chip.gap) (hr : s.chip.runEn = .running) :
    Completes .freeLoadStep s fun t =>
      t.chip.ctr = v ∧ (t.chip.rd .otStepFrom).toNat = s.chip.nextCount.1 ∧
      t.chip.bit .otStat F.OtStat.STEP = true ∧ t.chip.tb.freeLoad = none ∧ t.chip.alignSt = 1 ∧ KeepsOutside s t := by
  obtain ⟨d, hd, hctr, hlow, htb⟩ := edge_steps (p := fun c => c.alignSt == 1 && c.tb.freeLoad.isSome) hs hp hq
    (by simp [ha, hf]) hr (Chip.edgeMove_load ha hf hne) hv (.inr hg)
  have hset (r : Reg) (h : r.offset < 0x70000) (h2 : r.offset ≠ Reg.otShadow.offset) (h3 : r.offset ≠ Reg.otXing.offset) :
      d.rd r = (s.chip.stepFrom s.chip.nextCount.1).rd r := by
    rw [hlow r h h2, Chip.edgeSet_load]
    exact Chip.rd_wr_other _ h3 _
  refine ⟨_, congrArg Host.Outcome.next hd, hctr, ?_, ?_, (congrArg Timebase.freeLoad htb).trans rfl, ?_, keepsOutside_chip ..⟩
  · refine (congrArg BitVec.toNat ((hset _ (by decide) (by decide) (by decide)).trans (Chip.rd_stepFrom ..))).trans ?_
    rw [BitVec.toNat_ofNat, Nat.mod_eq_of_lt s.chip.nextCount_lt]
  · exact (congrArg (fbit · F.OtStat.STEP) (hset _ (by decide) (by decide) (by decide))).trans (Chip.bit_stepFrom ..)
  · have hst := (hset .otAlign (by decide) (by decide) (by decide)).trans
      (Chip.rd_of_keeps (Chip.stepFrom_keeps _ _) (by decide))
    exact (congrArg (fget · F.OtAlign.STATE) hst).trans ha

section Resync

variable (h3 : 3 ≤ s.chip.alignSt) (h7 : s.chip.alignSt ≤ 7) (hf : s.chip.tb.freeLoad = none)
  (hnow : s.chip.resyncNow s.chip.nextCount.1 = true) (hr : s.chip.runEn = .running)
include h3 h7 hf hnow hr

theorem resyncStep_steps {v : Nat} (ho : s.chip.otOffset ≠ 0) (hx : v = s.chip.shiftX s.chip.nextCount.1 s.chip.otOffset)
    (hv : v < 2 ^ 64) (hg : v % 4096 ≠ s.chip.olen - s.chip.gap) : Completes .resyncStep s fun t =>
      t.chip.ctr = v ∧ (t.chip.rd .otStepFrom).toNat = s.chip.nextCount.1 ∧
      t.chip.bit .otStat F.OtStat.STEP = true ∧ t.chip.tb.resync = false ∧ KeepsOutside s t := by
  have hc := Chip.counting_of_locked h3 h7
  have hm := Chip.edgeMove_resync hc hf hnow ho
  rw [← hx] at hm
  obtain ⟨d, hd, hctr, hlow, htb⟩ := edge_steps (p := fun c => c.counting && c.resyncNow c.nextCount.1) hs hp hq
    (by simp [hc, hnow]) hr hm hv (.inr hg)
  have hset (r : Reg) (h : r.offset < 0x70000) (h2 : r.offset ≠ Reg.otShadow.offset) (h3 : r.offset ≠ Reg.otXing.offset) :
      d.rd r = s.chip.resynced.rd r := by
    rw [hlow r h h2, Chip.edgeSet_resync]
    exact Chip.rd_wr_other _ h3 _
  refine ⟨_, congrArg Host.Outcome.next hd, hctr, ?_, ?_,
    (congrArg Timebase.resync htb).trans (Chip.edgeSet_resync_used hnow v), keepsOutside_chip ..⟩
  · refine (congrArg BitVec.toNat ((hset _ (by decide) (by decide) (by decide)).trans (Chip.rd_resynced _))).trans ?_
    rw [BitVec.toNat_ofNat, Nat.mod_eq_of_lt s.chip.nextCount_lt]
  · exact (congrArg (fbit · F.OtStat.STEP) (hset _ (by decide) (by decide) (by decide))).trans (Chip.bit_resynced _)

/-- A resync of OFFSET 0 only disarms. -/
theorem resyncStep_disarms (hopen : s.chip.tb.opening = false) (ho : s.chip.otOffset = 0)
    (hw : s.chip.nextCount.2 = false) : Completes .resyncStep s fun t =>
      t.chip.ctr = s.chip.nextCount.1 ∧ t.chip.tb.resync = false ∧
      t.chip.rd .otStepFrom = s.chip.rd .otStepFrom ∧ t.chip.bit .otStat F.OtStat.STEP = s.chip.bit .otStat F.OtStat.STEP ∧
      KeepsOutside s t := by
  have hc := Chip.counting_of_locked h3 h7
  have hm := Chip.edgeMove_count hc hf (.inr ho)
  rw [hw] at hm
  obtain ⟨d, hd, hctr, hlow, htb⟩ := edge_steps (p := fun c => c.counting && c.resyncNow c.nextCount.1) hs hp hq
    (by simp [hc, hnow]) hr hm s.chip.nextCount_lt (.inl ⟨hopen, rfl⟩)
  have hset (r : Reg) (h : r.offset < 0x70000) (h2 : r.offset ≠ Reg.otShadow.offset) (h3 : r.offset ≠ Reg.otXing.offset) :
      d.rd r = s.chip.rd r := (hlow r h h2).trans (s.chip.rd_edgeSet_count _ h3)
  have hused : (s.chip.edgeSet .count s.chip.nextCount.1).tb.resync = false := by
    rw [Chip.edgeSet_count, hnow]
    exact Chip.edgeTb_fired _
  exact ⟨_, congrArg Host.Outcome.next hd, hctr, (congrArg Timebase.resync htb).trans hused,
    hset _ (by decide) (by decide) (by decide),
    congrArg (fbit · F.OtStat.STEP) (hset _ (by decide) (by decide) (by decide)), keepsOutside_chip ..⟩

end Resync

/-- The end of the orbit of a stopping timebase: the counter goes on to the next orbit, and RUN completes its stop. -/
theorem timebaseStopComplete_completes (hg : s.chip.gap < s.chip.olen) (hc : s.chip.counting = true)
    (hf : s.chip.tb.freeLoad = none) (hz : s.chip.tb.resync = false) (hw : s.chip.olen ≤ s.chip.ctr % 4096 + 1)
    (hlast : s.chip.ctr / 4096 + 1 < 2 ^ 52) (hr : s.chip.runEn = .stopping ∨ s.chip.runEn = .restart) :
    Completes .timebaseStopComplete s fun t =>
      t.chip.ctr = (s.chip.ctr / 4096 + 1) * 4096 ∧ t.chip.rd .otShadow = t.chip.rd .otXing ∧
      t.chip.runEn = s.chip.runEn.complete true ∧
      t.chip.alignSt = (if s.chip.runEn = .stopping then 0 else if s.chip.ringMode then 2 else 1) ∧ KeepsOutside s t := by
  have hn := Chip.nextCount_orbit hw hlast
  have hm := Chip.edgeMove_count hc hf (.inl (Chip.resyncNow_of_unarmed hz _))
  rw [hn] at hm
  generalize hv : (s.chip.ctr / 4096 + 1) * 4096 = v at hm
  have h0 : v % 4096 = 0 := by omega
  have hlt : v < 2 ^ 64 := by omega
  have hdue : s.chip.edgeDue .count v = [] := edgeDue_nil hq _ (by omega)
  obtain ⟨d, hd, hlow, hshadow, htb⟩ := State.edgeOpened_reads (.inr hdue)
  have hset (r : Reg) (h : r.offset < 0x70000) (h2 : r.offset ≠ Reg.otShadow.offset) (h3 : r.offset ≠ Reg.otXing.offset) :
      d.rd r = s.chip.rd r := (hlow r h h2).trans (s.chip.rd_edgeSet_count _ h3)
  have hctl := hset .otCtl (by decide) (by decide) (by decide)
  have hx : d.rd .otXing = BitVec.ofNat 64 v := (hlow _ (by decide) (by decide)).trans (Chip.rd_wr_same ..)
  have hrun : d.runEn = s.chip.runEn := congrArg (fun w => En.dec (fget w F.OtCtl.RUN)) hctl
  have hmode : d.ringMode = s.chip.ringMode := congrArg (fbit · F.OtCtl.MODE) hctl
  have hpres : d.tb.present = true := by
    rw [htb]
    exact (s.chip.stepped_edgeSet .count v).present.trans hp
  have hagenda : ({ s with chip := d } : State).chip.tb.agenda = [] := (congrArg Timebase.agenda htb).trans hdue
  have hstop : s.edgeAdvance .count v = { s with chip := d.stopEnd (s.chip.runEn.complete true) } := by
    rw [State.edgeAdvance_eq]
    dsimp only
    rw [hd, State.drainAgenda_nil hagenda, hrun, if_pos ⟨h0, hr⟩]
    rfl
  obtain ⟨e, st, hregs, hst, hstv⟩ := Chip.stopEnd_cases hpres (s.chip.runEn.complete true)
  rw [hst] at hstop
  have hread (r : Reg) : e.rd r = (d.setF .otCtl F.OtCtl.RUN (s.chip.runEn.complete true).code).rd r := by
    simp only [Chip.rd, hregs]
  have hkeep (r : Reg) (h : ([Reg.otAlign, .otStat, .calPhase, .bbStat].all fun q => r.offset != q.offset) = true)
      (h2 : r.offset ≠ Reg.otCtl.offset) : (e.setAlign st).rd r = d.rd r :=
    (Chip.rd_of_keeps (e.setAlign_keeps st) h).trans ((hread r).trans (Chip.rd_setF_other d h2 _ _))
  have hedge : s.edgeIf (fun c => (c.runEn == .stopping || c.runEn == .restart) && c.edgeMove.any fun m => m.2 % 4096 == 0) =
      { s with chip := e.setAlign st } := by
    refine (edgeIf_eq hs hp hq.1 ?_ hm).trans hstop
    rw [hm]
    rcases hr with hr | hr <;> simp [hr, h0]
  have hst16 : st < 16 := by
    rw [hstv]
    split
    · decide
    · split <;> decide
  refine ⟨_, congrArg Host.Outcome.next hedge, ?_, ?_, ?_, ?_, keepsOutside_chip ..⟩
  · exact (Chip.ctr_of_rd ((hkeep _ (by decide) (by decide)).trans hx) hlt)
  · refine (hkeep _ (by decide) (by decide)).trans (Eq.trans ?_ (hkeep _ (by decide) (by decide)).symm)
    rw [hshadow, if_pos h0, hx]
  · refine (Chip.runEn_setAlign ..).trans ?_
    exact (congrArg (fun w => En.dec (fget w F.OtCtl.RUN)) (hread _)).trans (d.runEn_setF _)
  · refine (Chip.alignSt_setAlign _ hst16).trans (hstv.trans ?_)
    rw [hmode]
    rcases hr with hr | hr <;> simp [hr, En.complete]

end EdgeSteps

/-- Settles O12: a load, a resync that steps, one that only disarms, and the end of a stopping timebase's orbit. -/
theorem edgeSteps : Obligations.EdgeSteps := by
  intro s hs hp hq hg
  refine ⟨fun v ha hf hv hne _ hgap hr => freeLoadStep_completes hs hp hq ha hf hv hne hgap hr,
    fun v h3 h7 hf hnow _ ho hx hv hgap hr => resyncStep_steps hs hp hq h3 h7 hf hnow hr ho hx hv hgap,
    fun h3 h7 hf hopen hnow ho hw hr => resyncStep_disarms hs hp hq h3 h7 hf hnow hr hopen ho hw,
    fun hc hf hz hw hlast hr => timebaseStopComplete_completes hs hp hq hg hc hf hz hw hlast hr⟩

end Sys2Proof.Machine

/-! PROOFS of the statements of 02_orbit_timebase.md, continued. A thread that becomes READY at home. O13: what an edge makes due. -/

namespace Sys2Proof.Machine

namespace Chip

/-! The clock wanted by a needle (R96, R277) -/

section Clock

variable (c : Chip) (n : Nat)

theorem cntNeedle_parts (ev k : Nat) : (c.cntNeedle n ev k).threads = c.threads ∧ (c.cntNeedle n ev k).needles = c.needles := by
  have h := c.cntNeedle_only n ev k
  rw [show c.cntNeedle n ev k = { c with regs := (c.cntNeedle n ev k).regs } from h]
  exact ⟨rfl, rfl⟩

theorem startWake_parts : (c.startWake n).threads = c.threads ∧ (c.startWake n).needles = c.needles := by
  unfold startWake
  split
  · exact ⟨rfl, rfl⟩
  · split
    · exact cntNeedle_parts ..
    · split <;> exact ⟨rfl, rfl⟩
    · exact ⟨rfl, rfl⟩

theorem startWakes_parts : c.startWakes.threads = c.threads ∧ c.startWakes.needles = c.needles := by
  unfold startWakes
  generalize c.pwr.wakeQ = l
  induction l generalizing c with
  | nil => exact ⟨rfl, rfl⟩
  | cons m l ih =>
    obtain ⟨ht, hn⟩ := ih (c.startWake m)
    obtain ⟨ht', hn'⟩ := c.startWake_parts m
    exact ⟨ht.trans ht', hn.trans hn'⟩

theorem wantClock_parts : (c.wantClock n).threads = c.threads ∧ (c.wantClock n).needles = c.needles := by
  unfold wantClock
  split
  · exact ⟨rfl, rfl⟩
  · dsimp only
    split
    · exact startWakes_parts _
    · exact startWakes_parts { c with pwr := { c.pwr with wakeQ := c.pwr.wakeQ ++ [n] } }

theorem startWake_keeps (h : n < 128) : KeepsButCounts c (c.startWake n) [.ndlStat n] := by
  intro r hr hq
  have hn := hq _ List.mem_cons_self
  unfold startWake
  split
  · rfl
  · split
    · exact (rd_cntNeedle _ h _ _ hr).trans (rd_setF_other _ hn _ _)
    · split
      · exact rd_setF_other _ hn _ _
      · rfl
    · rfl

/-- Only the needle's own state changes where no other needle waits. -/
theorem wantClock_keeps (h : n < 128) (hq : c.pwr.wakeQ = []) : KeepsButCounts c (c.wantClock n) [.ndlStat n] := by
  unfold wantClock
  split
  · exact fun _ _ _ => rfl
  · rw [hq]
    exact startWake_keeps { c with pwr := { c.pwr with wakeQ := [n] } } n h

end Clock

/-! The ready queue (R90) -/

/-- A needle with thread t at the tail of the queue of class k. -/
def queued (nd : Needle) (k t : Nat) : Needle := { nd with queues := nd.queues.set k (queueOf nd k ++ [t]) }

section Enqueue

variable (c : Chip) (t n : Nat)

/-- The chip once the thread is READY and counted, before it is queued. -/
theorem markedReady_parts : ((c.setSt t .ready).cntStore 0x133 1).threads = (c.setSt t .ready).threads ∧
    ((c.setSt t .ready).cntStore 0x133 1).needles = c.needles ∧ ((c.setSt t .ready).cntStore 0x133 1).pwr = c.pwr := by
  have h := countOn_only (c.setSt t .ready) 588 4 0x133 1 none
  unfold cntStore
  rw [show (c.setSt t .ready).countOn 588 4 0x133 1 none =
    { c.setSt t .ready with regs := ((c.setSt t .ready).countOn 588 4 0x133 1 none).regs } from h]
  exact ⟨rfl, rfl, rfl⟩

/-- The thread is READY in the store, whatever needle it is queued on. -/
theorem enqueue_threads : (c.enqueue t n).threads = (c.setSt t .ready).threads :=
  (wantClock_parts _ n).1.trans (c.markedReady_parts t).1

theorem thr_enqueue_same : (c.enqueue t n).thr t = { c.thr t with st := .ready } :=
  (congrArg (fun l => Tab.get Thread.wiped l t) (c.enqueue_threads t n)).trans (thr_setThr_same ..)

theorem thr_enqueue_other {u : Nat} (hu : u ≠ t) : (c.enqueue t n).thr u = c.thr u :=
  (congrArg (fun l => Tab.get Thread.wiped l u) (c.enqueue_threads t n)).trans (thr_setThr_other _ hu _)

theorem enqueue_needles : (c.enqueue t n).needles = (c.setNdl n (queued (c.ndl n) (c.thr t).cls t)).needles := by
  obtain ⟨ht, hn, -⟩ := c.markedReady_parts t
  unfold enqueue
  dsimp only
  refine (wantClock_parts _ n).2.trans ?_
  generalize (c.setSt t .ready).cntStore 0x133 1 = d at *
  have hthr : d.thr t = { c.thr t with st := .ready } :=
    (congrArg (fun l => Tab.get Thread.wiped l t) ht).trans (thr_setThr_same ..)
  simp only [setNdl, ndl, hn, hthr]
  rfl

theorem ndl_enqueue_same : (c.enqueue t n).ndl n = queued (c.ndl n) (c.thr t).cls t :=
  (congrArg (fun l => Tab.get Needle.idle l n) (c.enqueue_needles t n)).trans (ndl_setNdl_same ..)

theorem ndl_enqueue_other {m : Nat} (hm : m ≠ n) : (c.enqueue t n).ndl m = c.ndl m :=
  (congrArg (fun l => Tab.get Needle.idle l m) (c.enqueue_needles t n)).trans (ndl_setNdl_other _ hm _)

theorem enqueue_keeps (h : n < 128) (hq : c.pwr.wakeQ = []) : KeepsButCounts c (c.enqueue t n) [.ndlStat n] := by
  intro r hr hl
  have hp := (c.markedReady_parts t).2.2
  have hc := rd_cntStore (c.setSt t .ready) 0x133 1 hr
  unfold enqueue
  dsimp only
  generalize (c.setSt t .ready).cntStore 0x133 1 = d at *
  exact (wantClock_keeps (d.setNdl n _) n h ((congrArg Power.wakeQ hp).trans hq) r hr hl).trans hc

end Enqueue

/-! A thread that becomes READY at home (R90, R95) -/

section Home

variable {c : Chip} {t : Nat}

theorem makeReady_home (hs : c.suspendedOn t = none) (ho : c.needleOn (c.thr t).aff = true) :
    c.makeReady t = c.enqueue t (c.thr t).aff := by
  unfold makeReady
  rw [hs]
  exact if_pos ho

/-- A wait of a thread at home ends: the result f in its record, and the thread queued on its needle. -/
theorem wake_home (f : Thread → Thread) (hf : (f (c.thr t)).aff = (c.thr t).aff) (hs : c.suspendedOn t = none)
    (ho : c.needleOn (c.thr t).aff = true) :
    c.wake t f = (c.setThr t { f (c.thr t) with kind := kNone, arg := 0 }).enqueue t (c.thr t).aff := by
  have hthr := thr_setThr_same c t { f (c.thr t) with kind := kNone, arg := 0 }
  have haff : ((c.setThr t { f (c.thr t) with kind := kNone, arg := 0 }).thr t).aff = (c.thr t).aff := by rw [hthr]; exact hf
  unfold wake
  generalize hd : c.setThr t { f (c.thr t) with kind := kNone, arg := 0 } = d at *
  have hsus : d.suspendedOn t = none := by rw [← hd]; exact hs
  have hon : d.needleOn (d.thr t).aff = true := by rw [haff, ← hd]; exact ho
  rw [makeReady_home hsus hon, haff]

theorem wake_readied (f : Thread → Thread) (hf : (f (c.thr t)).aff = (c.thr t).aff) (h : AtHome c t) :
    Readied c (c.wake t f) t (c.thr t).aff { f (c.thr t) with kind := kNone, arg := 0 } ∧
      KeepsButCounts c (c.wake t f) [.ndlStat (c.thr t).aff] := by
  obtain ⟨hs, ha, ho, hq⟩ := h
  rw [wake_home f hf hs ho]
  have hthr := thr_setThr_same c t { f (c.thr t) with kind := kNone, arg := 0 }
  have hoth (u : Nat) (hu : u ≠ t) := thr_setThr_other c hu { f (c.thr t) with kind := kNone, arg := 0 }
  refine ⟨⟨?_, fun u hu => ?_, ?_, fun m hm => ndl_enqueue_other _ _ _ hm⟩, ?_⟩
  · rw [thr_enqueue_same, hthr]
  · rw [thr_enqueue_other _ _ _ hu, hoth u hu]
  · rw [ndl_enqueue_same, hthr]
    rfl
  · exact enqueue_keeps (c.setThr t _) t _ ha hq

end Home
end Chip
end Sys2Proof.Machine

namespace Sys2Proof.Machine

/-! The first task of the agenda (R35) -/

section Task

variable {s : State} {u : EdgeTask} {rest : List EdgeTask} {p : EdgeTask → Bool}

/-- The first task of the agenda is done where it is of the kind asked for and no later one goes before it. -/
theorem State.taskIf_head (hc : coreUp s.chip = true) (ha : s.chip.tb.agenda = u :: rest)
    (hr : ∀ y ∈ rest, Chip.rank u ≤ Chip.rank y) (hp : p u = true) : s.taskIf p = s.doTask u := by
  have hdo : s.chip.mayDo u = true := by
    simpa [Chip.mayDo, ha] using Or.inr hr
  unfold State.taskIf
  rw [ha, List.find?_cons_of_pos hp]
  exact if_pos ⟨hc, hdo⟩

theorem State.agenda_erase_head (ha : s.chip.tb.agenda = u :: rest) :
    s.chip.setAgenda (s.chip.tb.agenda.erase u) = s.chip.setAgenda rest := by
  rw [ha, List.erase_cons_head]

/-- A task other than a SETAT entry changes the chip alone. -/
theorem State.doTask_head (ha : s.chip.tb.agenda = u :: rest) (hu : ∀ e, u ≠ .setat e) :
    s.doTask u = { s with chip := (s.chip.setAgenda rest).doTask s.env u } := by
  unfold State.doTask
  dsimp only
  rw [State.agenda_erase_head ha]
  cases u with
  | setat e => exact absurd rfl (hu e)
  | _ => rfl

end Task

/-! SETAT_ENTRY_APPLY (R34, R35) -/

section Setat

variable {s : State} (hs : Ready s) {e : SetatEntry} {rest : List EdgeTask} (ha : s.chip.tb.agenda = .setat e :: rest)
  (hr : ∀ u ∈ rest, 1 ≤ Chip.rank u) (he : e ∈ s.chip.tb.setat)

/-- The state as an entry leaves the schedule and the agenda. -/
def State.setatTaken (s : State) (e : SetatEntry) (rest : List EdgeTask) : State :=
  { s with chip := (s.chip.setAgenda rest).setatRemove e }

include hs ha hr he

theorem exec_setatEntryApply :
    exec .setatEntryApply s = .next ((s.setatTaken e rest).csrWrite srcSetat e.off 255 e.value).1 := by
  have hup : coreUp s.chip = true := by simp [coreUp, show s.chip.pwr.phase = .running from hs]
  have htask : s.taskIf (fun t => match t with | .setat _ => true | _ => false) = s.doTask (.setat e) :=
    State.taskIf_head hup ha hr rfl
  refine congrArg Host.Outcome.next (htask.trans ?_)
  unfold State.doTask
  dsimp only
  rw [State.agenda_erase_head ha]
  exact if_pos (List.contains_iff_mem.mpr he)

theorem setatEntryApply_map (h8 : e.off % 8 = 0) (hlo : 0x800000 ≤ e.off) (hhi : e.off < 0x900000) :
    Completes .setatEntryApply s fun t =>
      memWord t.mem e.off = e.value &&& mapBits e.off ∧
      (∀ x, (x < e.off ∨ e.off + 8 ≤ x) → Tab.get 0#8 t.mem x = Tab.get 0#8 s.mem x) ∧
      t.chip.tb.setat = s.chip.tb.setat.erase e ∧ t.chip.tb.agenda = rest ∧ t.prot = s.prot ∧ t.pending = s.pending ∧
      t.chip.regs = s.chip.regs := by
  have hwrite : (s.setatTaken e rest).csrWrite srcSetat e.off 255 e.value = (s.setatTaken e rest).memWrite e.off 255 e.value := by
    have hrun : (s.setatTaken e rest).chip.pwr.phase = .running := hs
    unfold State.csrWrite
    rw [if_neg (not_not_intro hrun), if_neg (by omega), if_pos (by omega)]
  have hmem := (s.setatTaken e rest).memWrite_map 255 e.value ⟨hlo, hhi⟩
  rw [mergeBytes_all] at hmem
  refine ⟨_, exec_setatEntryApply hs ha hr he, ?_⟩
  rw [hwrite]
  refine ⟨?_, fun x hx => State.memWrite_other_byte _ _ _ hx, ?_⟩
  · rw [hmem]
    exact memWord_memPutWord ..
  · rw [hmem]
    exact ⟨rfl, rfl, rfl, rfl, rfl⟩

theorem setatEntryApply_register {r : Reg} (hw : r ∈ wholeRw) (ho : e.off = r.offset) :
    Completes .setatEntryApply s fun t =>
      t.chip.rd r = e.value ∧ KeepsRegs s.chip t.chip [r] ∧ t.chip.tb.setat = s.chip.tb.setat.erase e ∧
      t.chip.tb.agenda = rest ∧ KeepsOutside s t := by
  have h := wholeRw_of_mem hw
  have hwrite : ((s.setatTaken e rest).csrWrite srcSetat e.off 255 e.value).1 =
      { s.setatTaken e rest with chip := (s.setatTaken e rest).chip.wr r e.value } := by
    rw [ho, State.csrWrite_reg (s := s.setatTaken e rest) hs h.assigned, State.regWrite_whole h]
  refine ⟨_, (exec_setatEntryApply hs ha hr he).trans (congrArg _ hwrite), Chip.rd_wr_same .., ?_, rfl, rfl, rfl, rfl, rfl⟩
  exact Chip.keeps_wr (Chip.keeps_of_regs rfl) (by simp) _

end Setat

/-! XING_WAIT_WAKE (R35, R40, R110) -/

section Wake

variable {s : State} {u : Fin 262144} {x : Nat} {rest : List EdgeTask} (hc : coreUp s.chip = true)
  (ha : s.chip.tb.agenda = .wake u.val x :: rest) (hr : ∀ y ∈ rest, 2 ≤ Chip.rank y)
include hc ha hr

theorem exec_xingWaitWake : exec (.xingWaitWake u) s =
    .next { s with chip := (s.chip.setAgenda rest).doTask s.env (.wake u.val x) } := by
  have htask : s.taskIf (· == .wake u.val x) = s.doTask (.wake u.val x) := State.taskIf_head hc ha hr (by simp)
  rw [← State.doTask_head ha (by simp), ← htask]
  show execXingWaitWake u s = _
  unfold execXingWaitWake
  rw [ha, List.find?_cons_of_pos rfl]
  simp

theorem xingWaitWake_other (h : (s.chip.thr u).target ≠ x) : Completes (.xingWaitWake u) s fun t =>
    t = { s with chip := { s.chip with tb := { s.chip.tb with agenda := rest } } } := by
  refine ⟨_, exec_xingWaitWake hc ha hr, ?_⟩
  rw [Chip.doTask_wake_other s.env (s.chip.setAgenda rest) u x (.inr (.inr h))]
  rfl

theorem xingWaitWake_wakes (hst : (s.chip.thr u).st = .waiting) (hk : (s.chip.thr u).kind = kXing)
    (hx : (s.chip.thr u).target = x) (hh : AtHome s.chip u) : Completes (.xingWaitWake u) s fun t =>
      let th := s.chip.thr u
      Readied s.chip t.chip u th.aff
        { th with bv := true, bxing := th.arg % 2 ^ 24, fF := false, fZ := true, kind := kNone, arg := 0 } ∧
      t.chip.tb = { s.chip.tb with agenda := rest } ∧ KeepsOutside s t ∧
      KeepsButCounts s.chip t.chip [.ndlStat th.aff] ∧
      t.chip = { s.chip with regs := t.chip.regs, threads := t.chip.threads, needles := t.chip.needles, tb := t.chip.tb,
                             pwr := t.chip.pwr } := by
  have hdo : (s.chip.setAgenda rest).doTask s.env (.wake u.val x) = (s.chip.setAgenda rest).xingWake u := if_pos ⟨hst, hk, hx⟩
  refine ⟨_, (exec_xingWaitWake hc ha hr).trans (by rw [hdo]), ?_⟩
  have hw := Chip.woken_wake (s.chip.setAgenda rest) u fun th => { th with bv := true, bxing := th.arg % 2 ^ 24 }.report false
  have hd := Chip.wake_readied (c := s.chip.setAgenda rest) (t := u)
    (fun th => { th with bv := true, bxing := th.arg % 2 ^ 24 }.report false) rfl hh
  dsimp only
  unfold Chip.xingWake
  generalize Chip.wake _ _ _ = d at *
  obtain ⟨hready, hkeeps⟩ := hd
  refine ⟨hready, hw.tb, keepsOutside_chip .., hkeeps, ?_⟩
  rw [hw.tb]
  conv_lhs => rw [hw.only]
  rw [show d.pwr = { s.chip.pwr with wakeQ := d.pwr.wakeQ } from congrArg Chip.pwr hw.only]
  rfl

end Wake

/-! LOCK_LEASE_END (R119) -/

namespace Chip

/-- A lock broken for which no thread waits. -/
theorem lockBreak_unwanted {c : Chip} {l : Nat} (hst : (c.lockAt l).st = .held) (hl : l < 1024) (hw : c.lockWaiters l = []) :
    c.lockBreak l true = (c.setLock l { c.lockAt l with st := .broken, leaseEnd := 0 }).flag .lkStat F.LkStat.EXPIRED := by
  have hloc : isLocal l = true := by simpa [isLocal] using hl
  have hbreak : c.lockBreak l true = ((c.setLock l { c.lockAt l with st := .broken, leaseEnd := 0 }).flag .lkStat
      F.LkStat.EXPIRED).lockGrant l (c.lockAt l).owner := if_pos hst
  rw [hbreak]
  generalize hd : (c.setLock l { c.lockAt l with st := .broken, leaseEnd := 0 }).flag .lkStat F.LkStat.EXPIRED = d
  have hthr : d.threads = c.threads := by
    rw [← hd, setLock, if_pos hloc]
    rfl
  have hnone : d.lockWaiters l = [] := by
    rw [← hw]
    simp only [lockWaiters, hloc, if_true, waiters, thr, hthr]
  unfold lockGrant
  rw [hnone]
  rfl

section Local

variable (c : Chip) {l : Nat} (hl : l < 1024) (v : Lock)
include hl

theorem lockAt_setLock_same : (c.setLock l v).lockAt l = v := by
  have hloc : isLocal l = true := by simpa [isLocal] using hl
  simp [lockAt, setLock, hloc, Tab.get_put_same]

theorem lockAt_setLock_other {m : Nat} (hm : m < 1024) (h : m ≠ l) : (c.setLock l v).lockAt m = c.lockAt m := by
  have hloc : isLocal l = true := by simpa [isLocal] using hl
  have hlocm : isLocal m = true := by simpa [isLocal] using hm
  simp [lockAt, setLock, hloc, hlocm, Tab.get_put_other _ _ h]

end Local
end Chip

theorem lockLeaseEnd_completes {s : State} {l : BitVec 16} {fin : Nat} {rest : List EdgeTask} (hc : coreUp s.chip = true)
    (hl : l.toNat < 1024) (ha : s.chip.tb.agenda = .lease l.toNat fin :: rest) (hr : ∀ u ∈ rest, 3 ≤ Chip.rank u)
    (hst : (s.chip.lockAt l.toNat).st = .held) (hf : (s.chip.lockAt l.toNat).leaseEnd = fin)
    (hw : s.chip.lockWaiters l.toNat = []) : Completes (.lockLeaseEnd l) s fun t =>
      t.chip.lockAt l.toNat = { s.chip.lockAt l.toNat with st := .broken, leaseEnd := 0 } ∧
      (∀ m, m < 1024 → m ≠ l.toNat → t.chip.lockAt m = s.chip.lockAt m) ∧
      t.chip.bit .lkStat F.LkStat.EXPIRED = true ∧ KeepsRegs s.chip t.chip [.lkStat] ∧
      t.chip = { s.chip with regs := t.chip.regs, locks := t.chip.locks, tb := { s.chip.tb with agenda := rest } } ∧
      KeepsOutside s t := by
  have htask : s.taskIf (fun t => match t with | .lease l' _ => l' == l.toNat | _ => false) =
      s.doTask (.lease l.toNat fin) := State.taskIf_head hc ha hr (by simp)
  have hdo : (s.chip.setAgenda rest).doTask s.env (.lease l.toNat fin) = (s.chip.setAgenda rest).lockBreak l.toNat true :=
    if_pos ⟨hst, hf⟩
  have hbreak := Chip.lockBreak_unwanted (c := s.chip.setAgenda rest) hst hl hw
  refine ⟨_, (congrArg Host.Outcome.next (htask.trans (State.doTask_head ha (by simp)))).trans (by rw [hdo, hbreak]), ?_⟩
  refine ⟨Chip.lockAt_setLock_same (s.chip.setAgenda rest) hl _,
    fun m hm hne => Chip.lockAt_setLock_other (s.chip.setAgenda rest) hl _ hm hne, Chip.bit_flag_same _ _ ⟨by decide, by decide⟩, ?_, ?_,
    keepsOutside_chip ..⟩
  · refine Chip.keeps_flag (Chip.keeps_of_regs ?_) (by simp) _
    unfold Chip.setLock
    split <;> rfl
  · have hloc : Chip.isLocal l.toNat = true := by simpa [Chip.isLocal] using hl
    unfold Chip.setLock
    rw [if_pos hloc]
    rfl

/-! DECISION_MISSING (R188) -/

theorem decisionMissing_completes {s : State} {k : Fin 1024} {d : DecEntry} {rest : List EdgeTask} (hc : coreUp s.chip = true)
    (ha : s.chip.tb.agenda = .missing k.val :: rest) (hr : ∀ u ∈ rest, 3 ≤ Chip.rank u)
    (hd : Tab.get DecEntry.unused s.chip.dec k = d) (hst : d.st = .opened) (hp : s.chip.decPos d.x = k.val)
    (hw : s.chip.waiters kDec (· == d.x % 2 ^ 24) = []) : Completes (.decisionMissing k) s fun t =>
      Tab.get DecEntry.unused t.chip.dec k =
        { st := .missing, x := d.x, word := 0x80000000 + d.word % 2 ^ 28 / 2 ^ 26 * 2 ^ 26 } ∧
      (∀ j, j ≠ k.val → Tab.get DecEntry.unused t.chip.dec j = Tab.get DecEntry.unused s.chip.dec j) ∧
      Counts s.chip t.chip .decCnt1 F.DecCnt1.MISSING 1 ∧
      t.chip.bit .decStat F.DecStat.MISSING = true ∧ KeepsRegs s.chip t.chip [.decCnt1, .decStat, .bbStat] ∧
      t.chip.tb = { s.chip.tb with agenda := rest } ∧ KeepsOutside s t := by
  have htask : s.taskIf (· == .missing k.val) = s.doTask (.missing k.val) := State.taskIf_head hc ha hr (by simp)
  obtain ⟨w, hw'⟩ : ∃ w, w = 0x80000000 + d.word % 2 ^ 28 / 2 ^ 26 * 2 ^ 26 := ⟨_, rfl⟩
  obtain ⟨e, he⟩ : ∃ e : Chip, e = (s.chip.setAgenda rest).setDec d.x { d with st := .missing, word := w } := ⟨_, rfl⟩
  have hdec : e.dec = Tab.put DecEntry.unused s.chip.dec k.val { d with st := .missing, word := w } := by
    rw [he, ← hp]
    rfl
  have hregs : e.regs = s.chip.regs := by rw [he]; rfl
  have htb : e.tb = { s.chip.tb with agenda := rest } := by rw [he]; rfl
  have hthr : e.threads = s.chip.threads := by rw [he]; rfl
  obtain ⟨g, hg⟩ : ∃ g : Chip, g = ((e.tally .decCnt1 F.DecCnt1.MISSING 1).flag .decStat F.DecStat.MISSING).bbEvent 0x05
    (BitVec.ofNat 64 d.x) 0#64 := ⟨_, rfl⟩
  have hgthr : g.threads = s.chip.threads := by rw [hg, Chip.bbEvent_threads]; exact hthr
  have hdo : (s.chip.setAgenda rest).doTask s.env (.missing k.val) = g := by
    have hget : Tab.get DecEntry.unused (s.chip.setAgenda rest).dec k.val = d := hd
    have hnone : g.waiters kDec (· == d.x % 2 ^ 24) = [] := by
      rw [← hw]
      simp only [Chip.waiters, hgthr]
    have hdeclare : (s.chip.setAgenda rest).declareMissing d = g.decWake d.x w true := by
      rw [hg, he, hw']
      rfl
    refine Eq.trans (b := (s.chip.setAgenda rest).declareMissing d) ?_ ?_
    · unfold Chip.doTask
      dsimp only
      rw [hget, if_pos hst]
    · rw [hdeclare, Chip.decWake, hnone, List.foldl_nil]
  refine ⟨_, (congrArg Host.Outcome.next (htask.trans (State.doTask_head ha (by simp)))).trans (by rw [hdo]), ?_⟩
  have hgdec : g.dec = e.dec := by rw [hg, Chip.bbEvent_dec]; rfl
  have hread (r : Reg) : e.rd r = s.chip.rd r := by simp only [Chip.rd, hregs]
  refine ⟨?_, fun j hj => ?_, ?_, ?_, ?_, ?_, keepsOutside_chip ..⟩
  · dsimp only
    rw [hgdec, hdec, Tab.get_put_same, hw']
  · dsimp only
    rw [hgdec, hdec, Tab.get_put_other _ _ hj]
  · show g.fld .decCnt1 F.DecCnt1.MISSING = _
    rw [hg, Chip.fld_bbEvent _ _ _ _ (by decide)]
    refine (Chip.fld_setF_other _ (by decide) _ _ 1).trans ((Chip.fld_tally_same e _ ⟨by decide, by decide⟩ 1).trans ?_)
    simp only [Chip.fld, hread]
  · show g.bit .decStat F.DecStat.MISSING = true
    rw [hg, Chip.bit_bbEvent _ _ _ _ (by decide)]
    exact Chip.bit_flag_same _ _ ⟨by decide, by decide⟩
  · show KeepsRegs s.chip g _
    rw [hg]
    exact Chip.keeps_bbEvent (Chip.keeps_flag (Chip.keeps_tally (Chip.keeps_of_regs hregs) (by simp) _ _) (by simp) _) (by simp) _ _ _
  · show g.tb = _
    rw [hg, Chip.bbEvent_tb]
    exact htb

/-- Settles O13: the write of a SETAT entry, the two outcomes of a wait's task, a lease's end, and a decision declared MISSING. -/
theorem edgeTasks : Obligations.EdgeTasks := by
  unfold Obligations.EdgeTasks
  refine ⟨fun s e rest hs ha hr he => ⟨setatEntryApply_map hs ha hr he, fun r hm ho => ?_⟩,
    fun s u x rest hc ha hr => ⟨xingWaitWake_other hc ha hr, xingWaitWake_wakes hc ha hr⟩,
    fun s l fin rest hc hl ha hr => lockLeaseEnd_completes hc hl ha hr,
    fun s k d rest hc ha hr => decisionMissing_completes hc ha hr⟩
  exact setatEntryApply_register hs ha hr he (List.mem_append_left _ hm) ho

end Sys2Proof.Machine

/-! PROOFS of the statements of 02_orbit_timebase.md, continued. What the tap of the ingest stream leaves alone. -/

namespace Sys2Proof.Machine

namespace Chip

/-- d is c after services have looked at the ingest stream: beside their own state it differs in their registers and the black
box's, which lie above the other units', in the free choices taken, and in corrected words of map memory. -/
structure Tapped (c d : Chip) : Prop where
  only : d = { c with regs := d.regs, free := d.free, bb := d.bb, svc := d.svc, eccCe := d.eccCe }
  low : ∀ r : Reg, r.offset < 0x80000 → d.rd r = c.rd r

section Tapped

variable {c d e : Chip}

theorem Tapped.refl (c : Chip) : Tapped c c := ⟨rfl, fun _ _ => rfl⟩

theorem Tapped.trans (h : Tapped c d) (k : Tapped d e) : Tapped c e := by
  refine ⟨?_, fun r hr => (k.low r hr).trans (h.low r hr)⟩
  have hk := k.only
  rw [h.only] at hk
  exact hk

theorem Tapped.ite {p : Prop} [Decidable p] (h : Tapped c d) (k : Tapped c e) : Tapped c (if p then d else e) := by
  split <;> assumption

theorem Tapped.foldl {α : Type} {f : Chip → α → Chip} (hf : ∀ d a, Tapped d (f d a)) (l : List α) (c : Chip) :
    Tapped c (l.foldl f c) := by
  induction l generalizing c with
  | nil => exact .refl c
  | cons a l ih => exact (hf c a).trans (ih _)

theorem Tapped.wr (h : Tapped c d) {r : Reg} (hr : 0x80000 ≤ r.offset) (w : Word) : Tapped c (d.wr r w) :=
  h.trans ⟨rfl, fun q hq => rd_wr_other d (by omega) w⟩

theorem Tapped.setF (h : Tapped c d) {r : Reg} (hr : 0x80000 ≤ r.offset) (f : Fld) (v : Nat) : Tapped c (d.setF r f v) :=
  h.wr hr _

theorem Tapped.flag (h : Tapped c d) {r : Reg} (hr : 0x80000 ≤ r.offset) (f : Fld) : Tapped c (d.flag r f) := h.wr hr _

theorem Tapped.tally (h : Tapped c d) {r : Reg} (hr : 0x80000 ≤ r.offset) (f : Fld) (n : Nat) : Tapped c (d.tally r f n) :=
  h.wr hr _

theorem Tapped.setSvc (h : Tapped c d) (v : Services) : Tapped c (d.setSvc v) := h.trans ⟨rfl, fun _ _ => rfl⟩

theorem Tapped.spend (h : Tapped c d) : Tapped c d.spend := h.trans ⟨rfl, fun _ _ => rfl⟩

theorem Tapped.bbEvent (h : Tapped c d) (ty : Nat) (p0 p1 : Word) : Tapped c (d.bbEvent ty p0 p1) := by
  refine h.trans ⟨?_, fun r hr => rd_bbEvent d ty p0 p1 ?_⟩
  · conv_lhs => rw [bbEvent_only]
    rw [bbEvent_svc, bbEvent_eccCe]
  · have : Reg.bbStat.offset = 0x87018 := rfl
    omega

end Tapped

/-! Reads of map memory (R19, R311) -/

theorem tapped_noteEcc (c : Chip) (ue : Bool) (off : Nat) : Tapped c (c.noteEcc 2 ue off) := by
  have hcnt (f : Fld) : Tapped c (c.tally .wdEcc f 1) := (Tapped.refl c).tally (r := .wdEcc) (by decide) f 1
  unfold noteEcc
  cases ue with
  | true => exact Tapped.bbEvent ((hcnt F.WdEcc.MAP_UE).flag (r := .wdStat) (by decide) _) _ _ _
  | false =>
    have hmark : Tapped c { c.tally .wdEcc F.WdEcc.MAP_CE 1 with eccCe := Tab.put false c.eccCe off false } :=
      (hcnt F.WdEcc.MAP_CE).trans ⟨rfl, fun _ _ => rfl⟩
    exact hmark.flag (r := .wdStat) (by decide) _

theorem tapped_readEcc (c : Chip) (off : Nat) : Tapped c (c.readEcc 2 off).1 := by
  unfold readEcc
  split
  · exact c.tapped_noteEcc true off
  · split
    · exact c.tapped_noteEcc false off
    · exact .refl c

theorem tapped_readWords (c : Chip) (l : List Nat) : Tapped c (c.readWords 2 l) :=
  .foldl (fun d a => d.tapped_readEcc a) _ c

/-! The services of the tap (R309) -/

section Services

variable (c : Chip)

theorem tapped_deskew (n tag : Nat) : Tapped c (c.deskew n tag) := by
  have hr : 0x80000 ≤ (Reg.calDsk n).offset := Nat.le_trans (by decide) (Nat.le_add_right 0x80100 _)
  unfold deskew
  extract_lets od d lag c1 r seen src c2 c3 c4 c5 w c6 rise c7
  have h3 : Tapped c c3 := ((Tapped.refl c).spend.setSvc _).setF hr _ _
  have h4 : Tapped c c4 := .ite (h3.setF hr _ _) h3
  have h5 : Tapped c c5 := .ite (h4.setF hr _ _) h4
  have h6 : Tapped c c6 := h5.setF hr _ _
  have h7 : Tapped c c7 := .ite (h6.flag hr _) h6
  exact .ite (h7.flag (r := .calStat) (by decide) _) h7

theorem tapped_stkClose (e : Env) (ch : Nat) (s : StkChan) : Tapped c (c.stkClose e ch s) := by
  have hr (k : Nat) : 0x80000 ≤ (Reg.stkFlag k).offset := Nat.le_trans (by decide) (Nat.le_add_right 0x81000 _)
  unfold stkClose
  extract_lets same due c1 hit flagged s1 src c2 f c3
  have h1 : Tapped c c1 := .ite (c.tapped_readWords _) (.refl c)
  have h2 : Tapped c c2 := h1.setSvc _
  have h3 : Tapped c c3 := (h2.flag (hr _) _).flag (r := .stkStat) (by decide) _
  exact .ite ((h3.setF (r := .stkStat) (by decide) _ _).tally (r := .stkStat) (by decide) _ _) h2

theorem tapped_stkCloseAll (e : Env) (m : Nat) : Tapped c (c.stkCloseAll e m) := by
  refine .foldl (fun d q => ?_) _ c
  split
  · exact .ite (d.tapped_stkClose e _ _) (.refl d)
  · exact .refl d

theorem tapped_pedResult (e : Env) (ch : Nat) : Tapped c (c.pedResult e ch) := by
  unfold pedResult
  extract_lets a k mean ped c1 src c2 src2
  have h2 : Tapped c c2 := (c.tapped_readWords _).setSvc _
  exact .ite (.refl c) (.ite ((h2.tally (r := .calStat) (by decide) _ _).flag (r := .calStat) (by decide) _) (h2.setSvc _))

theorem tapped_pedSample (e : Env) (ch raw : Nat) : Tapped c (c.pedSample e ch raw) := (c.tapped_pedResult e ch).setSvc _

theorem tapped_occSample (e : Env) (ch raw ped thr : Nat) (poison : Bool) :
    Tapped c (c.occSample e ch raw ped thr poison) := .ite ((Tapped.refl c).setSvc _) (.refl c)

theorem tapped_stkSample (m ch raw : Nat) (poison : Bool) : Tapped c (c.stkSample m ch raw poison) := (Tapped.refl c).setSvc _

/-- The tap (R309) works on the services' own state and registers. -/
theorem tapped_tapWord (e : Env) (n m : Nat) (w : FWord) : Tapped c (c.tapWord e n m w) := by
  unfold tapWord
  extract_lets old t next src c1 c2 stk newOrbit c3 ped occ chan ents c4
  have h1 : Tapped c c1 := (Tapped.refl c).setSvc _
  have h2 : Tapped c c2 := .ite (h1.trans (c1.tapped_deskew n _)) h1
  have h3 : Tapped c c3 := .ite (h2.trans (c2.tapped_stkCloseAll e m)) h2
  have hents : Tapped c ents.1 := h3.trans (c3.tapped_readWords _)
  have h4 : Tapped c c4 := .ite (hents.trans (tapped_readWords _ _)) hents
  refine .ite h3 (h4.trans (.foldl (fun d k => ?_) _ c4))
  extract_lets raw x poison d1 d2
  have hd1 : Tapped d d1 := .ite (d.tapped_pedSample e _ _) (.refl d)
  have hd2 : Tapped d d2 := .ite (hd1.trans (d1.tapped_occSample e _ _ _ _ _)) hd1
  exact .ite (hd2.trans (d2.tapped_stkSample m _ _ _)) hd2

end Services
end Chip
end Sys2Proof.Machine

/-! PROOFS of the statements of 02_orbit_timebase.md, continued. A word that enters a spool, step by step. O16: words enter a spool. -/

namespace Sys2Proof.Machine

/-! A watermark (R39) -/

section Watermark

variable (level high low : Nat) (armed : Bool)

theorem watermark_rises : (watermark level high low armed).1 = (armed && decide (high < level)) := by
  simp [watermark, Bool.and_comm]

theorem watermark_arms :
    (watermark level high low armed).2 = (decide (level < min low high) || (armed && decide (level ≤ high))) := by
  by_cases h : level ≤ high
  · have : ¬ (high : Int) < level := by omega
    simp [watermark, this, h]
  · have : (high : Int) < level := by omega
    cases armed <;> simp [watermark, this, h]

end Watermark

namespace Chip

/-- A bit just written. -/
theorem bit_setF_same (c : Chip) (r : Reg) {f : Fld} (hf : f.ok) (hw : f.width = 1) (b : Bool) :
    (c.setF r f (b2n b)).bit r f = b := by
  have h : (c.setF r f (b2n b)).fld r f = b2n b := by
    rw [fld_setF_same c r hf, hw]
    cases b <;> rfl
  refine (congrArg (· == 1) h).trans ?_
  cases b <;> rfl

/-! Events of a store cycle (R330) -/

theorem onlyRegs_foldl {α : Type} {f : Chip → α → Chip} (hf : ∀ d a, OnlyRegs d (f d a)) (l : List α) (c : Chip) :
    OnlyRegs c (l.foldl f c) := by
  induction l generalizing c with
  | nil => exact only_refl c
  | cons a l ih => exact only_trans (hf c a) (ih _)

theorem rd_foldl {α : Type} {f : Chip → α → Chip} {r : Reg} (l : List α) (hf : ∀ d, ∀ a ∈ l, (f d a).rd r = d.rd r) (c : Chip) :
    (l.foldl f c).rd r = c.rd r := by
  induction l generalizing c with
  | nil => rfl
  | cons a l ih =>
    exact (ih (fun d b hb => hf d b (List.mem_cons_of_mem _ hb)) _).trans (hf c a List.mem_cons_self)

theorem spoolCycle_only (c : Chip) (m : Nat) (evs : List (Nat × Nat)) : OnlyRegs c (c.spoolCycle m evs) := by
  unfold spoolCycle countCycle
  exact only_ite (only_refl c) (onlyRegs_foldl (fun d x => onlyRegs_foldl (fun d j => d.bump_only ..) _ d) _ c)

theorem rd_spoolCycle (c : Chip) (m : Nat) (evs : List (Nat × Nat)) {r : Reg} (hr : r.offset < 0x70000 ∨ 0x74000 ≤ r.offset) :
    (c.spoolCycle m evs).rd r = c.rd r := by
  unfold spoolCycle countCycle
  refine rd_ite rfl (rd_foldl _ (fun d x _ => rd_foldl _ (fun d j hj => rd_bump d _ _ _ ?_ hr) d) c)
  have := List.mem_range.mp hj
  omega

/-! The steps of the spool controller (R65, R66, R68) -/

/-- d is c after steps of spool m that write none of its words: it differs in registers, in the black box and in the spools, the
spool's tail register not among them. -/
structure SpoolStep (m : Nat) (l : List Reg) (c d : Chip) : Prop where
  only : d = { c with regs := d.regs, free := d.free, bb := d.bb, spools := d.spools }
  tail : (d.spool m).tail = (c.spool m).tail
  keeps : KeepsButCounts c d l

section SpoolStep

variable {m : Nat} {l : List Reg} {c d e : Chip}

theorem SpoolStep.refl (c : Chip) : SpoolStep m l c c := ⟨rfl, rfl, fun _ _ _ => rfl⟩

theorem SpoolStep.trans (h : SpoolStep m l c d) (k : SpoolStep m l d e) : SpoolStep m l c e := by
  refine ⟨?_, k.tail.trans h.tail, fun r hr hl => (k.keeps r hr hl).trans (h.keeps r hr hl)⟩
  have hk := k.only
  rw [h.only] at hk
  exact hk

theorem SpoolStep.wr (h : SpoolStep m l c d) {r : Reg} (hr : r ∈ l) (w : Word) : SpoolStep m l c (d.wr r w) :=
  h.trans ⟨rfl, rfl, fun _ _ hq => rd_wr_other d (hq r hr) w⟩

theorem SpoolStep.setSpool (h : SpoolStep m l c d) {s : Spool} (hs : s.tail = (d.spool m).tail) : SpoolStep m l c (d.setSpool m s) :=
  h.trans ⟨rfl, by rw [spool_setSpool_same, hs], fun _ _ _ => rfl⟩

theorem SpoolStep.bbEvent (h : SpoolStep m l c d) (hl : Reg.bbStat ∈ l) (ty : Nat) (p0 p1 : Word) :
    SpoolStep m l c (d.bbEvent ty p0 p1) := by
  refine h.trans ⟨?_, by simp only [spool, bbEvent_spools], fun r _ hq => rd_bbEvent d ty p0 p1 (hq _ hl)⟩
  conv_lhs => rw [bbEvent_only]
  rw [bbEvent_spools]

theorem SpoolStep.spoolCycle (h : SpoolStep m l c d) (evs : List (Nat × Nat)) : SpoolStep m l c (d.spoolCycle m evs) := by
  have ho := d.spoolCycle_only m evs
  have hs := spools_of_only ho
  refine h.trans ⟨?_, by simp only [spool, hs], fun r hr _ => d.rd_spoolCycle m evs hr⟩
  conv_lhs => rw [show d.spoolCycle m evs = { d with regs := (d.spoolCycle m evs).regs } from ho]
  rw [hs, free_of_only ho, bb_of_only ho]

end SpoolStep

/-- The registers that the steps after a word's entry write. -/
abbrev lapRegs (m : Nat) : List Reg := [.spCnt m, .spLapat m, .spStat m, .bbStat]

variable (c : Chip) (m : Nat)

theorem spoolStep_lapMark (x : MarkEnt) : SpoolStep m (lapRegs m) c (c.lapMark m x) := by
  have hmark : SpoolStep m (lapRegs m) c (c.setSpool m { c.spool m with
      q := (c.spool m).q.map fun y => if y.slot = x.slot then { y with st := .lapped } else y }) := (SpoolStep.refl c).setSpool rfl
  exact SpoolStep.bbEvent (((hmark.wr (r := .spCnt m) (by simp) _).wr (r := .spLapat m) (by simp) _).wr (r := .spStat m)
    (by simp) _) (by simp) _ _ _

theorem spoolStep_lapInvalidate : SpoolStep m (lapRegs m) c (c.lapInvalidate m) := by
  have fold (l : List MarkEnt) : ∀ d, SpoolStep m (lapRegs m) c d → SpoolStep m (lapRegs m) c (l.foldl (fun c x => c.lapMark m x) d) := by
    induction l with
    | nil => exact fun d h => h
    | cons x l ih => exact fun d h => ih _ (h.trans (d.spoolStep_lapMark m x))
  exact fold _ _ ((SpoolStep.refl c).spoolCycle _)

theorem dropMarks_tail (s : Spool) (p : MarkEnt → Bool) : (dropMarks s p).tail = s.tail := by
  have fold (l : List MarkEnt) : ∀ t : Spool, (l.foldl (fun s x =>
      { s with epochs := Tab.put 0 s.epochs x.slot ((epochOf s x.slot + 1) % 128) }) t).tail = t.tail := by
    induction l with
    | nil => exact fun t => rfl
    | cons x l ih => exact fun t => ih _
  exact fold _ _

/-- FP is set, marks are dropped, and then the level watermark sees the new level. -/
theorem recomputeFp_cases : ∃ d, SpoolStep m [.spFp m] c d ∧ c.recomputeFp m = d.spWatermark m := by
  obtain ⟨f, p, h⟩ : ∃ f p, c.recomputeFp m = ((c.setF (.spFp m) F.SpFp.POS f).setSpool m
      (dropMarks ((c.setF (.spFp m) F.SpFp.POS f).spool m) p)).spWatermark m := ⟨_, _, rfl⟩
  exact ⟨_, ((SpoolStep.refl c).wr (by simp) _).setSpool (dropMarks_tail ..), h⟩

/-- The level watermark's registers after an update (R39, R79). -/
theorem spWatermark_sets :
    let d := c.spWatermark m
    let level := c.spLevel m
    let high := c.fld (.spWm m) F.SpWm.HIGH
    let armed := c.bit (.spLvl m) F.SpLvl.ARMED
    SpoolStep m [.spLvl m] c d ∧
      d.bit (.spLvl m) F.SpLvl.ARMED = (decide (level < min (c.fld (.spWm m) F.SpWm.LOW) high) || (armed && decide (level ≤ high))) ∧
      d.bit (.spLvl m) F.SpLvl.NOTICE = (c.bit (.spLvl m) F.SpLvl.NOTICE || (armed && decide (high < level))) := by
  intro d level high armed
  have hr : (watermark level high (c.fld (.spWm m) F.SpWm.LOW) armed).1 = _ := watermark_rises ..
  have ha : (watermark level high (c.fld (.spWm m) F.SpWm.LOW) armed).2 = _ := watermark_arms ..
  obtain ⟨w, hw⟩ : ∃ w, w = watermark level high (c.fld (.spWm m) F.SpWm.LOW) armed := ⟨_, rfl⟩
  rw [← hw] at hr ha
  have hd : d = if w.1 = true then (c.setF (.spLvl m) F.SpLvl.ARMED (b2n w.2)).flag (.spLvl m) F.SpLvl.NOTICE
      else c.setF (.spLvl m) F.SpLvl.ARMED (b2n w.2) := by
    rw [hw]
    rfl
  have hokA : F.SpLvl.ARMED.ok := ⟨by decide, by decide⟩
  have hokN : F.SpLvl.NOTICE.ok := ⟨by decide, by decide⟩
  have hset : SpoolStep m [.spLvl m] c (c.setF (.spLvl m) F.SpLvl.ARMED (b2n w.2)) := (SpoolStep.refl c).wr (by simp) _
  have harm : (c.setF (.spLvl m) F.SpLvl.ARMED (b2n w.2)).bit (.spLvl m) F.SpLvl.ARMED = w.2 := bit_setF_same _ _ hokA rfl _
  have hnot : (c.setF (.spLvl m) F.SpLvl.ARMED (b2n w.2)).bit (.spLvl m) F.SpLvl.NOTICE = c.bit (.spLvl m) F.SpLvl.NOTICE :=
    bit_setF_apart _ _ hokA (.inl (by decide)) _
  rw [hd, ← ha, ← hr]
  cases h1 : w.1 with
  | true =>
    refine ⟨hset.wr (by simp) _, ?_, ?_⟩
    · exact (bit_flag_apart _ _ hokN (.inr (by decide))).trans harm
    · rw [Bool.or_true]
      exact bit_flag_same _ _ hokN
  | false => exact ⟨hset, harm, by rw [Bool.or_false]; exact hnot⟩

/-! The word itself (R58, R68) -/

/-- A spool with a word in its tail register: a packet's first word enters the index, and the last of a block makes it due to be
spilled. -/
def spoolWith (s : Spool) (r : RegWord) (w : FWord) (spill : Prop) [Decidable spill] : Spool :=
  let s := { s with tail := (r :: s.tail).take 4 }
  let s := if w.sop then { s with index := ((w.tag, r.pos) :: s.index).take 64 } else s
  if spill then { s with unspilled := s.unspilled ++ [r.pos / 32] } else s

theorem spoolWith_tail (s : Spool) (r : RegWord) (w : FWord) (spill : Prop) [Decidable spill] :
    (spoolWith s r w spill).tail.head? = some r := by
  unfold spoolWith
  split
  · split <;> rfl
  · split <;> rfl

/-- A word as it stands in the tail register. -/
def tailWord (c : Chip) (m : Nat) (w : FWord) : RegWord :=
  { pos := c.wp m, g := (c.writePlace m).1, data := w.data, lanes := if w.poison then 15 else 0 }

/-- The chip with the word in its place and in the tail register, before the steps of the spool controller that follow. -/
def wordEntered (c : Chip) (m : Nat) (w : FWord) : Chip :=
  let d := (c.setLanes (c.writePlace m).1 (c.writePlace m).2 (if w.poison then 15 else 0)).setF (.spWp m) F.SpWp.POS (c.wp m + 1)
  d.setSpool m (spoolWith (d.spool m) (c.tailWord m w) w (d.spMode m = 2 ∧ (c.wp m + 1) % 32 = 0))

/-- The chip after those steps: the lap invalidation, FP, and the level watermark. -/
def wordSettled (c : Chip) (m : Nat) (w : FWord) : Chip := ((c.wordEntered m w).lapInvalidate m).recomputeFp m

variable (w : FWord)

theorem takeWord_eq : c.takeWord m w = if w.eop then (c.wordSettled m w).packetNotice m else c.wordSettled m w := rfl

/-- What a word's entry into spool m leaves: the word's lanes and place in the tail register, WP, and the level watermark. -/
structure WordTaken (w : FWord) (c d : Chip) : Prop where
  only : d = { c with regs := d.regs, free := d.free, bb := d.bb, spools := d.spools, lanes := d.lanes }
  wp : d.wp m = (c.wp m + 1) % 2 ^ 48
  lanes : d.lanesAt (c.writePlace m).1 (c.writePlace m).2 = if w.poison then 15 else 0
  tail : (d.spool m).tail.head? =
    some { pos := c.wp m, g := (c.writePlace m).1, data := w.data, lanes := if w.poison then 15 else 0 }
  armed : d.bit (.spLvl m) F.SpLvl.ARMED =
    (decide (d.spLevel m < min (c.fld (.spWm m) F.SpWm.LOW) (c.fld (.spWm m) F.SpWm.HIGH)) ||
      (c.bit (.spLvl m) F.SpLvl.ARMED && decide (d.spLevel m ≤ c.fld (.spWm m) F.SpWm.HIGH)))
  notice : d.bit (.spLvl m) F.SpLvl.NOTICE =
    (c.bit (.spLvl m) F.SpLvl.NOTICE || (c.bit (.spLvl m) F.SpLvl.ARMED && decide (c.fld (.spWm m) F.SpWm.HIGH < d.spLevel m)))
  keeps : KeepsButCounts c d [.spWp m, .spCnt m, .spLapat m, .spStat m, .bbStat, .spFp m, .spLvl m]

theorem wordEntered_only : c.wordEntered m w = { c with
    regs := (c.wordEntered m w).regs, spools := (c.wordEntered m w).spools, lanes := (c.wordEntered m w).lanes } := rfl

theorem rd_wordEntered {r : Reg} (hr : r.offset ≠ (Reg.spWp m).offset) : (c.wordEntered m w).rd r = c.rd r :=
  rd_setF_other (c.setLanes (c.writePlace m).1 (c.writePlace m).2 (if w.poison then 15 else 0)) hr F.SpWp.POS (c.wp m + 1)

theorem wp_wordEntered : (c.wordEntered m w).wp m = (c.wp m + 1) % 2 ^ 48 :=
  fld_setF_same (c.setLanes (c.writePlace m).1 (c.writePlace m).2 (if w.poison then 15 else 0)) (.spWp m) ⟨by decide, by decide⟩ _

theorem lanes_wordEntered : (c.wordEntered m w).lanesAt (c.writePlace m).1 (c.writePlace m).2 = if w.poison then 15 else 0 :=
  Tab.get_put_same ..

theorem tail_wordEntered : ((c.wordEntered m w).spool m).tail.head? = some (c.tailWord m w) := by
  unfold wordEntered
  dsimp only
  rw [spool_setSpool_same, spoolWith_tail]

theorem wordSettled_taken (hm : m < 256) : WordTaken m w c (c.wordSettled m w) := by
  obtain ⟨f, hf, hfp⟩ := ((c.wordEntered m w).lapInvalidate m).recomputeFp_cases m
  have hlap := (c.wordEntered m w).spoolStep_lapInvalidate m
  obtain ⟨hlvl, harm, hnot⟩ := f.spWatermark_sets m
  rw [← hfp] at hlvl harm hnot
  change SpoolStep m [.spLvl m] f (c.wordSettled m w) at hlvl
  change (c.wordSettled m w).bit (.spLvl m) F.SpLvl.ARMED = _ at harm
  change (c.wordSettled m w).bit (.spLvl m) F.SpLvl.NOTICE = _ at hnot
  have honly := c.wordEntered_only m w
  have hread {r : Reg} := c.rd_wordEntered m w (r := r)
  have hwp := c.wp_wordEntered m w
  have hlanes := c.lanes_wordEntered m w
  have htail := c.tail_wordEntered m w
  generalize c.wordSettled m w = d at *
  generalize c.wordEntered m w = e at *
  generalize e.lapInvalidate m = g at *
  have hg (r : Reg) (hr : r.offset < 0x70000) (hl : ∀ q ∈ lapRegs m, r.offset ≠ q.offset) (h1 : r.offset ≠ (Reg.spFp m).offset) :
      f.rd r = e.rd r := (hf.keeps r (.inl hr) (by simpa using h1)).trans (hlap.keeps r (.inl hr) hl)
  have hlow (r : Reg) (h : r ∈ [Reg.spWp m, .spWm m, .spLvl m]) : f.rd r = e.rd r := by
    simp only [List.mem_cons, List.not_mem_nil, or_false] at h
    rcases h with rfl | rfl | rfl
    all_goals exact hg _ (by simp only [Reg.offset]; omega) (by simp [Reg.offset]; omega) (by simp [Reg.offset])
  have hd (r : Reg) (hr : r.offset < 0x70000) (h : r.offset ≠ (Reg.spLvl m).offset) : d.rd r = f.rd r :=
    hlvl.keeps r (.inl hr) (by simpa using h)
  have hwm : f.rd (.spWm m) = c.rd (.spWm m) := (hlow _ (by simp)).trans (hread (by simp [Reg.offset]))
  have hlv : f.rd (.spLvl m) = c.rd (.spLvl m) := (hlow _ (by simp)).trans (hread (by simp [Reg.offset]))
  have hlevel : d.spLevel m = f.spLevel m := by
    have h1 := hd (.spWp m) (by simp only [Reg.offset]; omega) (by simp [Reg.offset])
    have h2 := hd (.spFp m) (by simp only [Reg.offset]; omega) (by simp [Reg.offset])
    simp only [spLevel, Chip.wp, fp, fld, h1, h2]
  have hfw (x : Fld) : f.fld (.spWm m) x = c.fld (.spWm m) x := congrArg (fget · x) hwm
  have hbl (x : Fld) : f.bit (.spLvl m) x = c.bit (.spLvl m) x := congrArg (fbit · x) hlv
  have hparts := hlvl.only
  rw [hf.only, hlap.only] at hparts
  have hdlanes : d.lanes = e.lanes := by rw [hparts]
  refine ⟨?_, ?_, ?_, ?_, ?_, ?_, fun r hr hl => ?_⟩
  · rw [hdlanes]
    rw [honly] at hparts
    exact hparts
  · have h1 := (hd (.spWp m) (by simp only [Reg.offset]; omega) (by simp [Reg.offset])).trans (hlow _ (by simp))
    exact (congrArg (fget · F.SpWp.POS) h1).trans hwp
  · exact (congrArg (fun l => Tab.get 0 l _) hdlanes).trans hlanes
  · rw [hlvl.tail, hf.tail, hlap.tail]
    exact htail
  · rw [harm, hlevel, hfw, hfw, hbl]
  · rw [hnot, hlevel, hfw, hbl, hbl]
  · have hne {q : Reg} (hq : q ∈ [Reg.spWp m, .spCnt m, .spLapat m, .spStat m, .bbStat, .spFp m, .spLvl m]) := hl q hq
    have h1 := hlvl.keeps r hr (by simpa using hne (q := .spLvl m) (by simp))
    have h2 := hf.keeps r hr (by simpa using hne (q := .spFp m) (by simp))
    have h3 := hlap.keeps r hr fun q hq => hne (by simp only [List.mem_cons, List.not_mem_nil, or_false] at hq ⊢; tauto)
    exact h1.trans (h2.trans (h3.trans (hread (hne (by simp)))))

end Chip
end Sys2Proof.Machine

namespace Sys2Proof.Machine

/-! Words in memory -/

theorem memWord_memPutWords_before (m : List Host.Cell) (ws : List Word) {a x : Nat} (h : x + 8 ≤ a) :
    memWord (memPutWords m a ws) x = memWord m x := by
  induction ws generalizing m a with
  | nil => rfl
  | cons w ws ih => exact (ih _ (by omega)).trans (memWord_memPutWord_other m (.inl h) w)

/-- The words of a list, read back. -/
theorem memWord_memPutWords (m : List Host.Cell) (ws : List Word) (a k : Nat) (hk : k < ws.length) :
    memWord (memPutWords m a ws) (a + 8 * k) = ws[k] := by
  induction ws generalizing m a k with
  | nil => exact absurd hk (Nat.not_lt_zero k)
  | cons w ws ih =>
    cases k with
    | zero => exact (memWord_memPutWords_before _ ws (Nat.le_refl _)).trans (memWord_memPutWord ..)
    | succ k =>
      have := ih (memPutWord m a w) (a + 8) k (by simpa using hk)
      rw [show a + 8 * (k + 1) = a + 8 + 8 * k by omega]
      exact this

namespace Chip

/-! Threads that wake one after the other -/

theorem mem_put {α : Type} [DecidableEq α] {d : α} {t : Tab α} {i : Nat} {v : α} {p : Nat × α} (h : p ∈ Tab.put d t i v) :
    p = (i, v) ∨ p ∈ t := by
  have del : ∀ t : Tab α, p ∈ Tab.del t i → p ∈ t := by
    intro t
    induction t with
    | nil => exact fun h => h
    | cons q t ih =>
      intro h
      simp only [Tab.del] at h
      split at h
      · exact List.mem_cons_of_mem _ (ih h)
      · rcases List.mem_cons.mp h with h | h
        · exact h ▸ List.mem_cons_self
        · exact List.mem_cons_of_mem _ (ih h)
  have ins : ∀ t : Tab α, p ∈ Tab.ins i v t → p = (i, v) ∨ p ∈ t := by
    intro t
    induction t with
    | nil => exact fun h => .inl (List.mem_singleton.mp h)
    | cons q t ih =>
      intro h
      simp only [Tab.ins] at h
      split at h
      · exact (List.mem_cons.mp h)
      · rcases List.mem_cons.mp h with h | h
        · exact .inr (h ▸ List.mem_cons_self)
        · exact (ih h).imp_right (List.mem_cons_of_mem _)
  unfold Tab.put at h
  split at h
  · exact .inr (del t h)
  · exact (ins _ h).imp_right (del t)

theorem get_mem {α : Type} {d : α} {t : Tab α} {i : Nat} (h : Tab.get d t i ≠ d) : (i, Tab.get d t i) ∈ t := by
  induction t with
  | nil => exact absurd rfl h
  | cons q t ih =>
    obtain ⟨k, v⟩ := q
    simp only [Tab.get] at h ⊢
    split at h
    · next hk =>
      rw [if_pos hk, hk]
      exact List.mem_cons_self
    · next hk =>
      rw [if_neg hk]
      exact List.mem_cons_of_mem _ (ih h)

theorem suspendedOn_none (c : Chip) (t : Nat) :
    c.suspendedOn t = none ↔ ∀ p ∈ c.needles, (p.2.susp.any fun q => q.2.any fun x => x.t == t) = false := by
  unfold suspendedOn
  rw [List.findSome?_eq_none_iff]
  refine forall₂_congr fun p _ => ?_
  cases h : p.2.susp.any fun q => q.2.any fun x => x.t == t <;> simp

/-- A needle's suspended transfers stand as threads are queued on it. -/
theorem suspendedOn_enqueue {c : Chip} {u : Nat} (h : c.suspendedOn u = none) (t n : Nat) : (c.enqueue t n).suspendedOn u = none := by
  rw [suspendedOn_none] at h ⊢
  rw [enqueue_needles]
  intro p hp
  rcases mem_put hp with rfl | hp
  · show ((c.ndl n).susp.any _) = false
    by_cases hd : c.ndl n = Needle.idle
    · rw [hd]
      rfl
    · exact h _ (get_mem hd)
  · exact h p hp

/-- What waking threads at home needs of the chip, and keeps: the needles that wait to wake are needles. -/
def WakesReal (c : Chip) : Prop := ∀ n ∈ c.pwr.wakeQ, n < 128

theorem WakesReal.startWake {c : Chip} (h : WakesReal c) (n : Nat) : WakesReal (c.startWake n) := by
  have hq : WakesReal (c.unqueueWake n) := fun k hk => h k (List.mem_of_mem_filter hk)
  unfold Chip.startWake
  split
  · exact h
  · split
    · intro k hk
      rw [pwr_of_only (cntNeedle_only ..)] at hk
      exact hq k hk
    · split
      · exact hq
      · exact h
    · exact hq

/-- The enables of the needles stand as needles' clocks start. -/
theorem rd_ndlCtl_startWake (c : Chip) {n : Nat} (hn : n < 128) (k : Nat) :
    (c.startWake n).rd (.ndlCtl k) = c.rd (.ndlCtl k) := by
  refine startWake_keeps c n hn _ (.inr ?_) ?_
  · simp only [Reg.offset]; omega
  · simp only [List.mem_singleton, forall_eq, Reg.offset]; omega

theorem startWakes_real {c : Chip} (h : WakesReal c) :
    WakesReal c.startWakes ∧ ∀ k, c.startWakes.rd (.ndlCtl k) = c.rd (.ndlCtl k) := by
  have fold : ∀ (l : List Nat) (d : Chip), (∀ n ∈ l, n < 128) → WakesReal d →
      WakesReal (l.foldl Chip.startWake d) ∧ ∀ k, (l.foldl Chip.startWake d).rd (.ndlCtl k) = d.rd (.ndlCtl k) := by
    intro l
    induction l with
    | nil => exact fun d _ hd => ⟨hd, fun _ => rfl⟩
    | cons n l ih =>
      intro d hl hd
      obtain ⟨h1, h2⟩ := ih (d.startWake n) (fun m hm => hl m (List.mem_cons_of_mem _ hm)) (hd.startWake n)
      exact ⟨h1, fun k => (h2 k).trans (d.rd_ndlCtl_startWake (hl n List.mem_cons_self) k)⟩
  exact fold _ c h h

theorem wantClock_real {c : Chip} (h : WakesReal c) {n : Nat} (hn : n < 128) :
    WakesReal (c.wantClock n) ∧ ∀ k, (c.wantClock n).rd (.ndlCtl k) = c.rd (.ndlCtl k) := by
  unfold wantClock
  split
  · exact ⟨h, fun _ => rfl⟩
  · dsimp only
    split
    · exact startWakes_real h
    · have hq : WakesReal { c with pwr := { c.pwr with wakeQ := c.pwr.wakeQ ++ [n] } } := by
        intro k hk
        rcases List.mem_append.mp hk with hk | hk
        · exact h k hk
        · exact List.mem_singleton.mp hk ▸ hn
      obtain ⟨h1, h2⟩ := startWakes_real hq
      exact ⟨h1, h2⟩

theorem enqueue_real {c : Chip} (h : WakesReal c) (t : Nat) {n : Nat} (hn : n < 128) :
    WakesReal (c.enqueue t n) ∧ ∀ k, (c.enqueue t n).rd (.ndlCtl k) = c.rd (.ndlCtl k) := by
  have hp := (c.markedReady_parts t).2.2
  have hr (k : Nat) : ((c.setSt t .ready).cntStore 0x133 1).rd (.ndlCtl k) = c.rd (.ndlCtl k) :=
    rd_cntStore (c.setSt t .ready) 0x133 1 (.inr (by simp only [Reg.offset]; omega))
  unfold enqueue
  dsimp only
  generalize (c.setSt t .ready).cntStore 0x133 1 = d at *
  have hd : WakesReal (d.setNdl n (queued (d.ndl n) (d.thr t).cls t)) := fun k hk => h k (hp ▸ hk)
  obtain ⟨h1, h2⟩ := wantClock_real hd hn
  exact ⟨h1, fun k => (h2 k).trans (hr k)⟩

/-- A waiting thread that would become READY on a needle that fills slots. -/
structure WakesHome (c : Chip) (u : Nat) : Prop where
  free : c.suspendedOn u = none
  real : (c.thr u).aff < 128
  on : c.needleOn (c.thr u).aff = true

/-- The record of a thread whose wait ended in success. -/
def wokenRecord (th : Thread) : Thread := { th with st := .ready, kind := kNone, arg := 0, fF := false, fZ := true }

section Step

variable {c : Chip} {t : Nat} (h : WakesHome c t)
include h

theorem wake_eq_enqueue : c.wake t (fun th => th.report false) =
    (c.setThr t { (c.thr t).report false with kind := kNone, arg := 0 }).enqueue t (c.thr t).aff :=
  wake_home _ rfl h.free h.on

theorem thr_wake (u : Nat) : (c.wake t fun th => th.report false).thr u = if u = t then wokenRecord (c.thr u) else c.thr u := by
  have hthr := thr_setThr_same c t { (c.thr t).report false with kind := kNone, arg := 0 }
  rw [wake_eq_enqueue h]
  split
  · next hu =>
    rw [hu, thr_enqueue_same, hthr]
    rfl
  · next hu => rw [thr_enqueue_other _ _ _ hu, thr_setThr_other c hu]

theorem ndl_wake (n : Nat) : (c.wake t fun th => th.report false).ndl n =
    if n = (c.thr t).aff then queued (c.ndl n) (c.thr t).cls t else c.ndl n := by
  have hthr := thr_setThr_same c t { (c.thr t).report false with kind := kNone, arg := 0 }
  rw [wake_eq_enqueue h]
  split
  · next hn =>
    rw [hn, ndl_enqueue_same, hthr]
    rfl
  · next hn => exact ndl_enqueue_other _ _ _ hn

theorem wake_real (hr : WakesReal c) : WakesReal (c.wake t fun th => th.report false) ∧
    ∀ k, (c.wake t fun th => th.report false).rd (.ndlCtl k) = c.rd (.ndlCtl k) := by
  rw [wake_eq_enqueue h]
  exact enqueue_real (c := c.setThr t _) hr t h.real

/-- Another thread at home stays so, and so does this one. -/
theorem WakesHome.wake {u : Nat} (hu : WakesHome c u) (hr : WakesReal c) :
    WakesHome (c.wake t fun th => th.report false) u := by
  have haff : ((c.wake t fun th => th.report false).thr u).aff = (c.thr u).aff := by
    rw [thr_wake h]
    split <;> rfl
  have hctl := (wake_real h hr).2
  have honly := (woken_wake c t fun th => th.report false).only
  have hreq : (c.wake t fun th => th.report false).pwr.bdReq = c.pwr.bdReq := (congrArg (fun d : Chip => d.pwr.bdReq) honly).trans rfl
  have hforce : (c.wake t fun th => th.report false).pwr.bdForce = c.pwr.bdForce := (congrArg (fun d : Chip => d.pwr.bdForce) honly).trans rfl
  refine ⟨?_, haff ▸ hu.real, ?_⟩
  · rw [wake_eq_enqueue h]
    exact suspendedOn_enqueue (c := c.setThr t _) hu.free _ _
  · rw [haff, ← hu.on]
    simp only [needleOn, en, fld, hctl, bdDown, hreq, hforce]

end Step

theorem queueOf_queued {nd : Needle} (hl : nd.queues.length = 4) {k q : Nat} (hq : q < 4) (t : Nat) :
    queueOf (queued nd k t) q = queueOf nd q ++ if k = q then [t] else [] := by
  unfold queueOf queued
  dsimp only
  split
  · next h =>
    subst h
    rw [List.getElem?_set_self (by omega)]
    rfl
  · next h => rw [List.getElem?_set_ne h, List.append_nil]

/-- Threads at home that wake one after the other: each has its result, and stands in the queue of its class behind the earlier. -/
theorem wakes_home (l : List Nat) (c : Chip) (hr : l ≠ [] → WakesReal c) (hl : ∀ t ∈ l, WakesHome c t) (hq : ∀ n, (c.ndl n).queues.length = 4) :
    let d := l.foldl (fun c t => c.wake t fun th => th.report false) c
    (∀ u, d.thr u = if u ∈ l then wokenRecord (c.thr u) else c.thr u) ∧
      ∀ n q, q < 4 → queueOf (d.ndl n) q = queueOf (c.ndl n) q ++ l.filter fun u => (c.thr u).aff == n && (c.thr u).cls == q := by
  induction l generalizing c with
  | nil => simp
  | cons t l ih =>
    have ht := hl t List.mem_cons_self
    have hreal := hr (by simp)
    have hthr := thr_wake ht
    have hndl := ndl_wake ht
    obtain ⟨h1, h2⟩ := ih (c.wake t fun th => th.report false) (fun _ => (wake_real ht hreal).1)
      (fun u hu => ht.wake (hl u (List.mem_cons_of_mem _ hu)) hreal)
      (fun n => by rw [hndl]; split <;> simp [queued, hq])
    refine ⟨fun u => ?_, fun n q hq4 => ?_⟩
    · rw [List.foldl_cons, h1, hthr]
      by_cases hu : u = t
      · simp [hu, wokenRecord]
      · simp [hu]
    · have haff (u : Nat) : ((c.wake t fun th => th.report false).thr u).aff = (c.thr u).aff := by
        rw [hthr]; split <;> rfl
      have hcls (u : Nat) : ((c.wake t fun th => th.report false).thr u).cls = (c.thr u).cls := by
        rw [hthr]; split <;> rfl
      rw [List.foldl_cons, h2 n q hq4, hndl, List.filter_cons]
      simp only [haff, hcls]
      by_cases hn : n = (c.thr t).aff
      · rw [if_pos hn, queueOf_queued (hq n) hq4]
        by_cases hk : (c.thr t).cls = q
        · simp [hn, hk]
        · simp [hk]
      · have hne : ¬ (c.thr t).aff = n := fun h => hn h.symm
        simp [hn, hne]

end Chip
end Sys2Proof.Machine

namespace Sys2Proof.Machine

namespace Chip

theorem woken_packetNotice (c : Chip) (m : Nat) : Woken c (c.packetNotice m) := .foldl (fun d t => d.woken_wake t _) _ c

/-- What wakes and the tap leave of a chip whose spool has just taken a word. -/
structure WordPassed (c d : Chip) : Prop where
  low : ∀ r : Reg, r.offset < 0x70000 → d.rd r = c.rd r
  spools : d.spools = c.spools
  lanes : d.lanes = c.lanes
  ingest : d.ingest = c.ingest

theorem wordPassed_tap (c : Chip) (e : Env) (n m : Nat) (w : FWord) :
    WordPassed (c.wordSettled m w) ((c.takeWord m w).tapWord e n m w) := by
  have ht := (c.takeWord m w).tapped_tapWord e n m w
  have hw : Woken (c.wordSettled m w) (c.takeWord m w) := by
    rw [takeWord_eq]
    split
    · exact woken_packetNotice ..
    · exact .refl _
  generalize (c.takeWord m w).tapWord e n m w = d at *
  generalize c.takeWord m w = k at *
  generalize c.wordSettled m w = b at *
  refine ⟨fun r hr => (ht.low r (by omega)).trans (hw.low r hr), ?_, ?_, ?_⟩
  · rw [ht.only]; exact hw.spools
  · rw [ht.only, hw.only]
  · rw [ht.only, hw.only]

end Chip

section WordWrite

variable {s : State} {p : Fin 16} {w : FWord} {rest : List FWord} (hs : Ready s) (hf : (s.chip.ip p).fifo = w :: rest)

/-- The chip once the word has left its port's FIFO. -/
def Chip.wordLeft (c : Chip) (n : Nat) (rest : List FWord) : Chip := c.setIp n { c.ip n with fifo := rest }

/-- The enable of the spool that a word is bound for: OFF where there is none (R53). -/
def Chip.wordEn (c : Chip) (w : FWord) : En := if w.spool < 256 then c.spEn w.spool else .off

/-- The state once a word of port n's FIFO has moved on, by the enable of its spool (R53, R60, R68, R77). -/
def State.wordMoved (s : State) (n : Nat) (w : FWord) (rest : List FWord) : State :=
  match s.chip.wordEn w with
  | .running =>
    if s.chip.canTake w.spool then
      { s with mem := memPutWords s.mem (spoolAt (s.chip.writePlace w.spool).1 (s.chip.writePlace w.spool).2)
                 ((List.range 4).map (lane64 w.data))
               chip := ((s.chip.wordLeft n rest).takeWord w.spool w).tapWord s.env n w.spool w }
    else { s with chip := s.chip.holCheck n }
  | .off => { s with chip := s.chip.wordLeft n rest }
  | _ => { s with chip := (s.chip.wordLeft n rest).tally (.spCnt w.spool) F.SpCnt.DROP 1 }

include hs hf

theorem exec_spoolWordWrite : exec (.spoolWordWrite p) s = .next (s.wordMoved p w rest) := by
  have hword : s.fifoWord p = s.wordMoved p w rest := by
    unfold State.fifoWord
    rw [hf]
    rfl
  exact (if_pos hs).trans (congrArg _ hword)

theorem spoolWordWrite_off (he : s.chip.wordEn w = .off) : Completes (.spoolWordWrite p) s fun t =>
    t.chip.ip p = { s.chip.ip p with fifo := rest } ∧ t.chip.regs = s.chip.regs ∧ KeepsOutside s t := by
  refine ⟨_, exec_spoolWordWrite hs hf, ?_⟩
  rw [State.wordMoved, he]
  exact ⟨Chip.ip_setIp_same .., rfl, keepsOutside_chip ..⟩

theorem spoolWordWrite_stopping (he : s.chip.wordEn w = .stopping ∨ s.chip.wordEn w = .restart) :
    Completes (.spoolWordWrite p) s fun t =>
      t.chip.ip p = { s.chip.ip p with fifo := rest } ∧ Counts s.chip t.chip (.spCnt w.spool) F.SpCnt.DROP 1 ∧
      KeepsRegs s.chip t.chip [.spCnt w.spool] ∧ KeepsOutside s t := by
  have hx : exec (.spoolWordWrite p) s =
      .next { s with chip := (s.chip.wordLeft p rest).tally (.spCnt w.spool) F.SpCnt.DROP 1 } := by
    rw [exec_spoolWordWrite hs hf, State.wordMoved]
    rcases he with he | he <;> rw [he]
  refine ⟨_, hx, Chip.ip_setIp_same .., ?_, ?_, keepsOutside_chip ..⟩
  · exact Chip.fld_tally_same (s.chip.wordLeft p rest) _ ⟨by decide, by decide⟩ 1
  · exact Chip.keeps_tally (Chip.keeps_of_regs (d := s.chip.wordLeft p rest) rfl) (by simp) _ _

theorem spoolWordWrite_full (he : s.chip.wordEn w = .running) (hc : s.chip.canTake w.spool = false) :
    Completes (.spoolWordWrite p) s fun t =>
      t.chip.ip p = s.chip.ip p ∧ KeepsRegs s.chip t.chip [.ipStat p] ∧ OnlyRegs s.chip t.chip ∧ KeepsOutside s t := by
  have hx : exec (.spoolWordWrite p) s = .next { s with chip := s.chip.holCheck p } := by
    rw [exec_spoolWordWrite hs hf, State.wordMoved, he]
    simp [hc]
  refine ⟨_, hx, ?_⟩
  rcases s.chip.holCheck_cases p with h | ⟨-, h⟩ <;> rw [h]
  · exact ⟨rfl, Chip.keeps_refl _ _, Chip.only_refl _, keepsOutside_chip ..⟩
  · exact ⟨rfl, Chip.keeps_flag (Chip.keeps_refl _ _) (by simp) _, Chip.only_wr (Chip.only_refl _) _ _, keepsOutside_chip ..⟩

section Taken

variable (he : s.chip.wordEn w = .running) (hc : s.chip.canTake w.spool = true)
include he hc

theorem exec_spoolWordWrite_taken : exec (.spoolWordWrite p) s = .next
    { s with mem := memPutWords s.mem (spoolAt (s.chip.writePlace w.spool).1 (s.chip.writePlace w.spool).2)
               ((List.range 4).map (lane64 w.data))
             chip := ((s.chip.wordLeft p rest).takeWord w.spool w).tapWord s.env p w.spool w } := by
  rw [exec_spoolWordWrite hs hf, State.wordMoved, he]
  simp [hc]

omit hs hf hc in
theorem wordEn_lt : w.spool < 256 := by
  by_contra h
  simp [Chip.wordEn, h] at he

theorem spoolWordWrite_taken : Completes (.spoolWordWrite p) s fun t =>
      let pl := s.chip.writePlace w.spool
      (∀ k, k < 4 → memWord t.mem (spoolAt pl.1 pl.2 + 8 * k) = lane64 w.data k) ∧
      (∀ x, (x < spoolAt pl.1 pl.2 ∨ spoolAt pl.1 pl.2 + 32 ≤ x) → Tab.get 0#8 t.mem x = Tab.get 0#8 s.mem x) ∧
      t.chip.wp w.spool = (s.chip.wp w.spool + 1) % 2 ^ 48 ∧
      t.chip.lanesAt pl.1 pl.2 = (if w.poison then 15 else 0) ∧
      (t.chip.spool w.spool).tail.head? =
        some { pos := s.chip.wp w.spool, g := pl.1, data := w.data, lanes := if w.poison then 15 else 0 } ∧
      (let level := t.chip.spLevel w.spool
        let high := s.chip.fld (.spWm w.spool) F.SpWm.HIGH
        let armed := s.chip.bit (.spLvl w.spool) F.SpLvl.ARMED
        t.chip.bit (.spLvl w.spool) F.SpLvl.ARMED =
          (decide (level < min (s.chip.fld (.spWm w.spool) F.SpWm.LOW) high) || (armed && decide (level ≤ high))) ∧
        t.chip.bit (.spLvl w.spool) F.SpLvl.NOTICE =
          (s.chip.bit (.spLvl w.spool) F.SpLvl.NOTICE || (armed && decide (high < level)))) ∧
      t.chip.ip p = { s.chip.ip p with fifo := rest } ∧ t.prot = s.prot ∧ t.pending = s.pending := by
  have hm := wordEn_lt he
  have ht := (s.chip.wordLeft p rest).wordSettled_taken w.spool w hm
  have hp := (s.chip.wordLeft p rest).wordPassed_tap s.env p w.spool w
  refine ⟨_, exec_spoolWordWrite_taken hs hf he hc, fun k hk => ?_, fun x hx => ?_, ?_⟩
  · have := memWord_memPutWords s.mem ((List.range 4).map (lane64 w.data))
      (spoolAt (s.chip.writePlace w.spool).1 (s.chip.writePlace w.spool).2) k (by simpa using hk)
    simpa using this
  · exact memByte_memPutWords_other s.mem ((List.range 4).map (lane64 w.data)) (by simpa using hx)
  · have hing : (s.chip.wordLeft p rest).ip p = { s.chip.ip p with fifo := rest } := Chip.ip_setIp_same ..
    dsimp only
    generalize Chip.tapWord s.env _ p w.spool w = d at *
    have hingest : ((s.chip.wordLeft p rest).wordSettled w.spool w).ingest = (s.chip.wordLeft p rest).ingest := by rw [ht.only]
    generalize (s.chip.wordLeft p rest).wordSettled w.spool w = b at *
    have hread (r : Reg) (hr : r ∈ [Reg.spWp w.spool, .spFp w.spool, .spLvl w.spool]) : d.rd r = b.rd r := by
      refine hp.low r ?_
      simp only [List.mem_cons, List.not_mem_nil, or_false] at hr
      rcases hr with rfl | rfl | rfl <;> simp only [Reg.offset] <;> omega
    have hwp : d.wp w.spool = b.wp w.spool := congrArg (fget · _) (hread _ (by simp))
    have hlvl (f : Fld) : d.bit (.spLvl w.spool) f = b.bit (.spLvl w.spool) f := congrArg (fbit · f) (hread _ (by simp))
    have hlevel : d.spLevel w.spool = b.spLevel w.spool := by
      have hfp : d.fp w.spool = b.fp w.spool := congrArg (fget · _) (hread _ (by simp))
      simp only [Chip.spLevel, hwp, hfp]
    refine ⟨hwp.trans ht.wp, ?_, ?_, ⟨?_, ?_⟩, ?_, rfl, rfl⟩
    · exact (congrArg (fun l => Tab.get 0 l _) hp.lanes).trans ht.lanes
    · exact (congrArg (fun l => (Tab.get Spool.empty l w.spool).tail.head?) hp.spools).trans ht.tail
    · rw [hlvl, hlevel]
      exact ht.armed
    · rw [hlvl, hlevel]
      exact ht.notice
    · exact (congrArg (fun l => Tab.get Ingest.empty l p) (hp.ingest.trans hingest)).trans hing

end Taken
end WordWrite

/-! The waiters of a packet notice (R63, R92) -/

namespace Chip

/-- Whether thread u waits for the end position wp of spool m, or one before it. -/
def waitsForWord (c : Chip) (m wp u : Nat) : Bool :=
  (c.thr u).st == .waiting && (c.thr u).kind == kSpool && (c.thr u).arg / 2 ^ 20 == m && spoolWaitMet (c.thr u).arg wp

section Notice

variable {c : Chip} (m wp : Nat)

/-- The waiters of a packet notice, where the store lists each thread with its record. -/
theorem waiters_spool (hc : ∀ x ∈ c.threads, c.thr x.1 = x.2) :
    c.waiters kSpool (fun a => a / 2 ^ 20 == m && spoolWaitMet a wp) = (c.threads.map (·.1)).filter (c.waitsForWord m wp) := by
  unfold waiters
  rw [List.filter_map]
  congr 1
  refine List.filter_congr fun x hx => ?_
  simp only [Function.comp, waitsForWord, hc x hx, Bool.and_assoc]

theorem waitsForWord_mem {u : Nat} (h : c.waitsForWord m wp u = true) : u ∈ c.threads.map (·.1) := by
  have hne : c.thr u ≠ Thread.wiped := by
    intro hw
    simp only [waitsForWord, hw] at h
    cases h
  exact List.mem_map_of_mem (get_mem hne)

end Notice
end Chip

section Notice

variable {s : State} {p : Fin 16} {w : FWord} {rest : List FWord} (hs : Ready s) (hf : (s.chip.ip p).fifo = w :: rest)
  (he : s.chip.wordEn w = .running) (hc : s.chip.canTake w.spool = true) (heop : w.eop = true)
  (hstore : ∀ x ∈ s.chip.threads, s.chip.thr x.1 = x.2)
  (hhome : ∀ u, s.chip.waitsForWord w.spool ((s.chip.wp w.spool + 1) % 2 ^ 48) u = true → AtHome s.chip u)
  (hqueues : ∀ n, (s.chip.ndl n).queues.length = 4)
include hs hf he hc heop hstore hhome hqueues

theorem spoolWordWrite_wakes :
    let met (u : Nat) := s.chip.waitsForWord w.spool ((s.chip.wp w.spool + 1) % 2 ^ 48) u
    Completes (.spoolWordWrite p) s fun t =>
      (∀ u, t.chip.thr u = if met u then
        { s.chip.thr u with st := .ready, kind := kNone, arg := 0, fF := false, fZ := true } else s.chip.thr u) ∧
      (∀ n q, q < 4 → Chip.queueOf (t.chip.ndl n) q = Chip.queueOf (s.chip.ndl n) q ++
        (s.chip.threads.map (·.1)).filter fun u => met u && (s.chip.thr u).aff == n && (s.chip.thr u).cls == q) ∧
      t.chip.wp w.spool = (s.chip.wp w.spool + 1) % 2 ^ 48 ∧ t.prot = s.prot ∧ t.pending = s.pending := by
  intro met
  have hm := wordEn_lt he
  have ht := (s.chip.wordLeft p rest).wordSettled_taken w.spool w hm
  have htake : (s.chip.wordLeft p rest).takeWord w.spool w = ((s.chip.wordLeft p rest).wordSettled w.spool w).packetNotice w.spool := by
    rw [Chip.takeWord_eq, if_pos heop]
  have hp := (s.chip.wordLeft p rest).wordPassed_tap s.env p w.spool w
  have htap := (((s.chip.wordLeft p rest).takeWord w.spool w).tapped_tapWord s.env p w.spool w).only
  refine ⟨_, exec_spoolWordWrite_taken hs hf he hc, ?_⟩
  dsimp only
  rw [htake] at *
  generalize Chip.tapWord s.env _ p w.spool w = d at *
  have hthr (u : Nat) : (((s.chip.wordLeft p rest).wordSettled w.spool w)).thr u = s.chip.thr u := by
    rw [ht.only]; rfl
  have hthreads : (((s.chip.wordLeft p rest).wordSettled w.spool w)).threads = s.chip.threads := by rw [ht.only]; rfl
  have hneedles : (((s.chip.wordLeft p rest).wordSettled w.spool w)).needles = s.chip.needles := by rw [ht.only]; rfl
  have hpwr : (((s.chip.wordLeft p rest).wordSettled w.spool w)).pwr = s.chip.pwr := by rw [ht.only]; rfl
  have hctl (k : Nat) : (((s.chip.wordLeft p rest).wordSettled w.spool w)).rd (.ndlCtl k) = s.chip.rd (.ndlCtl k) := by
    refine ht.keeps _ (.inr (by simp only [Reg.offset]; omega)) ?_
    simp only [List.mem_cons, List.not_mem_nil, or_false, forall_eq_or_imp, forall_eq, Reg.offset]
    omega
  have hwp : (((s.chip.wordLeft p rest).wordSettled w.spool w)).wp w.spool = (s.chip.wp w.spool + 1) % 2 ^ 48 := ht.wp
  have hdwp : d.wp w.spool = ((s.chip.wordLeft p rest).wordSettled w.spool w).wp w.spool :=
    congrArg (fget · _) (hp.low _ (by simp only [Reg.offset]; omega))
  generalize (s.chip.wordLeft p rest).wordSettled w.spool w = b at *
  have hndl (n : Nat) : b.ndl n = s.chip.ndl n := by simp only [Chip.ndl, hneedles]
  have hmet (u : Nat) : b.waitsForWord w.spool ((s.chip.wp w.spool + 1) % 2 ^ 48) u = met u := by
    simp only [Chip.waitsForWord, hthr, met]
  obtain ⟨l, hl⟩ : ∃ l, l = (s.chip.threads.map (·.1)).filter met := ⟨_, rfl⟩
  have hnotice : b.packetNotice w.spool = l.foldl (fun c t => c.wake t fun th => th.report false) b := by
    have hw := Chip.waiters_spool (c := b) w.spool (b.wp w.spool) fun x hx => (hthr _).trans (hstore x (hthreads ▸ hx))
    rw [Chip.packetNotice, hw, hwp, hthreads, hl]
    congr 2
    exact funext hmet
  have hin (u : Nat) : u ∈ l ↔ met u = true := by
    rw [hl, List.mem_filter]
    exact ⟨fun h => h.2, fun h => ⟨Chip.waitsForWord_mem _ _ h, h⟩⟩
  have hhomes (u : Nat) (hu : u ∈ l) : Chip.WakesHome b u := by
    obtain ⟨hsus, haff, hon, -⟩ := hhome u ((hin u).mp hu)
    refine ⟨?_, by rw [hthr]; exact haff, ?_⟩
    · rw [← hsus]
      simp only [Chip.suspendedOn, hneedles]
    · rw [← hon]
      simp only [Chip.needleOn, Chip.en, Chip.fld, hctl, Chip.bdDown, hpwr, hthr]
  have hreal : l ≠ [] → Chip.WakesReal b := by
    intro hne
    obtain ⟨u, hu⟩ := List.exists_mem_of_ne_nil l hne
    intro n hn
    rw [hpwr, (hhome u ((hin u).mp hu)).2.2.2] at hn
    cases hn
  obtain ⟨hwoken, hqueue⟩ := Chip.wakes_home l b hreal hhomes fun n => by rw [hndl]; exact hqueues n
  rw [← hnotice] at hwoken hqueue
  have hdthr (u : Nat) : d.thr u = (b.packetNotice w.spool).thr u := by rw [htap]; rfl
  have hdndl (n : Nat) : d.ndl n = (b.packetNotice w.spool).ndl n := by rw [htap]; rfl
  refine ⟨fun u => ?_, fun n q hq => ?_, hdwp.trans hwp, rfl, rfl⟩
  · rw [hdthr, hwoken, hthr]
    simp only [hin]
    rfl
  · rw [hdndl, hqueue n q hq, hndl, hl, List.filter_filter]
    congr 1
    refine List.filter_congr fun u _ => ?_
    rw [hthr, Bool.and_comm, Bool.and_assoc]

end Notice

/-! The capacity (R58, R66, R79) -/

theorem Chip.spFull_iff (c : Chip) (m : Nat) : c.spFull m = true ↔ c.spMode m ≠ 1 ∧
    (if c.spMode m = 2 then (c.spLen m + 1) * 32 else (c.spCount m + 1) * 32) ≤ c.spLevel m := by
  unfold spFull
  rw [Bool.and_eq_true, bne_iff_ne, decide_eq_true_iff]
  rfl

theorem Chip.canTake_of_full {c : Chip} {m : Nat} (h : c.spFull m = true) : c.canTake m = false := by
  unfold canTake
  rw [if_pos h]

theorem Chip.canTake_of_room {c : Chip} {m : Nat} (hm : c.spMode m < 2) (h : c.spFull m = false) : c.canTake m = true := by
  unfold canTake
  rw [if_neg (by simp [h]), if_neg (by omega)]

/-- Settles O16: one lemma per outcome of the oldest word of a FIFO, one for the waiters of a packet's end, and the capacity. -/
theorem spoolWordWrites : Obligations.SpoolWordWrites := by
  unfold Obligations.SpoolWordWrites
  refine ⟨fun s p w rest hs hf => ?_, fun c m => ⟨c.spFull_iff m, Chip.canTake_of_full, Chip.canTake_of_room⟩⟩
  exact ⟨fun he hc _ _ => spoolWordWrite_taken hs hf he hc,
    fun he hc heop hstore hhome hq => spoolWordWrite_wakes hs hf he hc heop hstore hhome hq,
    fun he hc => spoolWordWrite_full hs hf he hc, fun he => spoolWordWrite_off hs hf he,
    fun he => spoolWordWrite_stopping hs hf he⟩

end Sys2Proof.Machine

/-! PROOFS of the statements of 02_orbit_timebase.md, continued. O58: the background services. -/

namespace Sys2Proof.Machine

namespace Chip

/-! The deskew of a port (R315) -/

section Deskew

variable (c : Chip) (n tag : Nat)

theorem bit_ite {p : Prop} [Decidable p] {d e : Chip} {r : Reg} {f : Fld} {b : Bool} (h : d.bit r f = b) (k : e.bit r f = b) :
    (if p then d else e).bit r f = b := by
  split <;> assumption

/-- A notice of the deskew watermark stands until it is cleared. -/
theorem deskew_notice (h : c.bit (.calDsk n) F.CalDsk.NOTICE = true) :
    (c.deskew n tag).bit (.calDsk n) F.CalDsk.NOTICE = true := by
  have hstat : (Reg.calDsk n).offset ≠ Reg.calStat.offset := by simp only [Reg.offset]; omega
  have keep (d : Chip) {f : Fld} (hf : f.ok) (ha : f.hi < F.CalDsk.NOTICE.lo) (v : Nat) (hd : d.bit (.calDsk n) F.CalDsk.NOTICE = true) :
      (d.setF (.calDsk n) f v).bit (.calDsk n) F.CalDsk.NOTICE = true := (bit_setF_apart d _ hf (.inl ha) v).trans hd
  unfold deskew
  extract_lets od d lag c1 r seen src c2 c3 c4 c5 w c6 rise c7
  have h2 : c2.bit r F.CalDsk.NOTICE = true := h
  have h3 : c3.bit r F.CalDsk.NOTICE = true := keep c2 ⟨by decide, by decide⟩ (by decide) lag h2
  have h4 : c4.bit r F.CalDsk.NOTICE = true := bit_ite (keep c3 ⟨by decide, by decide⟩ (by decide) lag h3) h3
  have h5 : c5.bit r F.CalDsk.NOTICE = true := bit_ite (keep c4 ⟨by decide, by decide⟩ (by decide) lag h4) h4
  have h6 : c6.bit r F.CalDsk.NOTICE = true := keep c5 ⟨by decide, by decide⟩ (by decide) (b2n w.2) h5
  have h7 : c7.bit r F.CalDsk.NOTICE = true := bit_ite (bit_flag_same c6 r ⟨by decide, by decide⟩) h6
  exact bit_ite ((congrArg (fbit · F.CalDsk.NOTICE) (rd_flag_other c7 hstat _)).trans h7) h7

theorem deskew_keeps : KeepsRegs c (c.deskew n tag) [.calDsk n, .calStat] := by
  unfold deskew
  extract_lets od d lag c1 r seen src c2 c3 c4 c5 w c6 rise c7
  have h3 : KeepsRegs c c3 [.calDsk n, .calStat] := keeps_setF (d := c2) (keeps_of_regs rfl) List.mem_cons_self _ _
  have h4 : KeepsRegs c c4 [.calDsk n, .calStat] := keeps_ite (keeps_setF h3 List.mem_cons_self _ _) h3
  have h5 : KeepsRegs c c5 [.calDsk n, .calStat] := keeps_ite (keeps_setF h4 List.mem_cons_self _ _) h4
  have h6 : KeepsRegs c c6 [.calDsk n, .calStat] := keeps_setF h5 List.mem_cons_self _ _
  have h7 : KeepsRegs c c7 [.calDsk n, .calStat] := keeps_ite (keeps_flag h6 List.mem_cons_self _) h6
  exact keeps_ite (keeps_flag h7 (by simp) _) h7

end Deskew

/-- The tap of a spool that no service watches, at a packet's first word while CAL runs, is the deskew alone. -/
theorem tapWord_unwatched {c : Chip} {m : Nat} {w : FWord} (e : Env) {n : Nat} (hn : n < 16) (hm : m < 256) (hsop : w.sop = true)
    (hcal : c.svcEn 1 = .running) (hsvc : ∀ f ∈ [F.SvcSp.PED, F.SvcSp.OCC, F.SvcSp.STK], c.bit (.svcSp m) f = false) :
    ∃ v, c.tapWord e n m w = (c.setSvc v).deskew n w.tag := by
  have hbit (v : Services) (f : Fld) (hf : f ∈ [F.SvcSp.PED, F.SvcSp.OCC, F.SvcSp.STK]) :
      ((c.setSvc v).deskew n w.tag).bit (.svcSp m) f = false := by
    have hkeep : ((c.setSvc v).deskew n w.tag).rd (.svcSp m) = c.rd (.svcSp m) := by
      refine (c.setSvc v).deskew_keeps n w.tag _ ?_
      simp only [List.mem_cons, List.not_mem_nil, or_false, forall_eq_or_imp, forall_eq, Reg.offset]
      omega
    exact (congrArg (fbit · f) hkeep).trans (hsvc f hf)
  unfold tapWord
  extract_lets old t next src c1 c2 stk newOrbit c3 ped occ chan ents c4
  refine ⟨_, Eq.trans ?_ (if_pos ⟨hsop, hcal⟩ : c2 = c1.deskew n w.tag)⟩
  have h2 : ∀ f ∈ [F.SvcSp.PED, F.SvcSp.OCC, F.SvcSp.STK], c2.bit (.svcSp m) f = false := by
    intro f hf
    rw [show c2 = c1.deskew n w.tag from if_pos ⟨hsop, hcal⟩]
    exact hbit _ f hf
  have hstk : stk = false := by
    show (c2.bit (.svcSp m) F.SvcSp.STK && _) = false
    rw [h2 _ (by simp), Bool.false_and]
  have h3 : c3 = c2 := if_neg (by rw [hstk]; simp)
  have hped : ped = false := by
    show (c3.bit (.svcSp m) F.SvcSp.PED && _ && _) = false
    rw [h3, h2 _ (by simp), Bool.false_and, Bool.false_and]
  have hocc : occ = false := by
    show (c3.bit (.svcSp m) F.SvcSp.OCC && _) = false
    rw [h3, h2 _ (by simp), Bool.false_and]
  exact (if_pos (by rw [hped, hocc, hstk]; simp)).trans h3

end Chip

/-! The state that refutes O58 -/

/-- A packet of one word, for spool 6. -/
def loneWord : FWord := { spool := 6, stream := 0, sop := true, eop := true, tag := 0, poison := false, data := 0#256 }

/-- A thread that waits for a word of spool 6, with an AFF that names none of the 128 needles. -/
def strayWaiter : Thread := { Thread.wiped with st := .waiting, kind := kSpool, arg := 6 * 2 ^ 20, aff := 964 }

/-- A chip in which CAL runs, spool 6 runs and the packet waits at port 1; the registers where those of a needle 964 would stand say
that it is enabled with its clock stopped, and those where its counters would stand are the deskew registers of ports 0 and 1. -/
def strayWake : Chip :=
  let c : Chip := { Chip.reset with
    pwr := { Power.start with phase := .running }
    ingest := [(1, { Ingest.empty with fifo := [loneWord] })]
    threads := [(9, strayWaiter)] }
  let c := (c.setF (.spCtl 6) F.SpCtl.EN 1).setF .svcEn ⟨3, 2⟩ 1
  let c := ((c.setF (.ndlCtl 964) F.NdlCtl.EN 1).setF (.ndlStat 964) F.NdlStat.PWR 1).setF (.clkNpll 30) F.ClkNpll.LOCK 1
  (c.wr (.calDsk 0) 0x800000000000001B#64).wr (.calDsk 1) 0x0000FFFFFFFFFFFF#64

/-- The state with that chip. -/
def strayState : State := { State.reset with chip := strayWake }

/-- The notice of the word wakes the thread, which is counted on "needle 964": the count wraps, and its OVF is the deskew's NOTICE. -/
theorem strayWake_takes :
    let d := (strayState.chip.wordLeft (1 : Fin 16) []).takeWord loneWord.spool loneWord
    d.bit (.calDsk (1 : Fin 16)) F.CalDsk.NOTICE = true ∧ d.svcEn 1 = .running ∧
      ∀ f ∈ [F.SvcSp.PED, F.SvcSp.OCC, F.SvcSp.STK], d.bit (.svcSp loneWord.spool) f = false := by decide +kernel

theorem strayWake_notice (e : Env) :
    (((strayState.chip.wordLeft (1 : Fin 16) []).takeWord loneWord.spool loneWord).tapWord e (1 : Fin 16) loneWord.spool loneWord).bit
      (.calDsk (1 : Fin 16)) F.CalDsk.NOTICE = true := by
  have htakes := strayWake_takes
  dsimp only at htakes
  generalize (strayState.chip.wordLeft (1 : Fin 16) []).takeWord loneWord.spool loneWord = d at *
  obtain ⟨hnotice, hcal, hsvc⟩ := htakes
  obtain ⟨v, hv⟩ := Chip.tapWord_unwatched e (n := (1 : Fin 16)) (w := loneWord) (by decide) (by decide) rfl hcal hsvc
  rw [hv]
  exact Chip.deskew_notice _ _ _ hnotice

/-- Refutes O58: its clause on the deskew speaks of every state in which a word enters a spool, also of one in which a thread that the
word wakes has an AFF past the 128 needles. There the wake counts an event on a counter whose register lies on the port's own deskew
register, and sets its NOTICE although the watermark is not armed. In a state that the block can reach AFF is below 128, and the wake
leaves the deskew registers alone. -/
theorem not_services : ¬ Obligations.Services := by
  intro h
  obtain ⟨-, -, hdeskew, -⟩ := h
  have hs : Ready strayState := rfl
  have hf : (strayState.chip.ip (1 : Fin 16)).fifo = loneWord :: [] := by decide +kernel
  have he : strayState.chip.wordEn loneWord = .running := by decide +kernel
  have hc : strayState.chip.canTake loneWord.spool = true := by decide +kernel
  obtain ⟨t, ht, -, -, -, -, hnotice, -⟩ :=
    hdeskew strayState 1 loneWord [] hs hf rfl (by decide +kernel) (by decide) (by decide +kernel) hc
  have hchip : t.chip = ((strayState.chip.wordLeft (1 : Fin 16) []).takeWord loneWord.spool loneWord).tapWord strayState.env
      (1 : Fin 16) loneWord.spool loneWord := by
    rw [exec_spoolWordWrite_taken hs hf he hc] at ht
    rw [← Host.Outcome.next.inj ht]
  have hset : t.chip.bit (.calDsk (1 : Fin 16)) F.CalDsk.NOTICE = true := by
    rw [hchip]
    exact strayWake_notice _
  have hbefore : strayState.chip.bit (.calDsk (1 : Fin 16)) F.CalDsk.NOTICE = false ∧
      strayState.chip.bit (.calDsk (1 : Fin 16)) F.CalDsk.ARMED = false := by decide +kernel
  obtain ⟨hquiet, hunarmed⟩ := hbefore
  have hafter := hnotice.symm.trans hset
  rw [hquiet, hunarmed, Bool.false_and, Bool.or_false] at hafter
  cases hafter

end Sys2Proof.Machine

/-! PROOFS of the statements of 02_orbit_timebase.md, continued. What the issue of an instruction does (R88, R89, R100), for every
instruction. O27: CROSS and SETAT. -/

namespace Sys2Proof.Machine

namespace Chip

/-! The sampling tag and the slots able for certain (R88, R335, R336) -/

/-- d is c after needle n has counted, tagged a sample, or noted which slots are able for certain. -/
structure Sampled (n : Nat) (c d : Chip) : Prop where
  only : d = { c with regs := d.regs, needles := d.needles }
  others : ∀ m, m ≠ n → d.ndl m = c.ndl m
  needle : d.ndl n = { c.ndl n with lfsr := (d.ndl n).lfsr, follow := (d.ndl n).follow, sure := (d.ndl n).sure }
  keeps : KeepsButCounts c d [.isStat]

section Sampled

variable {n : Nat} {c d e : Chip}

theorem Sampled.refl (c : Chip) : Sampled n c c := ⟨rfl, fun _ _ => rfl, rfl, fun _ _ _ => rfl⟩

theorem Sampled.trans (h : Sampled n c d) (k : Sampled n d e) : Sampled n c e := by
  refine ⟨?_, fun m hm => (k.others m hm).trans (h.others m hm), ?_, fun r hr hl => (k.keeps r hr hl).trans (h.keeps r hr hl)⟩
  · have hk := k.only
    rw [h.only] at hk
    exact hk
  · have hk := k.needle
    rw [h.needle] at hk
    exact hk

theorem Sampled.setNdl (h : Sampled n c d) (l : Nat) (f : Option (List Nat)) (s : List Nat) :
    Sampled n c (d.setNdl n { d.ndl n with lfsr := l, follow := f, sure := s }) := by
  refine h.trans ⟨rfl, fun m hm => ndl_setNdl_other d hm _, ?_, fun _ _ _ => rfl⟩
  rw [ndl_setNdl_same]

theorem Sampled.tally (h : Sampled n c d) (f : Fld) (v : Nat) : Sampled n c (d.tally .isStat f v) :=
  h.trans ⟨rfl, fun _ _ => rfl, rfl, fun _ _ hq => rd_tally_other d (hq _ List.mem_cons_self) f v⟩

variable (h : Sampled n c d)
include h

theorem Sampled.slot (m j : Nat) : d.slot m j = c.slot m j := by
  by_cases hm : m = n
  · rw [hm]
    exact (congrArg (fun nd : Needle => Tab.get none nd.slots j) h.needle).trans rfl
  · exact (congrArg (fun nd : Needle => Tab.get none nd.slots j) (h.others m hm)).trans rfl

theorem Sampled.gapOf (j : Nat) : d.gapOf n j = c.gapOf n j :=
  (congrArg (fun nd : Needle => Tab.get (0, 0) nd.gaps j) h.needle).trans rfl

end Sampled

section Stages

variable (e : Env) (c : Chip) {n : Nat}

theorem sampled_cycle (hn : n < 128) (evs : List (Nat × Nat)) : Sampled n c (c.countCycle (4 * n) 4 evs) := by
  have ho := c.countCycle_only (4 * n) 4 evs
  have hnd := needles_of_only ho
  refine ⟨?_, fun m _ => by simp only [ndl, hnd], by simp only [ndl, hnd], fun r hr _ => ?_⟩
  · rw [hnd]; exact ho
  · unfold countCycle
    refine rd_ite rfl (rd_foldl _ (fun d x _ => rd_foldl _ (fun d j hj => rd_bump d _ _ _ ?_ hr) d) c)
    have := List.mem_range.mp hj
    omega

theorem sampled_tag (t pc op : Nat) (th : Thread) : Sampled n c (c.sampleTag n t pc op th) := by
  unfold sampleTag
  split
  · exact .refl c
  · dsimp only
    split
    · split
      · exact ((Sampled.refl c).setNdl _ (c.ndl n).follow (c.ndl n).sure).tally _ _
      · exact (Sampled.refl c).setNdl _ _ (c.ndl n).sure
    · exact (Sampled.refl c).setNdl _ (c.ndl n).follow (c.ndl n).sure

theorem sampled_after (t : Nat) : Sampled n c (c.afterIssue e n t) := by
  have hmark : Sampled n c (c.sampleMark n t) := by
    unfold sampleMark
    dsimp only
    split
    · exact (Sampled.refl c).setNdl (c.ndl n).lfsr _ (c.ndl n).sure
    · exact .refl c
  exact hmark.setNdl ((c.sampleMark n t).ndl n).lfsr ((c.sampleMark n t).ndl n).follow _

end Stages

/-! The needle of an issue -/

/-- Beside slot k of needle n, d differs from c in its needles by what every issue from that slot does. -/
structure Issuing (n k : Nat) (c d : Chip) : Prop where
  slots : ∀ j, j ≠ k → d.slot n j = c.slot n j
  others : ∀ m, m ≠ n → d.ndl m = c.ndl m
  needle : d.ndl n = { c.ndl n with
    slots := (d.ndl n).slots, ib := lineUsed c n k, lastSlot := k, lfsr := (d.ndl n).lfsr, follow := (d.ndl n).follow
    gaps := (d.ndl n).gaps, sure := (d.ndl n).sure }
  gaps : ∀ j, j < 8 → j ≠ k → (d.gapOf n j).2 = (c.gapOf n j).2 - ((c.gapOf n k).1 + 1)

section Issuing

variable {n k : Nat} {c d f : Chip} (h : Issuing n k c d)
include h

theorem Issuing.becomes {v : Option Slot} (hv : d.slot n k = v) : SlotBecomes c d n k v :=
  ⟨hv, h.slots, h.others, h.needle, h.gaps⟩

theorem Issuing.of_needles (hf : f.needles = d.needles) : Issuing n k c f := by
  have hndl (m : Nat) : f.ndl m = d.ndl m := by simp only [ndl, hf]
  refine ⟨fun j hj => ?_, fun m hm => (hndl m).trans (h.others m hm), ?_, fun j hj hk => ?_⟩
  · rw [← h.slots j hj]
    simp only [slot, hndl]
  · rw [hndl]
    exact h.needle
  · rw [← h.gaps j hj hk]
    simp only [gapOf, hndl]

theorem Issuing.setSlot (v : Option Slot) : Issuing n k c (d.setSlot n k v) := by
  have hndl : (d.setSlot n k v).ndl n = { d.ndl n with slots := Tab.put none (d.ndl n).slots k v } := ndl_setNdl_same ..
  refine ⟨fun j hj => (slot_setSlot_other d (.inr hj) v).trans (h.slots j hj),
    fun m hm => (ndl_setNdl_other d hm _).trans (h.others m hm), ?_, fun j hj hk => ?_⟩
  · rw [hndl]
    conv_lhs => rw [h.needle]
  · rw [← h.gaps j hj hk]
    simp only [gapOf, hndl]

theorem Issuing.sampled (hs : Sampled n d f) : Issuing n k c f := by
  refine ⟨fun j hj => (hs.slot n j).trans (h.slots j hj), fun m hm => (hs.others m hm).trans (h.others m hm), ?_, fun j hj hk => ?_⟩
  · have hn := hs.needle
    rw [h.needle] at hn
    have hslots : (f.ndl n).slots = (d.ndl n).slots := (congrArg Needle.slots hs.needle).trans rfl
    have hgaps : (f.ndl n).gaps = (d.ndl n).gaps := (congrArg Needle.gaps hs.needle).trans rfl
    rw [hslots, hgaps]
    exact hn
  · rw [hs.gapOf j]
    exact h.gaps j hj hk

end Issuing

/-! The issue (R88, R89, R100) -/

/-- What an issue leaves before the instruction does anything of its own: the slot's PC advanced, and its results to come. -/
structure IssueBegun (n k : Nat) (sl : Slot) (i : WInstr) (c d : Chip) : Prop where
  slot : d.slot n k = some (issuedSlot sl i (stepped sl.live))
  frame : Issuing n k c d
  only : d = { c with regs := d.regs, needles := d.needles }
  keeps : KeepsButCounts c d [.isStat]

/-- The cycles that pass with an issue are held beside the needle's slots. -/
theorem ndl_passCycles (e : Env) (c : Chip) (n k : Nat) :
    (c.passCycles e n k).ndl n = { c.ndl n with gaps := ((c.passCycles e n k).ndl n).gaps } := by
  unfold passCycles
  rw [ndl_setNdl_same]

theorem slot_passCycles (e : Env) (c : Chip) (n k m j : Nat) : (c.passCycles e n k).slot m j = c.slot m j := by
  by_cases hm : m = n
  · rw [hm]
    exact (congrArg (fun nd : Needle => Tab.get none nd.slots j) (ndl_passCycles e c n k)).trans rfl
  · exact (congrArg (fun nd : Needle => Tab.get none nd.slots j) (ndl_setNdl_other c hm _)).trans rfl

theorem regsNdls_setNdl {c d : Chip} (h : d = { c with regs := d.regs, needles := d.needles }) {n : Nat} (nd : Needle) :
    d.setNdl n nd = { c with regs := (d.setNdl n nd).regs, needles := (d.setNdl n nd).needles } :=
  (congrArg (fun x : Chip => { x with needles := (d.setNdl n nd).needles }) h).trans rfl

section Issued

variable (e : Env) {c q : Chip} {n k : Nat} {sl : Slot} (hs : c.slot n k = some sl)
include hs

/-- Once the cycles have passed and the sample is tagged, the needle takes slot k for the last and its line for the most recent. -/
theorem issuing_of_sampled (h : Sampled n (c.passCycles e n k) q) :
    Issuing n k c (q.setNdl n { q.ndl n with lastSlot := k, ib := ibTouch (q.ndl n).ib (lineOf sl.live.pc) }) := by
  have hslot (j : Nat) : (q.setNdl n { q.ndl n with lastSlot := k, ib := ibTouch (q.ndl n).ib (lineOf sl.live.pc) }).slot n j =
      q.slot n j := by simp only [slot, ndl_setNdl_same]
  have hgap (j : Nat) : (q.setNdl n { q.ndl n with lastSlot := k, ib := ibTouch (q.ndl n).ib (lineOf sl.live.pc) }).gapOf n j =
      q.gapOf n j := by simp only [gapOf, ndl_setNdl_same]
  refine ⟨fun j _ => ?_, fun m hm => ?_, ?_, fun j hj hk => ?_⟩
  · rw [hslot, h.slot n j, slot_passCycles]
  · rw [ndl_setNdl_other _ hm, h.others m hm]
    exact ndl_setNdl_other c hm _
  · have hn := h.needle
    rw [ndl_passCycles] at hn
    have hslots : (q.ndl n).slots = (c.ndl n).slots := (congrArg Needle.slots hn).trans rfl
    have hib : (q.ndl n).ib = (c.ndl n).ib := (congrArg Needle.ib hn).trans rfl
    have hgaps : (q.ndl n).gaps = ((c.passCycles e n k).ndl n).gaps := (congrArg Needle.gaps hn).trans rfl
    have hline : lineUsed c n k = ibTouch (c.ndl n).ib (lineOf sl.live.pc) := by unfold lineUsed; rw [hs]
    simp only [ndl_setNdl_same]
    rw [hline, hslots, hib, hgaps]
    conv_lhs => rw [hn]
  · rw [hgap, h.gapOf j]
    exact gapOf_passCycles e c n k j hj hk

theorem issued_begun (hn : n < 128) (op : Nat) (i : WInstr) : IssueBegun n k sl i c (c.issued e n k op (some i)) := by
  have hsample := (sampled_cycle (c.passCycles e n k) hn [(0x011, 1), (0x012 + sl.live.cls, 1)]).trans
    (sampled_tag _ sl.t sl.live.pc op sl.live)
  have hissued := issuing_of_sampled e hs hsample
  unfold issued
  rw [hs]
  dsimp only
  generalize (((c.passCycles e n k).countCycle (4 * n) 4 [(0x011, 1), (0x012 + sl.live.cls, 1)]).sampleTag n sl.t
    sl.live.pc op sl.live) = q at hsample hissued ⊢
  have honly : q = { c with regs := q.regs, needles := q.needles } := hsample.only.trans rfl
  exact ⟨slot_setSlot_same .., hissued.setSlot _, regsNdls_setNdl (regsNdls_setNdl honly _) _, hsample.keeps⟩

end Issued

/-! What an instruction leaves of the issue -/

theorem mapLive_of_slot {c : Chip} {n k : Nat} {sl : Slot} (hs : c.slot n k = some sl) (f : Thread → Thread) :
    c.mapLive n k f = c.setSlot n k (some { sl with live := f sl.live }) := by
  unfold mapLive
  rw [hs]

theorem live_of_slot {c : Chip} {n k : Nat} {sl : Slot} (hs : c.slot n k = some sl) : c.live n k = sl.live := by
  unfold live
  rw [hs]
  rfl

theorem slot_of_needles {c d : Chip} (h : d.needles = c.needles) (n k : Nat) : d.slot n k = c.slot n k := by
  simp only [slot, ndl, h]

theorem afterIssue_only (e : Env) (c : Chip) (n t : Nat) :
    c.afterIssue e n t = { c with needles := (c.afterIssue e n t).needles } := by
  unfold afterIssue noteSure sampleMark
  dsimp only
  split <;> rfl

theorem rd_afterIssue (e : Env) (c : Chip) (n t : Nat) (r : Reg) : (c.afterIssue e n t).rd r = c.rd r := by
  rw [afterIssue_only]
  rfl

theorem regsNdls_after {c d : Chip} (e : Env) {n : Nat} (t : Nat) (h : d = { c with regs := d.regs, needles := d.needles }) :
    d.afterIssue e n t = { c with regs := (d.afterIssue e n t).regs, needles := (d.afterIssue e n t).needles } := by
  have ha := afterIssue_only e d n t
  generalize d.afterIssue e n t = f at ha ⊢
  rw [ha, h]

section Begun

variable {n k : Nat} {sl : Slot} {i : WInstr} {c d f : Chip} (h : IssueBegun n k sl i c d)
include h

/-- What reads no counter and not the sampling status reads as before the issue. -/
theorem IssueBegun.rd {r : Reg} (hr : r.offset < 0x70000) : d.rd r = c.rd r :=
  h.keeps r (.inl hr) fun q hq => by
    rw [List.mem_singleton.mp hq]
    intro he
    rw [he] at hr
    exact absurd hr (by decide)

theorem IssueBegun.ctr : d.ctr = c.ctr := congrArg BitVec.toNat (h.rd (by decide))

theorem IssueBegun.olen : d.olen = c.olen := congrArg (fget · F.OtGeom.OLEN + 1) (h.rd (by decide))

theorem IssueBegun.live : d.live n k = stepped sl.live := live_of_slot h.slot

/-- An instruction whose effects on the needles are those of its slot leaves the needle so. -/
theorem IssueBegun.ends (e : Env) (t : Nat) (hf : f.needles = d.needles) (v : Option Slot) :
    SlotBecomes c ((f.setSlot n k v).afterIssue e n t) n k v := by
  have hs := sampled_after (n := n) e (f.setSlot n k v) t
  refine Issuing.becomes (((h.frame.of_needles hf).setSlot v).sampled hs) ?_
  rw [hs.slot n k]
  exact slot_setSlot_same ..

end Begun

end Chip

/-! The command of an issue -/

/-- An instruction that issues from slot k of needle n does what its command gives it to do, on the chip that the issue leaves. -/
theorem State.issue_next {s : State} {n : Fin 128} {k : Fin 8} {sl : Slot} {i : WInstr} {f : Env → Chip → WInstr → Option Chip}
    {d : Chip} (h : Issues s n k sl i)
    (hf : f s.env (s.chip.issued s.env n k (i.code / 2 ^ 56) (some i)) i = some d) :
    s.issue n k f = .next { s with chip := d.afterIssue s.env n sl.t } := by
  obtain ⟨hslot, hissues, hfetched⟩ := h
  unfold State.issue State.chipStep
  simp only [Chip.live_of_slot hslot, hfetched, hissues, hf, hslot]
  rfl


/-- A command of an issue completes with what its instruction makes of the chip that the issue leaves. -/
theorem completes_issue {cmd : Instr} {s : State} {n : Fin 128} {k : Fin 8} {sl : Slot} {i : WInstr}
    {f : Env → Chip → WInstr → Option Chip} {P : State → Prop} (hcmd : exec cmd s = s.issue n k f) (h : Issues s n k sl i)
    (hP : ∀ d, Chip.IssueBegun n k sl i s.chip d → ∃ g, f s.env d i = some g ∧ P { s with chip := g.afterIssue s.env n sl.t }) :
    Completes cmd s P := by
  obtain ⟨g, hf, hg⟩ := hP _ (Chip.issued_begun s.env h.1 n.isLt (i.code / 2 ^ 56) i)
  exact ⟨_, hcmd.trans (State.issue_next h hf), hg⟩

/-- An instruction that has changed registers and its own slot alone. -/
theorem issuedOnly_of {s : State} {n : Fin 128} {k : Fin 8} {f : Chip} {v : Slot} (hf : Chip.Issuing n k s.chip f)
    (hslot : f.slot n k = some v) (honly : f = { s.chip with regs := f.regs, needles := f.needles })
    (hkeeps : KeepsButCounts s.chip f [.isStat]) (t : Nat) : IssuedOnly s { s with chip := f.afterIssue s.env n t } n k v := by
  have ha := Chip.sampled_after (n := n) s.env f t
  exact ⟨(hf.sampled ha).becomes ((ha.slot n k).trans hslot), fun r hr hl => (Chip.rd_afterIssue ..).trans (hkeeps r hr hl),
    Chip.regsNdls_after s.env t honly, keepsOutside_chip s _⟩

/-- An instruction that changes its thread's copy alone. -/
theorem issuedOnly_mapLive {s : State} {n : Fin 128} {k : Fin 8} {sl : Slot} {i : WInstr} {d : Chip}
    (h : Chip.IssueBegun n k sl i s.chip d) (f : Thread → Thread) (t : Nat) :
    IssuedOnly s { s with chip := (d.mapLive n k f).afterIssue s.env n t } n k (issuedSlot sl i (f (stepped sl.live))) := by
  rw [Chip.mapLive_of_slot h.slot]
  exact issuedOnly_of (h.frame.setSlot _) (Chip.slot_setSlot_same ..) (Chip.regsNdls_setNdl h.only _) h.keeps t

/-! SETAT enters the schedule (R34) -/

namespace Chip

theorem regsTb_of_only {c d : Chip} (tb : Timebase) (h : OnlyRegs { c with tb := tb } d) :
    d = { c with regs := d.regs, tb := d.tb } := by
  unfold OnlyRegs at h
  rw [h]

section Accept

variable (c : Chip) (x off : Nat) (v : Word)

theorem setatAccept_keeps : KeepsRegs c (c.setatAccept x off v).1 [.otSetat, .otStat] := by
  have hset : Reg.otSetat ∈ [Reg.otSetat, Reg.otStat] := List.mem_cons_self
  have hstat : Reg.otStat ∈ [Reg.otSetat, Reg.otStat] := List.mem_cons_of_mem _ List.mem_cons_self
  unfold setatAccept
  extract_lets tb c' m
  split
  · exact keeps_flag (keeps_tally (keeps_refl c _) hset _ _) hstat _
  · split
    · exact keeps_flag (keeps_tally (keeps_refl c _) hset _ _) hstat _
    · exact keeps_ite (keeps_setF (keeps_of_regs rfl) hset _ _) (keeps_of_regs rfl)

theorem setatAccept_parts :
    (c.setatAccept x off v).1 = { c with regs := (c.setatAccept x off v).1.regs, tb := (c.setatAccept x off v).1.tb } := by
  unfold setatAccept
  extract_lets tb c' m
  split
  · exact regsTb_of_only c.tb (only_wr (only_wr (only_refl c) _ _) _ _)
  · split
    · exact regsTb_of_only c.tb (only_wr (only_wr (only_refl c) _ _) _ _)
    · have honly : OnlyRegs c' (if m > c'.fld .otSetat F.OtSetat.HWM then c'.setF .otSetat F.OtSetat.HWM m else c') :=
        only_ite (only_wr (only_refl c') _ _) (only_refl c')
      exact regsTb_of_only c'.tb honly

theorem setatAccept_late (h : x ≤ c.ctr) : let r := c.setatAccept x off v
    r.2 = true ∧ r.1.tb = c.tb ∧ Counts c r.1 .otSetat F.OtSetat.LATE_CNT 1 ∧ r.1.bit .otStat F.OtStat.SETAT_LATE = true := by
  have hr : c.reached x = true := decide_eq_true h
  unfold setatAccept
  rw [if_pos hr]
  exact ⟨rfl, rfl, (fld_setF_other _ (by decide) _ _ _).trans (fld_tally_same c .otSetat ⟨by decide, by decide⟩ 1),
    bit_flag_same _ _ ⟨by decide, by decide⟩⟩

theorem setatAccept_full (h : c.ctr < x) (hl : 256 ≤ c.tb.setat.length) : let r := c.setatAccept x off v
    r.2 = true ∧ r.1.tb = c.tb ∧ Counts c r.1 .otSetat F.OtSetat.FULL_CNT 1 ∧ r.1.bit .otStat F.OtStat.SETAT_FULL = true := by
  have hr : ¬ c.reached x = true := fun hx => absurd (of_decide_eq_true hx) (by omega)
  unfold setatAccept
  rw [if_neg hr, if_pos hl]
  exact ⟨rfl, rfl, (fld_setF_other _ (by decide) _ _ _).trans (fld_tally_same c .otSetat ⟨by decide, by decide⟩ 1),
    bit_flag_same _ _ ⟨by decide, by decide⟩⟩

theorem setatAccept_entered (h : c.ctr < x) (hl : c.tb.setat.length < 256) : let r := c.setatAccept x off v
    r.2 = false ∧ r.1.tb = { c.tb with setat := c.tb.setat ++ [{ target := x, off := off, value := v }] } ∧
      r.1.fld .otSetat F.OtSetat.HWM = max (c.fld .otSetat F.OtSetat.HWM) (c.tb.setat.length + 1) := by
  have hr : ¬ c.reached x = true := fun hx => absurd (of_decide_eq_true hx) (by omega)
  unfold setatAccept
  rw [if_neg hr, if_neg (by omega : ¬ c.tb.setat.length ≥ 256)]
  extract_lets tb c' m r
  have hm : m = c.tb.setat.length + 1 := List.length_append
  have hc' : c'.fld .otSetat F.OtSetat.HWM = c.fld .otSetat F.OtSetat.HWM := rfl
  refine ⟨rfl, ?_, ?_⟩
  · unfold r
    split <;> rfl
  · unfold r
    rw [hc', ← hm]
    split
    · next hmore =>
      rw [fld_setF_same _ _ ⟨by decide, by decide⟩, Nat.mod_eq_of_lt (show m < 2 ^ F.OtSetat.HWM.width from ?_), max_eq_right hmore.le]
      exact lt_of_le_of_lt (by omega) (show 256 < 2 ^ F.OtSetat.HWM.width by decide)
    · next hless => exact hc'.trans (max_eq_left (by omega)).symm

end Accept

/-- What a domain may SETAT (R262). -/
theorem setatAllowed_iff (p : Prot) (d off : Nat) :
    setatAllowed p d off = true ↔
      (fget (p.rd (.pdCfg d)) F.PdCfg.SETAT = 1 ∧ (0x800000 ≤ off ∧ off ≤ 0x8FFFF8)) ∨
      (fget (p.rd (.pdCfg d)) F.PdCfg.SETAT = 2 ∧
        ((0x800000 ≤ off ∧ off ≤ 0x8FFFF8) ∨ (off ≤ 0x3FFFF8 ∧ off / 0x10000 ≠ 3 ∧ off / 0x10000 ≠ 6))) := by
  unfold setatAllowed
  generalize fget (p.rd (.pdCfg d)) F.PdCfg.SETAT = field
  extract_lets map
  split
  · simp [map]
  · simp [map, and_assoc]
  · next h1 h2 => exact iff_of_false Bool.false_ne_true fun h => h.elim (fun h => h1 h.1) fun h => h2 h.1

end Chip


namespace Chip

/-- An instruction that reports its success, having changed registers and the timebase beside its thread's copy. -/
structure FlagEnded (n k : Nat) (v : Slot) (c f t : Chip) : Prop where
  slot : SlotBecomes c t n k (some v)
  tb : t.tb = f.tb
  rd : ∀ r, t.rd r = f.rd r
  parts : t = { c with regs := t.regs, needles := t.needles, tb := t.tb }

theorem regsNdlsTb_chain {c d f g t : Chip} (hd : d = { c with regs := d.regs, needles := d.needles })
    (hf : f = { d with regs := f.regs, tb := f.tb }) (hg : g = { f with needles := g.needles })
    (ht : t = { g with needles := t.needles }) : t = { c with regs := t.regs, needles := t.needles, tb := t.tb } := by
  rw [ht, hg, hf, hd]

theorem IssueBegun.flagEnded {n k : Nat} {sl : Slot} {i : WInstr} {c d f : Chip} (h : IssueBegun n k sl i c d) (e : Env)
    (hf : f = { d with regs := f.regs, tb := f.tb }) (failed : Bool) :
    FlagEnded n k (issuedSlot sl i ((stepped sl.live).report failed)) c f ((f.resultFlag n k failed).afterIssue e n sl.t) := by
  have hneedles : f.needles = d.needles := (congrArg Chip.needles hf).trans rfl
  have hslot : f.slot n k = some (issuedSlot sl i (stepped sl.live)) := (slot_of_needles hneedles n k).trans h.slot
  unfold resultFlag
  rw [mapLive_of_slot hslot]
  have ha := afterIssue_only e (f.setSlot n k (some (issuedSlot sl i ((stepped sl.live).report failed)))) n sl.t
  refine ⟨h.ends e sl.t hneedles _, ?_, fun r => rd_afterIssue .., ?_⟩
  · exact (congrArg Chip.tb ha).trans rfl
  · exact regsNdlsTb_chain h.only hf rfl ha

end Chip

theorem exec_cross (n : Fin 128) (k : Fin 8) (s : State) : exec (.cross n k) s = s.issue n k fun _ c i => match i with
    | .cross wd we mode => some (c.doCross n k wd we mode)
    | _ => none := rfl

theorem exec_setat (n : Fin 128) (k : Fin 8) (s : State) : exec (.setat n k) s = s.issue n k fun e c i => match i with
    | .setat wv ws mode rs off imm => some (c.doSetat e n k wv ws mode rs off imm)
    | _ => none := rfl

/-- CROSS reads the counter, or the bound crossing (R114). -/
theorem cross_ends {s : State} {n : Fin 128} {k : Fin 8} {sl : Slot} {wd we mode : Nat} (h : Issues s n k sl (.cross wd we mode)) :
    Completes (.cross n k) s fun t => IssuedOnly s t n k (issuedSlot sl (.cross wd we mode)
      (if mode = 0 then ((stepped sl.live).setReg we (BitVec.ofNat 32 (s.chip.ctr / 2 ^ 32))).setReg wd (BitVec.ofNat 32 s.chip.ctr)
      else ((stepped sl.live).setReg wd (BitVec.ofNat 32 sl.live.bxing)).report (!sl.live.bv))) := by
  refine completes_issue (exec_cross n k s) h fun d hd => ?_
  refine ⟨_, rfl, ?_⟩
  unfold Chip.doCross
  rw [hd.ctr]
  exact issuedOnly_mapLive hd _ sl.t

section Setat

variable {s : State} {n : Fin 128} {k : Fin 8} {sl : Slot} {wv ws mode rs off imm : Nat}
  (h : Issues s n k sl (.setat wv ws mode rs off imm)) (ha : Chip.setatAllowed s.prot sl.live.pd (off * 8) = true)
include h ha

/-- A SETAT with no crossing operand reports it. -/
theorem setat_unbound (hx : crossingOperand sl.live s.chip.olen s.chip.ctr ws mode rs imm = none) :
    Completes (.setat n k) s fun t =>
      IssuedOnly s t n k (issuedSlot sl (.setat wv ws mode rs off imm) ((stepped sl.live).report true)) := by
  refine completes_issue (exec_setat n k s) h fun d hd => ?_
  refine ⟨_, rfl, ?_⟩
  have hop : crossingOperand (stepped sl.live) s.chip.olen s.chip.ctr ws mode rs imm = none := hx
  have he : d.doSetat s.env n k wv ws mode rs off imm = d.resultFlag n k true := by
    unfold Chip.doSetat
    rw [hd.live, hd.olen, hd.ctr]
    dsimp only
    rw [hop]
    exact if_neg (not_not_intro ha)
  rw [he]
  exact issuedOnly_mapLive hd _ sl.t

/-- A SETAT with a crossing operand x reports what the schedule says to its entry (R34, R115). -/
theorem setat_answered {x : Nat} (hx : crossingOperand sl.live s.chip.olen s.chip.ctr ws mode rs imm = some x) {P : State → Prop}
    (hP : ∀ d t, Chip.IssueBegun n k sl (.setat wv ws mode rs off imm) s.chip d →
      let r := d.setatAccept x (off * 8) (sl.live.pair wv)
      Chip.FlagEnded n k (issuedSlot sl (.setat wv ws mode rs off imm) ((stepped sl.live).report r.2)) s.chip r.1 t.chip → P t) :
    Completes (.setat n k) s fun t =>
      P t ∧ KeepsButCounts s.chip t.chip [.isStat, .otSetat, .otStat] ∧ KeepsOutside s t ∧
        t.chip = { s.chip with regs := t.chip.regs, needles := t.chip.needles, tb := t.chip.tb } := by
  refine completes_issue (exec_setat n k s) h fun d hd => ?_
  refine ⟨_, rfl, ?_⟩
  have hop : crossingOperand (stepped sl.live) s.chip.olen s.chip.ctr ws mode rs imm = some x := hx
  have he : d.doSetat s.env n k wv ws mode rs off imm = (d.setatAccept x (off * 8) (sl.live.pair wv)).1.resultFlag n k
      (d.setatAccept x (off * 8) (sl.live.pair wv)).2 := by
    unfold Chip.doSetat
    rw [hd.live, hd.olen, hd.ctr]
    dsimp only
    rw [hop]
    exact if_neg (not_not_intro ha)
  have hended := hd.flagEnded s.env (d.setatAccept_parts x (off * 8) (sl.live.pair wv))
    (d.setatAccept x (off * 8) (sl.live.pair wv)).2
  rw [he]
  refine ⟨hP d _ hd hended, fun r hr hl => ?_, keepsOutside_chip s _, hended.parts⟩
  have hkeeps := d.setatAccept_keeps x (off * 8) (sl.live.pair wv)
  exact (hended.rd r).trans ((hkeeps r fun q hq => hl q (List.mem_cons_of_mem _ hq)).trans
    (hd.keeps r hr fun q hq => hl q (List.mem_singleton.mp hq ▸ List.mem_cons_self)))

end Setat

namespace Chip

theorem IssueBegun.tb {n k : Nat} {sl : Slot} {i : WInstr} {c d : Chip} (h : IssueBegun n k sl i c d) : d.tb = c.tb :=
  (congrArg Chip.tb h.only).trans rfl

/-- A count that the instruction advances, read before the issue and after it. -/
theorem FlagEnded.counts {n k m : Nat} {sl v : Slot} {i : WInstr} {c d f t : Chip} (ht : FlagEnded n k v c f t)
    (hd : IssueBegun n k sl i c d) {r : Reg} (hr : r.offset < 0x70000) {x : Fld} (h : Counts d f r x m) : Counts c t r x m :=
  (congrArg (fget · x) (ht.rd r)).trans (h.trans (congrArg (fun w => min (fget w x + m) (2 ^ x.width - 1)) (hd.rd hr)))

end Chip

/-! A fault at the issue (R291 to R296) -/

namespace Chip

/-- d is c after a part of a fault on needle n that leaves what is in flight, the locks and the timebase as they were. -/
structure FaultStep (n : Nat) (c d : Chip) : Prop where
  parts : d = { c with
    regs := d.regs, needles := d.needles, threads := d.threads, free := d.free, bb := d.bb, faults := d.faults
    faultSeq := d.faultSeq, eccCe := d.eccCe, eccUe := d.eccUe }
  cq : (d.ndl n).cq = (c.ndl n).cq

section FaultStep

variable {n : Nat} {c d f : Chip}

theorem FaultStep.trans (h : FaultStep n c d) (k : FaultStep n d f) : FaultStep n c f :=
  ⟨by rw [k.parts, h.parts], k.cq.trans h.cq⟩

theorem FaultStep.of_only (h : OnlyRegs c d) : FaultStep n c d := by
  rw [h]
  exact ⟨rfl, rfl⟩

theorem FaultStep.setSlot (c : Chip) (k : Nat) (v : Option Slot) : FaultStep n c (c.setSlot n k v) :=
  ⟨rfl, by unfold Chip.setSlot; rw [ndl_setNdl_same]⟩

theorem FaultStep.bbEvent (c : Chip) (ty : Nat) (p0 p1 : Word) : FaultStep n c (c.bbEvent ty p0 p1) := by
  rw [bbEvent_only]
  exact ⟨rfl, rfl⟩

theorem followMark_needles (c : Chip) (n t : Nat) (flt : Bool) :
    c.followMark n t flt = { c with needles := (c.followMark n t flt).needles } := by
  unfold Chip.followMark
  dsimp only
  split
  · split <;> rfl
  · rfl

theorem FaultStep.followMark (c : Chip) (t : Nat) (flt : Bool) : FaultStep n c (c.followMark n t flt) := by
  unfold Chip.followMark
  dsimp only
  split
  · split
    · exact ⟨rfl, by rw [ndl_setNdl_same]⟩
    · exact ⟨rfl, rfl⟩
  · exact ⟨rfl, rfl⟩

theorem FaultStep.setThr (c : Chip) (t : Nat) (th : Thread) : FaultStep n c (c.setThr t th) := ⟨rfl, rfl⟩

theorem freshRecord_parts (c : Chip) (t : Nat) :
    c.freshRecord t = { c with eccCe := (c.freshRecord t).eccCe, eccUe := (c.freshRecord t).eccUe } := by
  unfold freshRecord
  generalize List.range 8 = l
  induction l generalizing c with
  | nil => rfl
  | cons k l ih =>
    rw [List.foldl_cons]
    generalize recordAt t k = a
    have hword : c.clearEcc a = { c with eccCe := (c.clearEcc a).eccCe, eccUe := (c.clearEcc a).eccUe } := rfl
    generalize c.clearEcc a = d at hword ⊢
    rw [ih, hword]

theorem FaultStep.freshRecord (c : Chip) (t : Nat) : FaultStep n c (c.freshRecord t) := by
  have hp := freshRecord_parts c t
  generalize c.freshRecord t = d at hp ⊢
  rw [hp]
  exact ⟨rfl, rfl⟩

end FaultStep

/-- A fault's entry joins a queue with room (R296). -/
theorem queueFault_room (c : Chip) (n t gen : Nat) (i : FaultInfo) (h : c.faults.length < 256) :
    FaultStep n c (c.queueFault t gen i) ∧
      (c.queueFault t gen i).faults = c.faults ++ [faultWords c t gen ((c.faultSeq + 1) % 2 ^ 32) i] := by
  unfold queueFault
  extract_lets seq w c1 c2
  have hc2 : c2 = { c1 with faults := c.faults ++ [w] } := if_neg (show ¬ c.faults.length ≥ 256 by omega)
  have hstep : FaultStep n c c2 := by
    rw [hc2]
    exact ⟨rfl, rfl⟩
  have hfaults : c2.faults = c.faults ++ [w] := by rw [hc2]
  split
  · exact ⟨hstep, hfaults⟩
  · exact ⟨hstep.trans (.bbEvent ..), (bbEvent_faults ..).trans hfaults⟩

theorem slotOwed_congr {c d : Chip} {n : Nat} {s v : Slot} (h : FaultStep n c d) (ht : v.t = s.t) (hg : v.live.gen = s.live.gen)
    (ha : v.act = s.act) : d.slotOwed n v = c.slotOwed n s := by
  have hports : d.ports = c.ports := (congrArg Chip.ports h.parts).trans rfl
  have hbacklog : d.backlog = c.backlog := (congrArg Chip.backlog h.parts).trans rfl
  unfold slotOwed writesOf
  rw [h.cq, hports, hbacklog, ht, hg, ha]

theorem breakLocks_none {c : Chip} (h : NoLocks c) (t : Nat) : c.breakLocks t = c := by
  obtain ⟨hlocks, hring, hheld⟩ := h
  unfold breakLocks
  extract_lets own c1 ring c2 away c3
  have hc1 : c1 = c := by simp only [c1, own, hlocks, List.filter_nil, List.map_nil, List.foldl_nil]
  have hc2 : c2 = c := by simp only [c2, ring, hc1, hring, List.filter_nil, List.map_nil, List.foldl_nil]
  have hc3 : c3 = c := by simp only [c3, away, hc2, hheld, List.filter_nil, List.foldl_nil, ite_self]
  have hseam : { c3.seam with held := c3.seam.held.filter fun p => p.2 ≠ t } = c.seam := by
    rw [hc3, hheld, List.filter_nil, ← hheld]
  exact (congrArg₂ (fun d m => ({ d with seam := m } : Chip)) hc3 hseam)

/-- What a fault makes of the chip before its thread leaves the slot: the entry and the record (R292, R296). -/
def faultNoted (c : Chip) (n : Nat) (s : Slot) (i : FaultInfo) : Chip :=
  (((((c.followMark n s.t true).queueFault s.t s.live.gen i).cntNeedle n 0x029 1).setThr s.t (faulted (writeBack s) i)).freshRecord
    s.t).cntStore 0x131 1

theorem faultNoted_parts {c : Chip} (n : Nat) (s : Slot) (hroom : c.faults.length < 256) (i : FaultInfo) :
    let d := c.faultNoted n s i
    FaultStep n c d ∧ d.thr s.t = faulted (writeBack s) i ∧
      d.faults = c.faults ++ [faultWords c s.t s.live.gen ((c.faultSeq + 1) % 2 ^ 32) i] := by
  have hmark := followMark_needles c n s.t true
  have hfollow := FaultStep.followMark (n := n) c s.t true
  unfold faultNoted
  generalize c.followMark n s.t true = c1 at hmark hfollow ⊢
  have hfaults : c1.faults = c.faults := (congrArg Chip.faults hmark).trans rfl
  have hword : faultWords c1 s.t s.live.gen ((c1.faultSeq + 1) % 2 ^ 32) i =
      faultWords c s.t s.live.gen ((c.faultSeq + 1) % 2 ^ 32) i := by
    rw [hmark]
    rfl
  obtain ⟨hqueue, hentry⟩ := c1.queueFault_room n s.t s.live.gen i (by rw [hfaults]; exact hroom)
  rw [hfaults, hword] at hentry
  generalize c1.queueFault s.t s.live.gen i = c2 at hqueue hentry ⊢
  have hcount := c2.cntNeedle_only n 0x029 1
  generalize c2.cntNeedle n 0x029 1 = c3 at hcount ⊢
  have hthr : (c3.setThr s.t (faulted (writeBack s) i)).thr s.t = faulted (writeBack s) i := thr_setThr_same ..
  have hstored : (c3.setThr s.t (faulted (writeBack s) i)).faults = c3.faults := rfl
  have hset := FaultStep.setThr (n := n) c3 s.t (faulted (writeBack s) i)
  generalize c3.setThr s.t (faulted (writeBack s) i) = c4 at hthr hset hstored ⊢
  have hparts := freshRecord_parts c4 s.t
  have hfresh := FaultStep.freshRecord (n := n) c4 s.t
  generalize c4.freshRecord s.t = c5 at hparts hfresh ⊢
  have hlast : OnlyRegs c5 (c5.cntStore 0x131 1) := countOn_only ..
  refine ⟨(((hfollow.trans hqueue).trans (.of_only hcount)).trans hset).trans (hfresh.trans (.of_only hlast)), ?_, ?_⟩
  · have hthreads : (c5.cntStore 0x131 1).threads = c4.threads :=
      (threads_of_only hlast).trans ((congrArg Chip.threads hparts).trans rfl)
    rw [← hthr]
    simp only [thr, hthreads]
  · rw [← hentry]
    have hf3 : c3.faults = c2.faults := (congrArg Chip.faults hcount).trans rfl
    exact ((congrArg Chip.faults hlast).trans rfl).trans (((congrArg Chip.faults hparts).trans rfl).trans (hstored.trans hf3))

/-- A thread that owes nothing and holds no lock leaves its slot with its fault (R292, R296). -/
theorem faultSlot_free {c : Chip} {n k : Nat} {s : Slot} (hs : c.slot n k = some s) (hdead : s.dead = false) (hlocks : NoLocks c)
    (howed : c.slotOwed n s = false) (hroom : c.faults.length < 256) (i : FaultInfo) :
    let d := c.faultSlot n k i
    FaultStep n c d ∧ d.slot n k = none ∧ d.thr s.t = faulted (writeBack s) i ∧
      d.faults = c.faults ++ [faultWords c s.t s.live.gen ((c.faultSeq + 1) % 2 ^ 32) i] := by
  obtain ⟨hstep, hthr, hfaults⟩ := c.faultNoted_parts n s hroom i
  have hfree : c.faultSlot n k i = ((c.faultNoted n s i).setSlot n k none).breakLocks s.t := by
    unfold faultSlot
    rw [hs]
    dsimp only
    rw [hdead, if_neg Bool.false_ne_true]
    have howes : (c.faultNoted n s i).slotOwed n { s with dead := true, grp := none, sealing := none } = false :=
      (slotOwed_congr hstep rfl rfl rfl).trans howed
    have hif : (if (c.faultNoted n s i).slotOwed n { s with dead := true, grp := none, sealing := none } = true then
        some { s with dead := true, grp := none, sealing := none } else none) = (none : Option Slot) := by
      rw [howes]
      rfl
    exact congrArg (fun v => ((c.faultNoted n s i).setSlot n k v).breakLocks s.t) hif
  have hnone : NoLocks ((c.faultNoted n s i).setSlot n k none) := by
    obtain ⟨hlock, hring, hheld⟩ := hlocks
    have hl : (c.faultNoted n s i).locks = c.locks := (congrArg Chip.locks hstep.parts).trans rfl
    have hm : (c.faultNoted n s i).seam = c.seam := (congrArg Chip.seam hstep.parts).trans rfl
    exact ⟨hl.trans hlock, (congrArg Seam.ringLocks hm).trans hring, (congrArg Seam.held hm).trans hheld⟩
  rw [hfree, breakLocks_none hnone]
  exact ⟨hstep.trans (.setSlot ..), slot_setSlot_same .., hthr, hfaults⟩

theorem dead_of_issues {e : Env} {c : Chip} {n k : Nat} {sl : Slot} (hs : c.slot n k = some sl) (h : c.issues e n k = true) :
    sl.dead = false := by
  have hable : c.ableSlot e n k = true := by
    unfold issues at h
    simp only [Bool.and_eq_true] at h
    exact h.1.2
  unfold ableSlot at hable
  rw [hs] at hable
  simp only [Bool.and_eq_true, Bool.not_eq_true'] at hable
  obtain ⟨⟨⟨⟨⟨⟨⟨⟨-, hdead⟩, -⟩, -⟩, -⟩, -⟩, -⟩, -⟩, -⟩ := hable
  exact hdead

theorem pc_writeBack (s : Slot) : (writeBack s).pc = s.live.pc := by
  unfold writeBack
  split <;> rfl

theorem IssueBegun.issuePc {n k : Nat} {sl : Slot} {i : WInstr} {c d : Chip} (h : IssueBegun n k sl i c d) (hpc : sl.live.pc < 2 ^ 16) :
    d.issuePc n k = sl.live.pc := by
  unfold Chip.issuePc
  rw [h.live]
  change ((sl.live.pc + 1) % 2 ^ 16 + 2 ^ 16 - 1) % 2 ^ 16 = sl.live.pc
  omega

/-- A thread that owes nothing and holds no lock faults in its slot at its issue: it leaves the slot (R292, R296). -/
theorem faultSlot_issued {n k : Nat} {s sl : Slot} {c d1 : Chip} (e : Env) (i : FaultInfo) (hslot : d1.slot n k = some s)
    (hset : FaultStep n c d1) (hparts : d1 = { c with regs := d1.regs, needles := d1.needles }) (hctr : d1.ctr = c.ctr)
    (ht : s.t = sl.t) (hgen : s.live.gen = sl.live.gen) (hact : s.act = sl.act) (hdead : s.dead = false) (hlocks : NoLocks c)
    (howed : c.slotOwed n sl = false) (hroom : c.faults.length < 256) :
    let t := (d1.faultSlot n k i).afterIssue e n sl.t
    t.slot n k = none ∧ (t.thr sl.t).st = .fault ∧ (t.thr sl.t).pc = s.live.pc ∧ (t.thr sl.t).arg = i.cause + i.ndl * 2 ^ 8 ∧
      t.tb = c.tb ∧ t.faults = c.faults ++ [faultWords c sl.t sl.live.gen ((c.faultSeq + 1) % 2 ^ 32) i] := by
  have hf : d1.faults = c.faults := (congrArg Chip.faults hparts).trans rfl
  have hnone : NoLocks d1 := by
    obtain ⟨hlock, hring, hheld⟩ := hlocks
    have hl : d1.locks = c.locks := (congrArg Chip.locks hparts).trans rfl
    have hm : d1.seam = c.seam := (congrArg Chip.seam hparts).trans rfl
    exact ⟨hl.trans hlock, (congrArg Seam.ringLocks hm).trans hring, (congrArg Seam.held hm).trans hheld⟩
  have hword : faultWords d1 sl.t sl.live.gen ((d1.faultSeq + 1) % 2 ^ 32) i =
      faultWords c sl.t sl.live.gen ((c.faultSeq + 1) % 2 ^ 32) i := by
    have hq : d1.faultSeq = c.faultSeq := (congrArg Chip.faultSeq hparts).trans rfl
    unfold faultWords
    rw [hctr, hq]
  obtain ⟨hfault, hfree, hthr, hentry⟩ := faultSlot_free hslot hdead hnone ((slotOwed_congr hset ht hgen hact).trans howed)
    (hf.symm ▸ hroom) i
  rw [ht] at hthr hentry
  rw [hgen] at hentry
  generalize d1.faultSlot n k i = d2 at hfault hfree hthr hentry ⊢
  have hlast := afterIssue_only e d2 n sl.t
  have hslots := (sampled_after (n := n) e d2 sl.t).slot n k
  generalize d2.afterIssue e n sl.t = t at hlast hslots ⊢
  have hrecord : t.thr sl.t = d2.thr sl.t := (congrArg (Chip.thr · sl.t) hlast).trans rfl
  have htb : t.tb = c.tb := ((congrArg Chip.tb hlast).trans rfl).trans ((congrArg Chip.tb (hset.trans hfault).parts).trans rfl)
  have hfaults : t.faults = d2.faults := (congrArg Chip.faults hlast).trans rfl
  have hrec := hrecord.trans hthr
  refine ⟨hslots.trans hfree, (congrArg Thread.st hrec).trans rfl, (congrArg Thread.pc hrec).trans (pc_writeBack _),
    (congrArg Thread.arg hrec).trans rfl, htb, ?_⟩
  rw [hfaults, hentry, hf]
  exact congrArg (fun x => c.faults ++ [x]) hword

/-- An instruction that faults at its issue (R98). -/
theorem IssueBegun.faults {n k : Nat} {sl : Slot} {w : WInstr} {c d : Chip} (h : IssueBegun n k sl w c d) (e : Env)
    (hdead : sl.dead = false) (hlocks : NoLocks c) (howed : c.slotOwed n sl = false) (hroom : c.faults.length < 256) (i : FaultInfo) :
    let t := (d.faultIssue n k i).afterIssue e n sl.t
    t.slot n k = none ∧ (t.thr sl.t).st = .fault ∧ (t.thr sl.t).pc = i.pc ∧ (t.thr sl.t).arg = i.cause + i.ndl * 2 ^ 8 ∧ t.tb = c.tb ∧
      t.faults = c.faults ++ [faultWords c sl.t sl.live.gen ((c.faultSeq + 1) % 2 ^ 32) i] := by
  have hcq : (d.ndl n).cq = (c.ndl n).cq := (congrArg Needle.cq h.frame.needle).trans rfl
  have hbegun : FaultStep n c d := ⟨by rw [h.only], hcq⟩
  unfold faultIssue
  rw [mapLive_of_slot h.slot]
  exact faultSlot_issued e i (slot_setSlot_same ..) (hbegun.trans (.setSlot ..)) (regsNdls_setNdl h.only _) h.ctr rfl rfl rfl hdead
    hlocks howed hroom

end Chip

/-- A SETAT that its thread's domain may not issue faults with PROT (R262). -/
theorem setat_faults {s : State} {n : Fin 128} {k : Fin 8} {sl : Slot} {wv ws mode rs off imm : Nat}
    (h : Issues s n k sl (.setat wv ws mode rs off imm)) (ha : Chip.setatAllowed s.prot sl.live.pd (off * 8) = false)
    (hlocks : NoLocks s.chip) (howed : s.chip.slotOwed n sl = false) (hroom : s.chip.faults.length < 256) (hpc : sl.live.pc < 2 ^ 16) :
    Completes (.setat n k) s fun t =>
      t.chip.slot n k = none ∧ (t.chip.thr sl.t).st = .fault ∧ (t.chip.thr sl.t).pc = sl.live.pc ∧
      (t.chip.thr sl.t).arg = cProt + n.val * 2 ^ 8 ∧ t.chip.tb = s.chip.tb ∧
      t.chip.faults = s.chip.faults ++
        [Chip.faultWords s.chip sl.t sl.live.gen ((s.chip.faultSeq + 1) % 2 ^ 32)
          (Chip.FaultInfo.plain cProt n sl.live.pc 0xFF05)] ∧ KeepsOutside s t := by
  refine completes_issue (exec_setat n k s) h fun d hd => ?_
  refine ⟨_, rfl, ?_⟩
  have hdead := Chip.dead_of_issues h.1 h.2.1
  have he : d.doSetat s.env n k wv ws mode rs off imm = d.faultIssue n k (Chip.FaultInfo.plain cProt n sl.live.pc 0xFF05) := by
    unfold Chip.doSetat
    rw [hd.live, hd.issuePc hpc]
    exact if_pos fun hallowed => Bool.false_ne_true (ha.symm.trans hallowed)
  rw [he]
  obtain ⟨hslot, hst, hat, harg, htb, hentry⟩ := hd.faults s.env hdead hlocks howed hroom
    (Chip.FaultInfo.plain cProt n sl.live.pc 0xFF05)
  exact ⟨hslot, hst, hat, harg, htb, hentry, keepsOutside_chip s _⟩

/-- Settles O27: what SETAT does turns on what the schedule says to its entry; one that is not allowed faults at its issue. -/
theorem crossAndSetat : Obligations.CrossAndSetat := by
  refine ⟨fun s n k sl => ⟨fun _ _ h => cross_ends h, fun _ h => cross_ends h, ?_⟩,
    Chip.setatAllowed_iff, fun _ _ _ _ _ _ _ _ _ _ h ha hlocks howed hroom hpc => setat_faults h ha hlocks howed hroom hpc⟩
  intro wv ws mode rs off imm h ha operand go v run
  refine ⟨fun hx => ?_, fun x hx hlt hroom => setat_answered h ha hx fun d t hd ht => ?_,
    fun x hx hle => setat_answered h ha hx fun d t hd ht => ?_,
    fun x hx hlt hfull => setat_answered h ha hx fun d t hd ht => ?_⟩
  · obtain ⟨t, hexec, hslot, hkeeps, honly, hout⟩ := setat_unbound h ha hx
    have htb : t.chip.tb = s.chip.tb := (congrArg Chip.tb honly).trans rfl
    refine ⟨t, hexec, ⟨hslot, htb⟩, fun r hr hl => hkeeps r hr fun q hq => hl q (List.mem_singleton.mp hq ▸ List.mem_cons_self),
      hout, ?_⟩
    rw [htb]
    exact honly
  · obtain ⟨hok, htb, hhwm⟩ := d.setatAccept_entered x (off * 8) v (hd.ctr.symm ▸ hlt) (hd.tb.symm ▸ hroom)
    refine ⟨hok ▸ ht.slot, ht.tb.trans (htb.trans (by rw [hd.tb])), (congrArg (fget · F.OtSetat.HWM) (ht.rd .otSetat)).trans (hhwm.trans ?_)⟩
    unfold Chip.fld
    rw [hd.tb, hd.rd (r := .otSetat) (by decide)]
  · obtain ⟨hfail, htb, hcount, hbit⟩ := d.setatAccept_late x (off * 8) v (hd.ctr.symm ▸ hle)
    exact ⟨hfail ▸ ht.slot, ht.tb.trans (htb.trans hd.tb), ht.counts hd (by decide) hcount,
      (congrArg (fbit · F.OtStat.SETAT_LATE) (ht.rd .otStat)).trans hbit⟩
  · obtain ⟨hfail, htb, hcount, hbit⟩ := d.setatAccept_full x (off * 8) v (hd.ctr.symm ▸ hlt) (hd.tb.symm ▸ hfull)
    exact ⟨hfail ▸ ht.slot, ht.tb.trans (htb.trans hd.tb), ht.counts hd (by decide) hcount,
      (congrArg (fbit · F.OtStat.SETAT_FULL) (ht.rd .otStat)).trans hbit⟩

end Sys2Proof.Machine

/-! PROOFS of the statements of 02_orbit_timebase.md, continued. O36: POST of a group (R142), and the crossing watermark that a post
drives (R39 to R41). -/

namespace Sys2Proof.Machine

namespace Chip

/-! A burst presented (R220) and a descriptor judged (R145) -/

/-- A burst of a requester of which nothing waits at the port is presented there. -/
theorem present_waits {c : Chip} {p : Nat} {b : Burst} (h : NoneWaits c p b.req) :
    c.present p b = c.setPort p { c.port p with
      waiting := (c.port p).waiting ++ [{ b with bound := c.boundOf b, wait := 0, starved := false }] } := by
  obtain ⟨hport, hback⟩ := h
  have hnone : c.backlog.any (fun x => x.1 == p && x.2.req == b.req) = false := by
    refine List.any_eq_false.mpr fun x hx hxp => ?_
    simp only [Bool.and_eq_true, beq_iff_eq] at hxp
    exact hback x hx hxp.1 hxp.2
  unfold present
  extract_lets b' q
  exact if_neg fun hor => hor.elim (fun hq => Bool.false_ne_true (hport.symm.trans hq)) fun hb => Bool.false_ne_true (hnone.symm.trans hb)

theorem presented_setPort (c : Chip) (p : Nat) (b : Burst) :
    Presented c (c.setPort p { c.port p with waiting := (c.port p).waiting ++ [b] }) p b :=
  ⟨Tab.get_put_same .., fun _ hq => Tab.get_put_other _ _ hq _, rfl⟩

/-- With no fence valid no descriptor matches one. -/
theorem fenceMatch_none {c : Chip} (h : NoFence c) (d : Desc) : c.fenceMatch d = (c, none) := by
  have hks : (List.range 64).filter (fun k => c.fenceHit k d) = [] := by
    refine List.filter_eq_nil_iff.mpr fun k hk hit => ?_
    unfold fenceHit at hit
    rw [h k (List.mem_range.mp hk)] at hit
    exact Bool.false_ne_true hit
  unfold fenceMatch
  extract_lets ks c1
  have hnil : ks = [] := hks
  simp only [c1, hnil, List.foldl_nil, List.head?_nil, if_true]

/-! POST goes out (R129, R142) -/

theorem setAct_of_slot {c : Chip} {n k : Nat} {s : Slot} (hs : c.slot n k = some s) (a : Option Act) :
    c.setAct n k a = c.setSlot n k (some { s with act := a }) := by
  unfold setAct
  rw [hs]

theorem actGroup_post (e : Env) (c : Chip) (n k : Nat) {a : Act} (h : a.kind ≠ .dset) : c.actGroup e n k a = c.postGo e n k a := by
  unfold actGroup
  split
  · next hk => exact absurd hk h
  · rfl

/-- The STATUS write of descriptor r in a POST a from slot s (R142). -/
def statusBurst (s : Slot) (n k : Nat) (a : Act) (r : DRec) (x : Nat) : Burst :=
  actBurst s n a (.actStatus n k r.desc.addr) .ack r.desc.addr r.desc.fenceGen
    [wordLine (r.desc.addr + 24) (if a.kind = .commit then fset (fset r.status ⟨63, 63⟩ 0) ⟨23, 0⟩ x else 0#64)]

section Post

variable (e : Env) {c : Chip} {n k : Nat} {s : Slot} (hs : c.slot n k = some s) {a : Act}
include hs

/-- A POST whose slot keeps its group goes on with it. -/
theorem actStart_known {g : Grp} (hg : s.grp = some g) (ha : a.kind ≠ .dset) :
    c.actStart e n k a =
      (c.setSlot n k (some { s with act := some { a with descs := g.descs } })).postGo e n k { a with descs := g.descs } := by
  cases s
  dsimp only at hg
  subst hg
  unfold actStart
  rw [hs]
  dsimp only
  rw [setAct_of_slot hs]
  exact actGroup_post e _ n k ha

theorem postGo_empty (ha : a.descs = []) :
    c.postGo e n k a = c.setSlot n k (some { s with act := some { a with descs := [], go := true } }) := by
  unfold postGo
  rw [hs]
  dsimp only
  rw [ha]
  simp only [List.foldl_nil, List.findSome?_nil, ite_self, List.filter_nil, List.map_nil, postWrites]
  exact setAct_of_slot hs _

theorem postWrites_one {r : DRec} {w : Nat} (hw : e.prot.check s.live.pd (r.desc.addr / 64 * 64) 64 .ackWrite = .ok w) :
    c.postWrites e n k a [r] = c.present (e.prot.home w) { statusBurst s n k a r c.ctr with tdom := e.prot.tdom w } := by
  unfold postWrites
  rw [hs]
  dsimp only
  split
  · next v hv => exact absurd (hw.symm.trans hv) nofun
  · next v hv =>
    cases hw.symm.trans hv
    rfl

theorem postGo_one {r : DRec} {w x : Nat} (ha : a.descs = [r]) (hf : NoFence c) (hx : c.ctr = x)
    (hw : e.prot.check s.live.pd (r.desc.addr / 64 * 64) 64 .ackWrite = .ok w) :
    let a' : Act := { a with descs := [{ r with pend := 1, statusSent := true }], go := true }
    c.postGo e n k a = (c.setSlot n k (some { s with act := some a' })).present (e.prot.home w)
      { statusBurst { s with act := some a' } n k a' r x with tdom := e.prot.tdom w } := by
  intro a'
  subst hx
  unfold postGo
  rw [hs]
  dsimp only
  rw [ha]
  simp only [List.foldl_cons, List.foldl_nil, fenceMatch_none hf, List.nil_append, List.findSome?_cons, Option.map_none,
    List.findSome?_nil, ite_self, List.filter_cons, Option.isNone_none, if_true, List.filter_nil, List.map_cons, List.map_nil]
  rw [setAct_of_slot hs]
  exact postWrites_one (r := { r with pend := 1, statusSent := true }) e (slot_setSlot_same ..) hw

end Post

theorem presented_of_parts {c d f : Chip} {p : Nat} {b : Burst} (h : Presented d f p b) (hp : d.ports = c.ports)
    (hb : d.backlog = c.backlog) : Presented c f p b := by
  have hport (q : Nat) : d.port q = c.port q := by simp only [port, hp]
  obtain ⟨hat, hothers, hback⟩ := h
  exact ⟨hport p ▸ hat, fun q hq => (hothers q hq).trans (hport q), hback.trans hb⟩

theorem presented_after {c d : Chip} {p : Nat} {b : Burst} (h : Presented c d p b) (e : Env) (n t : Nat) :
    Presented c (d.afterIssue e n t) p b := by
  rw [afterIssue_only]
  exact h

/-- A burst that an issue presents where nothing of the requester's waits. -/
theorem presented_issued {c f : Chip} {n k p t : Nat} {v : Slot} {b : Burst} (e : Env) (hslot : f.slot n k = some v)
    (honly : f = { c with regs := f.regs, needles := f.needles }) (hwaits : NoneWaits c p b.req) :
    ((f.present p b).afterIssue e n t).slot n k = some v ∧
      Presented c ((f.present p b).afterIssue e n t) p { b with bound := f.boundOf b, wait := 0, starved := false } := by
  have hports : f.ports = c.ports := (congrArg Chip.ports honly).trans rfl
  have hback : f.backlog = c.backlog := (congrArg Chip.backlog honly).trans rfl
  have hnone : NoneWaits f p b.req := by
    unfold NoneWaits port
    rw [hports, hback]
    exact hwaits
  rw [present_waits hnone]
  exact ⟨((sampled_after (n := n) e _ t).slot n k).trans hslot,
    presented_after (presented_of_parts (presented_setPort f p _) hports hback) e n t⟩

/-- The STATUS write that an issue presents where nothing of the needle's waits. -/
theorem status_issued {s : State} {f : Chip} {n : Fin 128} {k p t x w : Nat} {v u : Slot} {a : Act} {r : DRec}
    (hslot : f.slot n k = some v) (honly : f = { s.chip with regs := f.regs, needles := f.needles }) (hwaits : NoneWaits s.chip p n) :
    let d := (f.present p { statusBurst u n k a r x with tdom := w }).afterIssue s.env n t
    d.slot n k = some v ∧
      (∃ b, Presented s.chip d p b ∧ b.use = .actStatus n k r.desc.addr ∧ b.kind = .ack ∧ b.addr = r.desc.addr / 64 * 64 ∧
        b.len = 1 ∧ b.data =
          [wordLine (r.desc.addr + 24) (if a.kind = .commit then fset (fset r.status ⟨63, 63⟩ 0) ⟨23, 0⟩ x else 0#64)]) ∧
      KeepsOutside s { s with chip := d } := by
  obtain ⟨hat, hpresented⟩ := presented_issued (t := t) s.env hslot honly (b := { statusBurst u n k a r x with tdom := w }) hwaits
  exact ⟨hat, ⟨_, hpresented, rfl, rfl, rfl, rfl, rfl⟩, keepsOutside_chip s _⟩

end Chip

/-- The kind of what a POST of a mode waits with. -/
abbrev postKind (mode : Nat) : ActKind := if mode = 0 then .commit else .discard

section Post

variable {s : State} {n : Fin 128} {k : Fin 8} {sl : Slot} {wd mode : Nat} {g : Grp}
  (h : Issues s n k sl (.post wd mode)) (hmode : mode < 2) (hg : sl.grp = some g) (hpc : sl.live.pc < 2 ^ 16)

/-- The act of a POST whose group is l and whose STATUS writes may go. -/
abbrev postAct (sl : Slot) (wd mode : Nat) (l : List DRec) : Act :=
  { kind := postKind mode, wd := wd, pc := sl.live.pc, descs := l, fetch := none, fetching := false, redo := false, go := true, arg := 0 }

theorem exec_postCommit (n : Fin 128) (k : Fin 8) (s : State) : exec (.postCommit n k) s = s.issue n k fun e c i => match i with
    | .post wd mode => if mode = 0 then some (c.actStart e n k (c.newAct n k .commit wd 0)) else none
    | _ => none := rfl

theorem exec_postDiscard (n : Fin 128) (k : Fin 8) (s : State) : exec (.postDiscard n k) s = s.issue n k fun e c i => match i with
    | .post wd mode => if mode = 1 then some (c.actStart e n k (c.newAct n k .discard wd 0)) else none
    | _ => none := rfl

include h hmode in
/-- A POST starts with its group, in either mode. -/
theorem post_starts {P : State → Prop}
    (hP : ∀ d, Chip.IssueBegun n k sl (.post wd mode) s.chip d →
      P { s with chip := (d.actStart s.env n k (d.newAct n k (postKind mode) wd 0)).afterIssue s.env n sl.t }) :
    Completes (if mode = 0 then .postCommit n k else .postDiscard n k) s P := by
  by_cases h0 : mode = 0
  · rw [if_pos h0]
    refine completes_issue (exec_postCommit n k s) h fun d hd => ⟨_, if_pos h0, ?_⟩
    have hp := hP d hd
    rw [show postKind mode = .commit from if_pos h0] at hp
    exact hp
  · rw [if_neg h0]
    refine completes_issue (exec_postDiscard n k s) h fun d hd => ⟨_, if_pos (by omega), ?_⟩
    have hp := hP d hd
    rw [show postKind mode = .discard from if_neg h0] at hp
    exact hp

include hpc hg in
/-- The group that the slot keeps is the POST's. -/
theorem post_goes {d : Chip} (hd : Chip.IssueBegun n k sl (.post wd mode) s.chip d) :
    d.actStart s.env n k (d.newAct n k (postKind mode) wd 0) =
      (d.setSlot n k (some { issuedSlot sl (.post wd mode) (stepped sl.live) with
        act := some { postAct sl wd mode g.descs with go := false } })).postGo s.env n k
          { postAct sl wd mode g.descs with go := false } := by
  have ha : d.newAct n k (postKind mode) wd 0 = { postAct sl wd mode [] with go := false } := by
    unfold Chip.newAct
    rw [hd.issuePc hpc]
  have hkind : postKind mode ≠ .dset := by
    unfold postKind
    split <;> nofun
  rw [ha]
  exact Chip.actStart_known s.env hd.slot hg hkind

include h hmode hg hpc in
/-- A POST of an empty group waits for nothing. -/
theorem post_empty (hdescs : g.descs = []) :
    Completes (if mode = 0 then .postCommit n k else .postDiscard n k) s fun t =>
      IssuedOnly s t n k { issuedSlot sl (.post wd mode) (stepped sl.live) with act := some (postAct sl wd mode []) } := by
  refine post_starts h hmode fun d hd => ?_
  rw [post_goes hg hpc hd, Chip.postGo_empty s.env (Chip.slot_setSlot_same ..) hdescs]
  exact issuedOnly_of ((hd.frame.setSlot _).setSlot _) (Chip.slot_setSlot_same ..)
    (Chip.regsNdls_setNdl (Chip.regsNdls_setNdl hd.only _) _) hd.keeps sl.t

include h hmode hg hpc in
/-- A POST of a group of one descriptor presents its STATUS. -/
theorem post_one {r : DRec} {w : Nat} (hdescs : g.descs = [r]) (hfence : NoFence s.chip)
    (hw : s.prot.check sl.live.pd (r.desc.addr / 64 * 64) 64 .ackWrite = .ok w) (hwaits : NoneWaits s.chip (s.prot.home w) n) :
    Completes (if mode = 0 then .postCommit n k else .postDiscard n k) s fun t =>
      t.chip.slot n k = some { issuedSlot sl (.post wd mode) (stepped sl.live) with
        act := some (postAct sl wd mode [{ r with pend := 1, statusSent := true }]) } ∧
      (∃ b, Presented s.chip t.chip (s.prot.home w) b ∧ b.use = .actStatus n k r.desc.addr ∧ b.kind = .ack ∧
        b.addr = r.desc.addr / 64 * 64 ∧ b.len = 1 ∧
        b.data = [wordLine (r.desc.addr + 24)
          (if mode = 0 then fset (fset r.status ⟨63, 63⟩ 0) ⟨23, 0⟩ s.chip.ctr else 0#64)]) ∧
      KeepsOutside s t := by
  refine post_starts h hmode fun d hd => ?_
  have hnofence : NoFence (d.setSlot n k (some { issuedSlot sl (.post wd mode) (stepped sl.live) with
      act := some { postAct sl wd mode g.descs with go := false } })) := fun j hj =>
    (congrArg (fbit · F.XfFence.VALID) (hd.rd (by simp only [Reg.offset]; omega))).trans (hfence j hj)
  rw [post_goes hg hpc hd, Chip.postGo_one s.env (Chip.slot_setSlot_same ..) hdescs hnofence hd.ctr hw]
  have hcommit : (if mode = 0 then fset (fset r.status ⟨63, 63⟩ 0) ⟨23, 0⟩ s.chip.ctr else 0#64) =
      if postKind mode = .commit then fset (fset r.status ⟨63, 63⟩ 0) ⟨23, 0⟩ s.chip.ctr else 0#64 := by
    by_cases h0 : mode = 0 <;> simp [postKind, h0]
  rw [hcommit]
  exact Chip.status_issued (Chip.slot_setSlot_same ..) (Chip.regsNdls_setNdl (Chip.regsNdls_setNdl hd.only _) _) hwaits

end Post


/-! The crossing watermark (R39 to R41) -/

section Watermark

variable (level high low : Int) (armed : Bool)

theorem watermark_notice : (watermark level high low armed).1 = (armed && decide (high < level)) := by
  simp [watermark, Bool.and_comm]

theorem watermark_armed :
    (watermark level high low armed).2 = (decide (level < min low high) || (armed && decide (level ≤ high))) := by
  by_cases h : level ≤ high
  · simp [watermark, not_lt.mpr h, h]
  · cases armed <;> simp [watermark, lt_of_not_ge h, h]

end Watermark

theorem clamp_eq {lo hi : Int} (h : lo ≤ hi) (x : Int) : clamp lo hi x = max lo (min hi x) := by
  unfold clamp
  split
  · omega
  · split <;> omega

/-- A value within 16 bits reads back as it was stored. -/
theorem signed_stored {x : Int} (h : -32768 ≤ x ∧ x ≤ 32767) : signed 16 (unsigned 16 x % 2 ^ 16) = x := by
  have hmod : signed 16 (unsigned 16 x % 2 ^ 16) = signed 16 (unsigned 16 x) := by
    unfold signed
    rw [Nat.mod_mod]
  obtain ⟨m, hm, hlo, hhi⟩ := signed_unsigned 16 (by decide) x
  rw [hmod]
  omega

namespace Chip

section Measure

variable (c : Chip) (th : Thread)

/-- A post's lag behind the crossing its thread is bound to. -/
def postLag : Int :=
  signed 12 (unsigned 12 ((c.ctr / 4096 : Nat) - ((th.bxing / 4096 : Nat) : Int))) * c.olen +
    ((c.ctr % 4096 : Nat) - ((th.bxing % 4096 : Nat) : Int))

theorem measurePost_parts :
    c.measurePost th = { c with regs := (c.measurePost th).regs, free := (c.measurePost th).free, bb := (c.measurePost th).bb } := by
  unfold measurePost
  extract_lets k n od lag high r c1 c2 c3 c4
  have hc3 : OnlyRegs c c3 := only_wr (only_ite (only_wr (only_wr (only_refl c) _ _) _ _) (only_wr (only_refl c) _ _)) _ _
  have hc4 : OnlyRegs c c4 := only_wr hc3 _ _
  split
  · rfl
  · split
    · have hevent := bbEvent_only c4 0x0C (BitVec.ofNat 64 k) (c4.rd (.otWmLvl k))
      generalize c4.bbEvent 0x0C (BitVec.ofNat 64 k) (c4.rd (.otWmLvl k)) = d at hevent ⊢
      rw [hevent, hc4]
    · rw [show c3 = _ from hc3]

theorem measurePost_unbound (h : ¬ (th.bv = true ∧ c.bit (.otWmCfg th.cls) F.OtWmCfg.EN = true)) : c.measurePost th = c := by
  unfold measurePost
  exact if_pos (not_and_or.mp h)

theorem measurePost_measures (hq : th.cls < 4)
    (h : th.bv = true ∧ c.bit (.otWmCfg th.cls) F.OtWmCfg.EN = true) :
    let d := c.measurePost th
    let q := th.cls
    let lag := c.postLag th
    let high := c.fld (.otWmCfg q) F.OtWmCfg.HIGH
    let armed := c.bit (.otWmLvl q) F.OtWmLvl.ARMED
    signed 16 (d.fld (.otWmLvl q) F.OtWmLvl.LEVEL) = max (-32768) (min 32767 lag) ∧
    Counts c d (.otWmLvl q) F.OtWmLvl.LATE_CNT (b2n (decide ((high : Int) < lag))) ∧
    d.bit (.otWmLvl q) F.OtWmLvl.NOTICE = (c.bit (.otWmLvl q) F.OtWmLvl.NOTICE || (armed && decide ((high : Int) < lag))) ∧
    d.bit (.otWmLvl q) F.OtWmLvl.ARMED = (decide (lag < min (c.fld (.otWmCfg q) F.OtWmCfg.LOW : Int) high) || (armed && decide (lag ≤ (high : Int)))) := by
  have hon : ¬ (¬ th.bv = true ∨ ¬ c.bit (.otWmCfg th.cls) F.OtWmCfg.EN = true) := not_or.mpr ⟨not_not_intro h.1, not_not_intro h.2⟩
  unfold measurePost
  rw [if_neg hon]
  extract_lets n od lag high r c1 c2 c3 c4 d q lag' high' armed
  have hstat : (Reg.otWmLvl q).offset ≠ Reg.bbStat.offset := by simp only [Reg.offset, q]; omega
  have hrise : r.1 = (armed && decide ((high' : Int) < lag')) := watermark_notice ..
  have harm : r.2 = _ := watermark_armed ..
  have hlast {f : Fld} (hf : f.hi < F.OtWmLvl.NOTICE.lo) : d.fld (.otWmLvl q) f = c3.fld (.otWmLvl q) f := by
    unfold d
    split
    · exact (fld_bbEvent _ _ _ _ hstat _).trans (fld_flag_apart c3 _ ⟨by decide, by decide⟩ (.inr hf))
    · rfl
  have htally {f : Fld} (hf : F.OtWmLvl.LATE_CNT.apart f) : c2.fld (.otWmLvl q) f = c1.fld (.otWmLvl q) f := by
    unfold c2
    split
    · exact fld_setF_apart c1 _ ⟨by decide, by decide⟩ hf _
    · rfl
  have hlevel : d.fld (.otWmLvl q) F.OtWmLvl.LEVEL = unsigned 16 (clamp (-32768) 32767 lag) % 2 ^ 16 :=
    (hlast (by decide)).trans ((fld_setF_apart c2 _ ⟨by decide, by decide⟩ (.inr (by decide)) _).trans
      ((htally (.inr (by decide))).trans (fld_setF_same c _ ⟨by decide, by decide⟩ _)))
  have hlate : d.fld (.otWmLvl q) F.OtWmLvl.LATE_CNT = c2.fld (.otWmLvl q) F.OtWmLvl.LATE_CNT :=
    (hlast (by decide)).trans (fld_setF_apart c2 _ ⟨by decide, by decide⟩ (.inr (by decide)) _)
  have hcount : c1.fld (.otWmLvl q) F.OtWmLvl.LATE_CNT = c.fld (.otWmLvl q) F.OtWmLvl.LATE_CNT :=
    fld_setF_apart c _ ⟨by decide, by decide⟩ (.inl (by decide)) _
  have hnotice : c3.bit (.otWmLvl q) F.OtWmLvl.NOTICE = c.bit (.otWmLvl q) F.OtWmLvl.NOTICE :=
    congrArg (· == 1) ((fld_setF_apart c2 _ ⟨by decide, by decide⟩ (.inl (by decide)) _).trans
      ((htally (.inl (by decide))).trans (fld_setF_apart c _ ⟨by decide, by decide⟩ (.inl (by decide)) _)))
  refine ⟨?_, ?_, ?_, ?_⟩
  · have hclamp := clamp_eq (lo := -32768) (hi := 32767) (by decide) lag
    rw [hlevel, signed_stored (by omega), hclamp]
    rfl
  · unfold Counts
    rw [hlate]
    unfold c2
    split
    · next hmore =>
      rw [fld_tally_same c1 _ ⟨by decide, by decide⟩, hcount, show decide ((high' : Int) < lag') = true from decide_eq_true hmore]
      rfl
    · next hless =>
      rw [hcount, show decide ((high' : Int) < lag') = false from decide_eq_false hless]
      exact (min_eq_left (Nat.le_pred_of_lt (fget_lt _ _))).symm
  · unfold d
    rw [← hrise]
    split
    · next hr =>
      rw [hr, Bool.or_true]
      exact (bit_bbEvent _ _ _ _ hstat _).trans (bit_flag_same c3 _ ⟨by decide, by decide⟩)
    · next hr => rw [hnotice, Bool.eq_false_iff.mpr hr, Bool.or_false]
  · refine (congrArg (· == 1) (hlast (f := F.OtWmLvl.ARMED) (by decide))).trans ?_
    exact (bit_setF_same c2 _ ⟨by decide, by decide⟩ rfl r.2).trans harm

end Measure

/-! A POST completes (R142) -/

/-- The result of a pending instruction lands in the slot of a thread that has not faulted. -/
theorem landResult_of_slot {c : Chip} {n k : Nat} {s : Slot} (hs : c.slot n k = some s) (hdead : s.dead = false) {a : Act}
    (ha : s.act = some a) (f : Thread → Thread) : c.landResult n k f = c.setSlot n k (some (landedSlot s a (f s.live))) := by
  unfold landResult
  rw [hs]
  dsimp only
  rw [if_neg (by rw [hdead]; exact Bool.false_ne_true), ha]
  simp only [Option.any_some]
  rfl

/-- The descriptor pointer after a POST: a COMMIT moves it to the next of the last descriptor. -/
def postDptr (s : Slot) (a : Act) : Nat :=
  if a.kind = .commit then (a.descs.getLast?.map fun r => r.desc.nextAddr / 32).getD s.live.dptr else s.live.dptr

/-- The slot of a completed POST: its result, and an empty group at the descriptor pointer. -/
def postedSlot (s : Slot) (a : Act) : Slot :=
  { landedSlot s a { s.live.setReg a.wd (BitVec.ofNat 32 a.descs.length) with
      fF := false, fZ := decide (a.descs.length = 0), dptr := postDptr s a } with
    base := some (postDptr s a * 32), grp := some { descs := [], fill := postDptr s a * 32 } }

/-- The chip with a completed POST in its slot. -/
def posted (c : Chip) (n k : Nat) (s : Slot) (a : Act) : Chip :=
  (c.setSlot n k (some { s with
    act := some a, base := some (postDptr s a * 32), grp := some { descs := [], fill := postDptr s a * 32 } })).setSlot n k (some (postedSlot s a))

theorem postDptr_eq (s : Slot) (a : Act) :
    (match a.kind, a.descs.getLast? with | .commit, some r => r.desc.nextAddr / 32 | _, _ => s.live.dptr) = postDptr s a := by
  unfold postDptr
  cases a.kind <;> cases a.descs.getLast? <;> rfl

section Complete

variable {c : Chip} {n k : Nat} {s : Slot} (hs : c.slot n k = some s) {a : Act} (ha : s.act = some a)
include hs ha

theorem postComplete_ready (hdead : s.dead = false) (hkind : a.kind = .commit ∨ a.kind = .discard) (hready : c.postReady n s.t a = true) :
    c.postComplete n k = if a.kind = .commit then ((c.posted n k s a).cntNeedle n 0x026 1).measurePost s.live
      else ((c.posted n k s a).cntNeedle n 0x027 1).tally (.ndlXfCnt n) F.NdlXfCnt.DISC a.descs.length := by
  unfold postComplete
  rw [hs]
  dsimp -zeta only
  rw [ha]
  dsimp -zeta only
  rw [if_pos ⟨hkind, hready⟩]
  extract_lets g dptr c1 c2
  have hdptr : dptr = postDptr s a := postDptr_eq s a
  have hc2 : c2 = c.posted n k s a := by
    have hslot : c1.slot n k =
        some { s with act := some a, base := some (dptr * 32), grp := some { descs := [], fill := dptr * 32 } } := slot_setSlot_same ..
    unfold c2
    rw [landResult_of_slot hslot hdead rfl]
    unfold c1 posted postedSlot
    rw [hdptr]
    rfl
  rw [hc2]

end Complete

theorem posted_parts (c : Chip) (n k : Nat) (s : Slot) (a : Act) :
    let d := c.posted n k s a
    d.slot n k = some (postedSlot s a) ∧ (∀ j, j ≠ k → d.slot n j = c.slot n j) ∧ d = { c with needles := d.needles } :=
  ⟨slot_setSlot_same .., fun _ hj => (slot_setSlot_other _ (.inr hj) _).trans (slot_setSlot_other _ (.inr hj) _), rfl⟩

section Completed

variable (c : Chip) {n : Nat} (k : Nat) (s : Slot) (a : Act)

theorem cntNeedle_measured_parts (ev : Nat) (th : Thread) :
    let t := (c.cntNeedle n ev 1).measurePost th
    t.needles = c.needles ∧ t.threads = c.threads ∧ t.ports = c.ports := by
  have hcount := c.cntNeedle_only n ev 1
  generalize c.cntNeedle n ev 1 = d at hcount ⊢
  have hmeasure := d.measurePost_parts th
  generalize d.measurePost th = t at hmeasure ⊢
  rw [hmeasure, show d = _ from hcount]
  exact ⟨rfl, rfl, rfl⟩

theorem cntNeedle_tallied_parts (ev m : Nat) (r : Reg) (f : Fld) :
    let t := (c.cntNeedle n ev 1).tally r f m
    t.needles = c.needles ∧ t.threads = c.threads ∧ t.ports = c.ports := by
  have hcount := c.cntNeedle_only n ev 1
  generalize c.cntNeedle n ev 1 = d at hcount ⊢
  rw [show d = _ from hcount]
  exact ⟨rfl, rfl, rfl⟩

/-- The registers of the crossing watermarks and what a lag is measured by read as before a needle's count. -/
theorem rd_counted_posted (hn : n < 128) (ev : Nat) {r : Reg} (hr : r.offset < 0x70000) :
    ((c.posted n k s a).cntNeedle n ev 1).rd r = c.rd r := rd_cntNeedle _ hn ev 1 (.inl hr)

theorem measured_of_rd {d : Chip} {th : Thread} (h : ∀ r : Reg, r.offset < 0x70000 → d.rd r = c.rd r) (hq : th.cls < 4) :
    let q := th.cls
    d.postLag th = c.postLag th ∧ d.rd (.otWmCfg q) = c.rd (.otWmCfg q) ∧ d.rd (.otWmLvl q) = c.rd (.otWmLvl q) := by
  have hctr : d.ctr = c.ctr := congrArg BitVec.toNat (h .otXing (by decide))
  have holen : d.olen = c.olen := congrArg (fget · F.OtGeom.OLEN + 1) (h .otGeom (by decide))
  refine ⟨?_, h _ (by simp only [Reg.offset]; omega), h _ (by simp only [Reg.offset]; omega)⟩
  unfold postLag
  rw [hctr, holen]

end Completed

end Chip

theorem completes_postComplete {s : State} {n : Fin 128} {k : Fin 8} (hup : coreUp s.chip = true) (hclock : s.chip.npwr n = 0)
    {P : State → Prop} (hP : P { s with chip := s.chip.postComplete n k }) : Completes (.postComplete n k) s P :=
  completes_when rfl hup (if_pos hclock) hP

section Complete

variable {s : State} {n : Fin 128} {k : Fin 8} {sl : Slot} {a : Act} (hslot : s.chip.slot n k = some sl) (ha : sl.act = some a)
include hslot ha

/-- What a POST that is ready leaves in its slot (R142). -/
theorem post_lands (hdead : sl.dead = false) (hkind : a.kind = .commit ∨ a.kind = .discard)
    (hready : s.chip.postReady n sl.t a = true) :
    let t := s.chip.postComplete n k
    t.slot n k = some (Chip.postedSlot sl a) ∧ (∀ j, j ≠ k.val → t.slot n j = s.chip.slot n j) ∧ t.threads = s.chip.threads ∧
      t.ports = s.chip.ports := by
  obtain ⟨hat, hothers, honly⟩ := s.chip.posted_parts n k sl a
  have hready' := Chip.postComplete_ready hslot ha hdead hkind hready
  generalize s.chip.postComplete n k = t at hready' ⊢
  obtain ⟨hneedles, hthreads, hports⟩ : t.needles = (s.chip.posted n k sl a).needles ∧
      t.threads = (s.chip.posted n k sl a).threads ∧ t.ports = (s.chip.posted n k sl a).ports := by
    rw [hready']
    split
    · exact Chip.cntNeedle_measured_parts ..
    · exact Chip.cntNeedle_tallied_parts ..
  refine ⟨(Chip.slot_of_needles hneedles n k).trans hat, fun j hj => (Chip.slot_of_needles hneedles n j).trans (hothers j hj),
    hthreads.trans ((congrArg Chip.threads honly).trans rfl), hports.trans ((congrArg Chip.ports honly).trans rfl)⟩

/-- What a post measures (R39 to R41). -/
theorem post_measures (hdead : sl.dead = false) (hkind : a.kind = .commit ∨ a.kind = .discard)
    (hready : s.chip.postReady n sl.t a = true) (hq : sl.live.cls < 4) :
    let t := s.chip.postComplete n k
    let q := sl.live.cls
    let lag := s.chip.postLag sl.live
    let high := s.chip.fld (.otWmCfg q) F.OtWmCfg.HIGH
    let low := s.chip.fld (.otWmCfg q) F.OtWmCfg.LOW
    let armed := s.chip.bit (.otWmLvl q) F.OtWmLvl.ARMED
    if a.kind = .commit ∧ sl.live.bv = true ∧ s.chip.bit (.otWmCfg q) F.OtWmCfg.EN = true then
      signed 16 (t.fld (.otWmLvl q) F.OtWmLvl.LEVEL) = max (-32768) (min 32767 lag) ∧
      Counts s.chip t (.otWmLvl q) F.OtWmLvl.LATE_CNT (b2n (decide ((high : Int) < lag))) ∧
      t.bit (.otWmLvl q) F.OtWmLvl.NOTICE = (s.chip.bit (.otWmLvl q) F.OtWmLvl.NOTICE || (armed && decide ((high : Int) < lag))) ∧
      t.bit (.otWmLvl q) F.OtWmLvl.ARMED = (decide (lag < min (low : Int) high) || (armed && decide (lag ≤ (high : Int))))
    else ∀ r, r < 4 → t.rd (.otWmLvl r) = s.chip.rd (.otWmLvl r) := by
  have hrd (ev : Nat) {r : Reg} (hr : r.offset < 0x70000) : ((s.chip.posted n k sl a).cntNeedle n ev 1).rd r = s.chip.rd r :=
    Chip.rd_counted_posted s.chip k sl a n.isLt ev hr
  have hlevel {r : Nat} (hr : r < 4) : (Reg.otWmLvl r).offset < 0x70000 := by simp only [Reg.offset]; omega
  rw [Chip.postComplete_ready hslot ha hdead hkind hready]
  dsimp only
  by_cases hcommit : a.kind = .commit
  · rw [if_pos hcommit]
    obtain ⟨hlag, hcfg, hlvl⟩ := Chip.measured_of_rd s.chip (fun r hr => hrd 0x026 hr) hq
    have hkept : ∀ r, r < 4 → ((s.chip.posted n k sl a).cntNeedle n 0x026 1).rd (.otWmLvl r) = s.chip.rd (.otWmLvl r) :=
      fun r hr => hrd 0x026 (hlevel hr)
    generalize (s.chip.posted n k sl a).cntNeedle n 0x026 1 = m at hlag hcfg hlvl hkept ⊢
    have hen : m.bit (.otWmCfg sl.live.cls) F.OtWmCfg.EN = s.chip.bit (.otWmCfg sl.live.cls) F.OtWmCfg.EN :=
      congrArg (fbit · F.OtWmCfg.EN) hcfg
    by_cases hon : sl.live.bv = true ∧ s.chip.bit (.otWmCfg sl.live.cls) F.OtWmCfg.EN = true
    · rw [if_pos ⟨hcommit, hon⟩]
      have hmeasured := m.measurePost_measures sl.live hq (hen.symm ▸ hon)
      simp only [Counts, Chip.fld, Chip.bit, hlag, hcfg, hlvl] at hmeasured ⊢
      exact hmeasured
    · rw [if_neg fun h => hon h.2, Chip.measurePost_unbound m sl.live (hen.symm ▸ hon)]
      exact hkept
  · rw [if_neg hcommit, if_neg fun h => hcommit h.1]
    refine fun r hr => (Chip.rd_tally_other _ ?_ _ _).trans (hrd 0x027 (hlevel hr))
    simp only [Reg.offset]
    omega

end Complete


/-! A COMMIT takes an entry of the completion queue (R139, R142) -/

namespace Chip

theorem postReady_false {c : Chip} {n u : Nat} {a : Act} (hkind : a.kind = .commit) (harg : a.arg = 0) (hdescs : a.descs ≠ []) : c.postReady n u a = false := by
  have hnone : (a.descs == []) = false := beq_eq_false_iff_ne.mpr hdescs
  unfold postReady
  rw [hkind, harg, hnone]
  simp

section Entry

variable {c : Chip} {n k : Nat} {s : Slot} (hs : c.slot n k = some s) {a : Act} (ha : s.act = some a)
include hs ha

theorem postComplete_waits (hready : c.postReady n s.t a = false) : c.postComplete n k = c.postEntry n k := by
  unfold postComplete
  rw [hs]
  dsimp -zeta only
  rw [ha]
  exact if_neg fun h => Bool.false_ne_true (hready.symm.trans h.2)

/-- The queue entry of a COMMIT. -/
def postCq (c : Chip) (k : Nat) (s : Slot) (a : Act) : CqEntry :=
  { id := c.xid, t := s.t, slot := k, pc := a.pc, cls := s.live.cls, pd := s.live.pd, gen := s.live.gen, spec := false,
    post := true, descs := a.descs, stopped := false }

theorem postEntry_enters (hkind : a.kind = .commit) (hgo : a.go = true) (harg : a.arg = 0) (hdescs : a.descs ≠ [])
    (hacked : a.descs.all (fun r => r.pend == 0) = true) (hroom : (c.ndl n).cq.length < 8) :
    let t := c.postEntry n k
    (t.ndl n).cq = (c.ndl n).cq ++ [postCq c k s a] ∧ t.slot n k = some { s with act := some { a with arg := c.xid + 1 } } ∧
      t.regs = c.regs ∧ t.threads = c.threads := by
  unfold postEntry
  rw [hs]
  dsimp -zeta only
  rw [ha]
  dsimp -zeta only
  rw [if_pos ⟨hkind, hgo, harg, hdescs, hacked, hroom⟩]
  extract_lets ent c1 nd c2 t
  have hndl : c2.ndl n = { c.ndl n with cq := (c.ndl n).cq ++ [postCq c k s a] } := ndl_setNdl_same ..
  have hslot : c2.slot n k = some s := by
    rw [← hs]
    unfold slot
    rw [hndl]
  have ht : t = c2.setSlot n k (some { s with act := some { a with arg := ent.id + 1 } }) := setAct_of_slot hslot _
  rw [ht]
  refine ⟨?_, slot_setSlot_same .., rfl, rfl⟩
  unfold setSlot
  rw [ndl_setNdl_same, hndl]

end Entry

end Chip

/-- Settles O36: a POST waits with its group, presents each STATUS, and completes in its slot; what it measures is said of the chip that
the count of the post leaves, on which the watermark's registers stand. -/
theorem posts : Obligations.Posts := by
  refine ⟨fun s n k sl wd mode g h hmode hg hpc => ⟨fun hdescs => post_empty h hmode hg hpc hdescs,
    fun r w hdescs hfence hw hwaits => post_one h hmode hg hpc hdescs hfence hw hwaits⟩, ?_, ?_⟩
  · intro s n k sl a hup hclock hslot hdead ha hkind hready
    obtain ⟨hlands, hothers, hthreads, hports⟩ := post_lands hslot ha hdead hkind hready
    exact completes_postComplete hup hclock
      ⟨hlands, hothers, hthreads, hports, keepsOutside_chip s _, fun hq => post_measures hslot ha hdead hkind hready hq⟩
  · intro s n k sl a hup hclock hslot ha hkind hgo harg hdescs hacked hroom
    have hwaits := Chip.postComplete_waits hslot ha (Chip.postReady_false hkind harg hdescs)
    obtain ⟨hcq, hat, hregs, hthreads⟩ := Chip.postEntry_enters hslot ha hkind hgo harg hdescs hacked hroom
    refine completes_postComplete hup hclock ?_
    rw [hwaits]
    exact ⟨Chip.postCq s.chip k sl a, hcq, rfl, rfl, rfl, rfl, hat, hregs, hthreads, keepsOutside_chip s _⟩

end Sys2Proof.Machine

/-! PROOFS of the statements of 03_spools_and_ingest.md. O17: the configuration registers of a spool. -/

namespace Sys2Proof.Machine

/-! Several fields of one register -/

/-- No two fields of a register have a bit in common. -/
theorem Reg.fields_apart (r : Reg) : (r.fields.map (·.1)).Pairwise fun f g => g.apart f := by
  have apart {b : Nat} {l : List (Fld × Acc)} (h : descend b l = true) : l.Pairwise fun x y => y.1.apart x.1 := by
    induction l generalizing b with
    | nil => exact .nil
    | cons x l ih =>
      simp only [descend, Bool.and_eq_true] at h
      exact .cons (fun y hy => .inl (below_of_descend h.2 y hy).2) (ih h.2)
  exact List.pairwise_map.mpr (apart r.fields_descend)

namespace Chip

/-- Fields of one register take their values in a word, one after the other. -/
def takeFields (c : Chip) (r : Reg) (w : Word) (l : List Fld) : Chip := l.foldl (fun c f => c.setF r f (fget w f)) c

section TakeFields

variable (c : Chip) {r : Reg} {w : Word} {l : List Fld}

theorem takeFields_only : OnlyRegs c (c.takeFields r w l) := onlyRegs_foldl (fun d _ => only_wr (only_refl d) _ _) l c

theorem takeFields_keeps : KeepsRegs c (c.takeFields r w l) [r] := fun q hq =>
  rd_foldl l (fun d f _ => rd_setF_other d (hq r (by simp)) f _) c

/-- A field apart from those written stands. -/
theorem fld_takeFields_apart {f : Fld} (h : ∀ g ∈ l, g.ok ∧ g.apart f) : (c.takeFields r w l).fld r f = c.fld r f := by
  induction l generalizing c with
  | nil => rfl
  | cons g l ih =>
    obtain ⟨hok, hg⟩ := h g List.mem_cons_self
    exact (ih _ fun y hy => h y (List.mem_cons_of_mem _ hy)).trans (c.fld_setF_apart r hok hg _)

/-- Each field written has its value, where the fields are apart. -/
theorem fld_takeFields (hok : ∀ f ∈ l, f.ok) (hl : l.Pairwise fun f g => g.apart f) {f : Fld} (hf : f ∈ l) :
    (c.takeFields r w l).fld r f = fget w f := by
  induction l generalizing c with
  | nil => cases hf
  | cons g l ih =>
    obtain ⟨hg, hl⟩ := List.pairwise_cons.mp hl
    have hok' : ∀ x ∈ l, x.ok := fun x hx => hok x (List.mem_cons_of_mem _ hx)
    rcases List.mem_cons.mp hf with rfl | hf
    · refine (fld_takeFields_apart _ fun x hx => ⟨hok' x hx, hg x hx⟩).trans ?_
      exact (c.fld_setF_same r (hok f List.mem_cons_self) _).trans (Nat.mod_eq_of_lt (fget_lt w f))
    · exact ih _ hok' hl hf

end TakeFields

end Chip

/-! The configuration registers (R78) -/

section SpoolConfiguration

variable {s : State} {m : Fin 256} (hs : Ready s)
include hs

/-- While the spool is not OFF a write of a configuration register is refused (R78). -/
theorem spoolCfgWrite_locked (he : s.chip.spEn m ≠ .off) (which : SpoolCfg) (w : Word) :
    Completes (.spoolCfgWrite m which w) s fun t =>
      t.chip.bit (.spStat m) F.SpStat.CFG_LOCKED = true ∧ KeepsRegs s.chip t.chip [.spStat m] ∧
      OnlyRegs s.chip t.chip ∧ KeepsOutside s t := by
  refine completes_when rfl hs (if_pos he) ?_
  exact ⟨Chip.bit_flag_same _ _ ⟨by decide, by decide⟩, Chip.keeps_flag (Chip.keeps_refl _ _) (by simp) _,
    Chip.only_wr (Chip.only_refl _) _ _, keepsOutside_chip ..⟩

variable (he : s.chip.spEn m = .off) (w : Word)
include he

omit he in
/-- A write that takes fields of one register. -/
theorem spoolCfgWrite_takes {which : SpoolCfg} {r : Reg} {l : List Fld}
    (hw : s.chip.spCfgWrite m which w = s.chip.takeFields r w l) (hl : l.Sublist (r.fields.map (·.1))) :
    Completes (.spoolCfgWrite m which w) s fun t =>
      (∀ f ∈ l, t.chip.fld r f = fget w f) ∧ (∀ f, (∀ g ∈ l, g.apart f) → t.chip.fld r f = s.chip.fld r f) ∧
      KeepsRegs s.chip t.chip [r] ∧ OnlyRegs s.chip t.chip ∧ KeepsOutside s t := by
  have hok : ∀ f ∈ l, f.ok := fun f hf => by
    obtain ⟨x, hx, rfl⟩ := List.mem_map.mp (hl.subset hf)
    exact Reg.field_ok hx
  exact completes_when rfl hs hw ⟨fun f => Chip.fld_takeFields _ hok (r.fields_apart.sublist hl),
    fun f hf => Chip.fld_takeFields_apart _ fun g hg => ⟨hok g hg, hf g hg⟩, Chip.takeFields_keeps _, Chip.takeFields_only _,
    keepsOutside_chip ..⟩

theorem spoolCfgWrite_cfg : Completes (.spoolCfgWrite m .cfg w) s fun t =>
    t.chip.spBase m = fget w F.SpCfg.BASE ∧ t.chip.spCount m = fget w F.SpCfg.COUNT ∧
    t.chip.spGuard m = fget w F.SpCfg.LAPGUARD + 1 ∧
    t.chip.spMode m = (if fget w F.SpCfg.MODE = 3 then s.chip.spMode m else fget w F.SpCfg.MODE) ∧
    KeepsRegs s.chip t.chip [.spCfg m] ∧ OnlyRegs s.chip t.chip ∧ KeepsOutside s t := by
  by_cases hmode : fget w F.SpCfg.MODE = 3
  · obtain ⟨t, ht, hflds, hothers, hrest⟩ := spoolCfgWrite_takes hs (m := m) w (which := .cfg) (r := .spCfg m)
      (l := [F.SpCfg.LAPGUARD, F.SpCfg.COUNT, F.SpCfg.BASE]) (by simp [Chip.spCfgWrite, he, hmode, Chip.takeFields])
      (List.sublist_cons_self ..)
    have hkept : t.chip.spMode m = s.chip.spMode m := hothers _ (by simp [Fld.apart, F.SpCfg.LAPGUARD, F.SpCfg.COUNT, F.SpCfg.BASE])
    refine ⟨t, ht, hflds _ (by simp), hflds _ (by simp), congrArg (· + 1) (hflds _ (by simp)), ?_, hrest⟩
    rw [if_pos hmode, hkept]
  · obtain ⟨t, ht, hflds, -, hrest⟩ := spoolCfgWrite_takes hs (m := m) w (which := .cfg) (r := .spCfg m)
      (l := [F.SpCfg.MODE, F.SpCfg.LAPGUARD, F.SpCfg.COUNT, F.SpCfg.BASE])
      (by simp [Chip.spCfgWrite, he, hmode, Chip.takeFields]) (.refl _)
    refine ⟨t, ht, hflds _ (by simp), hflds _ (by simp), congrArg (· + 1) (hflds _ (by simp)), ?_, hrest⟩
    rw [if_neg hmode]
    exact hflds _ (by simp)

theorem spoolCfgWrite_deepBase : Completes (.spoolCfgWrite m .deepBase w) s fun t =>
    t.chip.fld (.spDeepbase m) F.SpDeepbase.ADDR = fget w F.SpDeepbase.ADDR ∧
    KeepsRegs s.chip t.chip [.spDeepbase m] ∧ OnlyRegs s.chip t.chip ∧ KeepsOutside s t := by
  obtain ⟨t, ht, hflds, -, hrest⟩ := spoolCfgWrite_takes hs (m := m) w (which := .deepBase) (r := .spDeepbase m)
    (l := [F.SpDeepbase.ADDR]) (by simp [Chip.spCfgWrite, he, Chip.takeFields]) (.refl _)
  exact ⟨t, ht, hflds _ (by simp), hrest⟩

theorem spoolCfgWrite_deepCfg : Completes (.spoolCfgWrite m .deepCfg w) s fun t =>
    (∀ f ∈ [F.SpDeepcfg.LEN, F.SpDeepcfg.PD, F.SpDeepcfg.CLASS, F.SpDeepcfg.NDL],
      t.chip.fld (.spDeepcfg m) f = fget w f) ∧
    KeepsRegs s.chip t.chip [.spDeepcfg m] ∧ OnlyRegs s.chip t.chip ∧ KeepsOutside s t := by
  obtain ⟨t, ht, hflds, -, hrest⟩ := spoolCfgWrite_takes hs (m := m) w (which := .deepCfg) (r := .spDeepcfg m)
    (l := [F.SpDeepcfg.LEN, F.SpDeepcfg.PD, F.SpDeepcfg.CLASS, F.SpDeepcfg.NDL])
    (by simp [Chip.spCfgWrite, he, Chip.takeFields]) (.refl _)
  exact ⟨t, ht, hflds, hrest⟩

end SpoolConfiguration

/-- Settles O17: each register's write takes its fields while the spool is OFF, and is refused otherwise. -/
theorem spoolConfiguration : Obligations.SpoolConfiguration := fun _ _ hs =>
  ⟨fun w he => spoolCfgWrite_cfg hs he w, fun w he => spoolCfgWrite_deepBase hs he w,
    fun w he => spoolCfgWrite_deepCfg hs he w, fun which w he => spoolCfgWrite_locked hs he which w⟩

end Sys2Proof.Machine

/-! PROOFS of the statements of 03_spools_and_ingest.md, continued. O15: the ingest ports. -/

namespace Sys2Proof.Machine

/-! The state that refutes O15 -/

/-- A chip in which port 0 is in the middle of a packet that names "spool 996". The register where EN of that spool would stand is
counter 544, of port 0, which counts the beats that the port takes and stands at 3. -/
def strayPacket : Chip :=
  let c : Chip := { Chip.reset with
    pwr := { Power.start with phase := .running }
    ingest := [(0, { Ingest.empty with pkt := some (0, some 996) })] }
  let c := c.setF (.ipStat 0) F.IpStat.QUAR 0
  let c := (c.setF (.pmcCfg 544) F.PmcCfg.EN 1).setF (.pmcCfg 544) F.PmcCfg.EVENT 0x0C1
  c.setF (.pmcCnt 544) F.PmcCnt.VALUE 3

/-- The next beat of the packet counts, so that the spool it names reads as OFF when the beat is placed. -/
theorem strayPacket_drops : ((strayPacket.ingestBeat (0 : Fin 16) (0 : Fin 16) false false 0 false 0#256).ip (0 : Fin 16)).fifo = [] := by
  decide +kernel

/-- Refutes O15: its clause on a further beat of a packet speaks of every number that the packet may name as its spool, also of one
past the 256 spools. There the count of the beat changes the register that is read as the spool's EN, and the beat is dropped although
EN was not OFF before. In a state that the block can reach the number comes from the stream map and is below 256. -/
theorem not_ingestPorts : ¬ Obligations.IngestPorts := by
  intro h
  obtain ⟨hbeats, -⟩ := h
  obtain ⟨-, hfurther, -⟩ := hbeats { State.reset with chip := strayPacket } 0 0 false false 0#24 false 0#256 rfl (by decide +kernel)
  obtain ⟨t, ht, hport, -⟩ :=
    hfurther 996 (by decide +kernel) (by decide +kernel) rfl (by decide +kernel) (by decide +kernel) (by decide +kernel)
  have hchip : t.chip = strayPacket.ingestBeat (0 : Fin 16) (0 : Fin 16) false false 0 false 0#256 :=
    congrArg State.chip (Host.Outcome.next.inj ht).symm
  have hkept := congrArg Ingest.fifo hport
  rw [hchip, strayPacket_drops] at hkept
  simp at hkept

end Sys2Proof.Machine

/-! PROOFS of the statements of 03_spools_and_ingest.md, continued. O18: the enable of a spool. -/

namespace Sys2Proof.Machine

namespace Chip

/-! The conditions of a start (R59) -/

section Region

variable (c : Chip) {m : Nat}

theorem overlap_false_iff {a b : Nat} : c.overlap a b = false ↔
    c.spBase a + c.spCount a < c.spBase b ∨ c.spBase b + c.spCount b < c.spBase a := by
  simp only [overlap, Bool.and_eq_false_iff, decide_eq_false_iff_not]
  omega

theorem regionOk_iff : c.regionOk m = true ↔
    c.spBase m + c.spCount m + 1 ≤ 6144 ∧
    (∀ j, j < 256 → j ≠ m → c.spEn j ≠ .off →
      c.spBase m + c.spCount m < c.spBase j ∨ c.spBase j + c.spCount j < c.spBase m) ∧
    (c.spMode m = 1 → c.spGuard m < c.spCap m) ∧
    (c.spMode m = 2 → 4 ≤ c.spCount m + 1 ∧ c.spCount m ≤ c.spLen m) := by
  simp only [regionOk, Bool.and_eq_true, Bool.not_eq_true', List.any_eq_false, List.mem_range, Bool.and_eq_true, bne_iff_ne,
    Bool.or_eq_true, decide_eq_true_eq, and_assoc]
  refine and_congr_right fun _ => and_congr ?_ (and_congr ?_ ?_)
  · refine forall₂_congr fun j _ => ?_
    rw [← overlap_false_iff, ← Bool.not_eq_true]
    tauto
  · tauto
  · tauto

end Region

/-! Spools apart -/

theorem spool_setSpool_other (c : Chip) {m j : Nat} (h : j ≠ m) (s : Spool) : (c.setSpool m s).spool j = c.spool j :=
  Tab.get_put_other _ _ h _

theorem spool_of_spools {c d : Chip} (h : d.spools = c.spools) (m : Nat) : d.spool m = c.spool m := by simp only [spool, h]

/-- A four-state enable of a spool just written. -/
theorem spEn_setF (c : Chip) (m : Nat) (e : En) : (c.setF (.spCtl m) F.SpCtl.EN e.code).spEn m = e :=
  c.en_setF_same _ ⟨by decide, by decide⟩ rfl e

theorem spEn_of_rd {c d : Chip} {m : Nat} (h : d.rd (.spCtl m) = c.rd (.spCtl m)) : d.spEn m = c.spEn m :=
  congrArg (fun w => En.dec (fget w F.SpCtl.EN)) h

theorem wp_of_rd {c d : Chip} {m : Nat} (h : d.rd (.spWp m) = c.rd (.spWp m)) : d.wp m = c.wp m := congrArg (fget · F.SpWp.POS) h

/-! The start (R77) -/

/-- A table that lists the values of a function on some keys, zeros left out. -/
theorem get_filterMap_nonzero (f : Nat → Nat) (l : List Nat) {k : Nat} (hk : k ∈ l) :
    Tab.get 0 (l.filterMap fun j => if f j = 0 then none else some (j, f j)) k = f k := by
  have listed (l : List Nat) (h : k ∈ l ∨ f k = 0) :
      Tab.get 0 (l.filterMap fun j => if f j = 0 then none else some (j, f j)) k = f k := by
    induction l with
    | nil => exact (h.resolve_left List.not_mem_nil).symm
    | cons j l ih =>
      by_cases hj : f j = 0
      · rw [List.filterMap_cons_none (by simp [hj])]
        refine ih ?_
        rcases h with h | h
        · rcases List.mem_cons.mp h with rfl | h
          · exact .inr hj
          · exact .inl h
        · exact .inr h
      · rw [List.filterMap_cons_some (b := (j, f j)) (by simp [hj])]
        by_cases hkj : k = j
        · simp [Tab.get, hkj]
        · simp only [Tab.get, hkj, if_false]
          exact ih (h.imp_left fun h => (List.mem_cons.mp h).resolve_left hkj)
  exact listed l (.inl hk)

/-- The EPOCHs of a spool, every one advanced. -/
def nextEpochs (s : Spool) : Tab Nat :=
  (List.range 512).filterMap fun k => if (epochOf s k + 1) % 128 = 0 then none else some (k, (epochOf s k + 1) % 128)

theorem get_nextEpochs (s : Spool) {k : Nat} (hk : k < 512) : Tab.get 0 (nextEpochs s) k = (epochOf s k + 1) % 128 := by
  unfold nextEpochs
  exact get_filterMap_nonzero (fun k => (epochOf s k + 1) % 128) (List.range 512) (List.mem_range.mpr hk)

/-- The spool as it becomes RUNNING. -/
def startedSpool (s : Spool) : Spool := { Spool.empty with epochs := nextEpochs s, run := s.run + 1 }

theorem epochOf_startedSpool (s : Spool) {k : Nat} (hk : k < 512) : epochOf (startedSpool s) k = (epochOf s k + 1) % 128 := by
  rw [← get_nextEpochs s hk, epochOf, startedSpool]

section Start

variable (c : Chip) (m : Nat)

/-- DEEP_ERR as the start leaves it. -/
def startNoted : Chip := if (c.spool m).spillIn.any (·.2) then c.flag (.spStat m) F.SpStat.DEEP_ERR else c

theorem startNoted_only : OnlyRegs c (c.startNoted m) := only_ite (only_wr (only_refl c) _ _) (only_refl c)

theorem startNoted_keeps : KeepsRegs c (c.startNoted m) [.spStat m] :=
  keeps_ite (keeps_flag (keeps_refl c _) (by simp) _) (keeps_refl c _)

/-- The positions as the start leaves them. -/
def startPlaced : Chip :=
  ((((c.startNoted m).setSpool m (startedSpool (c.spool m))).setF (.spWp m) F.SpWp.POS 0).setF (.spFp m) F.SpFp.POS 0).setF (.spHp m)
    F.SpHp.POS 0

theorem spStart_eq : c.spStart m = (c.startPlaced m).spWatermark m := rfl

theorem spWatermark_only : OnlyRegs c (c.spWatermark m) := by
  unfold spWatermark
  exact only_ite (only_wr (only_wr (only_refl c) _ _) _ _) (only_wr (only_refl c) _ _)

theorem spWatermark_keeps : KeepsRegs c (c.spWatermark m) [.spLvl m] := by
  unfold spWatermark
  have h (v : Nat) : KeepsRegs c (c.setF (.spLvl m) F.SpLvl.ARMED v) [.spLvl m] := keeps_setF (keeps_refl c _) (by simp) _ _
  exact keeps_ite (keeps_flag (h _) (by simp) _) (h _)

theorem spStart_keeps : KeepsRegs c (c.spStart m) [.spWp m, .spFp m, .spHp m, .spLvl m, .spStat m] := by
  have hnoted : KeepsRegs c ((c.startNoted m).setSpool m (startedSpool (c.spool m))) [.spWp m, .spFp m, .spHp m, .spLvl m, .spStat m] :=
    keeps_trans (keeps_mono (c.startNoted_keeps m) (by simp)) (keeps_of_regs (setSpool_regs ..))
  have hplaced : KeepsRegs c (c.startPlaced m) [.spWp m, .spFp m, .spHp m, .spLvl m, .spStat m] :=
    keeps_setF (r := .spHp m) (keeps_setF (r := .spFp m) (keeps_setF (r := .spWp m) hnoted (by simp) _ _) (by simp) _ _) (by simp) _ _
  rw [spStart_eq]
  exact keeps_trans hplaced (keeps_mono ((c.startPlaced m).spWatermark_keeps m) (by simp))

theorem spStart_positions : (c.spStart m).wp m = 0 ∧ (c.spStart m).fp m = 0 ∧ (c.spStart m).hp m = 0 := by
  have hw := (c.startPlaced m).spWatermark_keeps m
  rw [spStart_eq]
  refine ⟨?_, ?_, ?_⟩
  · refine (fld_of_keeps hw (by simp [Reg.offset]) _).trans ?_
    refine (fld_setF_other _ (by simp [Reg.offset]) _ _ _).trans ((fld_setF_other _ (by simp [Reg.offset]) _ _ _).trans ?_)
    exact fld_setF_same _ _ ⟨by decide, by decide⟩ 0
  · refine (fld_of_keeps hw (by simp [Reg.offset]) _).trans ((fld_setF_other _ (by simp [Reg.offset]) _ _ _).trans ?_)
    exact fld_setF_same _ _ ⟨by decide, by decide⟩ 0
  · exact (fld_of_keeps hw (by simp [Reg.offset]) _).trans (fld_setF_same _ _ ⟨by decide, by decide⟩ 0)

theorem spStart_spools : (c.spStart m).spools = (c.setSpool m (startedSpool (c.spool m))).spools := by
  rw [spStart_eq, spools_of_only ((c.startPlaced m).spWatermark_only m)]
  simp only [startPlaced, setF_spools, setSpool, spools_of_only (c.startNoted_only m)]

theorem spool_spStart_same : (c.spStart m).spool m = startedSpool (c.spool m) :=
  (spool_of_spools (c.spStart_spools m) m).trans (spool_setSpool_same ..)

theorem spool_spStart_other {j : Nat} (h : j ≠ m) : (c.spStart m).spool j = c.spool j :=
  (spool_of_spools (c.spStart_spools m) j).trans (spool_setSpool_other _ h _)

end Start

/-! The end of a run (R52, R77) -/

/-- What leaves the queue are entries alone, and EPOCHs advance. -/
theorem dropMarks_only (s : Spool) (p : MarkEnt → Bool) :
    dropMarks s p = { s with q := s.q.filter fun x => !p x, epochs := (dropMarks s p).epochs } := by
  have fold (l : List MarkEnt) : ∀ t : Spool, l.foldl (fun s x =>
      { s with epochs := Tab.put 0 s.epochs x.slot ((epochOf s x.slot + 1) % 128) }) t = { t with epochs := (l.foldl (fun s x =>
      { s with epochs := Tab.put 0 s.epochs x.slot ((epochOf s x.slot + 1) % 128) }) t).epochs } := by
    induction l with
    | nil => exact fun t => rfl
    | cons x l ih => exact fun t => ih _
  exact fold _ _

theorem dropMarks_all (s : Spool) : (dropMarks s fun _ => true).q = [] := by
  rw [dropMarks_only]
  simp

section Closed

variable (c : Chip) (m : Nat)

/-- A spool at OFF: no refill of the run counts any more, and nothing waits for one. -/
def closedSpool (s : Spool) : Spool := { s with refills := [], refillIn := [], wants := [], waits := [], run := s.run + 1 }

/-- An ingest port once a spool is OFF: its open packet and the words in its FIFO have no spool any more. -/
def unbound (i : Ingest) : Ingest :=
  { i with
    pkt := i.pkt.map fun p => (p.1, p.2.filter (· != m))
    fifo := i.fifo.map fun w => if w.spool = m then { w with spool := 256 } else w }

/-- The chip once a spool has become OFF, before the threads that waited for it wake. -/
def spClosed : Chip :=
  ({ c with ingest := c.ingest.map fun q => (q.1, unbound m q.2) } : Chip).setSpool m (closedSpool (c.spool m))

theorem spOff_eq : c.spOff m = (c.refillWaiters m).foldl (fun c x => c.wake x.1 (·.endRewind 6)) (c.spClosed m) := rfl

theorem spOff_woken : Woken (c.spClosed m) (c.spOff m) := by
  rw [spOff_eq]
  exact Woken.foldl (f := fun (c : Chip) (x : Nat × Nat) => c.wake x.1 (·.endRewind 6)) (fun d x => d.woken_wake x.1 _) _ _

theorem spOff_unwaited (h : c.refillWaiters m = []) : c.spOff m = c.spClosed m := by rw [spOff_eq, h, List.foldl_nil]

theorem refillWaiters_congr {c d : Chip} (ht : d.threads = c.threads) (hw : (d.spool m).waits = (c.spool m).waits) :
    d.refillWaiters m = c.refillWaiters m := by simp only [refillWaiters, waiters, ht, hw]

theorem refillWaiters_of_idle {c : Chip} (h : c.spIdle m = true) : c.refillWaiters m = [] := by
  simp only [spIdle, Bool.and_eq_true, beq_iff_eq] at h
  exact h.2

/-- The chip once EN of a spool is OFF after its run. -/
def spStopped : Chip := (c.setF (.spCtl m) F.SpCtl.EN En.off.code).spOff m

theorem spool_spClosed_same : (c.spClosed m).spool m = closedSpool (c.spool m) := spool_setSpool_same ..

theorem spool_spClosed_other {j : Nat} (h : j ≠ m) : (c.spClosed m).spool j = c.spool j := spool_setSpool_other _ h _

theorem spStopped_low {r : Reg} (h : r.offset < 0x70000) : (c.spStopped m).rd r = (c.setF (.spCtl m) F.SpCtl.EN En.off.code).rd r :=
  (spOff_woken _ m).low r h

variable (hm : m < 256)
include hm

theorem spEn_spStopped : (c.spStopped m).spEn m = .off :=
  (spEn_of_rd (c.spStopped_low m (by simp only [Reg.offset]; omega))).trans (c.spEn_setF m .off)

theorem wp_spStopped : (c.spStopped m).wp m = c.wp m :=
  wp_of_rd ((c.spStopped_low m (by simp only [Reg.offset]; omega)).trans (rd_setF_other _ (by simp [Reg.offset]) _ _))

omit hm

theorem spool_spStopped (j : Nat) : (c.spStopped m).spool j = (c.spClosed m).spool j := spool_of_spools (spOff_woken _ m).spools j

theorem spStopped_unwaited (h : c.refillWaiters m = []) : c.spStopped m = (c.setF (.spCtl m) F.SpCtl.EN En.off.code).spClosed m :=
  spOff_unwaited _ m ((refillWaiters_congr (c := c) m rfl rfl).trans h)

theorem spStopped_keeps (h : c.refillWaiters m = []) : KeepsRegs c (c.spStopped m) [.spCtl m] := by
  rw [c.spStopped_unwaited m h]
  exact keeps_trans (keeps_setF (keeps_refl c _) (by simp) _ _) (keeps_of_regs (setSpool_regs ..))

end Closed

/-! A thread that wakes (R90, R95) -/

/-- A record as it is placed: its STATE, its wait and its AFF may be new. -/
def placed (th : Thread) (st : TState) (kind arg aff : Nat) : Thread := { th with st := st, kind := kind, arg := arg, aff := aff }

/-- Becoming READY changes STATE, and where the thread is parked or moved KIND, ARG and AFF, of its record. -/
theorem thr_makeReady (c : Chip) (t : Nat) : ∃ st kind arg aff, (c.makeReady t).thr t = placed (c.thr t) st kind arg aff := by
  have queued (d : Chip) (n aff : Nat) (hd : d.thr t = { c.thr t with aff := aff }) :
      ∃ st kind arg aff, (d.enqueue t n).thr t = placed (c.thr t) st kind arg aff :=
    ⟨.ready, (c.thr t).kind, (c.thr t).arg, aff, by rw [thr_enqueue_same, hd]; rfl⟩
  have parked (n : Nat) : ∃ st kind arg aff,
      (c.setThr t { c.thr t with st := .parked, kind := kPark, arg := parkNeedle * 2 ^ 24 + n }).thr t =
        placed (c.thr t) st kind arg aff := ⟨_, _, _, _, thr_setThr_same ..⟩
  unfold makeReady
  dsimp only
  split
  · split
    · exact queued c _ _ rfl
    · exact parked _
  · split
    · exact queued c _ _ rfl
    · split
      · exact parked _
      · split
        · exact queued _ _ _ (thr_setThr_same ..)
        · exact parked _

theorem thr_wake_same (c : Chip) (t : Nat) (f : Thread → Thread) :
    ∃ st kind arg aff, (c.wake t f).thr t = placed (f (c.thr t)) st kind arg aff := by
  obtain ⟨st, kind, arg, aff, h⟩ := (c.setThr t { f (c.thr t) with kind := kNone, arg := 0 }).thr_makeReady t
  rw [thr_setThr_same] at h
  exact ⟨st, kind, arg, aff, h⟩

/-! A write of EN (R59, R77) -/

section Write

variable {c : Chip} {m : Nat}

theorem spEnWrite_starts (he : c.spEn m = .off) (hok : c.regionOk m = true) :
    c.spEnWrite m 1 = (c.setF (.spCtl m) F.SpCtl.EN En.running.code).spStart m := by
  simp [spEnWrite, spMove, he, hok, En.write]

theorem spEnWrite_refused (he : c.spEn m = .off) (hok : c.regionOk m = false) :
    c.spEnWrite m 1 = (c.flag (.spStat m) F.SpStat.REGION_BAD).setF (.spCtl m) F.SpCtl.EN En.off.code := by
  simp [spEnWrite, spMove, he, hok, En.write]

theorem spEnWrite_stops (he : c.spEn m = .running) (hi : c.spIdle m = true) : c.spEnWrite m 0 = c.spStopped m := by
  simp [spEnWrite, spMove, spStopped, he, hi, En.write]

theorem spEnWrite_pends (he : c.spEn m = .running) (hi : c.spIdle m = false) :
    c.spEnWrite m 0 = c.setF (.spCtl m) F.SpCtl.EN En.stopping.code := by
  simp [spEnWrite, spMove, he, hi, En.write]

/-- The marks of a spool abandoned. -/
def spAbandoned (c : Chip) (m : Nat) : Chip := c.setSpool m (dropMarks (c.spool m) fun _ => true)

theorem spForce_stops (he : c.spEn m = .stopping) : c.spForce m = (c.spAbandoned m).spStopped m := by
  simp [spForce, spComplete, spStopped, spAbandoned, he, En.code]

theorem spComplete_stops (he : c.spEn m = .stopping) : c.spComplete m false = c.spStopped m := by
  simp [spComplete, spStopped, he, En.code]

/-- The conditions of a start read no EN but those of the other spools. -/
theorem regionOk_congr {d : Chip} (h : KeepsRegs c d [.spCtl m]) : d.regionOk m = c.regionOk m := by
  have hcfg (j : Nat) : d.rd (.spCfg j) = c.rd (.spCfg j) := h _ (by simp [Reg.offset]; omega)
  have hdeep : d.rd (.spDeepcfg m) = c.rd (.spDeepcfg m) := h _ (by simp [Reg.offset])
  have hen (j : Nat) (hj : j ≠ m) : d.spEn j = c.spEn j := spEn_of_rd (h _ (by simp [Reg.offset]; omega))
  have hbase (j : Nat) : d.spBase j = c.spBase j := congrArg (fget · _) (hcfg j)
  have hcount (j : Nat) : d.spCount j = c.spCount j := congrArg (fget · _) (hcfg j)
  have hmode : d.spMode m = c.spMode m := congrArg (fget · _) (hcfg m)
  have hlen : d.spLen m = c.spLen m := congrArg (fget · _) hdeep
  have hcap : d.spCap m = c.spCap m := by simp only [spCap, hmode, hlen, hcount]
  have hguard : d.spGuard m = c.spGuard m := congrArg (fget · F.SpCfg.LAPGUARD + 1) (hcfg m)
  rw [Bool.eq_iff_iff, regionOk_iff, regionOk_iff, hbase, hcount, hmode, hlen, hcap, hguard]
  refine and_congr_right fun _ => and_congr_left fun _ => ?_
  refine forall₃_congr fun j _ hj => ?_
  rw [hen j hj, hbase, hcount]

theorem spComplete_restarts (he : c.spEn m = .restart) (hi : c.spIdle m = true) (hok : c.regionOk m = true) :
    c.spComplete m false = ((c.spStopped m).setF (.spCtl m) F.SpCtl.EN En.running.code).spStart m := by
  have hok' : (c.spStopped m).regionOk m = true :=
    (regionOk_congr (c.spStopped_keeps m (refillWaiters_of_idle m hi))).trans hok
  have hstopped : (c.setF (.spCtl m) F.SpCtl.EN 0).spOff m = c.spStopped m := rfl
  simp [spComplete, spMove, he, hstopped, hok', En.complete]

end Write

end Chip

/-! The commands (R77) -/

section Commands

variable {s : State} {m : Fin 256}

theorem spoolEnable_starts (hs : Ready s) (he : s.chip.spEn m = .off) (hok : s.chip.regionOk m = true) :
    Completes (.spoolEnable m) s fun t =>
      t.chip.spEn m = .running ∧ t.chip.wp m = 0 ∧ t.chip.fp m = 0 ∧ t.chip.hp m = 0 ∧ (t.chip.spool m).q = [] ∧
      (t.chip.spool m).newest = none ∧ (t.chip.spool m).index = [] ∧
      (∀ k, k < 512 → Chip.epochOf (t.chip.spool m) k = (Chip.epochOf (s.chip.spool m) k + 1) % 128) ∧
      (∀ j, j ≠ m.val → t.chip.spool j = s.chip.spool j) ∧
      KeepsRegs s.chip t.chip [.spCtl m, .spWp m, .spFp m, .spHp m, .spLvl m, .spStat m] ∧ KeepsOutside s t := by
  refine completes_when rfl hs (Chip.spEnWrite_starts he hok) ?_
  generalize hd : s.chip.setF (.spCtl m) F.SpCtl.EN En.running.code = d
  have hkeep : KeepsRegs s.chip d [.spCtl m] := hd ▸ Chip.keeps_setF (Chip.keeps_refl _ _) (by simp) _ _
  have hspools : d.spools = s.chip.spools := hd ▸ rfl
  have hen : d.spEn m = .running := hd ▸ s.chip.spEn_setF m .running
  have hstart := d.spStart_keeps m
  obtain ⟨hwp, hfp, hhp⟩ := d.spStart_positions m
  have hspool : (d.spStart m).spool m = Chip.startedSpool (s.chip.spool m) := by
    rw [d.spool_spStart_same, Chip.spool_of_spools hspools]
  refine ⟨?_, hwp, hfp, hhp, ?_, ?_, ?_, ?_, ?_, ?_, keepsOutside_chip ..⟩
  · exact (Chip.spEn_of_rd (hstart _ (by simp [Reg.offset]))).trans hen
  · exact congrArg Spool.q hspool
  · exact congrArg Spool.newest hspool
  · exact congrArg Spool.index hspool
  · intro k hk
    rw [hspool]
    exact Chip.epochOf_startedSpool _ hk
  · exact fun j hj => (d.spool_spStart_other m hj).trans (Chip.spool_of_spools hspools j)
  · exact Chip.keeps_trans (Chip.keeps_mono hkeep (by simp)) (Chip.keeps_mono hstart (by simp))

theorem spoolEnable_refused (hs : Ready s) (he : s.chip.spEn m = .off) (hok : s.chip.regionOk m = false) :
    Completes (.spoolEnable m) s fun t =>
      t.chip.spEn m = .off ∧ t.chip.bit (.spStat m) F.SpStat.REGION_BAD = true ∧ OnlyRegs s.chip t.chip ∧
      KeepsRegs s.chip t.chip [.spStat m, .spCtl m] ∧ KeepsOutside s t := by
  refine completes_when rfl hs (Chip.spEnWrite_refused he hok) ?_
  refine ⟨Chip.spEn_setF _ m .off, ?_, Chip.only_wr (Chip.only_wr (Chip.only_refl _) _ _) _ _, ?_, keepsOutside_chip ..⟩
  · refine Eq.trans (congrArg (fbit · _) (Chip.rd_setF_other _ (by simp [Reg.offset]) _ _)) ?_
    exact Chip.bit_flag_same _ _ ⟨by decide, by decide⟩
  · exact Chip.keeps_setF (Chip.keeps_flag (Chip.keeps_refl _ _) (by simp) _) (by simp) _ _

/-- What a stop leaves as it was, but for the spool itself and EN. -/
def StopFrame (s : State) (m : Fin 256) (t : State) : Prop :=
  (∀ j, j ≠ m.val → t.chip.spool j = s.chip.spool j) ∧ t.chip.wp m = s.chip.wp m ∧ KeepsRegs s.chip t.chip [.spCtl m] ∧
    KeepsOutside s t

theorem stopFrame_spStopped (hw : s.chip.refillWaiters m = []) : StopFrame s m { s with chip := s.chip.spStopped m } :=
  ⟨fun _ hj => (s.chip.spool_spStopped m _).trans (s.chip.spool_spClosed_other m hj), s.chip.wp_spStopped m m.isLt,
    s.chip.spStopped_keeps m hw, keepsOutside_chip ..⟩

/-- A spool that stops with nothing to finish. -/
theorem stopped_idle (hi : s.chip.spIdle m = true) : let t : State := { s with chip := s.chip.spStopped m }
    t.chip.spEn m = .off ∧ t.chip.spool m = Chip.closedSpool (s.chip.spool m) ∧ StopFrame s m t :=
  ⟨s.chip.spEn_spStopped m m.isLt, (s.chip.spool_spStopped m m).trans (s.chip.spool_spClosed_same m),
    stopFrame_spStopped (Chip.refillWaiters_of_idle m hi)⟩

theorem spoolStop_at_once (hs : Ready s) (he : s.chip.spEn m = .running) (hi : s.chip.spIdle m = true) :
    Completes (.spoolStop m) s fun t =>
      t.chip.spEn m = .off ∧ t.chip.spool m = Chip.closedSpool (s.chip.spool m) ∧ StopFrame s m t :=
  completes_when rfl hs (Chip.spEnWrite_stops he hi) (stopped_idle hi)

theorem spoolStop_pends (hs : Ready s) (he : s.chip.spEn m = .running) (hi : s.chip.spIdle m = false) :
    Completes (.spoolStop m) s fun t =>
      t.chip.spEn m = .stopping ∧ t.chip.spool m = s.chip.spool m ∧ StopFrame s m t := by
  refine completes_when rfl hs (Chip.spEnWrite_pends he hi) ?_
  exact ⟨s.chip.spEn_setF m .stopping, rfl, fun _ _ => rfl, Chip.wp_of_rd (Chip.rd_setF_other _ (by simp [Reg.offset]) _ _),
    Chip.keeps_setF (Chip.keeps_refl _ _) (by simp) _ _, keepsOutside_chip ..⟩

theorem spoolStopComplete_stops (hup : coreUp s.chip = true) (he : s.chip.spEn m = .stopping) (hi : s.chip.spIdle m = true) :
    Completes (.spoolStopComplete m) s fun t =>
      t.chip.spEn m = .off ∧ t.chip.spool m = Chip.closedSpool (s.chip.spool m) ∧ StopFrame s m t :=
  completes_when rfl hup ((if_pos ⟨.inl he, hi⟩).trans (Chip.spComplete_stops he)) (stopped_idle hi)

theorem spoolStopComplete_restarts (hup : coreUp s.chip = true) (he : s.chip.spEn m = .restart) (hi : s.chip.spIdle m = true)
    (hok : s.chip.regionOk m = true) : Completes (.spoolStopComplete m) s fun t =>
      t.chip.spEn m = .running ∧ t.chip.wp m = 0 ∧ t.chip.fp m = 0 ∧ t.chip.hp m = 0 ∧ (t.chip.spool m).q = [] ∧
      KeepsOutside s t := by
  refine completes_when rfl hup ((if_pos ⟨.inr he, hi⟩).trans (Chip.spComplete_restarts he hi hok)) ?_
  generalize hd : (s.chip.spStopped m).setF (.spCtl m) F.SpCtl.EN En.running.code = d
  have hen : d.spEn m = .running := hd ▸ (s.chip.spStopped m).spEn_setF m .running
  obtain ⟨hwp, hfp, hhp⟩ := d.spStart_positions m
  exact ⟨(Chip.spEn_of_rd (d.spStart_keeps m _ (by simp [Reg.offset]))).trans hen, hwp, hfp, hhp,
    congrArg Spool.q (d.spool_spStart_same m), keepsOutside_chip ..⟩

section Force

variable (hs : Ready s) (he : s.chip.spEn m = .stopping)
include hs he

/-- FORCE completes the stop of a spool whose marks are gone. -/
theorem spoolForce_completes {P : State → Prop} (hP : P { s with chip := (s.chip.spAbandoned m).spStopped m }) :
    Completes (.spoolForce m) s P := completes_when rfl hs (Chip.spForce_stops he) hP

omit hs he in
theorem refillWaiters_spAbandoned : (s.chip.spAbandoned m).refillWaiters m = s.chip.refillWaiters m :=
  Chip.refillWaiters_congr m rfl (by rw [Chip.spAbandoned, Chip.spool_setSpool_same, Chip.dropMarks_only])

theorem spoolForce_abandons : Completes (.spoolForce m) s fun t =>
    t.chip.spEn m = .off ∧ (t.chip.spool m).q = [] ∧ t.chip.wp m = s.chip.wp m ∧
      (s.chip.refillWaiters m = [] → StopFrame s m t) := by
  have hwp : ((s.chip.spAbandoned m).spStopped m).wp m = s.chip.wp m := Chip.wp_spStopped _ m m.isLt
  refine spoolForce_completes hs he ?_
  refine ⟨Chip.spEn_spStopped _ m m.isLt, ?_, hwp, fun hw => ⟨fun j hj => ?_, hwp, ?_, keepsOutside_chip ..⟩⟩
  · rw [Chip.spool_spStopped, Chip.spool_spClosed_same]
    show ((s.chip.spAbandoned m).spool m).q = []
    rw [Chip.spAbandoned, Chip.spool_setSpool_same, Chip.dropMarks_all]
  · rw [Chip.spool_spStopped, Chip.spool_spClosed_other _ _ hj, Chip.spAbandoned, Chip.spool_setSpool_other _ hj]
  · exact Chip.keeps_trans (Chip.keeps_of_regs (Chip.setSpool_regs ..))
      (Chip.spStopped_keeps _ m (refillWaiters_spAbandoned.trans hw))

/-- A REWIND that waits for a refill ends with DISABLED, and the cursor is the one from before it (R69, R77). -/
theorem spoolForce_ends_rewind {u b : Nat} {v : SavedCursor} (hw : s.chip.refillWaiters m = [(u, b)])
    (hu : (s.chip.thr u).undo = some v) : Completes (.spoolForce m) s fun t =>
      t.chip.spEn m = .off ∧ (t.chip.thr u).cursor = v ∧ (t.chip.thr u).reg (s.chip.thr u).retReg = 6#32 ∧
      (t.chip.thr u).fF = true ∧ (t.chip.thr u).undo = none ∧ KeepsOutside s t := by
  refine spoolForce_completes hs he ⟨Chip.spEn_spStopped _ m m.isLt, ?_⟩
  generalize hd : ((s.chip.spAbandoned m).setF (.spCtl m) F.SpCtl.EN En.off.code).spClosed m = d
  have hthr : d.thr u = s.chip.thr u := hd ▸ rfl
  have hstop : (s.chip.spAbandoned m).spStopped m = d.wake u (·.endRewind 6) := by
    have hws : ((s.chip.spAbandoned m).setF (.spCtl m) F.SpCtl.EN En.off.code).refillWaiters m = [(u, b)] :=
      (Chip.refillWaiters_congr m rfl rfl).trans (refillWaiters_spAbandoned.trans hw)
    rw [Chip.spStopped, Chip.spOff_eq, hws, hd]
    rfl
  obtain ⟨st, kind, arg, aff, hwoken⟩ := d.thr_wake_same u (·.endRewind 6)
  have hcur := (s.chip.thr u).endRewind_fails 6 v hu (by decide)
  rw [hstop, hwoken, hthr]
  refine ⟨hcur, ?_, rfl, rfl, keepsOutside_chip ..⟩
  simp [Chip.placed, Thread.endRewind, hu, Thread.reg, Thread.setReg, Thread.report]

end Force
end Commands

/-- Settles O18, by a lemma for each command and state of the enable. -/
theorem spoolEnables : Obligations.SpoolEnables :=
  ⟨fun s _ hs => ⟨s.chip.regionOk_iff, spoolEnable_starts hs, spoolEnable_refused hs⟩,
    fun _ _ => ⟨spoolStop_at_once, spoolStop_pends, spoolForce_abandons, spoolStopComplete_stops, spoolStopComplete_restarts,
      fun _ _ _ hs he hw hu _ => spoolForce_ends_rewind hs he hw hu⟩⟩

end Sys2Proof.Machine

/-! PROOFS of the statements of 13_power_clocks_startup.md. O46: the cold reset, the loss of CORE power and the start-up. -/

namespace Sys2Proof.Machine

namespace Chip

/-! What the black box hears (R303, R304) -/

/-- d is c after events have been sent to the black box: its log stands, and no register but its status has changed. -/
structure Heard (c d : Chip) : Prop where
  only : d = { c with regs := d.regs, free := d.free, bb := d.bb }
  log : d.bb.log = c.bb.log
  keeps : KeepsRegs c d [.bbStat]

section Heard

variable {c d e : Chip}

theorem Heard.refl (c : Chip) : Heard c c := ⟨rfl, rfl, keeps_refl _ _⟩

theorem Heard.trans (h : Heard c d) (k : Heard d e) : Heard c e := by
  refine ⟨?_, k.log.trans h.log, keeps_trans h.keeps k.keeps⟩
  have hk := k.only
  rw [h.only] at hk
  exact hk

theorem Heard.pwr (h : Heard c d) : d.pwr = c.pwr := by rw [h.only]

theorem Heard.threads (h : Heard c d) : d.threads = c.threads := by rw [h.only]

theorem heard_bbEvent (c : Chip) (ty : Nat) (p0 p1 : Word) : Heard c (c.bbEvent ty p0 p1) := by
  refine ⟨c.bbEvent_only .., ?_, keeps_bbEvent (keeps_refl _ _) (by simp) _ _ _⟩
  unfold bbEvent
  split
  · rfl
  · split
    · rfl
    · split <;> rfl

theorem heard_ackFall (c : Chip) (b : Nat) : Heard c (c.ackFall b) :=
  have hspend : Heard c c.spend := ⟨rfl, rfl, keeps_of_regs rfl⟩
  hspend.trans (heard_bbEvent c.spend _ _ _)

theorem Heard.foldl {α : Type} {f : Chip → α → Chip} (hf : ∀ d a, Heard d (f d a)) (l : List α) (c : Chip) :
    Heard c (l.foldl f c) := by
  induction l generalizing c with
  | nil => exact .refl c
  | cons a l ih => exact (hf c a).trans (ih _)

theorem heard_ackEvents (c : Chip) (was : Nat → Bool) : Heard c (c.ackEvents was) := by
  refine Heard.foldl (fun d b => ?_) _ c
  split
  · exact heard_bbEvent ..
  · split
    · exact heard_ackFall d b
    · exact .refl d

end Heard

/-! Reset values (R283) -/

theorem rd_of_regs_nil {c : Chip} (h : c.regs = []) (r : Reg) : c.rd r = r.reset := by simp only [rd, h, Tab.get_nil]

theorem thr_of_threads_nil {c : Chip} (h : c.threads = []) (u : Nat) : (c.thr u).st = .idle := by
  simp only [thr, h, Tab.get_nil]
  rfl

end Chip

theorem Prot.rd_wr_lc (p : Prot) {r : Reg} (h : r.offset ≠ Reg.offset .lc) (w : Word) : (p.wr .lc w).rd r = p.rd r :=
  Prot.rd_wr_other p h w

/-- A lifecycle state just written. -/
theorem Prot.lcState_wr (p : Prot) (w : Word) {v : Nat} (hv : v < 4) : (p.wr .lc (fset w F.Lc.STATE v)).lcState = v := by
  rw [Prot.lcState, Prot.rd_wr_same, fget_fset_same ⟨by decide, by decide⟩]
  exact Nat.mod_eq_of_lt hv

theorem Prot.lcState_lt (p : Prot) : p.lcState < 4 := fget_lt (p.rd .lc) F.Lc.STATE

/-! The cold reset (R283) -/

theorem coldReset_completes (s : State) (on : Bool) : Completes (.coldReset on) s fun t =>
    t.mem = [] ∧ t.pending = s.pending ∧ ¬ Live t ∧ t.chip.pwr.phase = .starting ∧ t.chip.pwr.wiping = true ∧
    t.chip.fld .pwrStat F.PwrStat.LASTRST = (if on then 0 else 1) ∧
    (∀ r : Reg, r.offset ≠ Reg.offset .pwrStat → t.chip.rd r = r.reset) ∧
    (∀ r : Reg, r.offset ≠ Reg.offset .lc → t.prot.rd r = r.reset) ∧ t.prot.lcState = s.prot.lcState ∧
    (∀ u, (t.chip.thr u).st = .idle) ∧ t.chip.locks = [] ∧ t.chip.faults = [] ∧ t.chip.bb = BlackBox.empty ∧
    t.chip.pwr.newLc = none ∧ Tab.get false t.chip.pwr.bdForce 129 = false ∧
    (on = true → t.chip.seam = Seam.idle) ∧
    (on = false → t.chip.seam.fwd = s.chip.seam.fwd ∧ t.chip.seam.tx = []) := by
  refine ⟨_, rfl, rfl, rfl, (by rintro (h | h) <;> cases h), rfl, rfl, ?_, fun r hr => ?_, fun r hr => ?_, ?_,
    Chip.thr_of_threads_nil rfl, rfl, rfl, rfl, rfl,
    Tab.get_put_same false s.chip.pwr.bdForce 129 false, ?_, ?_⟩
  · refine (Chip.fld_setF_same _ _ ⟨by decide, by decide⟩ _).trans ?_
    cases on <;> rfl
  · exact (Chip.rd_setF_other _ hr _ _).trans (Chip.rd_of_regs_nil rfl r)
  · exact (Prot.rd_wr_lc _ hr _).trans rfl
  · exact Prot.lcState_wr _ _ s.prot.lcState_lt
  · rintro rfl
    rfl
  · rintro rfl
    exact ⟨rfl, rfl⟩

/-! The loss of CORE power (R283, R287) -/

/-- The chip that a CORE loss reset starts from. -/
def Chip.lossBase (c : Chip) : Chip :=
  { Chip.reset with
    regs := c.resetRegs, free := c.free, xid := c.xid, cpRsp := c.cpRsp, pwr := resetPower c.pwr true, reqn := c.reqn,
    tb := { Timebase.reset with present := c.tb.present }, bb := c.bb, seam := resetSeam c.seam, ingest := ingestLeft c.ingest }

/-- The chip after a CORE loss reset, before CORE_LOST is set. -/
def Chip.lossEvents (c : Chip) (kind : Nat) : Chip :=
  let d := (c.lossBase.setF .pwrStat F.PwrStat.LASTRST kind).ackEvents c.bdAckOut
  if c.tb.present then d.setF .otAlign F.OtAlign.STATE 0 else d

theorem Chip.logicReset_loss (c : Chip) (kind : Nat) :
    c.logicReset kind true = (c.lossEvents kind).flag .pwrStat F.PwrStat.CORE_LOST := by
  unfold Chip.logicReset
  dsimp only
  exact if_pos rfl

theorem Chip.lossEvents_parts (c : Chip) (kind : Nat) :
    let d := c.lossEvents kind
    d.pwr = resetPower c.pwr true ∧ d.threads = [] ∧ d.bb.log = c.bb.log ∧
      d.fld .pwrStat F.PwrStat.LASTRST = kind % 2 ^ F.PwrStat.LASTRST.width := by
  have h := Chip.heard_ackEvents (c.lossBase.setF .pwrStat F.PwrStat.LASTRST kind) c.bdAckOut
  have hcause := (Chip.fld_of_keeps h.keeps (by decide) _).trans (c.lossBase.fld_setF_same .pwrStat ⟨by decide, by decide⟩ kind)
  unfold Chip.lossEvents
  dsimp only
  split
  · exact ⟨h.pwr, h.threads, h.log, (Chip.fld_setF_other _ (by decide) _ _ _).trans hcause⟩
  · exact ⟨h.pwr, h.threads, h.log, hcause⟩

/-- The chip as CORE has its power again: its FORCE falls (R287). -/
def Chip.coreBack (c : Chip) : Chip := (c.mapPwr fun p => { p with bdForce := Tab.put false p.bdForce 129 false }).powerEvent 129 3

theorem coreLossReset_completes {s : State} (hp : s.chip.pwr.phase = .coreOff) : Completes .coreLossReset s fun t =>
    t.mem = [] ∧ t.pending = s.pending ∧ t.chip.pwr.phase = .starting ∧ t.chip.fld .pwrStat F.PwrStat.LASTRST = 6 ∧
    t.chip.bit .pwrStat F.PwrStat.CORE_LOST = true ∧ (∀ u, (t.chip.thr u).st = .idle) ∧ t.chip.bb.log = s.chip.bb.log ∧
    ∀ r : Reg, r.offset ≠ Reg.offset .lc → t.prot.rd r = s.prot.rd r := by
  have hx : exec .coreLossReset s = .next { s with mem := [], prot := s.prot.warm, chip := s.chip.coreBack.logicReset 6 true } :=
    if_pos hp
  have hd : s.chip.coreBack.bb.log = s.chip.bb.log := (Chip.heard_bbEvent ..).log
  generalize s.chip.coreBack = d at hx hd
  obtain ⟨hpwr, hthr, hlog, hcause⟩ := d.lossEvents_parts 6
  rw [d.logicReset_loss] at hx
  refine ⟨_, hx, rfl, rfl, congrArg Power.phase hpwr, ?_, Chip.bit_flag_same _ _ ⟨by decide, by decide⟩,
    Chip.thr_of_threads_nil hthr, hlog.trans hd, fun r hr => Prot.rd_wr_lc _ hr _⟩
  exact (Chip.fld_flag_apart _ _ ⟨by decide, by decide⟩ (.inl (by decide))).trans hcause

theorem coreLossReset_on {s : State} (hp : s.chip.pwr.phase ≠ .coreOff) : Completes .coreLossReset s fun t => t = s :=
  ⟨s, if_neg hp, rfl⟩

/-! The start-up (R54, R288) -/

/-- The four needle PLLs have locked. -/
def AllLocked (c : Chip) : Prop := ∀ q, q < 4 → c.bit (.clkNpll q) F.ClkNpll.LOCK = true

theorem Chip.pllsLocked_iff (c : Chip) : c.pllsLocked = true ↔ AllLocked c := by
  simp only [pllsLocked, List.all_eq_true, List.mem_range, AllLocked]

section StartUp

variable {s : State}

theorem spoolWipeDone_eq {c : Chip} (h : s.chip.spoolWipeDone = c) : exec .spoolWipeDone s = .next { s with chip := c } := by
  subst h
  rfl

theorem spoolWipeDone_unlocked (hl : ¬ AllLocked s.chip) : Completes .spoolWipeDone s fun t => t = s := by
  have hstays : s.chip.spoolWipeDone = s.chip := if_neg fun h => hl (s.chip.pllsLocked_iff.mp h.2.2.2)
  exact ⟨s, spoolWipeDone_eq hstays, rfl⟩

/-- A start-up whose wipes are not done, or whose PLLs have not locked, goes on. -/
theorem blockReady_waits (h : s.chip.pwr.phase ≠ .starting ∨
    s.chip.pwr.wiping = true ∧ ¬ (s.chip.pwr.spoolWiped = true ∧ AllLocked s.chip)) : Completes .blockReady s fun t => t = s := by
  have hstays : s.chip.blockReady s.env = s.chip := by
    rw [← Chip.pllsLocked_iff] at h
    exact if_pos h
  refine ⟨_, rfl, ?_⟩
  have hlc : (if s.chip.pwr.newLc = none then s.prot.takeLc s.chip.pwr.newLc else s.prot) = s.prot := by
    split
    · rename_i hn
      rw [hn]
      rfl
    · rfl
  rw [hstays, hlc]

/-- The chip once the spool memory is wiped. -/
def Chip.wiped (c : Chip) : Chip := (c.mapPwr fun p => { p with spoolWiped := true }).setF .spcStat F.SpcStat.WIPE_DONE 1

theorem spoolWipeDone_wiped (hl : AllLocked s.chip) (hp : s.chip.pwr.phase = .starting) (hw : s.chip.pwr.wiping = true)
    (hn : s.chip.pwr.spoolWiped = false) (hoff : ∀ n, n < 16 → s.chip.fld (.ipCtl n) F.IpCtl.EN = 0) :
    Completes .spoolWipeDone s fun t => t.chip.pwr.spoolWiped = true ∧ t.chip.pwr.phase = .starting ∧
      t.chip.rd .spcStat = fset (s.chip.rd .spcStat) F.SpcStat.WIPE_DONE 1 ∧ KeepsRegs s.chip t.chip [.spcStat] ∧
      KeepsOutside s t := by
  have hen (n : Nat) (h : n < 16) : s.chip.wiped.ipEn n = .off := by
    have : s.chip.wiped.fld (.ipCtl n) F.IpCtl.EN = 0 :=
      (Chip.fld_setF_other _ (by simp only [Reg.offset]; omega) _ _ _).trans (hoff n h)
    rw [Chip.ipEn, Chip.en, this]
    rfl
  have hrelease : s.chip.wiped.releaseTick = s.chip.wiped := by
    unfold Chip.releaseTick
    split
    · rfl
    · have hnone : (List.range 16).find? (fun n => s.chip.wiped.quar n && s.chip.wiped.ipEn n == .running &&
          s.chip.wiped.bit (.ipStat n) F.IpStat.CLK_OK) = none := by
        refine List.find?_eq_none.mpr fun n h => ?_
        rw [hen n (List.mem_range.mp h)]
        simp
      rw [hnone]
  have hstep : s.chip.spoolWipeDone = s.chip.wiped :=
    (if_pos ⟨hp, hw, by simp [hn], s.chip.pllsLocked_iff.mpr hl⟩).trans hrelease
  refine ⟨_, spoolWipeDone_eq hstep, ?_⟩
  exact ⟨rfl, hp, Chip.rd_setF_same .., fun r hr => Chip.rd_setF_other _ (hr _ (by simp)) _ _, keepsOutside_chip ..⟩

/-- READY rises: the power state runs, and the black box hears of the PDACK lines. -/
theorem Chip.blockReady_rises {c : Chip} (e : Env) (hp : c.pwr.phase = .starting)
    (hw : c.pwr.wiping = true → c.pwr.spoolWiped = true ∧ AllLocked c) (hdone : c.bit .spcStat F.SpcStat.WIPE_DONE = true)
    (hreq : Tab.get false c.pwr.bdReq 129 = false) (hcause : c.fld .pwrStat F.PwrStat.LASTRST < 3) :
    ∃ (p : Power) (d : Chip) (bb : BlackBox), p.phase = .running ∧ p.newLc = none ∧ Chip.Heard { c with pwr := p } d ∧
      c.blockReady e = { d with bb := bb } := by
  have hgo : ¬ (c.pwr.phase ≠ .starting ∨ (c.pwr.wiping = true ∧ ¬ (c.pwr.spoolWiped = true ∧ c.pllsLocked = true))) := by
    rw [c.pllsLocked_iff]
    tauto
  unfold Chip.blockReady
  rw [if_neg hgo]
  extract_lets cause was td bd c1 c2 c3 bb c4
  have h2 : c2 = c1 := if_pos hdone
  have h3 : c3 = c1.ackEvents was := by
    show (if 3 ≤ cause then _ else c2).ackEvents was = _
    rw [if_neg (by omega), h2]
  have heard : Chip.Heard c1 c3 := h3 ▸ c1.heard_ackEvents was
  have hstays : ¬ Tab.get false c4.pwr.bdReq 129 = true := by
    show ¬ Tab.get false c3.pwr.bdReq 129 = true
    rw [heard.pwr, Bool.not_eq_true]
    exact hreq
  rw [if_neg hstays]
  exact ⟨c1.pwr, c3, c4.bb, rfl, rfl, heard, rfl⟩

theorem blockReady_rises (hp : s.chip.pwr.phase = .starting)
    (hw : s.chip.pwr.wiping = true → s.chip.pwr.spoolWiped = true ∧ AllLocked s.chip)
    (hdone : s.chip.bit .spcStat F.SpcStat.WIPE_DONE = true) (hreq : Tab.get false s.chip.pwr.bdReq 129 = false)
    (hcause : s.chip.fld .pwrStat F.PwrStat.LASTRST < 3) : Completes .blockReady s fun t =>
      Ready t ∧ KeepsRegs s.chip t.chip [.bbStat] ∧ t.chip.threads = s.chip.threads ∧ t.mem = s.mem ∧
      t.pending = s.pending ∧ t.chip.pwr.newLc = none ∧ (s.chip.pwr.newLc = none → t.prot = s.prot) ∧
      (∀ v, s.chip.pwr.newLc = some v → v < 4 → t.prot.lcState = v ∧
        ∀ r : Reg, r.offset ≠ Reg.offset .lc → t.prot.rd r = s.prot.rd r) := by
  obtain ⟨p, d, bb, hrun, hlc, heard, hready⟩ := Chip.blockReady_rises s.env hp hw hdone hreq hcause
  have hpwr := heard.pwr
  have hx : exec .blockReady s = .next { s with prot := s.prot.takeLc s.chip.pwr.newLc, chip := { d with bb := bb } } := by
    have hnone : (s.chip.blockReady s.env).pwr.newLc = none := by rw [hready, hpwr, hlc]
    show Host.Outcome.next _ = _
    rw [if_pos hnone, hready]
  refine ⟨_, hx, (congrArg Power.phase hpwr).trans hrun, heard.keeps, heard.threads, rfl, rfl, (congrArg Power.newLc hpwr).trans hlc,
    fun hn => ?_, fun v hv hlt => ?_⟩
  · rw [hn]
    rfl
  · rw [hv]
    exact ⟨Prot.lcState_wr _ _ hlt, fun r hr => Prot.rd_wr_lc _ hr _⟩

end StartUp

/-- Settles O46, by a lemma for each reset and for each step of the start-up. -/
theorem coldStart : Obligations.ColdStart :=
  ⟨coldReset_completes, fun _ => ⟨coreLossReset_completes, coreLossReset_on, spoolWipeDone_unlocked,
    fun hl hw => blockReady_waits (.inr ⟨hw, fun h => hl h.2⟩),
    fun hl hp hw hn hoff => ⟨spoolWipeDone_wiped hl hp hw hn hoff, blockReady_waits (.inr ⟨hw, by simp [hn]⟩)⟩,
    blockReady_rises⟩⟩

end Sys2Proof.Machine

/-! PROOFS of the statements of 03_spools_and_ingest.md, continued. Positions of a spool (R58), what the instructions on spools read,
and O20's first part, PEEK (R73). -/

namespace Sys2Proof.Machine

/-! The difference of two positions (R58) -/

/-- Two positions less than 2^47 words apart differ by their difference. -/
theorem posDiff_near {a b : Nat} (h : (a : Int) - b < 2 ^ 47) (h' : -2 ^ 47 ≤ (a : Int) - b) : posDiff a b = (a : Int) - b := by
  obtain ⟨k, hk, hlo, hhi⟩ := signed_unsigned 48 (by decide) ((a : Int) - b)
  unfold posDiff
  norm_num at hk hlo hhi h h'
  omega

/-- Positions in the lower half of their range differ by their difference. -/
theorem posDiff_low {a b : Nat} (ha : a < 2 ^ 47) (hb : b < 2 ^ 47) : posDiff a b = (a : Int) - b :=
  posDiff_near (by omega) (by omega)

theorem unsigned_sub {a b : Nat} (h : b ≤ a) (ha : a < 2 ^ 48) : unsigned 48 ((a : Int) - b) = a - b := by
  unfold unsigned
  rw [Int.emod_eq_of_lt (by omega) (by push_cast; omega)]
  omega

namespace Chip

theorem wp_lt (c : Chip) (m : Nat) : c.wp m < 2 ^ 48 := fget_lt (c.rd (.spWp m)) F.SpWp.POS

/-! What an instruction on a spool reads -/

/-- Two chips have the same spools, and the same registers but for the performance counters. -/
structure Alike (c d : Chip) : Prop where
  low : ∀ r : Reg, r.offset < 0x70000 → d.rd r = c.rd r
  spools : d.spools = c.spools
  lanes : d.lanes = c.lanes

section Alike

variable {c d : Chip} {m : Nat} (h : Alike c d)
include h

theorem Alike.trans {e : Chip} (k : Alike d e) : Alike c e :=
  ⟨fun r hr => (k.low r hr).trans (h.low r hr), k.spools.trans h.spools, k.lanes.trans h.lanes⟩

theorem Alike.spool (j : Nat) : d.spool j = c.spool j := spool_of_spools h.spools j

theorem Alike.lanesAt (g w : Nat) : d.lanesAt g w = c.lanesAt g w := by simp only [Chip.lanesAt, h.lanes]

theorem Alike.markOf (k : Nat) : d.markOf k = c.markOf k := by simp only [Chip.markOf, h.spool]

theorem Alike.cursorPos (th : Thread) : d.cursorPos th = c.cursorPos th := by simp only [Chip.cursorPos, h.markOf]

variable (hm : m < 256)
include hm

theorem Alike.spEn : d.spEn m = c.spEn m := spEn_of_rd (h.low _ (by simp only [Reg.offset]; omega))

theorem Alike.wp : d.wp m = c.wp m := congrArg (fget · F.SpWp.POS) (h.low (.spWp m) (by simp only [Reg.offset]; omega))

theorem Alike.fp : d.fp m = c.fp m := congrArg (fget · F.SpFp.POS) (h.low (.spFp m) (by simp only [Reg.offset]; omega))

theorem Alike.hp : d.hp m = c.hp m := congrArg (fget · F.SpHp.POS) (h.low (.spHp m) (by simp only [Reg.offset]; omega))

theorem Alike.cfg (f : Fld) : d.fld (.spCfg m) f = c.fld (.spCfg m) f :=
  congrArg (fget · f) (h.low (.spCfg m) (by simp only [Reg.offset]; omega))

theorem Alike.spMode : d.spMode m = c.spMode m := h.cfg hm _

theorem Alike.spGuard : d.spGuard m = c.spGuard m := congrArg (· + 1) (h.cfg hm F.SpCfg.LAPGUARD)

theorem Alike.spLen : d.spLen m = c.spLen m :=
  congrArg (fget · F.SpDeepcfg.LEN) (h.low (.spDeepcfg m) (by simp only [Reg.offset]; omega))

theorem Alike.spCap : d.spCap m = c.spCap m := by simp only [Chip.spCap, h.spMode hm, h.spLen hm, spCount, h.cfg hm]

theorem Alike.overtaken (p : Nat) : d.overtaken m p = c.overtaken m p := by
  simp only [Chip.overtaken, h.spMode hm, h.wp hm, h.spCap hm, h.spGuard hm]

theorem Alike.nearHas (b : Nat) : d.nearHas m b = c.nearHas m b := by
  have hcount : d.nearCount m = c.nearCount m := congrArg (· - 1) (h.cfg hm F.SpCfg.COUNT)
  simp only [Chip.nearHas, h.wp hm, hcount]

theorem Alike.hostResident (p : Nat) : d.hostResident m p = c.hostResident m p := by
  simp only [Chip.hostResident, h.spMode hm, h.nearHas hm]

theorem Alike.granuleOf (p : Nat) : d.granuleOf m p = c.granuleOf m p := by
  simp only [Chip.granuleOf, h.spMode hm, h.nearHas hm, h.spool, nearCount, spCount, spBase, h.cfg hm]

theorem Alike.headWord (e : Env) (p : Nat) : d.headWord e m p = c.headWord e m p := by
  simp only [Chip.headWord, h.wp hm, h.granuleOf hm, h.spool, h.lanesAt]

theorem Alike.packetAt (p : Nat) : d.packetAt m p = c.packetAt m p := by simp only [Chip.packetAt, h.wp hm, h.spool]

end Alike

theorem IssueBegun.alike {n k : Nat} {sl : Slot} {i : WInstr} {c d : Chip} (h : IssueBegun n k sl i c d) : Alike c d :=
  ⟨fun _ => h.rd, (congrArg Chip.spools h.only).trans rfl, (congrArg Chip.lanes h.only).trans rfl⟩

theorem alike_spoolCycle (c : Chip) (m : Nat) (evs : List (Nat × Nat)) : Alike c (c.spoolCycle m evs) :=
  ⟨fun _ hr => c.rd_spoolCycle m evs (.inl hr), spools_of_only (c.spoolCycle_only m evs), lanes_of_only (c.spoolCycle_only m evs)⟩

theorem alike_cntSpool (c : Chip) (m ev k : Nat) : Alike c (c.cntSpool m ev k) :=
  ⟨fun _ hr => c.rd_cntSpool m ev k (.inl hr), cntSpool_spools .., cntSpool_lanes ..⟩

/-- A position that the guard of a lapping spool has overtaken. -/
theorem overtaken_iff {c : Chip} {m p : Nat} (hp : p ≤ c.wp m) (hw : c.wp m < 2 ^ 47) :
    c.overtaken m p = true ↔ c.spMode m = 1 ∧ c.spCap m < c.wp m - p + c.spGuard m := by
  simp only [overtaken, Bool.and_eq_true, beq_iff_eq, decide_eq_true_eq, posDiff_low hw (hp.trans_lt hw)]
  refine and_congr_right fun _ => ?_
  omega

/-! The head read (R58, R67) -/

/-- The first of the words found at some positions that lies at p. -/
theorem find_filterMap_pos {f : Nat → Option RegWord} (hf : ∀ q r, f q = some r → r.pos = q) {p : Nat} {l : List Nat} (hp : p ∈ l) :
    (l.filterMap f).find? (fun r => r.pos == p) = f p := by
  have listed (l : List Nat) (h : p ∈ l ∨ f p = none) : (l.filterMap f).find? (fun r => r.pos == p) = f p := by
    induction l with
    | nil => exact (h.resolve_left List.not_mem_nil).symm
    | cons q l ih =>
      have hrest : q ≠ p → (l.filterMap f).find? (fun r => r.pos == p) = f p := fun hq =>
        ih (h.imp_left fun h => (List.mem_cons.mp h).resolve_left (Ne.symm hq))
      cases hr : f q with
      | none =>
        rw [List.filterMap_cons_none hr]
        by_cases hq : q = p
        · exact ih (.inr (hq ▸ hr))
        · exact hrest hq
      | some r =>
        rw [List.filterMap_cons_some hr]
        by_cases hq : q = p
        · rw [List.find?_cons_of_pos (by simp [hf q r hr, hq]), ← hq, hr]
        · rw [List.find?_cons_of_neg (by simp [hf q r hr, hq])]
          exact hrest hq
  exact listed l (.inl hp)

/-- The word that the head register takes for a position lies there. -/
theorem pos_headWord {e : Env} {c : Chip} {m q : Nat} {r : RegWord} (h : c.headWord e m q = some r) : r.pos = q := by
  unfold headWord at h
  dsimp only at h
  split at h
  · cases h
  · split at h
    · next x hx =>
      cases h
      simpa using List.find?_some hx
    · obtain ⟨g, -, rfl⟩ := Option.map_eq_some_iff.mp h
      rfl

/-- The head register, filled, holds the word at each of its positions that is to be had. -/
theorem find_fillHead (e : Env) (c : Chip) (m : Nat) {k : Nat} (hk : k < 4) :
    ((c.fillHead e m).spool m).head.find? (fun r => r.pos == (c.hp m + k) % 2 ^ 48) = c.headWord e m ((c.hp m + k) % 2 ^ 48) := by
  unfold fillHead
  rw [spool_setSpool_same]
  have hmap : (List.range 4).filterMap (fun k => c.headWord e m ((c.hp m + k) % 2 ^ 48)) =
      ((List.range 4).map fun k => (c.hp m + k) % 2 ^ 48).filterMap (c.headWord e m) := by
    rw [List.filterMap_map]
    rfl
  dsimp only
  rw [hmap]
  exact find_filterMap_pos (fun _ _ => pos_headWord) (List.mem_map_of_mem (List.mem_range.mpr hk))

/-- The word that the head register takes: what it or the tail register holds, else the middle's. -/
theorem headWord_of {e : Env} {c : Chip} {m p g : Nat} {data : W256} {lanes : Nat} (hw : posDiff p (c.wp m) < 0)
    (hg : c.granuleOf m p = some g)
    (hheld : ∀ r, ((c.spool m).head ++ (c.spool m).tail).find? (fun r => r.pos == p) = some r → data = r.data ∧ lanes = r.lanes)
    (hmiddle : ((c.spool m).head ++ (c.spool m).tail).find? (fun r => r.pos == p) = none →
      data = spoolWord e.mem g (p % 32) ∧ lanes = c.lanesAt g (p % 32)) :
    ∃ r, c.headWord e m p = some r ∧ r.data = data ∧ r.lanes = lanes := by
  unfold headWord
  dsimp only
  rw [if_neg (by omega)]
  cases hr : ((c.spool m).head ++ (c.spool m).tail).find? (fun r => r.pos == p) with
  | some r =>
    obtain ⟨rfl, rfl⟩ := hheld r hr
    exact ⟨r, rfl, rfl, rfl⟩
  | none =>
    obtain ⟨rfl, rfl⟩ := hmiddle hr
    rw [hg]
    exact ⟨_, rfl, rfl, rfl⟩

/-- The registers that the check of a word's lanes writes (R61, R297, R311). -/
abbrev laneRegs : List Reg := [.spcStat, .spcPerrAt, .wdStat, .bbStat]

/-- d is c after the lanes of words have been checked. -/
structure Noted (c d : Chip) : Prop where
  only : d = { c with regs := d.regs, free := d.free, bb := d.bb }
  keeps : KeepsRegs c d laneRegs

theorem Noted.refl (c : Chip) : Noted c c := ⟨rfl, keeps_refl _ _⟩

theorem Noted.trans {c d e : Chip} (h : Noted c d) (k : Noted d e) : Noted c e := by
  refine ⟨?_, keeps_trans h.keeps k.keeps⟩
  have hk := k.only
  rw [h.only] at hk
  exact hk

theorem Noted.wr {c d : Chip} (h : Noted c d) {r : Reg} (hr : r ∈ laneRegs) (w : Word) : Noted c (d.wr r w) :=
  h.trans ⟨rfl, keeps_wr (keeps_refl d _) hr w⟩

theorem Noted.bbEvent {c d : Chip} (h : Noted c d) (ty : Nat) (p0 p1 : Word) : Noted c (d.bbEvent ty p0 p1) :=
  h.trans ⟨d.bbEvent_only .., keeps_bbEvent (keeps_refl d _) (by simp) ty p0 p1⟩

theorem noted_noteLanes (c : Chip) (l place at_ : Nat) : Noted c (c.noteLanes l place at_) := by
  unfold noteLanes
  split
  · exact .refl c
  · exact Noted.bbEvent (((((Noted.refl c).wr (r := .spcStat) (by simp) _).wr (r := .spcStat) (by simp) _).wr (r := .spcPerrAt)
      (by simp) _).wr (r := .wdStat) (by simp) _) _ _ _

theorem Noted.spoolStep {c d : Chip} (h : Noted c d) (m : Nat) : SpoolStep m laneRegs c d := by
  have hs : d.spools = c.spools := (congrArg Chip.spools h.only).trans rfl
  refine ⟨?_, congrArg Spool.tail (spool_of_spools hs m), fun r _ => h.keeps r⟩
  rw [hs]
  exact h.only

section HeadRead

variable {e : Env} {c : Chip} {m k : Nat} (hm : m < 256)
include hm

/-- No such word has come yet. -/
theorem headRead_nodata (h : 0 ≤ posDiff ((c.hp m + k) % 2 ^ 48) (c.wp m)) : c.headRead e m k = (c.cntSpool m 0x0E1 1, .nodata) := by
  have hc := c.alike_cntSpool m 0x0E1 1
  unfold headRead
  dsimp only
  rw [hc.wp hm, if_pos h]

/-- The word can no longer be read. -/
theorem headRead_lapped (h : posDiff ((c.hp m + k) % 2 ^ 48) (c.wp m) < 0)
    (hl : c.overtaken m ((c.hp m + k) % 2 ^ 48) = true ∨ posDiff ((c.hp m + k) % 2 ^ 48) (c.fp m) < 0 ∨
      c.granuleOf m ((c.hp m + k) % 2 ^ 48) = none) :
    c.headRead e m k = (((c.cntSpool m 0x0E1 1).setF (.spHp m) F.SpHp.POS (c.wp m)).flag (.spStat m) F.SpStat.HEAD_LAP, .lapped) := by
  have hc := c.alike_cntSpool m 0x0E1 1
  unfold headRead
  dsimp only
  rw [hc.wp hm, hc.fp hm, hc.overtaken hm, hc.granuleOf hm, if_neg (by omega), if_pos (by simpa using hl)]

/-- The word is read from the head register. -/
theorem headRead_data {r : RegWord} (hk : k < 4) (h : posDiff ((c.hp m + k) % 2 ^ 48) (c.wp m) < 0)
    (hl : ¬ (c.overtaken m ((c.hp m + k) % 2 ^ 48) = true ∨ posDiff ((c.hp m + k) % 2 ^ 48) (c.fp m) < 0 ∨
      c.granuleOf m ((c.hp m + k) % 2 ^ 48) = none)) (hr : c.headWord e m ((c.hp m + k) % 2 ^ 48) = some r) :
    c.headRead e m k = (((c.cntSpool m 0x0E1 1).fillHead e m).noteReg m r, .data { data := r.data, poison := r.lanes != 0 }) := by
  have hc := c.alike_cntSpool m 0x0E1 1
  have hfind := find_fillHead e (c.cntSpool m 0x0E1 1) m hk
  rw [hc.hp hm, hc.headWord hm, hr] at hfind
  unfold headRead
  dsimp only
  rw [hc.wp hm, hc.fp hm, hc.overtaken hm, hc.granuleOf hm, if_neg (by omega), if_neg (by simpa using hl), hfind]
  rfl

end HeadRead

theorem SpoolStep.of_only {m : Nat} {l : List Reg} {c d : Chip} (h : OnlyRegs c d) (hk : KeepsButCounts c d l) : SpoolStep m l c d := by
  refine ⟨?_, by simp only [spool, spools_of_only h], hk⟩
  rw [spools_of_only h, free_of_only h, bb_of_only h]
  exact h

theorem spoolStep_cntSpool (c : Chip) (m ev k : Nat) : SpoolStep m [] c (c.cntSpool m ev k) :=
  .of_only (countOn_only c _ _ _ _ _) fun _ hr _ => c.rd_cntSpool m ev k hr

theorem SpoolStep.mono {m : Nat} {l l' : List Reg} {c d : Chip} (h : SpoolStep m l c d) (hl : l ⊆ l') : SpoolStep m l' c d :=
  ⟨h.only, h.tail, fun r hr hq => h.keeps r hr fun q hm => hq q (hl hm)⟩

/-- The steps of a spool write no slot of a needle. -/
theorem SpoolStep.slot {m : Nat} {l : List Reg} {c d : Chip} (h : SpoolStep m l c d) (n k : Nat) : d.slot n k = c.slot n k :=
  slot_of_needles ((congrArg Chip.needles h.only).trans rfl) n k

/-! The answer of a PEEK (R73) -/

/-- The chip once a PEEK has its answer v, where it fails or not. -/
def peeked (c : Chip) (n k m adv wd : Nat) (v : W32) (failed : Bool) : Chip :=
  let d := c.mapLive n k fun th => (th.setReg wd v).report failed
  if failed then d else d.stepHp m adv

/-- HP after an answer without a failure. -/
theorem hp_stepHp {c : Chip} {m adv : Nat} (ha : adv < 5) (hp : c.hp m ≤ c.wp m) (hw : c.wp m + 8 < 2 ^ 47) :
    (c.stepHp m adv).hp m = min (c.hp m + adv) (c.wp m) := by
  have hlt : (c.hp m + adv) % 2 ^ 48 = c.hp m + adv := Nat.mod_eq_of_lt (by omega)
  have hset : (if posDiff ((c.hp m + adv) % 2 ^ 48) (c.wp m) > 0 then c.wp m else (c.hp m + adv) % 2 ^ 48) =
      min (c.hp m + adv) (c.wp m) := by
    rw [hlt, posDiff_low (by omega) (by omega)]
    split <;> omega
  unfold stepHp
  dsimp only
  rw [hset]
  refine (fld_setF_same _ _ ⟨by decide, by decide⟩ _).trans (Nat.mod_eq_of_lt ?_)
  show _ < 2 ^ 48
  omega

section Peeked

variable {c : Chip} {n k : Nat} {sl : Slot} (hs : c.slot n k = some sl) (m adv wd : Nat) (v : W32)
include hs

theorem slot_peeked (failed : Bool) : (c.peeked n k m adv wd v failed).slot n k =
    some { sl with live := (sl.live.setReg wd v).report failed } := by
  unfold peeked
  rw [mapLive_of_slot hs]
  cases failed <;> exact slot_setSlot_same ..

theorem keeps_peeked (failed : Bool) : KeepsRegs c (c.peeked n k m adv wd v failed) [.spHp m] := by
  unfold peeked
  rw [mapLive_of_slot hs]
  cases failed
  · exact keeps_setF (keeps_of_regs rfl) (by simp) _ _
  · exact keeps_of_regs rfl

theorem hp_peeked_failed : (c.peeked n k m adv wd v true).hp m = c.hp m := by
  unfold peeked
  rw [mapLive_of_slot hs]
  rfl

theorem hp_peeked (failed : Bool) (ha : adv < 5) (hp : c.hp m ≤ c.wp m) (hw : c.wp m + 8 < 2 ^ 47) :
    (c.peeked n k m adv wd v failed).hp m = if failed then c.hp m else min (c.hp m + adv) (c.wp m) := by
  unfold peeked
  rw [mapLive_of_slot hs]
  cases failed
  · exact hp_stepHp (c := c.setSlot n k _) ha hp hw
  · rfl

end Peeked

end Chip

/-! The command (R73) -/

theorem exec_peek (n : Fin 128) (k : Fin 8) (s : State) : exec (.peek n k) s = s.issue n k fun e c i => match i with
    | .peek wd mode m kk j adv => some (c.doPeek e n k wd mode m kk j adv)
    | _ => none := rfl

section Peek

variable {s : State} {n : Fin 128} {k : Fin 8} {sl : Slot} {wd mode m kk j adv : Nat} (h : Issues s n k sl (.peek wd mode m kk j adv))
include h

theorem peek_off (hm : m < 256) (he : s.chip.spEn m = .off) : Completes (.peek n k) s fun t =>
    IssuedOnly s t n k (issuedSlot sl (.peek wd mode m kk j adv) (((stepped sl.live).setReg wd 6#32).report true)) := by
  refine completes_issue (exec_peek n k s) h fun d hd => ⟨_, rfl, ?_⟩
  have hoff : d.doPeek s.env n k wd mode m kk j adv = d.resultCode n k wd 6 := if_pos ((hd.alike.spEn hm).trans he)
  rw [hoff]
  exact issuedOnly_mapLive hd _ sl.t

/-- What a PEEK leaves: its slot, HP, and the registers that it writes. -/
def Peeked (s t : State) (n : Fin 128) (k : Fin 8) (m : Nat) (sl : Slot) (at_ : Nat) (regs : List Reg) : Prop :=
  t.chip.slot n k = some sl ∧ t.chip.hp m = at_ ∧ KeepsButCounts s.chip t.chip (.isStat :: .spHp m :: regs) ∧ KeepsOutside s t

/-- A PEEK that answers once the steps of its spool are done. -/
theorem peek_answers {v : W32} {failed : Bool} {at_ : Nat} {regs : List Reg} {P : Chip → Prop}
    (hx : ∀ d, Chip.IssueBegun n k sl (.peek wd mode m kk j adv) s.chip d → ∃ x, Chip.SpoolStep m (.spHp m :: regs) d x ∧
      d.doPeek s.env n k wd mode m kk j adv = x.peeked n k m adv wd v failed ∧ (x.peeked n k m adv wd v failed).hp m = at_ ∧ P x)
    (hP : ∀ {c d : Chip}, KeepsRegs c d [.spHp m] → P c → P d) :
    Completes (.peek n k) s fun t =>
      Peeked s t n k m (issuedSlot sl (.peek wd mode m kk j adv) (((stepped sl.live).setReg wd v).report failed)) at_ regs ∧
      P t.chip := by
  refine completes_issue (exec_peek n k s) ‹_› fun d hd => ⟨_, rfl, ?_⟩
  obtain ⟨x, hsteps, hdo, hhp, hprop⟩ := hx d hd
  have hslot := (hsteps.slot n k).trans hd.slot
  have hkeeps := Chip.keeps_peeked hslot m adv wd v failed
  have hafter (y : Chip) (r : Reg) : (y.afterIssue s.env n sl.t).rd r = y.rd r := Chip.rd_afterIssue ..
  rw [hdo]
  refine ⟨⟨?_, ?_, fun r hr hl => ?_, keepsOutside_chip ..⟩, ?_⟩
  · exact ((Chip.sampled_after (n := n) s.env _ sl.t).slot n k).trans (Chip.slot_peeked hslot m adv wd v failed)
  · exact (congrArg (fget · F.SpHp.POS) (hafter _ (.spHp m))).trans hhp
  · refine (hafter _ r).trans ((hkeeps r fun q hq => hl q ?_).trans ((hsteps.keeps r hr fun q hq => hl q ?_).trans
      (hd.keeps r hr fun q hq => hl q ?_)))
    · simp_all
    · exact List.mem_cons_of_mem _ hq
    · simp_all
  · exact hP (fun r _ => hafter _ r) (hP hkeeps hprop)

/-- A PEEK that answers without a step of its spool. -/
theorem peek_says {v : W32} {failed : Bool} (ha : adv < 5) (hm : m < 256) (hp : s.chip.hp m ≤ s.chip.wp m)
    (hw : s.chip.wp m + 8 < 2 ^ 47)
    (hx : ∀ d, Chip.IssueBegun n k sl (.peek wd mode m kk j adv) s.chip d →
      d.doPeek s.env n k wd mode m kk j adv = d.peeked n k m adv wd v failed) :
    Completes (.peek n k) s fun t =>
      Peeked s t n k m (issuedSlot sl (.peek wd mode m kk j adv) (((stepped sl.live).setReg wd v).report failed))
        (if failed then s.chip.hp m else min (s.chip.hp m + adv) (s.chip.wp m)) [] := by
  have hall := peek_answers h (P := fun _ => True) (v := v) (failed := failed) (regs := [])
    (at_ := if failed then s.chip.hp m else min (s.chip.hp m + adv) (s.chip.wp m)) (fun d hd => ⟨d, .refl d, hx d hd, ?_, trivial⟩)
    fun _ _ => trivial
  · obtain ⟨t, ht, hpeeked, -⟩ := hall
    exact ⟨t, ht, hpeeked⟩
  · have ⟨ehp, ewp⟩ : d.hp m = s.chip.hp m ∧ d.wp m = s.chip.wp m := ⟨hd.alike.hp hm, hd.alike.wp hm⟩
    rw [Chip.hp_peeked hd.slot m adv wd v failed ha (by omega) (by omega), ehp, ewp]

variable (ha : adv < 5) (hm : m < 256) (he : s.chip.spEn m ≠ .off) (hp : s.chip.hp m ≤ s.chip.wp m) (hw : s.chip.wp m + 8 < 2 ^ 47)
include ha hm he hp hw

theorem peek_level (hmode : mode = 1) : Completes (.peek n k) s fun t =>
    Peeked s t n k m (issuedSlot sl (.peek wd mode m kk j adv) (((stepped sl.live).setReg wd
      (BitVec.ofNat 32 (min (s.chip.wp m - s.chip.hp m) 0xFFFFFFFF))).report false)) (min (s.chip.hp m + adv) (s.chip.wp m)) [] := by
  subst hmode
  refine peek_says h (failed := false) ha hm hp hw fun d hd => ?_
  rw [← unsigned_sub hp (s.chip.wp_lt m), ← hd.alike.hp hm, ← hd.alike.wp hm]
  exact if_neg (hd.alike.spEn hm ▸ he)

theorem peek_hp (hmode : mode = 3) : Completes (.peek n k) s fun t =>
    Peeked s t n k m (issuedSlot sl (.peek wd mode m kk j adv) (((stepped sl.live).setReg wd (BitVec.ofNat 32 (s.chip.hp m))).report
      false)) (min (s.chip.hp m + adv) (s.chip.wp m)) [] := by
  subst hmode
  refine peek_says h (failed := false) ha hm hp hw fun d hd => ?_
  rw [← hd.alike.hp hm]
  exact if_neg (hd.alike.spEn hm ▸ he)

theorem peek_tag (hmode : mode = 2) {tag : Nat} (ht : s.chip.packetAt m (s.chip.hp m) = some tag) : Completes (.peek n k) s fun t =>
    Peeked s t n k m (issuedSlot sl (.peek wd mode m kk j adv) (((stepped sl.live).setReg wd (BitVec.ofNat 32 tag)).report false))
      (min (s.chip.hp m + adv) (s.chip.wp m)) [] := by
  subst hmode
  refine peek_says h (failed := false) ha hm hp hw fun d hd => ?_
  unfold Chip.doPeek
  dsimp only
  rw [hd.alike.hp hm, hd.alike.packetAt hm, ht]
  exact if_neg (hd.alike.spEn hm ▸ he)

theorem peek_untagged (hmode : mode = 2) (ht : s.chip.packetAt m (s.chip.hp m) = none) : Completes (.peek n k) s fun t =>
    Peeked s t n k m (issuedSlot sl (.peek wd mode m kk j adv) (((stepped sl.live).setReg wd 0#32).report true)) (s.chip.hp m) [] := by
  subst hmode
  refine peek_says h (failed := true) ha hm hp hw fun d hd => ?_
  unfold Chip.doPeek
  dsimp only
  rw [hd.alike.hp hm, hd.alike.packetAt hm, ht]
  exact if_neg (hd.alike.spEn hm ▸ he)

omit ha in
theorem peek_nodata (hk : kk < 4) (hmode : mode = 0) (hlast : s.chip.wp m ≤ s.chip.hp m + kk) : Completes (.peek n k) s fun t =>
    Peeked s t n k m (issuedSlot sl (.peek wd mode m kk j adv) (((stepped sl.live).setReg wd 0#32).report true)) (s.chip.hp m) [] := by
  subst hmode
  have hall := peek_answers h (P := fun _ => True) (v := 0#32) (failed := true) (regs := []) (at_ := s.chip.hp m)
    (fun d hd => ?_) fun _ _ => trivial
  · obtain ⟨t, ht, hpeeked, -⟩ := hall
    exact ⟨t, ht, hpeeked⟩
  have hsteps := d.spoolStep_cntSpool m 0x0E1 1
  have halike := hd.alike.trans (d.alike_cntSpool m 0x0E1 1)
  have hread : d.headRead s.env m kk = (d.cntSpool m 0x0E1 1, .nodata) := by
    refine Chip.headRead_nodata hm ?_
    rw [hd.alike.hp hm, hd.alike.wp hm, Nat.mod_eq_of_lt (by omega), posDiff_low (by omega) (by omega)]
    omega
  refine ⟨_, hsteps.mono (by simp), ?_, ?_, trivial⟩
  · unfold Chip.doPeek
    dsimp only
    rw [if_neg (hd.alike.spEn hm ▸ he), hread]
    rfl
  · exact (Chip.hp_peeked_failed ((hsteps.slot n k).trans hd.slot) m adv wd 0#32).trans (halike.hp hm)

omit ha hp in
/-- The word can no longer be read: HP is taken to WP, and HEAD_LAP is set. -/
theorem peek_lapped (hmode : mode = 0) (hlt : s.chip.hp m + kk < s.chip.wp m) (hf : s.chip.fp m ≤ s.chip.wp m)
    (hl : s.chip.hp m + kk < s.chip.fp m ∨ (s.chip.spMode m = 1 ∧
      s.chip.spCap m < s.chip.wp m - (s.chip.hp m + kk) + s.chip.spGuard m) ∨ s.chip.granuleOf m (s.chip.hp m + kk) = none) :
    Completes (.peek n k) s fun t =>
      Peeked s t n k m (issuedSlot sl (.peek wd mode m kk j adv) (((stepped sl.live).setReg wd 0#32).report true)) (s.chip.wp m)
        [.spStat m] ∧ t.chip.bit (.spStat m) F.SpStat.HEAD_LAP = true := by
  subst hmode
  refine peek_answers h (P := fun c => c.bit (.spStat m) F.SpStat.HEAD_LAP = true) (fun d hd => ?_) fun hk hP =>
    (Chip.bit_of_keeps hk (by simp [Reg.offset]) _).trans hP
  have hsteps : Chip.SpoolStep m [.spHp m, .spStat m] d
      (((d.cntSpool m 0x0E1 1).setF (.spHp m) F.SpHp.POS (d.wp m)).flag (.spStat m) F.SpStat.HEAD_LAP) :=
    (((d.spoolStep_cntSpool m 0x0E1 1).mono (by simp)).wr (r := .spHp m) (by simp) _).wr (r := .spStat m) (by simp) _
  have hslot := (hsteps.slot n k).trans hd.slot
  have hread := Chip.headRead_lapped (e := s.env) (c := d) (k := kk) hm
    (by rw [hd.alike.hp hm, hd.alike.wp hm, Nat.mod_eq_of_lt (by omega), posDiff_low (by omega) (by omega)]; omega)
    (by
      rw [hd.alike.hp hm, hd.alike.fp hm, hd.alike.overtaken hm, hd.alike.granuleOf hm, Nat.mod_eq_of_lt (by omega),
        Chip.overtaken_iff hlt.le (by omega), posDiff_low (by omega) (by omega)]
      rcases hl with hl | hl | hl
      · exact .inr (.inl (by omega))
      · exact .inl hl
      · exact .inr (.inr hl))
  refine ⟨_, hsteps, ?_, ?_, Chip.bit_flag_same _ _ ⟨by decide, by decide⟩⟩
  · unfold Chip.doPeek
    dsimp only
    rw [if_neg (hd.alike.spEn hm ▸ he), hread]
    rfl
  · refine (Chip.hp_peeked_failed hslot m adv wd 0#32).trans ((Chip.fld_setF_other _ (by simp [Reg.offset]) _ _ _).trans ?_)
    refine (Chip.fld_setF_same _ _ ⟨by decide, by decide⟩ _).trans ?_
    rw [hd.alike.wp hm]
    exact Nat.mod_eq_of_lt (s.chip.wp_lt m)

theorem peek_reads (hk : kk < 4) (hmode : mode = 0) (hlt : s.chip.hp m + kk < s.chip.wp m) (hf : s.chip.fp m ≤ s.chip.wp m)
    (hl : ¬ (s.chip.hp m + kk < s.chip.fp m ∨ (s.chip.spMode m = 1 ∧
      s.chip.spCap m < s.chip.wp m - (s.chip.hp m + kk) + s.chip.spGuard m) ∨ s.chip.granuleOf m (s.chip.hp m + kk) = none))
    {r : RegWord} (hr : s.chip.headWord s.env m (s.chip.hp m + kk) = some r) : Completes (.peek n k) s fun t =>
      Peeked s t n k m (issuedSlot sl (.peek wd mode m kk j adv)
        (((stepped sl.live).setReg wd (BitVec.ofNat 32 (r.data.toNat / 2 ^ (32 * j)))).report (decide (r.lanes ≠ 0))))
        (if r.lanes = 0 then min (s.chip.hp m + adv) (s.chip.wp m) else s.chip.hp m) Chip.laneRegs := by
  subst hmode
  have hall := peek_answers h (P := fun _ => True) (v := BitVec.ofNat 32 (r.data.toNat / 2 ^ (32 * j)))
    (failed := decide (r.lanes ≠ 0)) (regs := Chip.laneRegs)
    (at_ := if r.lanes = 0 then min (s.chip.hp m + adv) (s.chip.wp m) else s.chip.hp m) (fun d hd => ?_) fun _ _ => trivial
  · obtain ⟨t, ht, hpeeked, -⟩ := hall
    exact ⟨t, ht, hpeeked⟩
  have hread := Chip.headRead_data (e := s.env) (c := d) (k := kk) (r := r) hm hk
    (by rw [hd.alike.hp hm, hd.alike.wp hm, Nat.mod_eq_of_lt (by omega), posDiff_low (by omega) (by omega)]; omega)
    (by
      rw [hd.alike.hp hm, hd.alike.fp hm, hd.alike.overtaken hm, hd.alike.granuleOf hm, Nat.mod_eq_of_lt (by omega),
        Chip.overtaken_iff hlt.le (by omega), posDiff_low (by omega) (by omega)]
      rintro (h1 | h1 | h1)
      · exact hl (.inr (.inl h1))
      · exact hl (.inl (by omega))
      · exact hl (.inr (.inr h1)))
    (by rw [hd.alike.hp hm, hd.alike.headWord hm, Nat.mod_eq_of_lt (by omega)]; exact hr)
  have hfill : Chip.SpoolStep m Chip.laneRegs d ((d.cntSpool m 0x0E1 1).fillHead s.env m) :=
    ((d.spoolStep_cntSpool m 0x0E1 1).mono (by simp)).setSpool rfl
  have hsteps : Chip.SpoolStep m Chip.laneRegs d (((d.cntSpool m 0x0E1 1).fillHead s.env m).noteReg m r) :=
    hfill.trans ((Chip.noted_noteLanes ..).spoolStep m)
  have hrd (q : Reg) (hq : q.offset < 0x70000) (hne : (Chip.laneRegs.all fun x => q.offset != x.offset) = true) :
      (((d.cntSpool m 0x0E1 1).fillHead s.env m).noteReg m r).rd q = s.chip.rd q :=
    (hsteps.keeps q (.inl hq) (by simpa using hne)).trans (hd.rd hq)
  generalize ((d.cntSpool m 0x0E1 1).fillHead s.env m).noteReg m r = x at hread hsteps hrd
  have ehp : x.hp m = s.chip.hp m := congrArg (fget · F.SpHp.POS) (hrd (.spHp m) (by simp only [Reg.offset]; omega)
    (by simp [Reg.offset]; omega))
  have ewp : x.wp m = s.chip.wp m := congrArg (fget · F.SpWp.POS) (hrd (.spWp m) (by simp only [Reg.offset]; omega)
    (by simp [Reg.offset]; omega))
  refine ⟨x, hsteps.mono (by simp), ?_, ?_, trivial⟩
  · unfold Chip.doPeek
    dsimp only
    have hvalue : BitVec.ofNat 32 (part32 r.data j).toNat = BitVec.ofNat 32 (r.data.toNat / 2 ^ (32 * j)) := by
      rw [BitVec.ofNat_toNat, BitVec.setWidth_eq, part32]
    have hpoison : (r.lanes != 0) = decide (r.lanes ≠ 0) := by by_cases hz : r.lanes = 0 <;> simp [hz]
    rw [if_neg (hd.alike.spEn hm ▸ he), hread, ← hvalue, ← hpoison]
    rfl
  · rw [Chip.hp_peeked ((hsteps.slot n k).trans hd.slot) m adv wd _ _ ha (by omega) (by omega), ehp, ewp]
    by_cases hz : r.lanes = 0 <;> simp [hz]

end Peek

/-! The crossing tag of the packet at HP (R63, R73) -/

namespace Chip

variable {c : Chip} {m : Nat} (hp : c.hp m ≤ c.wp m) (hw : c.wp m < 2 ^ 47)
include hp hw

omit hp in
theorem packetAt_some {tag a : Nat} {pre post : List (Nat × Nat)} (hi : (c.spool m).index = pre ++ (tag, a) :: post)
    (hpre : ∀ x ∈ pre, c.hp m < x.2) (hlow : ∀ x ∈ (c.spool m).index, x.2 < 2 ^ 47) (ha : a ≤ c.hp m) (hlt : c.hp m < c.wp m) :
    c.packetAt m (c.hp m) = some tag := by
  have hnone : pre.find? (fun x => decide (posDiff x.2 (c.hp m) ≤ 0)) = none := by
    refine List.find?_eq_none.mpr fun x hx => ?_
    have := hpre x hx
    simp only [decide_eq_true_eq, posDiff_low (hlow x (hi ▸ List.mem_append_left _ hx)) (hlt.trans hw)]
    omega
  have hhit : decide (posDiff (tag, a).2 (c.hp m) ≤ 0) = true := by
    simp only [decide_eq_true_eq, posDiff_low (ha.trans_lt (hlt.trans hw)) (hlt.trans hw)]
    omega
  unfold packetAt
  rw [posDiff_low (by omega) hw, if_pos (by omega), hi, List.find?_append, hnone, Option.none_or,
    List.find?_cons_of_pos (p := fun x : Nat × Nat => decide (posDiff x.2 (c.hp m) ≤ 0)) hhit]
  rfl

theorem packetAt_none (hlow : ∀ x ∈ (c.spool m).index, x.2 < 2 ^ 47)
    (h : c.hp m = c.wp m ∨ ∀ x ∈ (c.spool m).index, c.hp m < x.2) : c.packetAt m (c.hp m) = none := by
  unfold packetAt
  rw [posDiff_low (by omega) hw]
  rcases h with h | h
  · exact if_neg (by omega)
  · have hnone : (c.spool m).index.find? (fun x => decide (posDiff x.2 (c.hp m) ≤ 0)) = none := by
      refine List.find?_eq_none.mpr fun x hx => ?_
      have := h x hx
      simp only [decide_eq_true_eq, posDiff_low (hlow x hx) (hp.trans_lt hw)]
      omega
    rw [hnone]
    exact ite_self _

end Chip

end Sys2Proof.Machine

/-! PROOFS of the statements of 03_spools_and_ingest.md, continued. O20: the moves of deep spools (R75, R76). -/

namespace Sys2Proof.Machine

namespace Chip

/-! A spill (R75) -/

section Spill

variable (e : Env) (c : Chip) (m : Nat)

theorem noted_fetchWord (p : Nat) : Noted c (c.fetchWord e m p).1 := by
  unfold fetchWord
  split
  · exact noted_noteLanes ..
  · split
    · exact noted_noteLanes ..
    · exact .refl c

theorem noted_blockLines (b : Nat) : Noted c (c.blockLines e m b).1 := by
  have fold (l : List Nat) : ∀ acc : Chip × List PWord, Noted acc.1 (l.foldl (fun acc k =>
      ((acc.1.fetchWord e m (b * 32 + k)).1, acc.2 ++ [(acc.1.fetchWord e m (b * 32 + k)).2])) acc).1 := by
    induction l with
    | nil => exact fun acc => .refl acc.1
    | cons k l ih => exact fun acc => (noted_fetchWord e acc.1 m _).trans (ih (_, _))
  unfold blockLines
  dsimp only
  exact fold _ (c, [])

theorem length_blockLines (b : Nat) : (c.blockLines e m b).2.length = 16 := by simp [blockLines]

end Spill

/-- A burst that passes its check is presented at the home port of its window. -/
theorem issue_ok {e : Env} {c : Chip} {pd w : Nat} {b : Burst} (h : e.prot.check pd b.addr (64 * b.len) (needOf b.kind) = .ok w) :
    c.issue e pd b = (c.present (e.prot.home w) { b with tdom := e.prot.tdom w }, .ok w) := by
  unfold issue
  dsimp only
  rw [h]

/-- The spool whose oldest complete block b goes out. -/
def spillingSpool (s : Spool) (b : Nat) (rest : List Nat) : Spool := { s with unspilled := rest, spilling := s.spilling ++ [b] }

section Noted

variable {c d : Chip} (h : Noted c d)
include h

theorem Noted.spools : d.spools = c.spools := by rw [h.only]

theorem Noted.port (p : Nat) : d.port p = c.port p := by
  unfold Chip.port
  rw [h.only]

theorem Noted.noneWaits {p r : Nat} (hn : NoneWaits c p r) : NoneWaits d p r := by
  have hback : d.backlog = c.backlog := by rw [h.only]
  unfold NoneWaits
  rw [h.port, hback]
  exact hn

/-- What a deep spool's burst is formed from stands. -/
theorem Noted.deepReads {m : Nat} (hm : m < 256) : (∀ f, d.fld (.spDeepcfg m) f = c.fld (.spDeepcfg m) f) ∧
    ∀ b, d.blockAddr m b = c.blockAddr m b := by
  have hcfg : d.rd (.spDeepcfg m) = c.rd (.spDeepcfg m) := rd_of_keeps h.keeps (by simp [Reg.offset]; omega)
  have hbase : d.rd (.spDeepbase m) = c.rd (.spDeepbase m) := rd_of_keeps h.keeps (by simp [Reg.offset]; omega)
  exact ⟨fun f => congrArg (fget · f) hcfg, fun b => by simp only [blockAddr, spLen, fld, hbase, hcfg]⟩

end Noted

/-- A block's burst goes out, or counts as failed where it does not pass its check (R75). -/
def spillSent (e : Env) (c : Chip) (m b run : Nat) (lines : List WLine) : Chip :=
  let r := c.issue e (c.deepPd m) (c.deepBurst m b (.spill m b run) .ack lines)
  match r.2 with
  | .ok _ => r.1.cntSpool m 0x0E7 1
  | .fail _ => r.1.setSpool m { r.1.spool m with spillIn := (r.1.spool m).spillIn ++ [(b, true)] }

/-- The chip with its oldest complete block read out. -/
def spillRead (e : Env) (c : Chip) (m b : Nat) (rest : List Nat) : Chip × List WLine :=
  (c.setSpool m (spillingSpool (c.spool m) b rest)).blockLines e m b

theorem deepSpill_eq {e : Env} {c : Chip} {m b : Nat} {rest : List Nat} (hu : (c.spool m).unspilled = b :: rest) :
    c.deepSpill e m = (c.spillRead e m b rest).1.spillSent e m b (c.spool m).run (c.spillRead e m b rest).2 := by
  unfold deepSpill
  dsimp only
  rw [hu]
  rfl

/-- A burst that passes its check is presented where nothing of its needle's waits. -/
theorem spillSent_presents {e : Env} {c : Chip} {m b w run : Nat} {lines : List WLine}
    (hok : e.prot.check (c.deepPd m) (c.blockAddr m b) 1024 .ackWrite = .ok w)
    (hn : NoneWaits c (e.prot.home w) (c.fld (.spDeepcfg m) F.SpDeepcfg.NDL)) :
    (c.spillSent e m b run lines).spools = c.spools ∧
    ∃ x, ((c.spillSent e m b run lines).port (e.prot.home w)).waiting = (c.port (e.prot.home w)).waiting ++ [x] ∧
      x.use = .spill m b run ∧ x.kind = .ack ∧ x.addr = c.blockAddr m b ∧ x.len = 16 ∧ x.data = lines ∧ x.tdom = e.prot.tdom w := by
  have hissue := issue_ok (e := e) (c := c) (pd := c.deepPd m) (b := c.deepBurst m b (.spill m b run) .ack lines) hok
  have hburst (x : Burst) :
      (((c.setPort (e.prot.home w) { c.port (e.prot.home w) with
        waiting := (c.port (e.prot.home w)).waiting ++ [x] }).cntSpool m 0x0E7 1).port (e.prot.home w)).waiting =
      (c.port (e.prot.home w)).waiting ++ [x] := by simp only [port, setPort, cntSpool_ports, Tab.get_put_same]
  unfold spillSent
  dsimp only
  rw [hissue]
  dsimp only
  rw [present_waits hn]
  exact ⟨cntSpool_spools .., _, hburst _, rfl, rfl, rfl, rfl, rfl, rfl⟩

/-- A spill goes out where nothing of its needle's waits. -/
theorem deepSpill_presents {e : Env} {c : Chip} {m b w : Nat} {rest : List Nat} (hm : m < 256) (hu : (c.spool m).unspilled = b :: rest)
    (hok : e.prot.check (c.deepPd m) (c.blockAddr m b) 1024 .ackWrite = .ok w)
    (hn : NoneWaits c (e.prot.home w) (c.fld (.spDeepcfg m) F.SpDeepcfg.NDL)) :
    (c.deepSpill e m).spool m = spillingSpool (c.spool m) b rest ∧
    ∃ x, ((c.deepSpill e m).port (e.prot.home w)).waiting = (c.port (e.prot.home w)).waiting ++ [x] ∧
      x.use = .spill m b (c.spool m).run ∧ x.kind = .ack ∧ x.addr = c.blockAddr m b ∧ x.len = 16 ∧ x.data.length = 16 ∧
      x.tdom = e.prot.tdom w := by
  have hnoted : Noted (c.setSpool m (spillingSpool (c.spool m) b rest)) (c.spillRead e m b rest).1 := noted_blockLines ..
  have hlen : (c.spillRead e m b rest).2.length = 16 := length_blockLines ..
  rw [deepSpill_eq hu]
  generalize c.spillRead e m b rest = l at hnoted hlen
  obtain ⟨hcfg, haddr⟩ := hnoted.deepReads hm
  have hpd : l.1.deepPd m = c.deepPd m := hcfg F.SpDeepcfg.PD
  replace haddr : l.1.blockAddr m b = c.blockAddr m b := haddr b
  have hwaits : NoneWaits l.1 (e.prot.home w) (l.1.fld (.spDeepcfg m) F.SpDeepcfg.NDL) := by
    rw [hcfg]
    exact hnoted.noneWaits hn
  obtain ⟨hspools, x, hx, huse, hkind, hat, hlines, hdata, htdom⟩ :=
    spillSent_presents (run := (c.spool m).run) (lines := l.2) (by rw [hpd, haddr]; exact hok) hwaits
  refine ⟨?_, x, ?_, huse, hkind, hat.trans haddr, hlines, hdata ▸ hlen, htdom⟩
  · exact (spool_of_spools (hspools.trans hnoted.spools) m).trans (spool_setSpool_same ..)
  · exact hx.trans (congrArg (fun q : Port => q.waiting ++ [x]) (hnoted.port _))

/-! The words of a refill (R76) -/

/-- An element of a list put together from lists of one length. -/
theorem getElem?_flatMap_range {α : Type} {f : Nat → List α} {k n i j : Nat} (hf : ∀ i, (f i).length = k) (hi : i < n) (hj : j < k) :
    ((List.range n).flatMap f)[k * i + j]? = (f i)[j]? := by
  have length (n : Nat) : ((List.range n).flatMap f).length = k * n := by
    simp [List.length_flatMap, hf, Nat.mul_comm]
  induction n with
  | zero => omega
  | succ n ih =>
    rw [List.range_succ, List.flatMap_append, List.flatMap_singleton]
    rcases Nat.lt_succ_iff_lt_or_eq.mp hi with hlt | rfl
    · rw [List.getElem?_append_left, ih hlt]
      rw [length]
      calc k * i + j < k * i + k := by omega
        _ = k * (i + 1) := (Nat.mul_succ k i).symm
        _ ≤ k * n := Nat.mul_le_mul_left k hlt
    · rw [List.getElem?_append_right (by rw [length]; omega), length, Nat.add_sub_cancel_left]

theorem length_refillWords (lines : List (Line × Bool)) : (refillWords lines).length = 128 := by
  simp [refillWords, List.length_flatMap]

theorem memWord_refill (mem : List Host.Cell) (a : Nat) (lines : List (Line × Bool)) {i j : Nat} (hi : i < 16) (hj : j < 8) :
    memWord (memPutWords mem a (refillWords lines)) (a + 64 * i + 8 * j) =
      BitVec.ofNat 64 ((lines.getD i (0#512, true)).1.toNat / 2 ^ (64 * j)) := by
  have hlt : 8 * i + j < (refillWords lines).length := by rw [length_refillWords]; omega
  have hget : (refillWords lines)[8 * i + j]? = _ := getElem?_flatMap_range (fun i => by simp) hi hj
  rw [show a + 64 * i + 8 * j = a + 8 * (8 * i + j) by omega, memWord_memPutWords _ _ _ _ hlt]
  rw [List.getElem?_eq_getElem hlt, List.getElem?_map, List.getElem?_range hj] at hget
  exact Option.some.inj hget

/-- The lanes of words of one granule, written one after the other. -/
theorem lanesAt_foldl (v : Nat → Nat) (g i : Nat) (l : List Nat) (c : Chip) :
    (l.foldl (fun c k => c.setLanes g k (v k)) c).lanesAt g i = if i ∈ l then v i else c.lanesAt g i := by
  induction l generalizing c with
  | nil => simp
  | cons k l ih =>
    rw [List.foldl_cons, ih]
    by_cases hl : i ∈ l
    · simp [hl]
    · by_cases hk : i = k
      · subst hk
        simp [hl, lanesAt, setLanes, Tab.get_put_same]
      · have hplace : g * 32 + i ≠ g * 32 + k := by omega
        simp [hl, hk, lanesAt, setLanes, Tab.get_put_other _ _ hplace]

/-! Refills (R76) -/

/-- d is c after refills of spool m have been asked for or given up: its queue, its positions and its words stand. -/
structure Refilled (m : Nat) (c d : Chip) : Prop where
  only : d = { c with regs := d.regs, spools := d.spools, ports := d.ports, backlog := d.backlog }
  low : ∀ r : Reg, r.offset < 0x70000 → d.rd r = c.rd r
  spool : d.spool m = { c.spool m with
    refills := (d.spool m).refills, wants := (d.spool m).wants, refillIn := (d.spool m).refillIn, waits := (d.spool m).waits }

section Refilled

variable {m : Nat} {c d e : Chip}

theorem Refilled.refl (c : Chip) : Refilled m c c := ⟨rfl, fun _ _ => rfl, rfl⟩

theorem Refilled.trans (h : Refilled m c d) (k : Refilled m d e) : Refilled m c e := by
  refine ⟨?_, fun r hr => (k.low r hr).trans (h.low r hr), ?_⟩
  · have hk := k.only
    rw [h.only] at hk
    exact hk
  · have hk := k.spool
    rw [h.spool] at hk
    exact hk

theorem Refilled.lanes (h : Refilled m c d) : d.lanes = c.lanes := by rw [h.only]

theorem refilled_setSpool (c : Chip) (m : Nat) (refills : List Refill) (wants : List (Nat × Nat))
    (refillIn : List (Nat × List (Line × Bool) × Bool)) (waits : List (Nat × Nat)) : Refilled m c (c.setSpool m { c.spool m with
      refills := refills, wants := wants, refillIn := refillIn, waits := waits }) :=
  ⟨rfl, fun _ _ => rfl, by rw [spool_setSpool_same]⟩

theorem refilled_issue (en : Env) (c : Chip) (m pd : Nat) (b : Burst) : Refilled m c (c.issue en pd b).1 := by
  unfold issue
  dsimp only
  split
  · unfold present
    dsimp only
    split
    · exact ⟨rfl, fun _ _ => rfl, rfl⟩
    · exact ⟨rfl, fun _ _ => rfl, rfl⟩
  · exact .refl c

theorem refilled_cntSpool (c : Chip) (m ev k : Nat) : Refilled m c (c.cntSpool m ev k) := by
  have ho : OnlyRegs c (c.cntSpool m ev k) := countOn_only c _ _ _ _ _
  refine ⟨?_, fun r hr => c.rd_cntSpool m ev k (.inl hr), by rw [spool_of_spools (cntSpool_spools ..)]⟩
  rw [cntSpool_spools, cntSpool_ports, cntSpool_backlog]
  exact ho

variable (en : Env) (c m)

theorem refilled_startRefill (b t : Nat) : Refilled m c (c.startRefill en m b t) := by
  unfold startRefill
  dsimp only
  split
  · exact .refl c
  · split
    · split
      · exact .refl c
      · exact refilled_setSpool ..
    · have hset (l : List Refill) (w : List (Nat × Nat)) : Refilled m c (c.setSpool m { c.spool m with refills := l, wants := w }) :=
        refilled_setSpool ..
      split
      · exact ((hset _ _).trans (refilled_issue ..)).trans (refilled_cntSpool ..)
      · exact ((hset _ _).trans (refilled_issue ..)).trans (refilled_setSpool ..)

theorem refilled_sweepRefills : Refilled m c (c.sweepRefills en m) := by
  have fold (l : List (Nat × Nat)) : ∀ d, Refilled m c d → Refilled m c (l.foldl (fun c x => c.startRefill en m x.1 x.2) d) := by
    induction l with
    | nil => exact fun d h => h
    | cons x l ih => exact fun d h => ih _ (h.trans (refilled_startRefill m d en _ _))
  unfold sweepRefills
  dsimp only
  exact fold _ _ ((refilled_setSpool c m _ (c.spool m).wants (c.spool m).refillIn (c.spool m).waits).trans (refilled_setSpool ..))

end Refilled

/-- What follows a refill whose words have landed changes no lane of a word. -/
theorem lanes_refillServed (en : Env) (c : Chip) (m b t : Nat) (ws waits : List (Nat × Nat)) (p : Prop)
    [Decidable p] :
    let d := ws.foldl (fun c x => c.wake x.1 (·.endRewind 0)) (c.setSpool m { c.spool m with waits := waits })
    ((if p then d.startRefill en m b t else d).sweepRefills en m).lanes = c.lanes := by
  intro d
  have hwoken : d.lanes = c.lanes := by
    have hw : Woken (c.setSpool m { c.spool m with waits := waits }) d :=
      Woken.foldl (f := fun (c : Chip) (x : Nat × Nat) => c.wake x.1 (·.endRewind 0)) (fun d x => d.woken_wake x.1 _) _ _
    rw [hw.only]
    rfl
  rw [(refilled_sweepRefills ..).lanes]
  split
  · exact (refilled_startRefill ..).lanes.trans hwoken
  · exact hwoken

end Chip

/-! The commands (R75, R76) -/

section DeepMoves

variable {s : State} {m : Fin 256} {b : Nat} (hup : coreUp s.chip = true)
include hup

theorem deepSpill_completes {w : Nat} {rest : List Nat} (hu : (s.chip.spool m).unspilled = b :: rest)
    (hok : s.prot.check (s.chip.deepPd m) (s.chip.blockAddr m b) 1024 .ackWrite = .ok w)
    (hn : NoneWaits s.chip (s.prot.home w) (s.chip.fld (.spDeepcfg m) F.SpDeepcfg.NDL)) : Completes (.deepSpill m) s fun t =>
      (t.chip.spool m).unspilled = rest ∧ (t.chip.spool m).spilling = (s.chip.spool m).spilling ++ [b] ∧
      (∃ x, (t.chip.port (s.prot.home w)).waiting = (s.chip.port (s.prot.home w)).waiting ++ [x] ∧
        x.use = .spill m b (s.chip.spool m).run ∧ x.kind = .ack ∧ x.addr = s.chip.blockAddr m b ∧ x.len = 16 ∧ x.data.length = 16 ∧
        x.tdom = s.prot.tdom w) ∧ KeepsOutside s t := by
  obtain ⟨hspool, hburst⟩ := Chip.deepSpill_presents (e := s.env) m.isLt hu hok hn
  exact completes_when rfl hup rfl ⟨congrArg Spool.unspilled hspool, congrArg Spool.spilling hspool, hburst, keepsOutside_chip ..⟩

/-- The chip that takes a spill's answer: the block's granule is free. -/
theorem deepSpillAck_completes {bad : Bool} {rest : List (Nat × Bool)} (hin : (s.chip.spool m).spillIn = (b, bad) :: rest) :
    Completes (.deepSpillAck m) s fun t =>
      (t.chip.spool m).spillIn = rest ∧ (t.chip.spool m).spilling = (s.chip.spool m).spilling.filter (· ≠ b) ∧
      (bad = true → t.chip.bit (.spStat m) F.SpStat.DEEP_ERR = true ∧ (t.chip.spool m).deepBad = true) ∧
      (bad = false → t.chip.regs = s.chip.regs ∧ (t.chip.spool m).deepBad = (s.chip.spool m).deepBad) ∧
      KeepsRegs s.chip t.chip [.spStat m] ∧ KeepsOutside s t := by
  generalize hd : s.chip.setSpool m { s.chip.spool m with
    spillIn := rest, spilling := (s.chip.spool m).spilling.filter (· ≠ b) } = d
  have hack : s.chip.deepSpillAck m = if bad then d.deepError m true else d := by
    subst hd
    unfold Chip.deepSpillAck
    dsimp only
    rw [hin]
  have hspool : d.spool m = _ := hd ▸ Chip.spool_setSpool_same ..
  have hregs : d.regs = s.chip.regs := hd ▸ Chip.setSpool_regs ..
  refine completes_when rfl hup hack ?_
  cases bad
  · exact ⟨congrArg Spool.spillIn hspool, congrArg Spool.spilling hspool, nofun,
      fun _ => ⟨hregs, (congrArg Spool.deepBad hspool).trans rfl⟩,
      Chip.keeps_of_regs hregs, keepsOutside_chip ..⟩
  · have herr : (d.deepError m true).spool m = { d.spool m with deepBad := true } := Chip.spool_setSpool_same ..
    refine ⟨(congrArg Spool.spillIn herr).trans (congrArg Spool.spillIn hspool),
      (congrArg Spool.spilling herr).trans (congrArg Spool.spilling hspool),
      fun _ => ⟨Chip.bit_flag_same d _ ⟨by decide, by decide⟩, congrArg Spool.deepBad herr⟩, nofun, ?_, keepsOutside_chip ..⟩
    exact Chip.keeps_trans (Chip.keeps_of_regs hregs) (Chip.keeps_flag (Chip.keeps_refl d _) (by simp) _)

theorem deepRefillDone_lands {lines : List (Line × Bool)} {rest : List (Nat × List (Line × Bool) × Bool)} {r : Refill}
    (hin : (s.chip.spool m).refillIn = (b, lines, false) :: rest)
    (hr : (s.chip.spool m).refills.find? (fun x => x.block == b && !x.ready) = some r) :
    let g := s.chip.spBase m + s.chip.nearCount m + r.g
    ∃ (d f : Chip), exec (.deepRefillDone m) s =
        .next { s with mem := memPutWords s.mem (spoolAt g 0) (refillWords lines), chip := f } ∧
      f.lanes = ((List.range 32).foldl (fun c k =>
        c.setLanes g k (if (lines.getD (k / 2) (0#512, true)).2 then 15 else 0)) d).lanes := by
  intro g
  have hx : exec (.deepRefillDone m) s = execDeepRefillDone m s := rfl
  unfold execDeepRefillDone at hx
  dsimp only at hx
  rw [if_pos hup, hin] at hx
  dsimp only at hx
  rw [hr] at hx
  simp only [Bool.false_eq_true, if_false, false_or] at hx
  exact ⟨_, _, hx, Chip.lanes_refillServed ..⟩

theorem deepRefillDone_completes {lines : List (Line × Bool)} {rest : List (Nat × List (Line × Bool) × Bool)} {r : Refill}
    (hin : (s.chip.spool m).refillIn = (b, lines, false) :: rest)
    (hr : (s.chip.spool m).refills.find? (fun x => x.block == b && !x.ready) = some r) : Completes (.deepRefillDone m) s fun t =>
      let g := s.chip.spBase m + s.chip.nearCount m + r.g
      (∀ i j, i < 16 → j < 8 → memWord t.mem (spoolAt g 0 + 64 * i + 8 * j) =
        BitVec.ofNat 64 ((lines.getD i (0#512, true)).1.toNat / 2 ^ (64 * j))) ∧
      (∀ x, (x < spoolAt g 0 ∨ spoolAt g 0 + 1024 ≤ x) → Tab.get 0#8 t.mem x = Tab.get 0#8 s.mem x) ∧
      (∀ i, i < 32 → t.chip.lanesAt g i = if (lines.getD (i / 2) (0#512, true)).2 then 15 else 0) ∧
      t.prot = s.prot ∧ t.pending = s.pending := by
  obtain ⟨d, f, hx, hlanes⟩ := deepRefillDone_lands hup hin hr
  refine ⟨_, hx, fun i j => Chip.memWord_refill s.mem _ lines, fun x h => ?_, fun i hi => ?_, rfl, rfl⟩
  · exact memByte_memPutWords_other s.mem (refillWords lines) (by rw [Chip.length_refillWords]; exact h)
  · have hfold := Chip.lanesAt_foldl (fun k => if (lines.getD (k / 2) (0#512, true)).2 then 15 else 0)
      (s.chip.spBase m + s.chip.nearCount m + r.g) i (List.range 32) d
    rw [if_pos (List.mem_range.mpr hi)] at hfold
    simp only [Chip.lanesAt, hlanes]
    exact hfold

end DeepMoves

/-! O20 -/

/-- Settles O20, by a lemma for each mode of PEEK and each step of a deep spool. -/
theorem peeksAndDeepMoves : Obligations.PeeksAndDeepMoves := by
  refine ⟨fun s n k sl wd mode m kk j adv hm _ _ hk _ ha h => ⟨peek_off h hm, fun he hp hw => ?_⟩,
    fun s m b w rest hup => deepSpill_completes hup, fun s m b bad rest hup => deepSpillAck_completes hup,
    fun s m b lines rest r hup hin _ hr =>
      deepRefillDone_completes hup hin hr⟩
  refine ⟨peek_level h ha hm he hp hw, peek_hp h ha hm he hp hw, peek_nodata h hm he hp hw hk, fun hmode hlt hf hl => ?_, ?_, ?_⟩
  · obtain ⟨t, ht, hpeeked, hbit⟩ := peek_lapped h hm he hw hmode hlt hf hl
    exact ⟨⟨t, ht, hpeeked⟩, t, ht, hbit⟩
  · intro data lanes g hmode hlt hf hl hg hword
    have hpos : posDiff (s.chip.hp m + kk) (s.chip.wp m) < 0 := by
      rw [posDiff_low (by omega) (by omega)]
      omega
    obtain ⟨r, hr, rfl, rfl⟩ := Chip.headWord_of (e := s.env) hpos hg (fun r hr => by rw [hr] at hword; exact hword)
      fun hr => by rw [hr] at hword; exact hword
    exact peek_reads h ha hm he hp hw hk hmode hlt hf hl hr
  · intro hmode hlow
    refine ⟨fun tag a pre post hi hpre hle hlt => ?_, fun hnone => ?_⟩
    · exact peek_tag h ha hm he hp hw hmode (Chip.packetAt_some (by omega) hi hpre hlow hle hlt)
    · exact peek_untagged h ha hm he hp hw hmode (Chip.packetAt_none hp (by omega) hlow hnone)

end Sys2Proof.Machine

/-! PROOFS of the statements of 03_spools_and_ingest.md, continued. The mark queue (R64 to R66), and O19: MARK (R70). -/

namespace Sys2Proof.Machine

namespace Chip

/-! Entries that leave the queue (R64, R65) -/

theorem q_dropMarks (s : Spool) (p : MarkEnt → Bool) : (dropMarks s p).q = s.q.filter fun x => !p x := by rw [dropMarks_only]

theorem newest_dropMarks (s : Spool) (p : MarkEnt → Bool) : (dropMarks s p).newest = s.newest := by rw [dropMarks_only]

/-- The EPOCH of a slot none of whose entries leaves stands. -/
theorem epochOf_dropMarks {s : Spool} {p : MarkEnt → Bool} {k : Nat} (h : ∀ x ∈ s.q, p x = true → x.slot ≠ k) :
    epochOf (dropMarks s p) k = epochOf s k := by
  have fold (l : List MarkEnt) (hl : ∀ x ∈ l, x.slot ≠ k) : ∀ t : Spool, epochOf (l.foldl (fun s x =>
      { s with epochs := Tab.put 0 s.epochs x.slot ((epochOf s x.slot + 1) % 128) }) t) k = epochOf t k := by
    induction l with
    | nil => exact fun t => rfl
    | cons x l ih =>
      intro t
      refine (ih (fun y hy => hl y (List.mem_cons_of_mem _ hy)) _).trans ?_
      exact Tab.get_put_other 0 t.epochs (Ne.symm (hl x List.mem_cons_self)) _
  refine fold _ (fun x hx => ?_) _
  obtain ⟨hq, hp⟩ := List.mem_filter.mp hx
  exact h x hq hp

/-- What no entry may be that leaves the queue as FP is recomputed. -/
def leavesAt (f : Nat) (x : MarkEnt) : Bool := x.st != .held && decide (posDiff x.pos f < 0)

section Recompute

variable (c : Chip) (m : Nat)

theorem recomputeFp_eq : ∃ f, c.recomputeFp m =
    ((c.setF (.spFp m) F.SpFp.POS f).setSpool m (dropMarks (c.spool m) (leavesAt f))).spWatermark m := ⟨_, rfl⟩

theorem spool_recomputeFp : ∃ f, (c.recomputeFp m).spool m = dropMarks (c.spool m) (leavesAt f) := by
  obtain ⟨f, h⟩ := c.recomputeFp_eq m
  refine ⟨f, ?_⟩
  rw [h, spool_of_spools (spools_of_only (spWatermark_only _ m))]
  exact spool_setSpool_same ..

theorem recomputeFp_steps : SpoolStep m [.spFp m, .spLvl m] c (c.recomputeFp m) := by
  obtain ⟨d, hsteps, h⟩ := c.recomputeFp_cases m
  obtain ⟨hmark, -⟩ := d.spWatermark_sets m
  rw [h]
  exact (hsteps.mono (by simp)).trans (hmark.mono (by simp))

theorem wp_of_steps {c d : Chip} {m : Nat} {l : List Reg} (h : SpoolStep m l c d) (hm : m < 256)
    (hl : (l.all fun q => (Reg.spWp m).offset != q.offset) = true) : d.wp m = c.wp m :=
  wp_of_rd (h.keeps _ (.inl (by simp only [Reg.offset]; omega)) (by simpa using hl))

theorem wp_recomputeFp (hm : m < 256) : (c.recomputeFp m).wp m = c.wp m :=
  wp_of_steps (c.recomputeFp_steps m) hm (by simp [Reg.offset])

end Recompute

/-! The queue slots of entries (R64, R70) -/

theorem mem_freeMarks {s : Spool} {j : Nat} : j ∈ freeMarks s ↔ j < 512 ∧ ∀ x ∈ s.q, x.slot ≠ j := by
  simp [freeMarks, List.mem_filter, List.mem_range]

theorem freeMarks_nil {s : Spool} (h : ∀ j, j < 512 → ∃ x ∈ s.q, x.slot = j) : freeMarks s = [] := by
  refine List.eq_nil_iff_forall_not_mem.mpr fun j hj => ?_
  obtain ⟨hlt, hnone⟩ := mem_freeMarks.mp hj
  obtain ⟨x, hx, hslot⟩ := h j hlt
  exact hnone x hx hslot

/-- With a slot free a MARK takes one. -/
theorem freeMarks_pick {s : Spool} (h : ¬ ∀ j, j < 512 → ∃ x ∈ s.q, x.slot = j) (pick : Nat) :
    ∃ j, (freeMarks s)[pick % (freeMarks s).length]? = some j ∧ j < 512 ∧ ∀ x ∈ s.q, x.slot ≠ j := by
  push Not at h
  obtain ⟨i, hi, hfree⟩ := h
  have hpos : 0 < (freeMarks s).length := List.length_pos_of_mem (mem_freeMarks.mpr ⟨hi, hfree⟩)
  have hlt := Nat.mod_lt pick hpos
  refine ⟨_, List.getElem?_eq_getElem hlt, ?_⟩
  exact mem_freeMarks.mp (List.getElem_mem hlt)

/-- A handle, apart. -/
theorem handleOf_parts {m j : Nat} {s : Spool} (hm : m < 256) (he : epochOf s j < 128) (hj : j < 512) :
    handleOf m s j < 2 ^ 24 ∧ handleOf m s j / 2 ^ 16 = m ∧ handleOf m s j % 512 = j ∧ handleOf m s j / 2 ^ 9 % 128 = epochOf s j := by
  unfold handleOf
  omega

/-- The spool with a new HELD entry, at the tail of its queue. -/
def markedSpool (s : Spool) (j p : Nat) : Spool := { s with q := s.q ++ [{ slot := j, pos := p, st := .held }], newest := some p }

/-- The handle of a new entry names it, once FP is recomputed. -/
theorem markOf_marked {c : Chip} {m j p : Nat} {s : Spool} (hm : m < 256) (hj : j < 512) (hfree : ∀ x ∈ s.q, x.slot ≠ j)
    (he : epochOf s j < 128) (f : Nat) (hc : c.spool m = dropMarks (markedSpool s j p) (leavesAt f)) :
    c.markOf (handleOf m s j) = some { slot := j, pos := p, st := .held } := by
  obtain ⟨hlt, hspool, hslot, hepoch⟩ := handleOf_parts hm he hj
  have hstays : leavesAt f { slot := j, pos := p, st := .held } = false := rfl
  have hsame : epochOf (c.spool m) j = epochOf s j := by
    rw [hc]
    refine (epochOf_dropMarks fun x hx hp => ?_).trans rfl
    rcases List.mem_append.mp hx with hx | hx
    · exact hfree x hx
    · rw [List.mem_singleton.mp hx, hstays] at hp
      cases hp
  unfold markOf
  dsimp only
  rw [hspool, Nat.mod_eq_of_lt hm, hslot, hepoch, if_pos ⟨hlt, hsame⟩, hc, q_dropMarks, markedSpool, List.filter_append]
  have hnone : (s.q.filter fun x => !leavesAt f x).find? (fun x => x.slot == j) = none :=
    List.find?_eq_none.mpr fun x hx => by simpa using hfree x (List.mem_filter.mp hx).1
  rw [List.find?_append, hnone]
  simp [hstays]

/-! The position that a MARK names (R70) -/

/-- A MARK of mode 0, 1 or 2 with v in ws names a position. -/
def MarkNames (c : Chip) (m mode v p : Nat) : Prop :=
  (mode = 0 ∧ p = c.wp m) ∨
  (mode = 1 ∧ ∃ pre post, (c.spool m).index = pre ++ (v % 2 ^ 24, p) :: post ∧ ∀ x ∈ pre, x.1 ≠ v % 2 ^ 24) ∨
  (mode = 2 ∧ c.fp m ≤ p ∧ p ≤ c.wp m ∧ p % 2 ^ 32 = v)

theorem markPos_tag (c : Chip) (th : Thread) (m ws p : Nat) : c.markPos th m ws 1 = some p ↔ ∃ pre post,
    (c.spool m).index = pre ++ ((th.reg ws).toNat % 2 ^ 24, p) :: post ∧ ∀ x ∈ pre, x.1 ≠ (th.reg ws).toNat % 2 ^ 24 := by
  show Option.map _ _ = _ ↔ _
  rw [Option.map_eq_some_iff]
  constructor
  · rintro ⟨⟨tag, a⟩, hfind, rfl⟩
    obtain ⟨htag, pre, post, hindex, hpre⟩ := List.find?_eq_some_iff_append.mp hfind
    have htag' : tag = (th.reg ws).toNat % 2 ^ 24 := by simpa using htag
    exact ⟨pre, post, htag' ▸ hindex, fun x hx => by simpa using hpre x hx⟩
  · rintro ⟨pre, post, hindex, hpre⟩
    exact ⟨_, List.find?_eq_some_iff_append.mpr ⟨by simp, pre, post, hindex, fun x hx => by simpa using hpre x hx⟩, rfl⟩

theorem markPos_bits (c : Chip) (th : Thread) {m ws p : Nat} (hf : c.fp m ≤ c.wp m) (hw : c.wp m < 2 ^ 47)
    (hnear : c.wp m < c.fp m + 2 ^ 32) : c.markPos th m ws 2 = some p ↔
      c.fp m ≤ p ∧ p ≤ c.wp m ∧ p % 2 ^ 32 = (th.reg ws).toNat := by
  have hv := (th.reg ws).isLt
  have hu : ((unsigned 32 (((th.reg ws).toNat : Int) - c.fp m) : Nat) : Int) = (((th.reg ws).toNat : Int) - c.fp m) % 2 ^ 32 := by
    unfold unsigned
    rw [Int.toNat_of_nonneg (Int.emod_nonneg _ (by decide))]
    norm_num
  show (if posDiff _ _ ≤ 0 then _ else _) = _ ↔ _
  generalize unsigned 32 (((th.reg ws).toNat : Int) - c.fp m) = u at hu
  generalize (th.reg ws).toNat = v at hv hu
  rw [Nat.mod_eq_of_lt (by omega), posDiff_near (by omega) (by omega)]
  split
  · rw [Option.some.injEq]
    omega
  · simp only [reduceCtorEq, false_iff]
    omega

theorem markPos_eq_some {c : Chip} {th : Thread} {m ws mode p : Nat} (hmode : mode < 3)
    (h : mode = 2 → c.fp m ≤ c.wp m ∧ c.wp m < 2 ^ 47 ∧ c.wp m < c.fp m + 2 ^ 32) :
    c.markPos th m ws mode = some p ↔ MarkNames c m mode (th.reg ws).toNat p := by
  unfold MarkNames
  match mode, hmode with
  | 0, _ => simp [markPos, eq_comm]
  | 1, _ => simp [markPos_tag]
  | 2, _ =>
    obtain ⟨hf, hw, hnear⟩ := h rfl
    simp [markPos_bits c th hf hw hnear]

theorem Alike.markPos {c d : Chip} (h : Alike c d) {m : Nat} (hm : m < 256) (th : Thread) (ws mode : Nat) :
    d.markPos th m ws mode = c.markPos th m ws mode := by simp only [Chip.markPos, h.wp hm, h.fp hm, h.spool]

end Chip

/-- An instruction that counts, and changes its thread's copy alone. -/
theorem issuedOnly_counted {s : State} {n : Fin 128} {k : Fin 8} {sl : Slot} {i : WInstr} {d x : Chip}
    (h : Chip.IssueBegun n k sl i s.chip d) (ho : OnlyRegs d x) (hk : KeepsButCounts d x []) (f : Thread → Thread) (t : Nat) :
    IssuedOnly s { s with chip := (x.mapLive n k f).afterIssue s.env n t } n k (issuedSlot sl i (f (stepped sl.live))) := by
  have hnd : x.needles = d.needles := Chip.needles_of_only ho
  have honly : x = { s.chip with regs := x.regs, needles := x.needles } := by
    have hd := h.only
    rw [hnd]
    exact Eq.trans ho (congrArg (fun c : Chip => { c with regs := x.regs }) hd)
  rw [Chip.mapLive_of_slot ((Chip.slot_of_needles hnd n k).trans h.slot)]
  exact issuedOnly_of ((h.frame.of_needles hnd).setSlot _) (Chip.slot_setSlot_same ..) (Chip.regsNdls_setNdl honly _)
    (fun r hr hl => (hk r hr (by simp)).trans (h.keeps r hr hl)) t

/-! MARK (R70) -/

theorem exec_mark (n : Fin 128) (k : Fin 8) (pick : Nat) (s : State) : exec (.mark n k pick) s = s.issue n k fun _ c i =>
    match i with
    | .mark wd ws mode m => some (c.doMark n k pick wd ws mode m)
    | _ => none := rfl

section Mark

variable {s : State} {n : Fin 128} {k : Fin 8} {pick : Nat} {sl : Slot} {wd ws mode m : Nat} (hm : m < 256)
  (h : Issues s n k sl (.mark wd ws mode m))
include hm h

omit hm in
/-- A MARK that answers a failure. -/
theorem mark_fails {code : Nat}
    (hcode : ∀ d, Chip.IssueBegun n k sl (.mark wd ws mode m) s.chip d → d.doMark n k pick wd ws mode m =
      (d.cntSpool m 0x0E3 1).mapLive n k fun th => (th.setReg wd (BitVec.ofNat 32 (0x80000000 + code))).report true) :
    Completes (.mark n k pick) s fun t => IssuedOnly s t n k (issuedSlot sl (.mark wd ws mode m)
      (((stepped sl.live).setReg wd (BitVec.ofNat 32 (2 ^ 31 + code))).report true)) := by
  refine completes_issue (exec_mark n k pick s) h fun d hd => ⟨_, rfl, ?_⟩
  rw [hcode d hd]
  exact issuedOnly_counted hd (Chip.countOn_only d ..) (fun r hr _ => d.rd_cntSpool m 0x0E3 1 hr) _ sl.t

theorem mark_disabled (he : s.chip.spEn m ≠ .running) : Completes (.mark n k pick) s fun t =>
    IssuedOnly s t n k (issuedSlot sl (.mark wd ws mode m)
      (((stepped sl.live).setReg wd (BitVec.ofNat 32 (2 ^ 31 + 6))).report true)) := by
  refine mark_fails h fun d hd => ?_
  have hc := hd.alike.trans (d.alike_cntSpool m 0x0E3 1)
  exact if_pos (by rw [hc.spEn hm]; exact he)

variable (he : s.chip.spEn m = .running)
include he

theorem mark_notfound (hp : s.chip.markPos sl.live m ws mode = none) : Completes (.mark n k pick) s fun t =>
    IssuedOnly s t n k (issuedSlot sl (.mark wd ws mode m)
      (((stepped sl.live).setReg wd (BitVec.ofNat 32 (2 ^ 31 + 3))).report true)) := by
  refine mark_fails h fun d hd => ?_
  have hc := hd.alike.trans (d.alike_cntSpool m 0x0E3 1)
  have hpos : (d.cntSpool m 0x0E3 1).markPos (d.live n k) m ws mode = none := by
    rw [hc.markPos hm, hd.live]
    exact hp
  unfold Chip.doMark
  dsimp only
  rw [if_neg (by rw [hc.spEn hm, he]; simp)]
  simp only [hpos]

variable {p : Nat} (hp : s.chip.markPos sl.live m ws mode = some p)
include hp

omit h in
/-- A MARK that names a position (R70): it fails where the last mark lies after it, or no slot is free. -/
theorem doMark_named {d : Chip} (hd : Chip.IssueBegun n k sl (.mark wd ws mode m) s.chip d) :
    let c := d.cntSpool m 0x0E3 1
    let q := s.chip.spool m
    let fail (code : Nat) := c.mapLive n k fun th => (th.setReg wd (BitVec.ofNat 32 (0x80000000 + code))).report true
    d.doMark n k pick wd ws mode m =
      if q.newest.any fun x => decide (posDiff p x < 0) then fail 5
      else ((Chip.freeMarks q)[pick % (Chip.freeMarks q).length]?).elim (fail 4) fun j =>
        ((c.setSpool m (Chip.markedSpool q j p)).mapLive n k fun th =>
          ({ th with hv := true, handle := Chip.handleOf m q j, cv := false }.setReg wd
            (BitVec.ofNat 32 (Chip.handleOf m q j))).report false).recomputeFp m := by
  intro c q fail
  have hc := hd.alike.trans (d.alike_cntSpool m 0x0E3 1)
  have hpos : c.markPos (d.live n k) m ws mode = some p := by
    rw [hc.markPos hm, hd.live]
    exact hp
  have hq : c.spool m = q := hc.spool m
  unfold Chip.doMark
  dsimp only
  rw [if_neg (by rw [hc.spEn hm, he]; simp), hpos]
  dsimp only
  rw [hq]
  refine if_congr Iff.rfl rfl ?_
  generalize (Chip.freeMarks q)[pick % (Chip.freeMarks q).length]? = o
  cases o with
  | none => rfl
  | some j => rfl

theorem mark_order {x : Nat} (hx : (s.chip.spool m).newest = some x) (hlt : posDiff p x < 0) :
    Completes (.mark n k pick) s fun t => IssuedOnly s t n k (issuedSlot sl (.mark wd ws mode m)
      (((stepped sl.live).setReg wd (BitVec.ofNat 32 (2 ^ 31 + 5))).report true)) := by
  refine mark_fails h fun d hd => (doMark_named hm he hp hd).trans (if_pos ?_)
  rw [hx]
  simpa using hlt

variable (hx : ∀ x, (s.chip.spool m).newest = some x → 0 ≤ posDiff p x)
include hx

omit hm h he hp in
/-- No mark lies after the position. -/
theorem newest_before : ((s.chip.spool m).newest.any fun x => decide (posDiff p x < 0)) = false := by
  cases hn : (s.chip.spool m).newest with
  | none => rfl
  | some x => simpa using hx x hn

theorem mark_full (ht : ∀ j, j < 512 → ∃ x ∈ (s.chip.spool m).q, x.slot = j) : Completes (.mark n k pick) s fun t =>
    IssuedOnly s t n k (issuedSlot sl (.mark wd ws mode m)
      (((stepped sl.live).setReg wd (BitVec.ofNat 32 (2 ^ 31 + 4))).report true)) := by
  refine mark_fails h fun d hd => (doMark_named hm he hp hd).trans ?_
  dsimp only
  rw [newest_before hx, Chip.freeMarks_nil ht]
  rfl

theorem mark_takes (ht : ¬ ∀ j, j < 512 → ∃ x ∈ (s.chip.spool m).q, x.slot = j)
    (hepoch : ∀ j, Chip.epochOf (s.chip.spool m) j < 128) : Completes (.mark n k pick) s fun t =>
      ∃ h j, h < 2 ^ 24 ∧ h / 2 ^ 16 = m ∧ t.chip.markOf h = some { slot := j, pos := p, st := .held } ∧
        (t.chip.spool m).newest = some p ∧ t.chip.wp m = s.chip.wp m ∧
        t.chip.slot n k = some (issuedSlot sl (.mark wd ws mode m) (({ stepped sl.live with
          hv := true, handle := h, cv := false }.setReg wd (BitVec.ofNat 32 h)).report false)) ∧ KeepsOutside s t := by
  obtain ⟨j, hpick, hj, hfree⟩ := Chip.freeMarks_pick ht pick
  refine completes_issue (exec_mark n k pick s) h fun d hd => ⟨_, rfl, ?_⟩
  obtain ⟨hlt, hspool, -, -⟩ := Chip.handleOf_parts hm (hepoch j) hj
  have hc := hd.alike.trans (d.alike_cntSpool m 0x0E3 1)
  have hdo := doMark_named (pick := pick) hm he hp hd
  dsimp only at hdo ⊢
  rw [newest_before hx, hpick] at hdo
  simp only [Bool.false_eq_true, if_false, Option.elim_some] at hdo
  have hslot : ((d.cntSpool m 0x0E3 1).setSpool m (Chip.markedSpool (s.chip.spool m) j p)).slot n k =
      some (issuedSlot sl (.mark wd ws mode m) (stepped sl.live)) :=
    ((d.spoolStep_cntSpool m 0x0E3 1).slot n k).trans hd.slot
  rw [Chip.mapLive_of_slot hslot] at hdo
  generalize hg : ((d.cntSpool m 0x0E3 1).setSpool m (Chip.markedSpool (s.chip.spool m) j p)).setSlot n k _ = g at hdo
  have hgspool : g.spool m = Chip.markedSpool (s.chip.spool m) j p := hg ▸ Chip.spool_setSpool_same ..
  obtain ⟨f, hf⟩ := g.spool_recomputeFp m
  rw [hgspool] at hf
  rw [hdo]
  have hafter := Chip.afterIssue_only s.env (g.recomputeFp m) n sl.t
  have hsame : ((g.recomputeFp m).afterIssue s.env n sl.t).spool m = Chip.dropMarks (Chip.markedSpool (s.chip.spool m) j p)
      (Chip.leavesAt f) := by
    rw [hafter]
    exact hf
  refine ⟨Chip.handleOf m (s.chip.spool m) j, j, hlt, hspool, Chip.markOf_marked hm hj hfree (hepoch j) f hsame, ?_, ?_, ?_,
    keepsOutside_chip ..⟩
  · rw [hsame, Chip.newest_dropMarks]
    rfl
  · refine (Chip.wp_of_rd (Chip.rd_afterIssue ..)).trans ((g.wp_recomputeFp m hm).trans ?_)
    subst hg
    exact hc.wp hm
  · refine ((Chip.sampled_after (n := n) s.env _ sl.t).slot n k).trans (((g.recomputeFp_steps m).slot n k).trans ?_)
    subst hg
    exact Chip.slot_setSlot_same ..

end Mark


end Sys2Proof.Machine

/-! PROOFS of the statements of 03_spools_and_ingest.md, continued. O19: RELEASE (R72). -/

namespace Sys2Proof.Machine

namespace Chip

/-! What refills leave of an instruction -/

section Refilled

variable {m : Nat} {c d : Chip} (h : Refilled m c d) (e : Env) (n t : Nat)
include h

theorem Refilled.slot_after (i k : Nat) : (d.afterIssue e n t).slot i k = c.slot i k := by
  rw [(sampled_after e d t).slot, slot_of_needles (c := c)]
  rw [h.only]

theorem Refilled.thr_after (u : Nat) : (d.afterIssue e n t).thr u = c.thr u := by
  rw [afterIssue_only]
  show d.thr u = c.thr u
  rw [h.only]
  rfl

theorem Refilled.spool_after : ((d.afterIssue e n t).spool m).q = (c.spool m).q ∧
    ((d.afterIssue e n t).spool m).epochs = (c.spool m).epochs := by
  rw [afterIssue_only]
  show (d.spool m).q = _ ∧ (d.spool m).epochs = _
  rw [h.spool]
  exact ⟨rfl, rfl⟩

theorem Refilled.rd_after {r : Reg} (hr : r.offset < 0x70000) : (d.afterIssue e n t).rd r = c.rd r :=
  (rd_afterIssue ..).trans (h.low r hr)

end Refilled

/-! RELEASE (R72) -/

/-- The entries of a slot are RELEASED. -/
def releasedSpool (s : Spool) (j : Nat) : Spool := { s with q := s.q.map fun x => if x.slot = j then { x with st := .released } else x }

/-- The entries of slot j have a state once they take it. -/
theorem st_of_slot {q : List MarkEnt} {j f : Nat} {st : MarkState} {y : MarkEnt}
    (hy : y ∈ (q.map fun x => if x.slot = j then { x with st := st } else x).filter fun x => !leavesAt f x) (hj : y.slot = j) :
    y.st = st := by
  obtain ⟨x, -, rfl⟩ := List.mem_map.mp (List.mem_filter.mp hy).1
  by_cases hx : x.slot = j
  · rw [if_pos hx]
  · rw [if_neg hx] at hj
    exact absurd hj hx

section Release

variable {c : Chip} {h : Nat} (he : c.spEn (h / 2 ^ 16 % 256) ≠ .off)
include he

theorem releaseMark_current {x : MarkEnt} (hx : c.markOf h = some x) (hst : x.st ≠ .released) : c.releaseMark h =
    ((((c.cntSpool (h / 2 ^ 16 % 256) 0x0E5 1).setMark h .released).recomputeFp (h / 2 ^ 16 % 256)), 0) := by
  have hc := c.alike_cntSpool (h / 2 ^ 16 % 256) 0x0E5 1
  unfold releaseMark
  dsimp only
  rw [hc.spEn (Nat.mod_lt _ (by decide)), if_neg he, hc.markOf, hx]
  exact if_neg hst

theorem releaseMark_bad (hx : c.markOf h = none ∨ ∃ x, c.markOf h = some x ∧ x.st = .released) :
    c.releaseMark h = (c.cntSpool (h / 2 ^ 16 % 256) 0x0E5 1, 2) := by
  have hc := c.alike_cntSpool (h / 2 ^ 16 % 256) 0x0E5 1
  unfold releaseMark
  dsimp only
  rw [hc.spEn (Nat.mod_lt _ (by decide)), if_neg he, hc.markOf]
  rcases hx with hx | ⟨x, hx, hst⟩
  · rw [hx]
  · rw [hx]
    exact if_pos hst

end Release

end Chip

/-- A thread's record with an instruction's result code. -/
def coded (wd v : Nat) (th : Thread) : Thread := (th.setReg wd (BitVec.ofNat 32 v)).report (v ≠ 0)

theorem exec_release (n : Fin 128) (k : Fin 8) (s : State) : exec (.release n k) s = s.issue n k fun e c i => match i with
    | .release wd ws => some (c.doRelease e n k wd ws)
    | _ => none := rfl

section Release

variable {s : State} {n : Fin 128} {k : Fin 8} {sl : Slot} {wd ws h m : Nat} (hi : Issues s n k sl (.release wd ws))
  (hh : (sl.live.reg ws).toNat = h) (hm : h / 2 ^ 16 % 256 = m) (he : s.chip.spEn m ≠ .off)
include hi hh hm he

omit he in
/-- A RELEASE ends with its code, once the mark is released. -/
theorem release_ends {code : Nat} {P : State → Prop}
    (hx : ∀ d, Chip.IssueBegun n k sl (.release wd ws) s.chip d → ∃ x l, d.releaseMark h = (x, code) ∧
      Chip.SpoolStep m l d x ∧ ∀ y t : Chip, y.spools = x.spools → y.regs = x.regs → Chip.Refilled m y t →
        P { s with chip := t.afterIssue s.env n sl.t }) : Completes (.release n k) s fun t =>
      t.chip.slot n k = some (issuedSlot sl (.release wd ws) (coded wd code
        (if code = 0 ∧ sl.live.handle = h then { stepped sl.live with cv := false } else stepped sl.live))) ∧
      KeepsOutside s t ∧ P t := by
  refine completes_issue (exec_release n k s) hi fun d hd => ⟨_, rfl, ?_⟩
  obtain ⟨x, l, hrel, hsteps, hP⟩ := hx d hd
  have hreg : ((d.live n k).reg ws).toNat = h := by rw [hd.live]; exact hh
  have hslot := (hsteps.slot n k).trans hd.slot
  have hdo : d.doRelease s.env n k wd ws = ((x.mapLive n k fun th => if code = 0 ∧ th.handle = h then { th with cv := false } else
      th).resultCode n k wd code).sweepRefills s.env m := by
    unfold Chip.doRelease
    dsimp only
    rw [hreg, hrel, hm]
  rw [Chip.mapLive_of_slot hslot, Chip.resultCode, Chip.mapLive_of_slot (Chip.slot_setSlot_same ..)] at hdo
  rw [hdo]
  generalize hy : (x.setSlot n k _).setSlot n k _ = y
  have hyslot : y.slot n k = _ := hy ▸ Chip.slot_setSlot_same ..
  have hyx : y.spools = x.spools ∧ y.regs = x.regs := hy ▸ ⟨rfl, rfl⟩
  have hswept := Chip.refilled_sweepRefills m y s.env
  exact ⟨(hswept.slot_after s.env n sl.t n k).trans hyslot, keepsOutside_chip .., hP y _ hyx.1 hyx.2 hswept⟩

theorem release_current {x : MarkEnt} (hx : s.chip.markOf h = some x) (hst : x.st ≠ .released) : Completes (.release n k) s fun t =>
    (∀ y ∈ (t.chip.spool m).q, y.slot = h % 512 → y.st = .released) ∧ t.chip.wp m = s.chip.wp m ∧
      t.chip.slot n k = some (issuedSlot sl (.release wd ws)
        (coded wd 0 { stepped sl.live with cv := sl.live.cv && decide (sl.live.handle ≠ h) })) ∧ KeepsOutside s t := by
  have hlt : m < 256 := hm ▸ Nat.mod_lt _ (by decide)
  have hends := release_ends hi hh hm (code := 0) (P := fun t => (∀ y ∈ (t.chip.spool m).q, y.slot = h % 512 → y.st = .released) ∧
    t.chip.wp m = s.chip.wp m) fun d hd => ?_
  · obtain ⟨t, ht, hslot, hout, hq, hwp⟩ := hends
    refine ⟨t, ht, hq, hwp, hslot.trans ?_, hout⟩
    by_cases hh : sl.live.handle = h
    · simp [hh, stepped]
    · simp [hh, stepped]
  have hc := hd.alike
  have hrel := Chip.releaseMark_current (c := d) (h := h) (by rw [hm, hc.spEn hlt]; exact he) ((hc.markOf h).trans hx) hst
  rw [hm] at hrel
  have hset : Chip.SpoolStep m [.spFp m, .spLvl m] d ((d.cntSpool m 0x0E5 1).setMark h .released) := by
    unfold Chip.setMark
    rw [hm]
    exact ((d.spoolStep_cntSpool m 0x0E5 1).mono (by simp)).setSpool rfl
  have hspool : ((d.cntSpool m 0x0E5 1).setMark h .released).spool m = Chip.releasedSpool (s.chip.spool m) (h % 512) := by
    unfold Chip.setMark
    dsimp only
    rw [hm, Chip.spool_setSpool_same, (hc.trans (d.alike_cntSpool m 0x0E5 1)).spool]
    rfl
  generalize (d.cntSpool m 0x0E5 1).setMark h .released = g at hrel hset hspool
  obtain ⟨f, hf⟩ := g.spool_recomputeFp m
  rw [hspool] at hf
  have hsteps := hset.trans (g.recomputeFp_steps m)
  refine ⟨_, _, hrel, hsteps, fun y t hys hyr ht => ⟨fun z hz hslot => ?_, ?_⟩⟩
  · rw [(ht.spool_after s.env n sl.t).1, Chip.spool_of_spools hys, hf, Chip.q_dropMarks] at hz
    exact Chip.st_of_slot hz hslot
  · refine (Chip.wp_of_rd (ht.rd_after s.env n sl.t (by simp only [Reg.offset]; omega))).trans ?_
    refine (Chip.wp_of_rd (by simp only [Chip.rd, hyr])).trans ((Chip.wp_of_steps hsteps hlt (by simp [Reg.offset])).trans (hc.wp hlt))

theorem release_bad (hx : s.chip.markOf h = none ∨ ∃ x, s.chip.markOf h = some x ∧ x.st = .released) :
    Completes (.release n k) s fun t =>
      t.chip.slot n k = some (issuedSlot sl (.release wd ws) (coded wd 2 (stepped sl.live))) ∧ KeepsOutside s t := by
  have hends := release_ends hi hh hm (code := 2) (P := fun _ => True) fun d hd => ?_
  · obtain ⟨t, ht, hslot, hout, -⟩ := hends
    exact ⟨t, ht, hslot, hout⟩
  have hc := hd.alike
  have hrel := Chip.releaseMark_bad (c := d) (h := h) (by rw [hc.spEn (Nat.mod_lt _ (by decide)), hm]; exact he)
    (by rw [hc.markOf]; exact hx)
  rw [hm] at hrel
  exact ⟨_, _, hrel, d.spoolStep_cntSpool m 0x0E5 1, fun _ _ _ _ _ => trivial⟩

end Release

end Sys2Proof.Machine

/-! PROOFS of the statements of 03_spools_and_ingest.md, continued. O19: REWIND (R71, R76). -/

namespace Sys2Proof.Machine

namespace Chip

/-! REWIND by cases (R71) -/

/-- The chip with a thread's record coded. -/
theorem resultCode_eq (c : Chip) (n k wd code : Nat) : c.resultCode n k wd code = c.mapLive n k (coded wd code) := rfl

/-- The thread with its cursor at an offset from a mark. -/
def atMark (h off : Nat) (th : Thread) : Thread := { th with hv := true, handle := h, cv := true, curoff := off }

/-- The thread as it waits for the refill of its cursor's block: the cursor from before stays beside it (R69). -/
def awaitsRefill (wd off h m : Nat) (th : Thread) : Thread :=
  { atMark h off th with retReg := wd, undo := some th.cursor, kind := kRefill, arg := m, st := .waiting }

/-- What a REWIND does to a mark that stands: its cursor goes to position p (R71, R76). -/
def rewindTo (e : Env) (c : Chip) (n k wd off h p : Nat) : Chip :=
  let m := h / 2 ^ 16 % 256
  let d := posDiff p (c.wp m)
  if d > 0 then c.resultCode n k wd 7
  else if d < 0 ∧ c.hostResident m p then
    if (c.spool m).deepBad then c.resultCode n k wd 8
    else if (c.granuleOf m p).isSome then ((c.mapLive n k (atMark (h % 2 ^ 24) off)).resultCode n k wd 0).sweepRefills e m
    else c.leaveWait e n k kRefill m fun th => { atMark (h % 2 ^ 24) off th with retReg := wd, undo := some th.cursor }
  else ((c.mapLive n k (atMark (h % 2 ^ 24) off)).resultCode n k wd 0).sweepRefills e m

/-- What a REWIND leaves of chip c, which was b before it counted, where its spool is not OFF (R71). -/
def rewound (e : Env) (b c : Chip) (n k wd off h : Nat) : Chip :=
  let m := h / 2 ^ 16 % 256
  (b.markOf h).elim (c.resultCode n k wd 2) fun x =>
    if x.st = .released then c.resultCode n k wd 2
    else if x.st = .lapped then c.resultCode n k wd 1
    else if b.rewindLaps h then ((c.lapMark m x).recomputeFp m).resultCode n k wd 1
    else c.rewindTo e n k wd off h ((x.pos + off) % 2 ^ 48)

section Found

variable {e : Env} {c : Chip} {n k wd ws off h : Nat} (hh : ((c.live n k).reg ws).toNat = h)
  (he : c.spEn (h / 2 ^ 16 % 256) ≠ .off)
include hh he

/-- Every REWIND counts on its spool, and its lap where it finds one. -/
theorem doRewind_eq : ∃ evs, c.doRewind e n k wd ws off =
    c.rewound e (c.spoolCycle (h / 2 ^ 16 % 256) evs) n k wd off h := by
  subst hh
  refine ⟨(0x0E4, 1) :: if c.rewindLaps ((c.live n k).reg ws).toNat then [(0x0E6, 1)] else [], ?_⟩
  unfold doRewind rewound
  dsimp only
  have hd := c.alike_spoolCycle (((c.live n k).reg ws).toNat / 2 ^ 16 % 256)
    ((0x0E4, 1) :: if c.rewindLaps ((c.live n k).reg ws).toNat then [(0x0E6, 1)] else [])
  rw [if_neg (by rw [hd.spEn (Nat.mod_lt _ (by decide))]; exact he), hd.markOf]
  cases c.markOf ((c.live n k).reg ws).toNat with
  | none => rfl
  | some x => rfl

omit hh in
/-- A HELD mark is lapped where the guard has overtaken it. -/
theorem rewindLaps_held {x : MarkEnt} (hx : c.markOf h = some x) (hst : x.st = .held) :
    c.rewindLaps h = c.overtaken (h / 2 ^ 16 % 256) x.pos := by
  unfold rewindLaps
  dsimp only
  have hon : (c.spEn (h / 2 ^ 16 % 256) != .off) = true := bne_iff_ne.mpr he
  rw [hon, hx, Option.any_some, hst]
  rfl

end Found

/-! Marks and positions that stand -/

theorem markOf_congr {c d : Chip} {h : Nat} (hq : (d.spool (h / 2 ^ 16 % 256)).q = (c.spool (h / 2 ^ 16 % 256)).q)
    (he : (d.spool (h / 2 ^ 16 % 256)).epochs = (c.spool (h / 2 ^ 16 % 256)).epochs) : d.markOf h = c.markOf h := by
  have hepoch : epochOf (d.spool (h / 2 ^ 16 % 256)) (h % 512) = epochOf (c.spool (h / 2 ^ 16 % 256)) (h % 512) := by
    rw [epochOf, he, epochOf]
  unfold markOf
  dsimp only
  rw [hq, hepoch]

theorem lt_of_markOf {c : Chip} {h : Nat} {x : MarkEnt} (hx : c.markOf h = some x) : h < 2 ^ 24 := by
  unfold markOf at hx
  dsimp only at hx
  split at hx
  · next hlt => exact hlt.1
  · cases hx

theorem not_overtaken {c : Chip} {m p : Nat} (h : c.spMode m = 1 → p ≤ c.wp m ∧ c.wp m < 2 ^ 47 ∧
    c.wp m - p + c.spGuard m ≤ c.spCap m) : c.overtaken m p = false := by
  by_cases hmode : c.spMode m = 1
  · obtain ⟨hle, hw, hcap⟩ := h hmode
    rw [← Bool.not_eq_true, overtaken_iff hle hw]
    omega
  · simp [overtaken, hmode]

theorem spMode_of_hostResident {c : Chip} {m p : Nat} (h : c.hostResident m p = true) : c.spMode m = 2 := by
  simp only [hostResident, Bool.and_eq_true, beq_iff_eq] at h
  exact h.1

/-- A position in host memory is not on chip while no refill is there. -/
theorem granuleOf_host {c : Chip} {m p : Nat} (h : c.hostResident m p = true) (hr : (c.spool m).refills = []) : c.granuleOf m p = none := by
  have hmode := spMode_of_hostResident h
  simp only [hostResident, Bool.and_eq_true, Bool.not_eq_true'] at h
  unfold granuleOf
  dsimp only
  rw [if_pos hmode, h.2, hr]
  rfl

/-- A cursor at a mark that stands lies at its offset from it. -/
theorem cursorPos_atMark {c : Chip} {h off : Nat} {x : MarkEnt} (hx : c.markOf h = some x) (hst : x.st ≠ .released) {th : Thread}
    (hhv : th.hv = true) (hcv : th.cv = true) (hh : th.handle = h) (hoff : th.curoff = off) :
    c.cursorPos th = some ((x.pos + off) % 2 ^ 48) := by
  unfold cursorPos
  rw [if_pos ⟨hhv, hcv⟩, hh, hx, hoff]
  exact if_neg hst

/-! A REWIND that waits for a refill (R71, R76) -/

section Leave

variable (c : Chip) {n k : Nat} {sl : Slot} (hs : c.slot n k = some sl) (f : Thread → Thread)
include hs

/-- A thread leaves its slot with its record changed by f; its spools and registers stand. -/
theorem leave_parts : (c.leave n k f).slot n k = none ∧ (c.leave n k f).thr sl.t = f (writeBack sl) ∧ Alike c (c.leave n k f) := by
  have hfollow := c.followMark_needles n sl.t false
  generalize hd : c.followMark n sl.t false = d at hfollow
  generalize hg : (d.setSlot n k none).setThr sl.t (f (writeBack sl)) = g
  have hgslot : g.slot n k = none := hg ▸ slot_setSlot_same ..
  have hgthr : g.thr sl.t = f (writeBack sl) := hg ▸ thr_setThr_same ..
  have hgalike : Alike c g := by
    subst hg
    rw [hfollow]
    exact ⟨fun _ _ => rfl, rfl, rfl⟩
  have hleave : c.leave n k f = if sl.fetching then g else (g.freshRecord sl.t).cntStore 0x131 1 := by
    unfold leave
    rw [hs]
    dsimp only
    rw [hd, hg]
  rw [hleave]
  split
  · exact ⟨hgslot, hgthr, hgalike⟩
  · have hfresh := freshRecord_parts g sl.t
    generalize g.freshRecord sl.t = v at hfresh
    have hv : v.needles = g.needles ∧ v.threads = g.threads ∧ Alike g v := by
      rw [hfresh]
      exact ⟨rfl, rfl, fun _ _ => rfl, rfl, rfl⟩
    obtain ⟨hnd, hthr, halike⟩ := hv
    have hcnt : Alike v (v.cntStore 0x131 1) := ⟨fun _ hr => v.rd_cntStore 0x131 1 (.inl hr), cntStore_spools .., cntStore_lanes ..⟩
    refine ⟨?_, ?_, hgalike.trans (halike.trans hcnt)⟩
    · exact (slot_of_needles ((cntStore_needles ..).trans hnd) n k).trans hgslot
    · simp only [thr, cntStore_threads, hthr]
      exact hgthr

end Leave

theorem spools_issue (e : Env) (c : Chip) (pd : Nat) (b : Burst) : (c.issue e pd b).1.spools = c.spools := by
  unfold issue present
  dsimp only
  split
  · split <;> rfl
  · rfl

/-- The first refill of a spool takes granule 0. -/
theorem startRefill_first {e : Env} {c : Chip} {m b t : Nat} (h : (c.spool m).refills = []) :
    ((c.startRefill e m b t).spool m).refills = [{ g := 0, block := b, owner := t, ready := false }] ∧
    ((c.startRefill e m b t).spool m).waits = (c.spool m).waits := by
  have hissued (d : Chip) (pd : Nat) (x : Burst) : (d.issue e pd x).1.spool m = d.spool m := spool_of_spools (spools_issue ..) m
  unfold startRefill
  dsimp only
  rw [h]
  simp only [List.any_nil, Bool.false_eq_true, if_false, Bool.not_false, List.find?_cons_of_pos, List.nil_append]
  split
  · rw [spool_of_spools (cntSpool_spools ..), hissued, spool_setSpool_same]
    exact ⟨rfl, rfl⟩
  · rw [spool_setSpool_same, hissued, spool_setSpool_same]
    exact ⟨rfl, rfl⟩

theorem alike_setSt (c : Chip) (t : Nat) (st : TState) : Alike c (c.setSt t st) := ⟨fun _ _ => rfl, rfl, rfl⟩

/-- A thread that waits for a refill asks for its block. -/
theorem registerWait_refill {e : Env} {c : Chip} {t m p : Nat} (hm : m < 256) (hkind : (c.thr t).kind = kRefill) (harg : (c.thr t).arg = m)
    (he : c.spEn m ≠ .off) (hp : c.cursorPos (c.thr t) = some p) (hbad : (c.spool m).deepBad = false) (hg : c.granuleOf m p = none) :
    c.registerWait e t = ((c.setSt t .waiting).setRefillWait m t (some (p / 32))).startRefill e m (p / 32) t := by
  have hd := c.alike_setSt t .waiting
  have hthr : (c.setSt t .waiting).thr t = { c.thr t with st := .waiting } := thr_setThr_same ..
  have hkind' : ((c.setSt t .waiting).thr t).kind = kRefill := hthr ▸ hkind
  have harg' : ((c.setSt t .waiting).thr t).arg = m := hthr ▸ harg
  have hpos : (c.setSt t .waiting).cursorPos ((c.setSt t .waiting).thr t) = some p := by
    rw [hthr, hd.cursorPos]
    exact hp
  have hgran : (c.setSt t .waiting).granuleOf m p = none := (hd.granuleOf hm p).trans hg
  have hsound : ((c.setSt t .waiting).spool m).deepBad = false := hbad
  unfold registerWait
  dsimp only
  rw [hkind', harg', Nat.mod_eq_of_lt hm, hpos, hd.spEn hm]
  simp [kRefill, kXing, kDec, kSpool, kDesc, kLock, kReq, kTimer, he, hgran, hsound]

theorem refilled_setRefillWait (c : Chip) (m t : Nat) (b : Option Nat) : Refilled m c (c.setRefillWait m t b) :=
  refilled_setSpool c m (c.spool m).refills (c.spool m).wants (c.spool m).refillIn _

theorem spool_setRefillWait (c : Chip) (m t b : Nat) : (c.setRefillWait m t (some b)).spool m = { c.spool m with
    waits := ((c.spool m).waits.filter fun x => x.1 != t) ++ [(t, b)] } := spool_setSpool_same ..

/-- A thread registered for the first refill of a spool waits for its block, and the block is asked for. -/
theorem registered_first {e : Env} {c : Chip} {t m b : Nat} (hr : (c.spool m).refills = []) :
    let d := ((c.setSt t .waiting).setRefillWait m t (some b)).startRefill e m b t
    Refilled m (c.setSt t .waiting) d ∧ (t, b) ∈ (d.spool m).waits ∧
      (d.spool m).refills = [{ g := 0, block := b, owner := t, ready := false }] := by
  have hspool := (c.setSt t .waiting).spool_setRefillWait m t b
  have hwaits := (c.setSt t .waiting).refilled_setRefillWait m t (some b)
  generalize (c.setSt t .waiting).setRefillWait m t (some b) = v at hspool hwaits
  obtain ⟨hrefills, hkept⟩ := startRefill_first (e := e) (c := v) (m := m) (b := b) (t := t) (by rw [hspool]; exact hr)
  refine ⟨hwaits.trans (refilled_startRefill m v e b t), ?_, hrefills⟩
  rw [hkept, hspool]
  exact List.mem_append_right _ List.mem_cons_self

/-! A mark that is LAPPED (R66) -/

section LapMark

variable (c : Chip) (m : Nat) (x : MarkEnt)

theorem spool_lapMark : (c.lapMark m x).spool m = { c.spool m with
    q := (c.spool m).q.map fun y => if y.slot = x.slot then { y with st := .lapped } else y } := by
  unfold lapMark
  dsimp only
  rw [spool_of_spools (bbEvent_spools ..)]
  exact spool_setSpool_same ..

theorem lapMark_reads (hm : m < 256) :
    (c.lapMark m x).fld (.spCnt m) F.SpCnt.LAP_CNT = min (c.fld (.spCnt m) F.SpCnt.LAP_CNT + 1) (2 ^ F.SpCnt.LAP_CNT.width - 1) ∧
    (c.lapMark m x).fld (.spLapat m) F.SpLapat.POS = x.pos % 2 ^ F.SpLapat.POS.width ∧
    (c.lapMark m x).bit (.spStat m) F.SpStat.LAP = true := by
  unfold lapMark
  dsimp only
  have hbb (d : Chip) (r : Reg) (hr : r.offset ≠ Reg.bbStat.offset) (w0 w1 : Word) : (d.bbEvent 0x04 w0 w1).rd r = d.rd r :=
    d.rd_bbEvent 0x04 w0 w1 hr
  refine ⟨?_, ?_, ?_⟩
  · refine (congrArg (fget · _) (hbb _ (.spCnt m) (by simp only [Reg.offset]; omega) _ _)).trans ?_
    refine (fld_setF_other _ (by simp only [Reg.offset, ne_eq]; omega) _ _ _).trans
      ((fld_setF_other _ (by simp only [Reg.offset, ne_eq]; omega) _ _ _).trans ?_)
    exact fld_tally_same _ _ ⟨by decide, by decide⟩ 1
  · refine (congrArg (fget · _) (hbb _ (.spLapat m) (by simp only [Reg.offset]; omega) _ _)).trans ?_
    refine (fld_setF_other _ (by simp only [Reg.offset, ne_eq]; omega) _ _ _).trans ?_
    exact fld_setF_same _ _ ⟨by decide, by decide⟩ _
  · refine (congrArg (fbit · _) (hbb _ (.spStat m) (by simp only [Reg.offset]; omega) _ _)).trans ?_
    exact bit_flag_same _ _ ⟨by decide, by decide⟩

end LapMark

end Chip

theorem exec_rewind (n : Fin 128) (k : Fin 8) (s : State) : exec (.rewind n k) s = s.issue n k fun e c i => match i with
    | .rewind wd ws off => some (c.doRewind e n k wd ws off)
    | _ => none := rfl


/-- The record that an issued thread takes out of its slot. -/
theorem writeBack_issued (sl : Slot) (i : WInstr) : Chip.writeBack (issuedSlot sl i (stepped sl.live)) = leaving sl := by
  by_cases ha : sl.live.afix = true
  · simp [Chip.writeBack, leaving, issuedSlot, stepped, ha]
  · simp [Chip.writeBack, leaving, issuedSlot, stepped, ha]

section Rewind

variable {s : State} {n : Fin 128} {k : Fin 8} {sl : Slot} {wd ws off h m : Nat} (hi : Issues s n k sl (.rewind wd ws off))
  (hh : (sl.live.reg ws).toNat = h) (hm : h / 2 ^ 16 % 256 = m) (he : s.chip.spEn m ≠ .off)
include hi hh hm he

/-- What a REWIND does on the chip of its issue, d, whose spool's store cycle has counted: d is as the chip was before. -/
theorem rewind_does {P : State → Prop} (hP : ∀ d evs, Chip.IssueBegun n k sl (.rewind wd ws off) s.chip d →
      let c := d.spoolCycle m evs
      s.chip.Alike c → OnlyRegs d c → KeepsButCounts d c [] →
      P { s with chip := (s.chip.rewound s.env c n k wd off h).afterIssue s.env n sl.t }) : Completes (.rewind n k) s P := by
  refine completes_issue (exec_rewind n k s) hi fun d hd => ⟨_, rfl, ?_⟩
  subst hm
  have hc := hd.alike
  have hreg : ((d.live n k).reg ws).toNat = h := by rw [hd.live]; exact hh
  have hlt : h / 2 ^ 16 % 256 < 256 := Nat.mod_lt _ (by decide)
  obtain ⟨evs, hdo⟩ := Chip.doRewind_eq (e := s.env) (wd := wd) (off := off) hreg (by rw [hc.spEn hlt]; exact he)
  have hlaps : d.rewindLaps h = s.chip.rewindLaps h := by
    unfold Chip.rewindLaps
    dsimp only
    rw [hc.spEn hlt, hc.markOf]
    simp only [hc.overtaken hlt]
  have hsame (c : Chip) : d.rewound s.env c n k wd off h = s.chip.rewound s.env c n k wd off h := by
    simp only [Chip.rewound, hc.markOf, hlaps]
  rw [hdo, hsame]
  exact hP d evs hd (hc.trans (d.alike_spoolCycle _ evs)) (d.spoolCycle_only _ evs) fun r hr _ => d.rd_spoolCycle _ evs hr

/-- A REWIND that answers a code. -/
theorem rewind_fails {code : Nat}
    (hcode : ∀ c : Chip, s.chip.Alike c → s.chip.rewound s.env c n k wd off h = c.resultCode n k wd code) :
    Completes (.rewind n k) s fun t =>
      IssuedOnly s t n k (issuedSlot sl (.rewind wd ws off) (coded wd code (stepped sl.live))) := by
  refine rewind_does hi hh hm he fun d evs hd hc ho hk => ?_
  rw [hcode _ hc]
  exact issuedOnly_counted hd ho hk _ sl.t

theorem rewind_badmark (hx : s.chip.markOf h = none) : Completes (.rewind n k) s fun t =>
    IssuedOnly s t n k (issuedSlot sl (.rewind wd ws off) (coded wd 2 (stepped sl.live))) :=
  rewind_fails hi hh hm he fun c hc => by rw [Chip.rewound, hx]; rfl

variable {x : MarkEnt} (hx : s.chip.markOf h = some x)
include hx

theorem rewind_released (hst : x.st = .released) : Completes (.rewind n k) s fun t =>
    IssuedOnly s t n k (issuedSlot sl (.rewind wd ws off) (coded wd 2 (stepped sl.live))) :=
  rewind_fails hi hh hm he fun c hc => by rw [Chip.rewound, hx]; exact if_pos hst

theorem rewind_lapped (hst : x.st = .lapped) : Completes (.rewind n k) s fun t =>
    IssuedOnly s t n k (issuedSlot sl (.rewind wd ws off) (coded wd 1 (stepped sl.live))) :=
  rewind_fails hi hh hm he fun c hc => by rw [Chip.rewound, hx]; simp [hst]

variable (hst : x.st = .held)
include hst

omit hi hh in
/-- A REWIND to a mark that stands and is not overtaken goes on. -/
theorem rewind_goes (hl : s.chip.overtaken m x.pos = false) (c : Chip) :
    s.chip.rewound s.env c n k wd off h = c.rewindTo s.env n k wd off h ((x.pos + off) % 2 ^ 48) := by
  subst hm
  have hlaps := Chip.rewindLaps_held he hx hst
  rw [Chip.rewound, hx, Option.elim_some, hlaps, hl]
  simp [hst]

theorem rewind_beyond (hl : s.chip.overtaken m x.pos = false) (hd : 0 < posDiff ((x.pos + off) % 2 ^ 48) (s.chip.wp m)) :
    Completes (.rewind n k) s fun t =>
      IssuedOnly s t n k (issuedSlot sl (.rewind wd ws off) (coded wd 7 (stepped sl.live))) := by
  refine rewind_fails hi hh hm he fun c hc => (rewind_goes hm he hx hst hl c).trans ?_
  subst hm
  unfold Chip.rewindTo
  dsimp only
  rw [hc.wp (Nat.mod_lt _ (by decide))]
  exact if_pos hd

theorem rewind_deeperr (hl : s.chip.overtaken m x.pos = false) (hd : posDiff ((x.pos + off) % 2 ^ 48) (s.chip.wp m) < 0)
    (hhost : s.chip.hostResident m ((x.pos + off) % 2 ^ 48) = true) (hbad : (s.chip.spool m).deepBad = true) :
    Completes (.rewind n k) s fun t =>
      IssuedOnly s t n k (issuedSlot sl (.rewind wd ws off) (coded wd 8 (stepped sl.live))) := by
  refine rewind_fails hi hh hm he fun c hc => (rewind_goes hm he hx hst hl c).trans ?_
  subst hm
  have hlt : h / 2 ^ 16 % 256 < 256 := Nat.mod_lt _ (by decide)
  unfold Chip.rewindTo
  dsimp only
  rw [hc.wp hlt, hc.hostResident hlt, hc.spool, if_neg (by omega), if_pos ⟨hd, hhost⟩, if_pos hbad]

/-- The guard has overtaken the mark: it becomes LAPPED. -/
theorem rewind_laps (hmode : s.chip.spMode m = 1) (hle : x.pos ≤ s.chip.wp m) (hwp : s.chip.wp m < 2 ^ 47)
    (hcap : s.chip.spCap m < s.chip.wp m - x.pos + s.chip.spGuard m) : Completes (.rewind n k) s fun t =>
      t.chip.slot n k = some (issuedSlot sl (.rewind wd ws off) (coded wd 1 (stepped sl.live))) ∧
      (∀ y ∈ (t.chip.spool m).q, y.slot = x.slot → y.st = .lapped) ∧
      Counts s.chip t.chip (.spCnt m) F.SpCnt.LAP_CNT 1 ∧ t.chip.fld (.spLapat m) F.SpLapat.POS = x.pos ∧
      t.chip.bit (.spStat m) F.SpStat.LAP = true ∧ t.chip.wp m = s.chip.wp m ∧ KeepsOutside s t := by
  refine rewind_does hi hh hm he fun d evs hd hc ho hk => ?_
  subst hm
  have hlt : h / 2 ^ 16 % 256 < 256 := Nat.mod_lt _ (by decide)
  have hlaps : s.chip.rewindLaps h = true :=
    (Chip.rewindLaps_held he hx hst).trans ((Chip.overtaken_iff hle hwp).mpr ⟨hmode, hcap⟩)
  generalize d.spoolCycle (h / 2 ^ 16 % 256) evs = c at hc ho hk ⊢
  have hdone : s.chip.rewound s.env c n k wd off h =
      ((c.lapMark (h / 2 ^ 16 % 256) x).recomputeFp (h / 2 ^ 16 % 256)).resultCode n k wd 1 := by
    rw [Chip.rewound, hx, Option.elim_some, hlaps]
    simp [hst]
  rw [hdone]
  generalize h / 2 ^ 16 % 256 = m at hmode hle hwp hcap hlt ⊢
  obtain ⟨hcnt, hat, hbit⟩ := c.lapMark_reads m x hlt
  have hmark := c.spoolStep_lapMark m x
  have hspool := c.spool_lapMark m x
  generalize c.lapMark m x = g at hcnt hat hbit hmark hspool ⊢
  obtain ⟨f, hf⟩ := g.spool_recomputeFp m
  have hkept := (g.recomputeFp_steps m).keeps
  have hslot : (g.recomputeFp m).slot n k = some (issuedSlot sl (.rewind wd ws off) (stepped sl.live)) :=
    ((g.recomputeFp_steps m).slot n k).trans ((hmark.slot n k).trans
      ((Chip.slot_of_needles (Chip.needles_of_only ho) n k).trans hd.slot))
  have hwpg : (g.recomputeFp m).wp m = s.chip.wp m :=
    (g.wp_recomputeFp m hlt).trans ((Chip.wp_of_steps hmark hlt (by simp [Reg.offset]; omega)).trans (hc.wp hlt))
  generalize g.recomputeFp m = v at hf hkept hslot hwpg ⊢
  have hrd (r : Reg) : ((v.resultCode n k wd 1).afterIssue s.env n sl.t).rd r = v.rd r := by
    rw [Chip.rd_afterIssue, Chip.resultCode_eq, Chip.mapLive_of_slot hslot]
    rfl
  have hkeep (r : Reg) (hr : r.offset < 0x70000) (hne : ([Reg.spFp m, Reg.spLvl m].all fun q => r.offset != q.offset) = true) :
      ((v.resultCode n k wd 1).afterIssue s.env n sl.t).rd r = g.rd r := (hrd r).trans (hkept r (.inl hr) (by simpa using hne))
  refine ⟨?_, fun y hy hys => ?_, ?_, ?_, ?_, (Chip.wp_of_rd (hrd _)).trans hwpg, keepsOutside_chip ..⟩
  · rw [(Chip.sampled_after s.env _ sl.t).slot, Chip.resultCode_eq, Chip.mapLive_of_slot hslot]
    exact Chip.slot_setSlot_same ..
  · rw [Chip.afterIssue_only, Chip.resultCode_eq, Chip.mapLive_of_slot hslot] at hy
    have hq : (v.spool m).q = _ := (congrArg Spool.q hf).trans ((Chip.q_dropMarks _ _).trans (by rw [hspool]))
    exact Chip.st_of_slot (hq ▸ hy) hys
  · refine (congrArg (fget · _) (hkeep (.spCnt m) (by simp only [Reg.offset]; omega) (by simp [Reg.offset]))).trans ?_
    refine hcnt.trans (congrArg (fun w => min (fget w F.SpCnt.LAP_CNT + 1) (2 ^ F.SpCnt.LAP_CNT.width - 1)) ?_)
    exact hc.low _ (by simp only [Reg.offset]; omega)
  · refine (congrArg (fget · _) (hkeep (.spLapat m) (by simp only [Reg.offset]; omega) (by simp [Reg.offset]))).trans ?_
    refine hat.trans (Nat.mod_eq_of_lt ?_)
    show x.pos < 2 ^ 48
    omega
  · exact (congrArg (fbit · _) (hkeep (.spStat m) (by simp only [Reg.offset]; omega) (by simp [Reg.offset]))).trans hbit

theorem rewind_moves (hd : posDiff ((x.pos + off) % 2 ^ 48) (s.chip.wp m) ≤ 0)
    (hlap : s.chip.spMode m = 1 → x.pos ≤ s.chip.wp m ∧ s.chip.wp m < 2 ^ 47 ∧
      s.chip.wp m - x.pos + s.chip.spGuard m ≤ s.chip.spCap m)
    (hdeep : s.chip.spMode m = 2 → posDiff ((x.pos + off) % 2 ^ 48) (s.chip.wp m) < 0 →
      s.chip.hostResident m ((x.pos + off) % 2 ^ 48) = false) : Completes (.rewind n k) s fun t =>
      t.chip.slot n k = some (issuedSlot sl (.rewind wd ws off) (coded wd 0 (Chip.atMark h off (stepped sl.live)))) ∧
      t.chip.cursorPos (t.chip.live n k) = some ((x.pos + off) % 2 ^ 48) ∧ KeepsOutside s t := by
  refine rewind_does hi hh hm he fun d evs hd' hc ho hk => ?_
  have hgoes := rewind_goes (n := n) (k := k) (wd := wd) (off := off) hm he hx hst (Chip.not_overtaken hlap)
  subst hm
  have hlt : h / 2 ^ 16 % 256 < 256 := Nat.mod_lt _ (by decide)
  generalize d.spoolCycle (h / 2 ^ 16 % 256) evs = c at hc ho hk ⊢
  have hto : s.chip.rewound s.env c n k wd off h = ((c.mapLive n k (Chip.atMark h off)).resultCode n k wd 0).sweepRefills s.env
      (h / 2 ^ 16 % 256) := by
    rw [hgoes c]
    unfold Chip.rewindTo
    dsimp only
    rw [hc.wp hlt, hc.hostResident hlt, if_neg (by omega), Nat.mod_eq_of_lt (Chip.lt_of_markOf hx)]
    refine if_neg fun hhost => ?_
    rw [hdeep (Chip.spMode_of_hostResident hhost.2) hhost.1] at hhost
    exact Bool.false_ne_true hhost.2
  have hslot : c.slot n k = some (issuedSlot sl (.rewind wd ws off) (stepped sl.live)) :=
    (Chip.slot_of_needles (Chip.needles_of_only ho) n k).trans hd'.slot
  rw [Chip.resultCode_eq, Chip.mapLive_of_slot hslot, Chip.mapLive_of_slot (Chip.slot_setSlot_same ..)] at hto
  rw [hto]
  generalize hy : (c.setSlot n k _).setSlot n k _ = y
  have hyslot : y.slot n k = _ := hy ▸ Chip.slot_setSlot_same ..
  have hys : y.spools = c.spools := hy ▸ rfl
  have hswept := Chip.refilled_sweepRefills (h / 2 ^ 16 % 256) y s.env
  have hat := (hswept.slot_after s.env n sl.t n k).trans hyslot
  obtain ⟨hq, hepochs⟩ := hswept.spool_after s.env n sl.t
  refine ⟨hat, ?_, keepsOutside_chip ..⟩
  have hspool : y.spool (h / 2 ^ 16 % 256) = s.chip.spool (h / 2 ^ 16 % 256) := (Chip.spool_of_spools hys _).trans (hc.spool _)
  rw [Chip.live_of_slot hat]
  refine Chip.cursorPos_atMark ?_ (x := x) (h := h) (by rw [hst]; decide) rfl rfl rfl rfl
  rw [← hx]
  exact Chip.markOf_congr (hq.trans (congrArg Spool.q hspool)) (hepochs.trans (congrArg Spool.epochs hspool))

/-- A block in host memory is asked for, and the thread waits for it. -/
theorem rewind_waits (hd : posDiff ((x.pos + off) % 2 ^ 48) (s.chip.wp m) < 0)
    (hhost : s.chip.hostResident m ((x.pos + off) % 2 ^ 48) = true) (hbad : (s.chip.spool m).deepBad = false)
    (hr : (s.chip.spool m).refills = []) : Completes (.rewind n k) s fun t =>
      t.chip.slot n k = none ∧
      t.chip.thr sl.t = { Chip.atMark h off (leaving sl) with
        st := .waiting, kind := kRefill, arg := m, retReg := wd, undo := some sl.live.cursor } ∧
      (sl.t, (x.pos + off) % 2 ^ 48 / 32) ∈ (t.chip.spool m).waits ∧
      (t.chip.spool m).refills = [{ g := 0, block := (x.pos + off) % 2 ^ 48 / 32, owner := sl.t, ready := false }] ∧
      KeepsOutside s t := by
  refine rewind_does hi hh hm he fun d evs hd' hc ho hk => ?_
  have hmode := Chip.spMode_of_hostResident hhost
  have hgoes := rewind_goes (n := n) (k := k) (wd := wd) (off := off) hm he hx hst
    (Chip.not_overtaken fun h1 => absurd (hmode.symm.trans h1) (by decide))
  have hlt : m < 256 := hm ▸ Nat.mod_lt _ (by decide)
  have hnone := Chip.granuleOf_host hhost hr
  generalize d.spoolCycle m evs = c at hc ho hk ⊢
  have hslot : c.slot n k = some (issuedSlot sl (.rewind wd ws off) (stepped sl.live)) :=
    (Chip.slot_of_needles (Chip.needles_of_only ho) n k).trans hd'.slot
  have hto : s.chip.rewound s.env c n k wd off h = c.leaveWait s.env n k kRefill m fun th =>
      { Chip.atMark h off th with retReg := wd, undo := some th.cursor } := by
    rw [hgoes c]
    unfold Chip.rewindTo
    dsimp only
    rw [hm, hc.wp hlt, hc.hostResident hlt, hc.spool, hc.granuleOf hlt, if_neg (by omega), if_pos ⟨hd, hhost⟩, hbad, hnone,
      Nat.mod_eq_of_lt (Chip.lt_of_markOf hx)]
    rfl
  obtain ⟨hleft, hthr, halike⟩ := Chip.leave_parts c hslot (Chip.awaitsRefill wd off h m)
  rw [writeBack_issued] at hthr
  replace hthr : (c.leave n k (Chip.awaitsRefill wd off h m)).thr sl.t = Chip.awaitsRefill wd off h m (leaving sl) := hthr
  have hwait : s.chip.rewound s.env c n k wd off h = (c.leave n k (Chip.awaitsRefill wd off h m)).registerWait s.env sl.t := by
    rw [hto]
    unfold Chip.leaveWait
    rw [hslot]
    rfl
  rw [hwait]
  generalize c.leave n k (Chip.awaitsRefill wd off h m) = g at hleft hthr halike ⊢
  replace halike := hc.trans halike
  have hpos : g.cursorPos (g.thr sl.t) = some ((x.pos + off) % 2 ^ 48) := by
    rw [halike.cursorPos, hthr]
    exact Chip.cursorPos_atMark hx (by rw [hst]; decide) rfl rfl rfl rfl
  rw [Chip.registerWait_refill hlt (by rw [hthr]; rfl) (by rw [hthr]; rfl) (by rw [halike.spEn hlt]; exact he) hpos
    (by rw [halike.spool]; exact hbad) (by rw [halike.granuleOf hlt]; exact hnone)]
  generalize (x.pos + off) % 2 ^ 48 / 32 = b
  obtain ⟨hall, hwaits, hrefills⟩ := Chip.registered_first (e := s.env) (c := g) (t := sl.t) (m := m) (b := b)
    ((congrArg Spool.refills (halike.spool m)).trans hr)
  generalize ((g.setSt sl.t .waiting).setRefillWait m sl.t (some b)).startRefill s.env m b sl.t = v at hall hwaits hrefills
  refine ⟨(hall.slot_after s.env n sl.t n k).trans hleft, (hall.thr_after s.env n sl.t sl.t).trans ?_, ?_, ?_, keepsOutside_chip ..⟩
  · exact (Chip.thr_setThr_same ..).trans (by rw [hthr]; rfl)
  · rw [Chip.afterIssue_only]
    exact hwaits
  · rw [Chip.afterIssue_only]
    exact hrefills

end Rewind

/-! O19 -/

/-- Settles O19, by a lemma for each answer of MARK, RELEASE and REWIND. -/
theorem marksAndRewinds : Obligations.MarksAndRewinds := by
  refine ⟨fun s n k pick sl wd ws mode m hm _ hmode h => ⟨mark_disabled hm h, fun he hnear => ?_⟩, fun s n k sl wd ws _ _ => ⟨?_, ?_⟩⟩
  · have hnames (p : Nat) := Chip.markPos_eq_some (c := s.chip) (th := sl.live) (ws := ws) (p := p) hmode hnear
    refine ⟨fun hnone => mark_notfound hm h he (Option.eq_none_iff_forall_ne_some.mpr fun p hp => hnone p ((hnames p).mp hp)),
      fun p hp => ?_⟩
    have hpos := (hnames p).mpr hp
    exact ⟨fun x => mark_order hm h he hpos, fun hx => ⟨mark_full hm h he hpos hx, mark_takes hm h he hpos hx⟩⟩
  · exact fun h he _ => ⟨fun x => release_current h rfl rfl he, release_bad h rfl rfl he⟩
  · refine fun off h he hr => ⟨rewind_badmark h rfl rfl he, fun x hx => ⟨rewind_released h rfl rfl he hx, rewind_lapped h rfl rfl he hx,
      rewind_laps h rfl rfl he hx, fun hst hmode hd => ?_, fun hst hd hlap hdeep => ?_, fun hst hhost hd => ⟨?_, ?_⟩⟩⟩
    · exact rewind_beyond h rfl rfl he hx hst (Chip.not_overtaken fun h1 => absurd h1 hmode) hd
    · exact rewind_moves h rfl rfl he hx hst hd hlap hdeep
    · have hmode := Chip.spMode_of_hostResident hhost
      exact rewind_deeperr h rfl rfl he hx hst (Chip.not_overtaken fun h1 => absurd (hmode.symm.trans h1) (by decide)) hd hhost
    · exact fun hbad => rewind_waits h rfl rfl he hx hst hd hhost hbad hr

end Sys2Proof.Machine

/-! PROOFS of the statements of 04_threads_and_needles.md. O29: START, HALT and KILL. -/

namespace Sys2Proof.Machine

namespace Chip

/-! Commands on threads (R83) -/

section Commands

variable {e : Env} {c : Chip} {t gen : Nat} {gchk : Bool}

/-- No command is owed to a thread that has faulted (R294). -/
def NoneOwed (c : Chip) (t : Nat) : Prop := (c.thr t).st = .fault → (c.thr t).cmd = none

theorem faultCmd_noneOwed (e : Env) (h : c.NoneOwed t) : c.faultCmd e t = c := by
  unfold faultCmd
  dsimp only
  split
  · rfl
  · next hst =>
    rw [h (not_not.mp hst)]

theorem staleGen_eq_false : c.staleGen t gchk gen = false ↔ gchk = false ∨ gen = (c.copyOf t).gen := by
  cases gchk <;> simp [staleGen]

theorem staleGen_eq_true : c.staleGen t gchk gen = true ↔ ¬ (gchk = false ∨ gen = (c.copyOf t).gen) := by
  rw [← staleGen_eq_false, Bool.not_eq_false]

/-- The GEN check is off. -/
theorem staleGen_unchecked : c.staleGen t false gen = false := rfl

variable (h : c.NoneOwed t)
include h

theorem thCmd_stale {op : Nat} (h1 : op ≠ 0) (h4 : op ≤ 4) (hg : c.staleGen t gchk gen = true) :
    c.thCmd e op t gchk gen = c.flag .thStat F.ThStat.CMD_STALE := by
  unfold thCmd
  dsimp only
  rw [faultCmd_noneOwed e h, if_neg (by omega), if_pos hg]

theorem doorbell_stale (hg : c.staleGen t gchk gen = true) : c.doorbell e t gchk gen = c.flag .thStat F.ThStat.CMD_STALE := by
  unfold doorbell
  dsimp only
  rw [faultCmd_noneOwed e h, if_pos hg]

variable (hg : c.staleGen t gchk gen = false)
include hg

theorem thCmd_start : c.thCmd e 1 t gchk gen = c.threadStart t := by
  unfold thCmd
  rw [faultCmd_noneOwed e h]
  simp [hg]

theorem thCmd_halt : c.thCmd e 2 t gchk gen = c.threadHalt e t := by
  unfold thCmd
  rw [faultCmd_noneOwed e h]
  simp [hg]

theorem thCmd_resume : c.thCmd e 3 t gchk gen = c.threadResume e t := by
  unfold thCmd
  rw [faultCmd_noneOwed e h]
  simp [hg]

theorem thCmd_kill : c.thCmd e 4 t gchk gen = c.threadKill e t := by
  unfold thCmd
  rw [faultCmd_noneOwed e h]
  simp [hg]

end Commands

/-- Only the status bit of a command that is refused changes. -/
theorem thStat_flagged (c : Chip) {f : Fld} (hf : f.ok) :
    (c.flag .thStat f).bit .thStat f = true ∧ KeepsRegs c (c.flag .thStat f) [.thStat] ∧ OnlyRegs c (c.flag .thStat f) :=
  ⟨bit_flag_same _ _ hf, keeps_flag (keeps_refl c _) List.mem_cons_self _, only_wr (only_refl c) _ _⟩

/-- What START clears of a record (R83). -/
def startCleared (th : Thread) : Thread := { th with fF := false, fC := false, fN := false, fZ := false, bv := false, hv := false, cv := false }

theorem threadStart_idle {c : Chip} {t : Nat} (h : (c.thr t).st = .idle) : c.threadStart t = c.wake t startCleared :=
  if_neg (not_not_intro h)

theorem threadStart_refused {c : Chip} {t : Nat} (h : (c.thr t).st ≠ .idle) : c.threadStart t = c.flag .thStat F.ThStat.CMD_STATE :=
  if_pos h

/-! A thread out of every ready queue (R82) -/

section Unqueue

variable (c : Chip) (t : Nat)

theorem get_map_values {α : Type} {d : α} {f : α → α} (hd : f d = d) (l : Tab α) (i : Nat) :
    Tab.get d (l.map fun q => (q.1, f q.2)) i = f (Tab.get d l i) := by
  induction l with
  | nil => exact hd.symm
  | cons q l ih =>
    obtain ⟨k, v⟩ := q
    simp only [List.map_cons, Tab.get, ih]
    split <;> rfl

/-- A needle whose ready queues do not hold thread t. -/
def unqueued (nd : Needle) (t : Nat) : Needle := { nd with queues := nd.queues.map fun l => l.filter (· ≠ t) }

theorem ndl_unqueue (n : Nat) : (c.unqueue t).ndl n = unqueued (c.ndl n) t :=
  get_map_values (f := fun nd => unqueued nd t) rfl c.needles n

theorem not_mem_queueOf_unqueue (n q : Nat) : t ∉ queueOf ((c.unqueue t).ndl n) q := by
  rw [ndl_unqueue]
  unfold queueOf unqueued
  rw [List.getElem?_map]
  cases (c.ndl n).queues[q]? <;> simp

theorem suspendedOn_unqueue (u : Nat) : (c.unqueue t).suspendedOn u = c.suspendedOn u := by
  unfold suspendedOn unqueue
  rw [List.findSome?_map]
  rfl

end Unqueue

/-! KILL of a thread that holds no slot, no mark and no lock (R83) -/

/-- The record of a thread that is killed. -/
def killed (th : Thread) : Thread :=
  { th with st := .idle, kind := kNone, arg := 0, gen := (th.gen + 1) % 2 ^ 16, cmd := none, sealing := false, undo := none }

theorem dropSuspended_none {c : Chip} {t : Nat} (h : c.suspendedOn t = none) : c.dropSuspended t = c := by
  unfold dropSuspended
  rw [h]

theorem dropRingWaits_none {c : Chip} (h : c.seam.ringLocks = []) (t : Nat) : c.dropRingWaits t = c := by
  have hseam : { c.seam with ringLocks := [] } = c.seam := by rw [← h]
  unfold dropRingWaits
  dsimp only
  rw [h, List.map_nil, List.filter_nil, hseam]

/-- A REFILL wait of the thread ends at its spool, as KILL begins. -/
def waitDropped (c : Chip) (t : Nat) : Chip :=
  if (c.thr t).kind = kRefill then c.setRefillWait ((c.thr t).arg % 256) t none else c

theorem waitDropped_parts (c : Chip) (t : Nat) : c.waitDropped t = { c with spools := (c.waitDropped t).spools } := by
  unfold waitDropped
  split <;> rfl

section Kill

variable {c : Chip} {t : Nat} (hv : (c.thr t).hv = false) (hs : c.suspendedOn t = none) (hl : NoLocks c)
include hv hs hl

/-- With no mark, no suspended transfer and no lock, KILL is the end of a REFILL wait, the queues and the record. -/
theorem killNow_free (e : Env) : c.killNow e t = ((c.waitDropped t).unqueue t).setThr t (killed (c.thr t)) := by
  have hparts := c.waitDropped_parts t
  unfold killNow
  extract_lets th c1 c2 c3 th3 c4
  have h2 : c2 = c.waitDropped t := if_neg (by rw [hv]; decide)
  generalize c.waitDropped t = d at hparts h2 ⊢
  have hlocks : NoLocks (d.unqueue t) := by
    rw [hparts]
    exact hl
  have hsus : (d.unqueue t).suspendedOn t = none := by
    rw [suspendedOn_unqueue, hparts]
    exact hs
  have hthr : (d.unqueue t).thr t = c.thr t := by
    rw [hparts]
    rfl
  obtain ⟨-, hring, -⟩ := id hlocks
  have h3 : c3 = d.unqueue t := by
    unfold c3
    rw [h2, dropSuspended_none hsus, dropRingWaits_none hring]
  have ht : th3 = c.thr t := (congrArg (thr · t) h3).trans hthr
  have h4 : c4 = (d.unqueue t).setThr t (killed (c.thr t)) := by
    unfold c4
    rw [h3, ht]
    rfl
  rw [h4]
  exact breakLocks_none (c := (d.unqueue t).setThr t _) hlocks t

theorem killNow_parts (e : Env) : let d := c.killNow e t
    d.thr t = killed (c.thr t) ∧ (∀ v, v ≠ t → d.thr v = c.thr v) ∧ d.needles = (c.unqueue t).needles ∧ d.regs = c.regs := by
  have hparts := c.waitDropped_parts t
  rw [killNow_free hv hs hl]
  generalize c.waitDropped t = d at hparts ⊢
  rw [hparts]
  exact ⟨thr_setThr_same .., fun _ hne => thr_setThr_other _ hne _, rfl, rfl⟩

end Kill

theorem haltNow_parts (c : Chip) (t : Nat) : let d := c.haltNow t
    d.thr t = { c.thr t with st := .halted } ∧ (∀ v, v ≠ t → d.thr v = c.thr v) ∧ d.needles = (c.unqueue t).needles ∧ d.regs = c.regs :=
  ⟨thr_setThr_same .., fun _ hne => thr_setThr_other _ hne _, rfl, rfl⟩

theorem not_mem_queueOf {c d : Chip} {t : Nat} (h : d.needles = (c.unqueue t).needles) (n q : Nat) : t ∉ queueOf (d.ndl n) q := by
  have hn : d.ndl n = (c.unqueue t).ndl n := by simp only [ndl, h]
  rw [hn]
  exact not_mem_queueOf_unqueue c t n q

end Chip

/-! O29 -/

section Commands

variable {s : State} {u : Fin 262144} {gchk : Bool} {gen : BitVec 16} (hs : Ready s) (hn : s.chip.NoneOwed u)
include hs hn

section Fresh

variable (hg : gchk = false ∨ gen.toNat = (s.chip.copyOf u).gen)
include hg

theorem threadStart_starts (hst : (s.chip.thr u).st = .idle) (h : AtHome s.chip u) : Completes (.threadStart u gchk gen) s fun t =>
    Readied s.chip t.chip u (s.chip.thr u).aff { Chip.startCleared (s.chip.thr u) with kind := kNone, arg := 0 } ∧
      KeepsButCounts s.chip t.chip [.ndlStat (s.chip.thr u).aff] ∧ KeepsOutside s t := by
  obtain ⟨hready, hkeeps⟩ := Chip.wake_readied (t := u) Chip.startCleared rfl h
  exact completes_when rfl hs ((Chip.thCmd_start hn (Chip.staleGen_eq_false.mpr hg)).trans (Chip.threadStart_idle hst))
    ⟨hready, hkeeps, keepsOutside_chip ..⟩

theorem threadStart_refuses (hst : (s.chip.thr u).st ≠ .idle) : Completes (.threadStart u gchk gen) s fun t =>
    t.chip.bit .thStat F.ThStat.CMD_STATE = true ∧ KeepsRegs s.chip t.chip [.thStat] ∧ OnlyRegs s.chip t.chip ∧ KeepsOutside s t := by
  obtain ⟨hbit, hkeeps, honly⟩ := Chip.thStat_flagged s.chip (f := F.ThStat.CMD_STATE) ⟨by decide, by decide⟩
  exact completes_when rfl hs ((Chip.thCmd_start hn (Chip.staleGen_eq_false.mpr hg)).trans (Chip.threadStart_refused hst))
    ⟨hbit, hkeeps, honly, keepsOutside_chip ..⟩

end Fresh

/-- A command with the wrong generation, whatever it is. -/
theorem staleCommand_refuses (hg : ¬ (gchk = false ∨ gen.toNat = (s.chip.copyOf u).gen)) :
    ∀ i ∈ [Instr.threadStart u gchk gen, .threadHalt u gchk gen, .threadResume u gchk gen, .threadKill u gchk gen,
      .threadDoorbell u gchk gen], Completes i s fun t =>
        t.chip.bit .thStat F.ThStat.CMD_STALE = true ∧ KeepsRegs s.chip t.chip [.thStat] ∧ OnlyRegs s.chip t.chip ∧
          KeepsOutside s t := by
  have hstale := Chip.staleGen_eq_true.mpr hg
  obtain ⟨hbit, hkeeps, honly⟩ := Chip.thStat_flagged s.chip (f := F.ThStat.CMD_STALE) ⟨by decide, by decide⟩
  have flagged : let t : State := { s with chip := s.chip.flag .thStat F.ThStat.CMD_STALE }
      t.chip.bit .thStat F.ThStat.CMD_STALE = true ∧ KeepsRegs s.chip t.chip [.thStat] ∧ OnlyRegs s.chip t.chip ∧ KeepsOutside s t :=
    ⟨hbit, hkeeps, honly, keepsOutside_chip ..⟩
  intro i hi
  simp only [List.mem_cons, List.not_mem_nil, or_false] at hi
  rcases hi with rfl | rfl | rfl | rfl | rfl
  · exact completes_when rfl hs (Chip.thCmd_stale hn (by decide) (by decide) hstale) flagged
  · exact completes_when rfl hs (Chip.thCmd_stale hn (by decide) (by decide) hstale) flagged
  · exact completes_when rfl hs (Chip.thCmd_stale hn (by decide) (by decide) hstale) flagged
  · exact completes_when rfl hs (Chip.thCmd_stale hn (by decide) (by decide) hstale) flagged
  · exact completes_when rfl hs (Chip.doorbell_stale hn hstale) flagged

/-- HALT without a GEN check is what HALT does with the thread. -/
theorem threadHalt_completes {d : Chip} {P : State → Prop} (hd : s.chip.threadHalt s.env u = d) (hP : P { s with chip := d }) :
    Completes (.threadHalt u false 0) s P :=
  completes_when rfl hs ((Chip.thCmd_halt hn Chip.staleGen_unchecked).trans hd) hP

theorem threadHalt_halts (hst : (s.chip.thr u).st = .ready ∨ (s.chip.thr u).st = .waiting ∨ (s.chip.thr u).st = .parked) :
    Completes (.threadHalt u false 0) s fun t =>
      t.chip.thr u = { s.chip.thr u with st := .halted } ∧ (∀ n q, u.val ∉ Chip.queueOf (t.chip.ndl n) q) ∧
      t.chip.regs = s.chip.regs ∧ (∀ v, v ≠ u.val → t.chip.thr v = s.chip.thr v) ∧ KeepsOutside s t := by
  have hd : s.chip.threadHalt s.env u = s.chip.haltNow u := by
    unfold Chip.threadHalt
    rcases hst with hst | hst | hst <;> rw [hst]
  obtain ⟨hthr, hoth, hndl, hregs⟩ := s.chip.haltNow_parts u
  exact threadHalt_completes hs hn hd ⟨hthr, Chip.not_mem_queueOf hndl, hregs, hoth, keepsOutside_chip ..⟩

theorem threadHalt_refuses (hst : (s.chip.thr u).st = .idle ∨ (s.chip.thr u).st = .fault) :
    Completes (.threadHalt u false 0) s fun t =>
      t.chip.bit .thStat F.ThStat.CMD_STATE = true ∧ KeepsRegs s.chip t.chip [.thStat] ∧ OnlyRegs s.chip t.chip ∧ KeepsOutside s t := by
  have hd : s.chip.threadHalt s.env u = s.chip.flag .thStat F.ThStat.CMD_STATE := by
    unfold Chip.threadHalt
    rcases hst with hst | hst <;> rw [hst]
  obtain ⟨hbit, hkeeps, honly⟩ := Chip.thStat_flagged s.chip (f := F.ThStat.CMD_STATE) ⟨by decide, by decide⟩
  exact threadHalt_completes hs hn hd ⟨hbit, hkeeps, honly, keepsOutside_chip ..⟩

theorem threadHalt_again (hst : (s.chip.thr u).st = .halted) : Completes (.threadHalt u false 0) s fun t => t = s := by
  have hd : s.chip.threadHalt s.env u = s.chip := by
    unfold Chip.threadHalt
    rw [hst]
  exact threadHalt_completes hs hn hd rfl

theorem threadKill_kills (hi : (s.chip.thr u).st ≠ .idle) (hr : (s.chip.thr u).st ≠ .running) (hv : (s.chip.thr u).hv = false)
    (hsus : s.chip.suspendedOn u = none) (hl : NoLocks s.chip) : Completes (.threadKill u false 0) s fun t =>
      t.chip.thr u = Chip.killed (s.chip.thr u) ∧ (∀ n q, u.val ∉ Chip.queueOf (t.chip.ndl n) q) ∧
      t.chip.regs = s.chip.regs ∧ (∀ v, v ≠ u.val → t.chip.thr v = s.chip.thr v) ∧ KeepsOutside s t := by
  have hd : s.chip.threadKill s.env u = s.chip.killNow s.env u := by
    unfold Chip.threadKill
    split
    · next h => exact absurd h hi
    · next h => exact absurd h hr
    · rfl
  obtain ⟨hthr, hoth, hndl, hregs⟩ := Chip.killNow_parts hv hsus hl s.env
  exact completes_when rfl hs ((Chip.thCmd_kill hn Chip.staleGen_unchecked).trans hd)
    ⟨hthr, Chip.not_mem_queueOf hndl, hregs, hoth, keepsOutside_chip ..⟩

theorem threadKill_idle (hst : (s.chip.thr u).st = .idle) : Completes (.threadKill u false 0) s fun t => t = s := by
  have hd : s.chip.threadKill s.env u = s.chip := by
    unfold Chip.threadKill
    rw [hst]
  exact completes_when rfl hs ((Chip.thCmd_kill hn Chip.staleGen_unchecked).trans hd) rfl

end Commands

/-- Settles O29, by a lemma for each command and state of the thread. -/
theorem threadCommands : Obligations.ThreadCommands := by
  refine ⟨fun s u gchk gen hs hn => ⟨fun hg => threadStart_starts hs hn hg, fun hg => threadStart_refuses hs hn hg,
    staleCommand_refuses hs hn⟩, fun s u hs hn => ⟨threadHalt_halts hs hn, threadHalt_refuses hs hn, threadHalt_again hs hn,
    threadKill_kills hs hn, threadKill_idle hs hn⟩⟩

end Sys2Proof.Machine

/-! PROOFS of the statements of 04_threads_and_needles.md, continued. O30: RESUME, its seal, and commands at a boundary. -/

namespace Sys2Proof.Machine

namespace Chip

/-! RESUME (R84) -/

section Resume

variable {c : Chip} {t : Nat}

/-- A thread at home becomes READY with its record as it stands. -/
theorem makeReady_readied (h : AtHome c t) :
    Readied c (c.makeReady t) t (c.thr t).aff (c.thr t) ∧ KeepsButCounts c (c.makeReady t) [.ndlStat (c.thr t).aff] := by
  obtain ⟨hsus, haff, hon, hq⟩ := h
  rw [makeReady_home hsus hon]
  exact ⟨⟨thr_enqueue_same .., fun _ hu => thr_enqueue_other _ _ _ hu, ndl_enqueue_same .., fun _ hm => ndl_enqueue_other _ _ _ hm⟩,
    enqueue_keeps _ _ _ haff hq⟩

theorem threadResume_ready (e : Env) (hst : (c.thr t).st = .halted) (hk : (c.thr t).kind = kNone) :
    c.threadResume e t = c.makeReady t := by
  unfold threadResume
  dsimp only
  rw [hst]
  exact if_pos hk

theorem threadResume_xing (e : Env) (hst : (c.thr t).st = .halted) (hk : (c.thr t).kind = kXing) :
    c.threadResume e t = c.registerWait e t := by
  unfold threadResume
  dsimp only
  rw [hst, hk]
  rfl

theorem registerWait_xing (e : Env) (hk : (c.thr t).kind = kXing) (hr : xingReached (c.thr t).arg c.ctr = false) :
    c.registerWait e t =
      (c.setSt t .waiting).setThr t { c.thr t with st := .waiting, target := xingTarget (c.thr t).arg c.ctr } := by
  have hthr : (c.setSt t .waiting).thr t = { c.thr t with st := .waiting } := thr_setThr_same ..
  have hctr : (c.setSt t .waiting).ctr = c.ctr := rfl
  unfold registerWait
  dsimp only
  rw [hthr, hctr, if_pos hk, hr, if_neg Bool.false_ne_true]

theorem threadResume_fault (e : Env) (hst : (c.thr t).st = .fault) :
    c.threadResume e t = (c.setThr t { c.thr t with sealing := true }).resumeSealed t := by
  unfold threadResume
  dsimp only
  rw [hst]

theorem resumeSealed_waits (h : c.writesOut t = true) : c.resumeSealed t = c := by
  have hs : c.sealed t = false := by
    unfold sealed
    rw [h]
    rfl
  exact if_neg fun hall => Bool.false_ne_true (hs.symm.trans hall.2.2)

theorem resumeSealed_ready (hst : (c.thr t).st = .fault) (hsl : (c.thr t).sealing = true) (hw : c.writesOut t = false)
    (hd : c.deadSlot t = false) : c.resumeSealed t = c.wake t fun th => { th with sealing := false } := by
  refine if_pos ⟨hst, hsl, ?_⟩
  unfold sealed
  rw [hw, hd]
  rfl

end Resume

/-! A thread leaves its slot (R81, R90) -/

section Leave

variable {c : Chip} {u n : Nat}

/-- A needle's suspended transfers stand as other parts of it change. -/
theorem suspendedOn_setNdl (h : c.suspendedOn u = none) {nd : Needle} (hs : nd.susp = (c.ndl n).susp) :
    (c.setNdl n nd).suspendedOn u = none := by
  rw [suspendedOn_none] at h ⊢
  intro p hp
  rcases mem_put hp with rfl | hp
  · rw [hs]
    by_cases hd : c.ndl n = Needle.idle
    · rw [hd]
      rfl
    · exact h _ (get_mem hd)
  · exact h p hp

theorem suspendedOn_of_needles {d : Chip} (h : d.needles = c.needles) (u : Nat) : d.suspendedOn u = c.suspendedOn u := by
  simp only [suspendedOn, h]

/-- The sampling record of a needle may note that its thread leaves (R336). -/
theorem followMark_cases (c : Chip) (n t : Nat) (flt : Bool) :
    c.followMark n t flt = c ∨ ∃ fo, c.followMark n t flt = c.setNdl n { c.ndl n with follow := fo } := by
  unfold followMark
  dsimp only
  split
  · split
    · exact .inr ⟨_, rfl⟩
    · exact .inl rfl
  · exact .inl rfl

/-- d is c after slot k of needle n has become free: what else the needle suspends stands. -/
structure Freed (c d : Chip) (n k : Nat) : Prop where
  only : d = { c with needles := d.needles }
  slot : d.slot n k = none
  others : ∀ m, m ≠ n → d.ndl m = c.ndl m
  unsuspended : ∀ u, c.suspendedOn u = none → d.suspendedOn u = none

theorem freed_followed (c : Chip) (n k t : Nat) : Freed c ((c.followMark n t false).setSlot n k none) n k := by
  rcases c.followMark_cases n t false with h | ⟨fo, h⟩
  · rw [h]
    exact ⟨rfl, slot_setSlot_same .., fun _ hm => ndl_setNdl_other _ hm _, fun _ hu => suspendedOn_setNdl hu rfl⟩
  · rw [h]
    refine ⟨rfl, slot_setSlot_same .., fun _ hm => (ndl_setNdl_other _ hm _).trans (ndl_setNdl_other _ hm _), fun _ hu => ?_⟩
    exact suspendedOn_setNdl (c := c.setNdl n { c.ndl n with follow := fo }) (suspendedOn_setNdl hu rfl) rfl

/-- The error marks of a memory once the words of a list are written whole. -/
def marksCleared (l : List Nat) (m : Tab Bool) : Tab Bool := l.foldl (fun m a => Tab.put false m a false) m

theorem get_marksCleared (l : List Nat) (m : Tab Bool) (a : Nat) :
    Tab.get false (marksCleared l m) a = (!l.contains a && Tab.get false m a) := by
  unfold marksCleared
  rw [Tab.get_foldl_put false fun _ => false]
  by_cases ha : a ∈ l
  · rw [if_pos ha, List.contains_iff_mem.mpr ha]
    rfl
  · rw [if_neg ha, Bool.eq_false_iff.mpr (mt List.contains_iff_mem.mp ha)]
    rfl

theorem ecc_freshRecord (c : Chip) (t : Nat) :
    (c.freshRecord t).eccCe = marksCleared ((List.range 8).map (recordAt t)) c.eccCe ∧
      (c.freshRecord t).eccUe = marksCleared ((List.range 8).map (recordAt t)) c.eccUe := by
  unfold freshRecord
  generalize List.range 8 = l
  induction l generalizing c with
  | nil => exact ⟨rfl, rfl⟩
  | cons k l ih => exact ih (c.clearEcc (recordAt t k))

/-- A record written back has fresh check bits, and no other word has. -/
theorem freshRecord_fresh (c : Chip) (t : Nat) : FreshRecord c (c.freshRecord t) t := by
  obtain ⟨hce, hue⟩ := c.ecc_freshRecord t
  unfold FreshRecord
  rw [hce, hue]
  exact fun a => ⟨get_marksCleared _ _ a, get_marksCleared _ _ a⟩

/-- d is c after the thread of slot sl has left slot k of needle n. -/
structure Left (c d : Chip) (n k : Nat) (sl : Slot) : Prop where
  slot : d.slot n k = none
  threads : ∀ v, v ≠ sl.t → d.thr v = c.thr v
  others : ∀ m, m ≠ n → d.ndl m = c.ndl m
  unsuspended : ∀ u, c.suspendedOn u = none → d.suspendedOn u = none
  keeps : KeepsButCounts c d []
  fresh : sl.fetching = false → FreshRecord c d sl.t
  marks : sl.fetching = true → d.eccCe = c.eccCe ∧ d.eccUe = c.eccUe
  only : d = { c with
    regs := d.regs, needles := d.needles, threads := d.threads, eccCe := d.eccCe, eccUe := d.eccUe }

theorem leave_left {k : Nat} {sl : Slot} (hs : c.slot n k = some sl) (f : Thread → Thread) : Left c (c.leave n k f) n k sl := by
  obtain ⟨honly, hslot, hndls, hsus⟩ := c.freed_followed n k sl.t
  have hleave : c.leave n k f =
      let g := ((c.followMark n sl.t false).setSlot n k none).setThr sl.t (f (writeBack sl))
      if sl.fetching then g else (g.freshRecord sl.t).cntStore 0x131 1 := by
    unfold leave
    rw [hs]
  rw [hleave]
  generalize (c.followMark n sl.t false).setSlot n k none = g at honly hslot hndls hsus ⊢
  have hthr (v : Nat) (hv : v ≠ sl.t) : (g.setThr sl.t (f (writeBack sl))).thr v = c.thr v := by
    rw [thr_setThr_other _ hv, honly]
    rfl
  have hgone : g.setThr sl.t (f (writeBack sl)) = { c with
      needles := g.needles, threads := (g.setThr sl.t (f (writeBack sl))).threads } := by
    rw [honly]
    rfl
  replace hslot : (g.setThr sl.t (f (writeBack sl))).slot n k = none := hslot
  replace hndls (m : Nat) (hm : m ≠ n) : (g.setThr sl.t (f (writeBack sl))).ndl m = c.ndl m := hndls m hm
  replace hsus (u : Nat) (hu : c.suspendedOn u = none) : (g.setThr sl.t (f (writeBack sl))).suspendedOn u = none := hsus u hu
  generalize g.setThr sl.t (f (writeBack sl)) = w at hthr hgone hslot hndls hsus ⊢
  dsimp only
  split
  · next hf =>
    rw [hgone] at hthr hslot hndls hsus ⊢
    exact ⟨hslot, hthr, hndls, hsus, fun _ _ _ => rfl, fun h => absurd (hf.symm.trans h) (by decide), fun _ => ⟨rfl, rfl⟩, rfl⟩
  · next hf =>
    have hparts := w.freshRecord_parts sl.t
    have hfresh := w.freshRecord_fresh sl.t
    generalize w.freshRecord sl.t = x at hparts hfresh ⊢
    have hndl : (x.cntStore 0x131 1).needles = w.needles := (cntStore_needles ..).trans (by rw [hparts])
    have hths : (x.cntStore 0x131 1).threads = w.threads := (cntStore_threads ..).trans (by rw [hparts])
    refine ⟨(slot_of_needles hndl n k).trans hslot, fun v hv => ?_, fun m hm => ?_, fun u hu => ?_, fun r hr _ => ?_, fun _ => ?_,
      fun h => absurd h hf, ?_⟩
    · exact (congrArg (Tab.get Thread.wiped · v) hths).trans (hthr v hv)
    · exact (congrArg (Tab.get Needle.idle · m) hndl).trans (hndls m hm)
    · exact (suspendedOn_of_needles hndl u).trans (hsus u hu)
    · rw [rd_cntStore _ _ _ hr, hparts, hgone]
      rfl
    · rw [hgone] at hfresh
      unfold FreshRecord at hfresh ⊢
      rw [cntStore_eccCe, cntStore_eccUe]
      exact hfresh
    · have hcount : OnlyRegs x (x.cntStore 0x131 1) := countOn_only ..
      rw [hcount, hparts, hgone]

end Leave

/-! A command that waited for its boundary (R85, R294) -/

section Boundary

variable {c : Chip} {t n k : Nat} {sl : Slot}

theorem faultCmd_halt (e : Env) (hst : (c.thr t).st = .fault) (hc : (c.thr t).cmd = some .halt) :
    c.faultCmd e t = (c.setThr t { c.thr t with cmd := none }).flag .thStat F.ThStat.CMD_STATE := by
  unfold faultCmd
  dsimp only
  rw [if_neg (not_not_intro hst), hc]

theorem faultCmd_kill (e : Env) (hst : (c.thr t).st = .fault) (hc : (c.thr t).cmd = some .kill) :
    c.faultCmd e t = c.killNow e t := by
  unfold faultCmd
  dsimp only
  rw [if_neg (not_not_intro hst), hc]

variable (e : Env) (hs : c.slot n k = some sl) (hb : c.busySlot n k = false) (hd : sl.dead = false)
include hs hb hd

theorem boundary_halt (hc : sl.live.cmd = some .halt) :
    c.boundary e n k = c.leave n k fun th => { th with st := .halted, cmd := none } := by
  unfold boundary
  simp only [hs, hb, hd, hc, Bool.false_eq_true, or_self, if_false]

theorem boundary_kill (hc : sl.live.cmd = some .kill) : c.boundary e n k = (c.leave n k id).killNow e sl.t := by
  unfold boundary
  simp only [hs, hb, hd, hc, Bool.false_eq_true, or_self, if_false]

theorem boundary_moves (hc : sl.live.cmd = none) (hn : c.needleOn n = false) : c.boundary e n k = (c.leave n k id).makeReady sl.t := by
  unfold boundary
  simp only [hs, hb, hd, hc, hn, Bool.false_eq_true, or_self, if_false]

theorem boundary_stays (hc : sl.live.cmd = none) (hn : c.needleOn n = true) : c.boundary e n k = c := by
  unfold boundary
  simp only [hs, hb, hd, hc, hn, Bool.false_eq_true, or_self, if_false, if_true]

end Boundary

/-- The slots of a needle stand as a thread leaves its queues. -/
theorem slot_unqueue (c : Chip) (t n k : Nat) : (c.unqueue t).slot n k = c.slot n k := by
  unfold slot
  rw [ndl_unqueue]
  rfl

/-- The slots of a needle stand as a thread is queued on one. -/
theorem slot_enqueue (c : Chip) (t m n k : Nat) : (c.enqueue t m).slot n k = c.slot n k := by
  unfold slot
  by_cases h : n = m
  · rw [h, ndl_enqueue_same]
    rfl
  · rw [ndl_enqueue_other _ _ _ h]

theorem Left.needleOn {c d : Chip} {n k : Nat} {sl : Slot} (h : Left c d n k sl) (m : Nat) : d.needleOn m = c.needleOn m := by
  have hen : d.rd (.ndlCtl m) = c.rd (.ndlCtl m) := h.keeps _ (.inr (by simp only [Reg.offset]; omega)) (by simp)
  have hpwr : d.pwr = c.pwr := (congrArg Chip.pwr h.only).trans rfl
  simp only [Chip.needleOn, en, fld, hen, bdDown, hpwr]

theorem fields_writeBack (sl : Slot) : (writeBack sl).hv = sl.live.hv ∧ (writeBack sl).gen = sl.live.gen := by
  unfold writeBack
  split <;> exact ⟨rfl, rfl⟩

end Chip

/-! O30 -/

/-- A command that would change nothing changes nothing, whether its condition holds or not. -/
theorem completes_idle {i : Instr} {s : State} {p : Prop} [Decidable p] {c : Chip}
    (hi : exec i s = .next { s with chip := if p then c else s.chip }) (hc : c = s.chip) : Completes i s fun t => t = s :=
  ⟨s, by rw [hi, hc, ite_self], rfl⟩

section Resume

variable {s : State} {u : Fin 262144}

/-- RESUME without a GEN check is what RESUME does with the thread. -/
theorem threadResume_completes (hs : Ready s) (hn : s.chip.NoneOwed u) {d : Chip} {P : State → Prop}
    (hd : s.chip.threadResume s.env u = d) (hP : P { s with chip := d }) : Completes (.threadResume u false 0) s P :=
  completes_when rfl hs ((Chip.thCmd_resume hn Chip.staleGen_unchecked).trans hd) hP

theorem noneOwed_of_halted (hst : (s.chip.thr u).st = .halted) : s.chip.NoneOwed u := fun h =>
  absurd (hst.symm.trans h) (by decide)

theorem threadResume_readies (hs : Ready s) (hst : (s.chip.thr u).st = .halted) (hk : (s.chip.thr u).kind = kNone)
    (h : AtHome s.chip u) : Completes (.threadResume u false 0) s fun t =>
      Readied s.chip t.chip u (s.chip.thr u).aff (s.chip.thr u) ∧ KeepsButCounts s.chip t.chip [.ndlStat (s.chip.thr u).aff] ∧
      KeepsOutside s t := by
  obtain ⟨hready, hkeeps⟩ := Chip.makeReady_readied h
  exact threadResume_completes hs (noneOwed_of_halted hst) (Chip.threadResume_ready s.env hst hk) ⟨hready, hkeeps, keepsOutside_chip ..⟩

theorem threadResume_waits (hs : Ready s) (hst : (s.chip.thr u).st = .halted) (hk : (s.chip.thr u).kind = kXing)
    (hr : xingReached (s.chip.thr u).arg s.chip.ctr = false) : Completes (.threadResume u false 0) s fun t =>
      t.chip.thr u = { s.chip.thr u with st := .waiting, target := xingTarget (s.chip.thr u).arg s.chip.ctr } ∧
      (∀ v, v ≠ u.val → t.chip.thr v = s.chip.thr v) ∧ t.chip = { s.chip with threads := t.chip.threads } ∧ KeepsOutside s t :=
  threadResume_completes hs (noneOwed_of_halted hst)
    ((Chip.threadResume_xing s.env hst hk).trans (Chip.registerWait_xing s.env hk hr))
    ⟨Chip.thr_setThr_same .., fun _ hv => (Chip.thr_setThr_other _ hv _).trans (Chip.thr_setThr_other _ hv _), rfl, keepsOutside_chip ..⟩

theorem threadResume_seals (hs : Ready s) (hst : (s.chip.thr u).st = .fault) (hc : (s.chip.thr u).cmd = none)
    (hw : s.chip.writesOut u = true) : Completes (.threadResume u false 0) s fun t =>
      t.chip.thr u = { s.chip.thr u with sealing := true } ∧ (∀ v, v ≠ u.val → t.chip.thr v = s.chip.thr v) ∧
      t.chip = { s.chip with threads := t.chip.threads } ∧ KeepsOutside s t :=
  threadResume_completes hs (fun _ => hc)
    ((Chip.threadResume_fault s.env hst).trans (Chip.resumeSealed_waits (c := s.chip.setThr u _) hw))
    ⟨Chip.thr_setThr_same .., fun _ hv => Chip.thr_setThr_other _ hv _, rfl, keepsOutside_chip ..⟩

theorem resumeSealComplete_readies (hup : coreUp s.chip = true) (hst : (s.chip.thr u).st = .fault)
    (hsl : (s.chip.thr u).sealing = true) (hw : s.chip.writesOut u = false) (hd : s.chip.deadSlot u = false) (h : AtHome s.chip u) :
    Completes (.resumeSealComplete u) s fun t =>
      Readied s.chip t.chip u (s.chip.thr u).aff { s.chip.thr u with sealing := false, kind := kNone, arg := 0 } ∧
      KeepsButCounts s.chip t.chip [.ndlStat (s.chip.thr u).aff] ∧ KeepsOutside s t := by
  obtain ⟨hready, hkeeps⟩ := Chip.wake_readied (t := u) (fun th => { th with sealing := false }) rfl h
  exact completes_when rfl hup (Chip.resumeSealed_ready hst hsl hw hd) ⟨hready, hkeeps, keepsOutside_chip ..⟩

theorem resumeSealComplete_waits (hw : s.chip.writesOut u = true) : Completes (.resumeSealComplete u) s fun t => t = s :=
  completes_idle rfl (Chip.resumeSealed_waits hw)

end Resume

section Boundary

variable {s : State} {u : Fin 262144} (hup : coreUp s.chip = true)
include hup

section Faulted

variable (hf : s.chip.findSlot u = none)
include hf

/-- The boundary of a thread that holds no slot judges what it is still owed. -/
theorem faultBoundary_completes {d : Chip} {P : State → Prop} (hd : s.chip.faultCmd s.env u = d) (hP : P { s with chip := d }) :
    Completes (.threadCmdBoundary u) s P :=
  completes_when rfl hup (by dsimp only; rw [hf]; exact hd) hP

variable (hst : (s.chip.thr u).st = .fault)
include hst

theorem faultBoundary_halt (hc : (s.chip.thr u).cmd = some .halt) : Completes (.threadCmdBoundary u) s fun t =>
    t.chip.thr u = { s.chip.thr u with cmd := none } ∧ t.chip.bit .thStat F.ThStat.CMD_STATE = true ∧
    (∀ v, v ≠ u.val → t.chip.thr v = s.chip.thr v) ∧ KeepsRegs s.chip t.chip [.thStat] ∧ KeepsOutside s t := by
  obtain ⟨hbit, hkeeps, -⟩ := (s.chip.setThr u { s.chip.thr u with cmd := none }).thStat_flagged (f := F.ThStat.CMD_STATE)
    ⟨by decide, by decide⟩
  exact faultBoundary_completes hup hf (Chip.faultCmd_halt s.env hst hc)
    ⟨Chip.thr_setThr_same .., hbit, fun _ hv => Chip.thr_setThr_other _ hv _, hkeeps, keepsOutside_chip ..⟩

theorem faultBoundary_kill (hc : (s.chip.thr u).cmd = some .kill) (hv : (s.chip.thr u).hv = false)
    (hsus : s.chip.suspendedOn u = none) (hl : NoLocks s.chip) : Completes (.threadCmdBoundary u) s fun t =>
      t.chip.thr u = Chip.killed (s.chip.thr u) ∧ (∀ v, v ≠ u.val → t.chip.thr v = s.chip.thr v) ∧ t.chip.regs = s.chip.regs ∧
      KeepsOutside s t := by
  obtain ⟨hthr, hoth, -, hregs⟩ := Chip.killNow_parts hv hsus hl s.env
  exact faultBoundary_completes hup hf (Chip.faultCmd_kill s.env hst hc) ⟨hthr, hoth, hregs, keepsOutside_chip ..⟩

end Faulted

section Resident

variable {n k : Nat} (hf : s.chip.findSlot u = some (n, k))
include hf

/-- The boundary of a resident thread is what its slot does there. -/
theorem boundary_completes {d : Chip} {P : State → Prop} (he : s.chip.boundary s.env n k = d) (hP : P { s with chip := d }) :
    Completes (.threadCmdBoundary u) s P :=
  completes_when rfl hup (by dsimp only; rw [hf]; exact he) hP

variable {sl : Slot} (hs : s.chip.slot n k = some sl) (ht : sl.t = u.val) (hb : s.chip.busySlot n k = false) (hd : sl.dead = false)
include hs ht hb hd

theorem boundary_halts (hc : sl.live.cmd = some .halt) : Completes (.threadCmdBoundary u) s fun t =>
    t.chip.slot n k = none ∧ t.chip.thr u = { Chip.writeBack sl with st := .halted, cmd := none } ∧
    (∀ v, v ≠ u.val → t.chip.thr v = s.chip.thr v) ∧ (∀ m, m ≠ n → t.chip.ndl m = s.chip.ndl m) ∧
    KeepsButCounts s.chip t.chip [] ∧ (sl.fetching = false → FreshRecord s.chip t.chip u) ∧
    (sl.fetching = true → t.chip.eccCe = s.chip.eccCe ∧ t.chip.eccUe = s.chip.eccUe) ∧
    t.chip = { s.chip with regs := t.chip.regs, needles := t.chip.needles, threads := t.chip.threads,
                           eccCe := t.chip.eccCe, eccUe := t.chip.eccUe } ∧
    KeepsOutside s t := by
  obtain ⟨-, hthr, -⟩ := s.chip.leave_parts hs fun th => { th with st := .halted, cmd := none }
  obtain ⟨hslot, hoth, hndls, -, hkeeps, hfresh, hmarks, honly⟩ := Chip.leave_left hs fun th => { th with st := .halted, cmd := none }
  rw [ht] at hthr hoth hfresh
  exact boundary_completes hup hf (Chip.boundary_halt s.env hs hb hd hc)
    ⟨hslot, hthr, hoth, hndls, hkeeps, hfresh, hmarks, honly, keepsOutside_chip ..⟩

theorem boundary_kills (hc : sl.live.cmd = some .kill) (hv : sl.live.hv = false) (hsus : s.chip.suspendedOn u = none)
    (hl : NoLocks s.chip) : Completes (.threadCmdBoundary u) s fun t =>
      t.chip.slot n k = none ∧ t.chip.thr u = { Chip.killed (Chip.writeBack sl) with gen := (sl.live.gen + 1) % 2 ^ 16 } ∧
      (∀ v, v ≠ u.val → t.chip.thr v = s.chip.thr v) ∧ KeepsOutside s t := by
  obtain ⟨-, hthr, -⟩ := s.chip.leave_parts hs id
  obtain ⟨hslot, hoth, -, hunsus, -, -, -, honly⟩ := Chip.leave_left hs id
  have hkills := Chip.boundary_kill s.env hs hb hd hc
  obtain ⟨hmark, hgen⟩ := Chip.fields_writeBack sl
  rw [ht] at hthr hoth hkills
  generalize s.chip.leave n k id = d at hthr hslot hoth hunsus honly hkills
  have hlocks : NoLocks d := by
    rw [honly]
    exact hl
  obtain ⟨hrec, hrest, hndl, -⟩ := Chip.killNow_parts (by rw [hthr]; exact hmark.trans hv) (hunsus u hsus) hlocks s.env
  refine boundary_completes hup hf hkills
    ⟨?_, ?_, fun v hne => (hrest v hne).trans (hoth v hne), keepsOutside_chip ..⟩
  · exact (Chip.slot_of_needles hndl n k).trans ((d.slot_unqueue u n k).trans hslot)
  · rw [hrec, hthr, ← hgen]
    rfl

theorem boundary_leaves (hc : sl.live.cmd = none) (hn : s.chip.needleOn n = false) (hsus : s.chip.suspendedOn u = none)
    (hon : s.chip.needleOn (Chip.writeBack sl).aff = true) : Completes (.threadCmdBoundary u) s fun t =>
      t.chip.slot n k = none ∧ t.chip.thr u = { Chip.writeBack sl with st := .ready } ∧
      (∀ v, v ≠ u.val → t.chip.thr v = s.chip.thr v) ∧ KeepsOutside s t := by
  obtain ⟨-, hthr, -⟩ := s.chip.leave_parts hs id
  have hleft := Chip.leave_left hs id
  have hmoves := Chip.boundary_moves s.env hs hb hd hc hn
  rw [ht] at hthr hmoves
  have hoth := hleft.threads
  rw [ht] at hoth
  generalize s.chip.leave n k id = d at hthr hleft hmoves hoth
  have hhome : d.makeReady u = d.enqueue u (d.thr u).aff := Chip.makeReady_home (hleft.unsuspended u hsus) (by
    rw [hthr, hleft.needleOn]
    exact hon)
  refine boundary_completes hup hf (hmoves.trans hhome)
    ⟨(Chip.slot_enqueue ..).trans hleft.slot, ?_, fun v hv => (Chip.thr_enqueue_other _ _ _ hv).trans (hoth v hv), keepsOutside_chip ..⟩
  exact (Chip.thr_enqueue_same ..).trans (by rw [hthr]; rfl)

omit ht in
theorem boundary_remains (hc : sl.live.cmd = none) (hn : s.chip.needleOn n = true) :
    Completes (.threadCmdBoundary u) s fun t => t = s :=
  boundary_completes hup hf (Chip.boundary_stays s.env hs hb hd hc hn) rfl

end Resident
end Boundary

/-- Settles O30, by a lemma for each state of the thread that resumes, and for each command at a boundary. -/
theorem threadResumesAndBoundaries : Obligations.ThreadResumesAndBoundaries :=
  ⟨fun _ _ => ⟨threadResume_readies, threadResume_waits, threadResume_seals, resumeSealComplete_readies,
      fun _ => resumeSealComplete_waits⟩,
    fun _ _ hup hf hst => ⟨faultBoundary_halt hup hf hst, faultBoundary_kill hup hf hst⟩,
    fun _ _ _ _ _ hup hf hs ht hb hd => ⟨boundary_halts hup hf hs ht hb hd, boundary_kills hup hf hs ht hb hd,
      boundary_leaves hup hf hs ht hb hd, boundary_remains hup hf hs hb hd⟩⟩

end Sys2Proof.Machine

/-! PROOFS of the statements of 04_threads_and_needles.md, continued. O31: fetches, line fills, doorbells and DESC waits. -/

namespace Sys2Proof.Machine

namespace Chip

/-! DESC waits (R94) -/

section DescWait

variable {c : Chip} {t : Nat}

theorem doorbell_reads (e : Env) {gen : Nat} (hst : (c.thr t).st = .waiting) (hk : (c.thr t).kind = kDesc) :
    c.doorbell e t false gen = c.dwaitRead e t := by
  have hn : c.NoneOwed t := fun hf => absurd (hst.symm.trans hf) (by decide)
  unfold doorbell
  dsimp only
  rw [faultCmd_noneOwed e hn, staleGen_unchecked, if_neg Bool.false_ne_true, if_pos ⟨hst, hk⟩]

theorem doorbell_idle (e : Env) {gen : Nat} (hn : c.NoneOwed t) (h : (c.thr t).st ≠ .waiting ∨ (c.thr t).kind ≠ kDesc) :
    c.doorbell e t false gen = c := by
  unfold doorbell
  dsimp only
  rw [faultCmd_noneOwed e hn, staleGen_unchecked, if_neg Bool.false_ne_true, if_neg fun hboth => h.elim (absurd hboth.1) (absurd hboth.2)]

/-- The needle that carries the read of a DESC wait wants its clock, and counts the read. -/
def dwaitAsked (c : Chip) (n : Nat) : Chip := (c.wantClock n).cntNeedle n 0x023 1

theorem dwaitAsked_woken (c : Chip) (n : Nat) : Woken c (c.dwaitAsked n) := (c.woken_wantClock n).trans (woken_cntNeedle ..)

theorem dwaitAsked_keeps {n : Nat} (h : n < 128) (hq : c.pwr.wakeQ = []) : KeepsButCounts c (c.dwaitAsked n) [.ndlStat n] :=
  fun r hr hl => (rd_cntNeedle _ h _ _ hr).trans (wantClock_keeps c n h hq r hr hl)

theorem dwaitAsked_threads (c : Chip) (n : Nat) : (c.dwaitAsked n).threads = c.threads :=
  (cntNeedle_parts ..).1.trans (wantClock_parts ..).1

/-- The burst that reads the descriptor's line, as its window carries it. -/
def dwaitBurst (th : Thread) (t tdom : Nat) : Burst :=
  { unitBurst (th.arg % 128) (.dwait t) th.cls .read (th.dptr * 32 / 64 * 64) 1 [] with
    thr := t, gen := th.gen, pc := th.pc, desc := th.dptr * 32, tdom := tdom }

theorem dwaitRead_ok {e : Env} {w : Nat} (h : e.prot.check (c.thr t).pd ((c.thr t).dptr * 32) 32 .read = .ok w) :
    c.dwaitRead e t = (c.dwaitAsked ((c.thr t).arg % 128)).present (e.prot.home w) (dwaitBurst (c.thr t) t (e.prot.tdom w)) := by
  unfold dwaitRead
  dsimp only
  rw [h]
  rfl

/-- The read waits at the port of the window that holds the descriptor's line. -/
theorem dwaitRead_presents {e : Env} {w : Nat} (h : e.prot.check (c.thr t).pd ((c.thr t).dptr * 32) 32 .read = .ok w)
    (hnone : NoneWaits c (e.prot.home w) ((c.thr t).arg % 128)) :
    c.dwaitRead e t = (c.dwaitAsked ((c.thr t).arg % 128)).setPort (e.prot.home w) { c.port (e.prot.home w) with
      waiting := (c.port (e.prot.home w)).waiting ++ [dwaitBurst (c.thr t) t (e.prot.tdom w)] } := by
  have hasked := (c.dwaitAsked_woken ((c.thr t).arg % 128)).only
  rw [dwaitRead_ok h]
  generalize c.dwaitAsked ((c.thr t).arg % 128) = d at hasked ⊢
  have hport : d.port (e.prot.home w) = c.port (e.prot.home w) := by
    rw [hasked]
    rfl
  have hwaits : NoneWaits d (e.prot.home w) (dwaitBurst (c.thr t) t (e.prot.tdom w)).req := by
    rw [hasked]
    exact hnone
  rw [present_waits hwaits, hport]
  rfl

/-- The descriptor that a DESC wait's read brings is judged. -/
theorem dwaitDone_owned {l : Line} (hin : c.dwaitIn.find? (fun x => x.1 == t) = some (t, (c.thr t).dptr * 32, l, false))
    (hst : (c.thr t).st = .waiting) (hk : (c.thr t).kind = kDesc) (ho : (Desc.ofLine ((c.thr t).dptr * 32) l).own = true) :
    c.dwaitDone t = ({ c with dwaitIn := c.dwaitIn.erase (t, (c.thr t).dptr * 32, l, false) } : Chip).wake t id := by
  have hhere : (c.thr t).st = .waiting ∧ (c.thr t).kind = kDesc ∧ (c.thr t).dptr * 32 = (c.thr t).dptr * 32 := ⟨hst, hk, rfl⟩
  unfold dwaitDone
  rw [hin]
  refine (if_pos hhere).trans ((if_neg Bool.false_ne_true).trans (if_pos ho))

theorem dwaitDone_unowned {l : Line} (hin : c.dwaitIn.find? (fun x => x.1 == t) = some (t, (c.thr t).dptr * 32, l, false))
    (hst : (c.thr t).st = .waiting) (hk : (c.thr t).kind = kDesc) (ho : (Desc.ofLine ((c.thr t).dptr * 32) l).own = false) :
    c.dwaitDone t = { c with dwaitIn := c.dwaitIn.erase (t, (c.thr t).dptr * 32, l, false) } := by
  have hhere : (c.thr t).st = .waiting ∧ (c.thr t).kind = kDesc ∧ (c.thr t).dptr * 32 = (c.thr t).dptr * 32 := ⟨hst, hk, rfl⟩
  unfold dwaitDone
  rw [hin]
  refine (if_pos hhere).trans ((if_neg Bool.false_ne_true).trans (if_neg ?_))
  rw [ho]
  exact Bool.false_ne_true

end DescWait

/-! Fetches (R90) -/

section Fetch

variable {c : Chip} {n : Nat}

/-- A needle takes the head of a queue into a free slot. -/
theorem fetchStart_takes {k q u : Nat} {rest : List Nat} (hs : c.pwr.phase = .running) (hon : c.needleOn n = true)
    (hl : c.pllLocked n = true) (hp : c.npwr n = 0) (hf : c.fetches n < 4) (hk : c.freeSlot n = some k) (hq : c.fetchClass n = some q)
    (hh : queueOf (c.ndl n) q = u :: rest) : ∃ nd sl, c.fetchStart n =
      ((((c.setNdl n nd).setSt u .running).setSlot n k (some sl)).cntNeedle n 0x01A 1).cntStore 0x130 1 ∧
      nd.queues = (c.ndl n).queues.set q rest ∧ sl.t = u ∧ sl.fetching = true ∧ sl.dead = false ∧ sl.act = none := by
  have htakes : c.takesBack n = true := by
    unfold takesBack
    rw [hon]
    rfl
  have hmay : ¬ (c.pwr.phase ≠ .running ∨ ¬ c.takesBack n ∨ ¬ c.pllLocked n ∨ c.npwr n ≠ 0 ∨ c.fetches n ≥ 4) := by
    simp [hs, htakes, hl, hp, hf]
  unfold fetchStart
  rw [if_neg hmay, hk, hq]
  dsimp only
  rw [hh]
  exact ⟨_, _, rfl, rfl, rfl, rfl, rfl, rfl⟩

theorem readEcc_clean {off : Nat} (mem : Nat) (hue : Tab.get false c.eccUe off = false) (hce : Tab.get false c.eccCe off = false) :
    c.readEcc mem off = (c, false) := by
  unfold readEcc
  rw [hue, hce]
  rfl

/-- Nothing of a needle starts with a fetch, where no transfer waits for its set. -/
theorem promote_nothing (e : Env) (hsh : (c.ndl n).shadow = none) (hsu : (c.ndl n).susp = []) : c.promote e n = c := by
  unfold promote
  dsimp only
  rw [hsh, hsu]
  split <;> rfl

theorem foldl_fixed_of_mem {α β : Type} {f : α → β → α} {a : α} (l : List β) (h : ∀ b ∈ l, f a b = a) : l.foldl f a = a := by
  induction l with
  | nil => rfl
  | cons b l ih =>
    rw [List.foldl_cons, h b List.mem_cons_self]
    exact ih fun b' hb' => h b' (List.mem_cons_of_mem _ hb')

/-- The fetch of a record without errors ends. -/
theorem fetchDone_clean (e : Env) {k : Nat} {sl : Slot} (hs : c.slot n k = some sl) (hf : sl.fetching = true)
    (hecc : ∀ j, j < 8 → Tab.get false c.eccUe (recordAt sl.t j) = false ∧ Tab.get false c.eccCe (recordAt sl.t j) = false)
    (hsh : (c.ndl n).shadow = none) (hsu : (c.ndl n).susp = []) : c.fetchDone e n k =
      c.setSlot n k (some { sl with fetching := false, live := { c.thr sl.t with st := .running, cmd := sl.live.cmd } }) := by
  unfold fetchDone
  rw [hs]
  dsimp only
  rw [if_neg (not_not_intro hf), foldl_fixed_of_mem (a := (c, ([] : List Nat))) (List.range 8) fun j hj => ?_]
  · refine promote_nothing e ?_ ?_
    · exact (congrArg Needle.shadow (ndl_setNdl_same ..)).trans hsh
    · exact (congrArg Needle.susp (ndl_setNdl_same ..)).trans hsu
  · obtain ⟨hue, hce⟩ := hecc j (List.mem_range.mp hj)
    simp only [readEcc_clean 0 hue hce, Bool.false_eq_true, if_false]

end Fetch

/-! The instruction buffer (R89) -/

theorem mem_ibInsert (ib : List Nat) (l : Nat) : l ∈ ibInsert ib l ∧ ∀ x ∈ ibInsert ib l, x = l ∨ x ∈ ib := by
  unfold ibInsert
  refine ⟨List.mem_cons_self, fun x hx => ?_⟩
  rcases List.mem_cons.mp hx with h | h
  · exact .inl h
  · exact .inr (List.mem_of_mem_filter h)

/-- Of a list without the lines after its first one line stays at most. -/
theorem length_filter_not_drop (s : List Nat) : (s.filter fun x => !(s.drop 1).contains x).length ≤ 1 := by
  cases s with
  | nil => exact Nat.zero_le 1
  | cons a s =>
    have hnil : (s.filter fun x => !s.contains x) = [] := List.filter_eq_nil_iff.mpr fun x hx => by simp [hx]
    rw [List.drop_one, List.tail_cons, List.filter_cons, hnil]
    split <;> simp

/-- A set that holds two lines at most holds two at most after a line has entered. -/
theorem ibInsert_ways {ib : List Nat} (l : Nat) (h : ∀ j, (ib.filter fun x => x % 32 == j).length ≤ 2) (j : Nat) :
    ((ibInsert ib l).filter fun x => x % 32 == j).length ≤ 2 := by
  unfold ibInsert
  extract_lets same out
  by_cases hj : l % 32 = j
  · have hkept : (ib.filter fun x => x != l && !out.contains x).filter (fun x => x % 32 == j) = same.filter fun x => !out.contains x := by
      unfold same
      rw [List.filter_filter, List.filter_filter, hj]
      refine List.filter_congr fun x _ => ?_
      cases x % 32 == j <;> cases x != l <;> simp
    rw [List.filter_cons, if_pos (by simpa using hj), hkept, List.length_cons]
    exact Nat.succ_le_succ (length_filter_not_drop same)
  · rw [List.filter_cons, if_neg (by simpa using hj)]
    exact (List.Sublist.length_le (List.filter_sublist.filter _)).trans (h j)

/-- d is c after the words of a line have been read for the instruction buffer: single-bit errors are noted and corrected. -/
structure LineRead (c d : Chip) : Prop where
  needles : d.needles = c.needles
  threads : d.threads = c.threads

theorem LineRead.trans {c d e : Chip} (h : LineRead c d) (k : LineRead d e) : LineRead c e :=
  ⟨k.needles.trans h.needles, k.threads.trans h.threads⟩

theorem lineRead_noteEcc (c : Chip) (off : Nat) : LineRead c (c.noteEcc 1 false off) := ⟨rfl, rfl⟩

/-- The words of a pattern-memory line, read for the instruction buffer (R89, R99). -/
def lineCorrected (c : Chip) (l : Nat) : Chip := (List.range 8).foldl (fun c j =>
  let off := patternAt (l * 8 + j)
  if Tab.get false c.eccCe off then c.noteEcc 1 false off else c) c

theorem lineRead_lineCorrected (c : Chip) (l : Nat) : LineRead c (c.lineCorrected l) := by
  unfold lineCorrected
  generalize List.range 8 = js
  induction js generalizing c with
  | nil => exact ⟨rfl, rfl⟩
  | cons j js ih =>
    rw [List.foldl_cons]
    refine LineRead.trans ?_ (ih _)
    dsimp only
    split
    · exact lineRead_noteEcc ..
    · exact ⟨rfl, rfl⟩

/-- The line enters the buffer of the needle. -/
theorem ibFill_enters {c : Chip} {n k : Nat} {sl : Slot} (hs : c.slot n k = some sl) (hf : sl.fetching = false) (hd : sl.dead = false)
    (hp : c.npwr n = 0) (hl : (c.ndl n).ib.contains (lineOf sl.live.pc) = false) : let d := c.lineCorrected (lineOf sl.live.pc)
    c.ibFill n k = (d.setNdl n { d.ndl n with ib := ibInsert (d.ndl n).ib (lineOf sl.live.pc) }).cntNeedle n 0x019 1 := by
  unfold ibFill
  rw [hs]
  refine if_neg ?_
  rw [hf, hd, hl, hp]
  decide

end Chip

/-! O31 -/

/-- A command that always acts completes with its effect on the chip. -/
theorem completes_chip {i : Instr} {s : State} {P : State → Prop} {c d : Chip} (hi : exec i s = .next { s with chip := c })
    (hc : c = d) (hP : P { s with chip := d }) : Completes i s P :=
  ⟨_, by rw [hi, hc], hP⟩

section DescWait

variable {s : State} {u : Fin 262144}

theorem threadDoorbell_presents {w : Nat} (hs : Ready s) (hst : (s.chip.thr u).st = .waiting) (hk : (s.chip.thr u).kind = kDesc)
    (hw : s.prot.check (s.chip.thr u).pd ((s.chip.thr u).dptr * 32) 32 .read = .ok w)
    (hnone : NoneWaits s.chip (s.prot.home w) ((s.chip.thr u).arg % 128)) (hq : s.chip.pwr.wakeQ = []) :
    Completes (.threadDoorbell u false 0) s fun t =>
      (∃ x, (t.chip.port (s.prot.home w)).waiting = (s.chip.port (s.prot.home w)).waiting ++ [x] ∧
        x.use = .dwait u ∧ x.kind = .read ∧ x.addr = (s.chip.thr u).dptr / 2 * 64 ∧ x.len = 1 ∧ x.req = (s.chip.thr u).arg % 128 ∧
        x.tdom = s.prot.tdom w) ∧
      (∀ v, t.chip.thr v = s.chip.thr v) ∧ KeepsButCounts s.chip t.chip [.ndlStat ((s.chip.thr u).arg % 128)] ∧ KeepsOutside s t := by
  have haddr : (s.chip.thr u).dptr * 32 / 64 * 64 = (s.chip.thr u).dptr / 2 * 64 := by omega
  have hths := s.chip.dwaitAsked_threads ((s.chip.thr u).arg % 128)
  refine completes_when rfl hs ((Chip.doorbell_reads s.env hst hk).trans (Chip.dwaitRead_presents (e := s.env) hw hnone))
    ⟨⟨Chip.dwaitBurst (s.chip.thr u) u (s.prot.tdom w), ?_, rfl, rfl, haddr, rfl, rfl, rfl⟩, fun v => ?_, ?_, keepsOutside_chip ..⟩
  · exact congrArg Port.waiting (Tab.get_put_same ..)
  · exact congrArg (Tab.get Thread.wiped · v) hths
  · exact Chip.dwaitAsked_keeps (Nat.mod_lt _ (by decide)) hq

theorem threadDoorbell_idle (hs : Ready s) (h : (s.chip.thr u).st ≠ .waiting ∨ (s.chip.thr u).kind ≠ kDesc) (hn : s.chip.NoneOwed u) :
    Completes (.threadDoorbell u false 0) s fun t => t = s :=
  completes_when rfl hs (Chip.doorbell_idle s.env hn h) rfl

section ReadDone

variable {l : Line} (hup : coreUp s.chip = true)
  (hin : s.chip.dwaitIn.find? (fun x => x.1 == u.val) = some (u.val, (s.chip.thr u).dptr * 32, l, false))
  (hst : (s.chip.thr u).st = .waiting) (hk : (s.chip.thr u).kind = kDesc)
include hup hin hst hk

theorem descWaitReadDone_readies (ho : (Desc.ofLine ((s.chip.thr u).dptr * 32) l).own = true) (h : AtHome s.chip u) :
    Completes (.descWaitReadDone u) s fun t =>
      Readied s.chip t.chip u (s.chip.thr u).aff { s.chip.thr u with kind := kNone, arg := 0 } ∧
      t.chip.dwaitIn = s.chip.dwaitIn.erase (u.val, (s.chip.thr u).dptr * 32, l, false) ∧ KeepsOutside s t := by
  have hdone := Chip.dwaitDone_owned hin hst hk ho
  generalize hd : ({ s.chip with dwaitIn := s.chip.dwaitIn.erase (u.val, (s.chip.thr u).dptr * 32, l, false) } : Chip) = d at hdone
  obtain ⟨hready, -⟩ := Chip.wake_readied (c := d) (t := u) id rfl (by rw [← hd]; exact h)
  have honly := (d.woken_wake u id).only
  refine completes_when rfl hup hdone ⟨?_, ?_, keepsOutside_chip ..⟩
  · rw [← hd] at hready ⊢
    exact hready
  · exact (congrArg Chip.dwaitIn honly).trans (by rw [← hd])

theorem descWaitReadDone_waits (ho : (Desc.ofLine ((s.chip.thr u).dptr * 32) l).own = false) : Completes (.descWaitReadDone u) s fun t =>
    t.chip = { s.chip with dwaitIn := s.chip.dwaitIn.erase (u.val, (s.chip.thr u).dptr * 32, l, false) } ∧ KeepsOutside s t :=
  completes_when rfl hup (Chip.dwaitDone_unowned hin hst hk ho) ⟨rfl, keepsOutside_chip ..⟩

end ReadDone
end DescWait

section Fetch

variable {s : State} {n : Fin 128}

theorem threadFetchStart_takes {k q u : Nat} {rest : List Nat} (hs : Ready s) (hon : s.chip.needleOn n = true)
    (hl : s.chip.pllLocked n = true) (hp : s.chip.npwr n = 0) (hf : s.chip.fetches n < 4) (hk : s.chip.freeSlot n = some k)
    (hq : s.chip.fetchClass n = some q) (hh : Chip.queueOf (s.chip.ndl n) q = u :: rest) : Completes (.threadFetchStart n) s fun t =>
      (∃ x, t.chip.slot n k = some x ∧ x.t = u ∧ x.fetching = true ∧ x.dead = false ∧ x.act = none) ∧
      t.chip.thr u = { s.chip.thr u with st := .running } ∧ (∀ v, v ≠ u → t.chip.thr v = s.chip.thr v) ∧
      (t.chip.ndl n).queues = (s.chip.ndl n).queues.set q rest ∧ (∀ m, m ≠ n.val → t.chip.ndl m = s.chip.ndl m) ∧
      KeepsButCounts s.chip t.chip [] ∧ KeepsOutside s t := by
  obtain ⟨nd, sl, htakes, hqs, ht, hfetch, hdead, hact⟩ := Chip.fetchStart_takes hs hon hl hp hf hk hq hh
  have hslot : (((s.chip.setNdl n nd).setSt u .running).setSlot n k (some sl)).slot n k = some sl := Chip.slot_setSlot_same ..
  have hthr : (((s.chip.setNdl n nd).setSt u .running).setSlot n k (some sl)).thr u = { s.chip.thr u with st := .running } :=
    Chip.thr_setThr_same ..
  have hoth (v : Nat) (hv : v ≠ u) : (((s.chip.setNdl n nd).setSt u .running).setSlot n k (some sl)).thr v = s.chip.thr v :=
    Chip.thr_setThr_other (s.chip.setNdl n nd) hv _
  have hqueues : ((((s.chip.setNdl n nd).setSt u .running).setSlot n k (some sl)).ndl n).queues = nd.queues :=
    (congrArg Needle.queues (Chip.ndl_setNdl_same ..)).trans
      (show ((s.chip.setNdl n nd).ndl n).queues = nd.queues by rw [Chip.ndl_setNdl_same])
  have hndls (m : Nat) (hm : m ≠ n.val) : (((s.chip.setNdl n nd).setSt u .running).setSlot n k (some sl)).ndl m = s.chip.ndl m :=
    (Chip.ndl_setNdl_other _ hm _).trans (s.chip.ndl_setNdl_other hm nd)
  have hrd (r : Reg) : (((s.chip.setNdl n nd).setSt u .running).setSlot n k (some sl)).rd r = s.chip.rd r := rfl
  generalize ((s.chip.setNdl n nd).setSt u .running).setSlot n k (some sl) = d at htakes hslot hthr hoth hqueues hndls hrd
  have hnd : ((d.cntNeedle n 0x01A 1).cntStore 0x130 1).needles = d.needles :=
    (Chip.cntStore_needles ..).trans (Chip.cntNeedle_needles ..)
  have hth : ((d.cntNeedle n 0x01A 1).cntStore 0x130 1).threads = d.threads :=
    (Chip.cntStore_threads ..).trans (Chip.cntNeedle_threads ..)
  refine completes_chip rfl htakes
    ⟨⟨sl, (Chip.slot_of_needles hnd n k).trans hslot, ht, hfetch, hdead, hact⟩, ?_, fun v hv => ?_, ?_, fun m hm => ?_, fun r hr _ => ?_,
    keepsOutside_chip ..⟩
  · exact (congrArg (Tab.get Thread.wiped · u) hth).trans hthr
  · exact (congrArg (Tab.get Thread.wiped · v) hth).trans (hoth v hv)
  · exact (congrArg (fun l => (Tab.get Needle.idle l n).queues) hnd).trans (hqueues.trans hqs)
  · exact (congrArg (Tab.get Needle.idle · m) hnd).trans (hndls m hm)
  · exact (Chip.rd_cntStore _ _ _ hr).trans ((Chip.rd_cntNeedle _ n.isLt _ _ hr).trans (hrd r))

section Slot

variable {k : Fin 8} {sl : Slot} (hup : coreUp s.chip = true) (hs : s.chip.slot n k = some sl) (hp : s.chip.npwr n = 0)
include hup hs hp

theorem threadFetchDone_lands (hf : sl.fetching = true)
    (hecc : ∀ j, j < 8 → Tab.get false s.chip.eccUe (Chip.recordAt sl.t j) = false ∧
      Tab.get false s.chip.eccCe (Chip.recordAt sl.t j) = false)
    (hsh : (s.chip.ndl n).shadow = none) (hsu : (s.chip.ndl n).susp = []) : Completes (.threadFetchDone n k) s fun t =>
      t.chip.slot n k = some { sl with fetching := false, live := { s.chip.thr sl.t with st := .running, cmd := sl.live.cmd } } ∧
      (∀ j, j ≠ k.val → t.chip.slot n j = s.chip.slot n j) ∧ t.chip = { s.chip with needles := t.chip.needles } ∧ KeepsOutside s t :=
  completes_when rfl hup ((if_pos hp).trans (Chip.fetchDone_clean s.env hs hf hecc hsh hsu))
    ⟨Chip.slot_setSlot_same .., fun _ hj => Chip.slot_setSlot_other _ (.inr hj) _, rfl, keepsOutside_chip ..⟩

theorem ibLineFill_enters (hf : sl.fetching = false) (hd : sl.dead = false)
    (hl : (s.chip.ndl n).ib.contains (Chip.lineOf sl.live.pc) = false) : Completes (.ibLineFill n k) s fun t =>
      Chip.lineOf sl.live.pc ∈ (t.chip.ndl n).ib ∧
      (∀ x ∈ (t.chip.ndl n).ib, x = Chip.lineOf sl.live.pc ∨ x ∈ (s.chip.ndl n).ib) ∧
      ((∀ j, ((s.chip.ndl n).ib.filter fun x => x % 32 == j).length ≤ 2) →
        ∀ j, ((t.chip.ndl n).ib.filter fun x => x % 32 == j).length ≤ 2) ∧
      t.chip.slot n k = some sl ∧ t.chip.threads = s.chip.threads ∧ KeepsOutside s t := by
  have hfill := Chip.ibFill_enters hs hf hd hp hl
  obtain ⟨hnds, hths⟩ := s.chip.lineRead_lineCorrected (Chip.lineOf sl.live.pc)
  generalize s.chip.lineCorrected (Chip.lineOf sl.live.pc) = d at hfill hnds hths
  have hndl : d.ndl n = s.chip.ndl n := congrArg (Tab.get Needle.idle · n) hnds
  dsimp only at hfill
  rw [hndl] at hfill
  generalize hline : Chip.lineOf sl.live.pc = l at *
  obtain ⟨hmem, hsub⟩ := Chip.mem_ibInsert (s.chip.ndl n).ib l
  generalize hnd : ({ s.chip.ndl n with ib := Chip.ibInsert (s.chip.ndl n).ib l } : Needle) = nd at hfill
  have hib : nd.ib = Chip.ibInsert (s.chip.ndl n).ib l := by rw [← hnd]
  have hslots : nd.slots = (s.chip.ndl n).slots := by rw [← hnd]
  have hnew : ((d.setNdl n nd).cntNeedle n 0x019 1).ndl n = nd :=
    (congrArg (Tab.get Needle.idle · n.val) (Chip.cntNeedle_needles ..)).trans (Chip.ndl_setNdl_same ..)
  refine completes_when rfl hup hfill ⟨?_, ?_, ?_, ?_, (Chip.cntNeedle_threads ..).trans hths, keepsOutside_chip ..⟩
  · rw [hnew, hib]
    exact hmem
  · rw [hnew, hib]
    exact hsub
  · rw [hnew, hib]
    exact Chip.ibInsert_ways l
  · unfold Chip.slot
    rw [hnew, hslots]
    exact hs

end Slot
end Fetch

/-- Settles O31, by a lemma for each outcome of a doorbell, a descriptor's read, a fetch and a line fill. -/
theorem fetchesAndDoorbells : Obligations.FetchesAndDoorbells :=
  ⟨fun _ _ => ⟨fun _ => threadDoorbell_presents, threadDoorbell_idle, fun _ hup hin hst hk =>
      ⟨descWaitReadDone_readies hup hin hst hk, descWaitReadDone_waits hup hin hst hk⟩⟩,
    fun _ _ => ⟨fun _ _ _ _ => threadFetchStart_takes, fun _ _ hup hp hs => threadFetchDone_lands hup hs hp,
      fun _ _ hup hs hf hd hp => ibLineFill_enters hup hs hp hf hd⟩⟩

end Sys2Proof.Machine

/-! PROOFS of the statements of 04_threads_and_needles.md, continued. O32: the enables, the clocks and the PLLs of needles. -/

namespace Sys2Proof.Machine

namespace Chip

/-! The enable of a needle (R95, R271) -/

section Enable

variable (c : Chip) (n : Nat)

/-- EN of a needle, written. -/
theorem setEn_parts (v : En) : let d := c.setF (.ndlCtl n) F.NdlCtl.EN v.code
    d.en (.ndlCtl n) F.NdlCtl.EN = v ∧ KeepsRegs c d [.ndlCtl n] ∧ d.threads = c.threads ∧ d.needles = c.needles :=
  ⟨en_setF_same c _ ⟨by decide, by decide⟩ rfl v, keeps_setF (keeps_refl c _) List.mem_cons_self _ _, rfl, rfl⟩

variable {c n}

theorem unparkNeedle_none (h : ∀ q ∈ c.threads, q.2.st ≠ .parked) : c.unparkNeedle n = c := by
  have hnil : (c.threads.filter fun q => q.2.st == .parked && q.2.kind == kPark && q.2.arg / 2 ^ 24 == parkNeedle &&
      (!q.2.afix || q.2.arg % 2 ^ 24 == n)) = [] := by
    refine List.filter_eq_nil_iff.mpr fun q hq => ?_
    rw [beq_eq_false_iff_ne.mpr (h q hq)]
    exact Bool.false_ne_true
  unfold unparkNeedle
  rw [hnil]
  rfl

theorem slot_none (h : c.slotsEmpty n = true) {k : Nat} (hk : k < 8) : c.slot n k = none :=
  Option.isNone_iff_eq_none.mp (List.all_eq_true.mp h k (List.mem_range.mpr hk))

/-- Nothing leaves a needle that holds no thread and has none queued. -/
theorem evict_empty (e : Env) (h : c.slotsEmpty n = true) (hq : (c.ndl n).queues.flatten = []) :
    c.evict e n = c.setNdl n { c.ndl n with queues := [[], [], [], []] } := by
  have hre : c.requeue n = c.setNdl n { c.ndl n with queues := [[], [], [], []] } := by
    unfold requeue
    dsimp only
    rw [hq]
    rfl
  unfold evict
  rw [hre]
  refine foldl_fixed_of_mem _ fun k hk => ?_
  have hnone : (c.setNdl n { c.ndl n with queues := [[], [], [], []] }).slot n k = none := by
    rw [← slot_none h (List.mem_range.mp hk)]
    unfold slot
    rw [ndl_setNdl_same]
  unfold boundary
  rw [hnone]

theorem ndlEnWrite_starts (e : Env) (he : c.en (.ndlCtl n) F.NdlCtl.EN = .off) (h : ∀ q ∈ c.threads, q.2.st ≠ .parked) :
    c.ndlEnWrite e n 1 = c.setF (.ndlCtl n) F.NdlCtl.EN En.running.code := by
  unfold ndlEnWrite
  dsimp only
  rw [he]
  refine (if_pos ⟨rfl, rfl⟩).trans ?_
  rw [unparkNeedle_none (c := c.setF _ _ _) h, ite_self]
  rfl

theorem ndlEnWrite_stops (e : Env) (he : c.en (.ndlCtl n) F.NdlCtl.EN = .running) (h : c.slotsEmpty n = true) :
    c.ndlEnWrite e n 0 = (c.setF (.ndlCtl n) F.NdlCtl.EN En.off.code).evict e n := by
  unfold ndlEnWrite
  dsimp only
  rw [he, h]
  rfl

theorem ndlEnWrite_restarts (e : Env) (he : c.en (.ndlCtl n) F.NdlCtl.EN = .stopping) :
    c.ndlEnWrite e n 1 = c.setF (.ndlCtl n) F.NdlCtl.EN En.restart.code := by
  unfold ndlEnWrite
  dsimp only
  rw [he]
  rfl

theorem ndlComplete_ends (he : c.en (.ndlCtl n) F.NdlCtl.EN = .stopping ∨ c.en (.ndlCtl n) F.NdlCtl.EN = .restart)
    (h : c.slotsEmpty n = true) (hp : ∀ q ∈ c.threads, q.2.st ≠ .parked) :
    c.ndlComplete n = c.setF (.ndlCtl n) F.NdlCtl.EN ((c.en (.ndlCtl n) F.NdlCtl.EN).complete true).code := by
  unfold ndlComplete
  dsimp only
  refine (if_pos ⟨he, h⟩).trans ?_
  rw [unparkNeedle_none (c := c.setF _ _ _) hp, ite_self]

theorem ndlComplete_waits (h : c.slotsEmpty n = false) : c.ndlComplete n = c :=
  if_neg fun hb => Bool.false_ne_true (h.symm.trans hb.2)

end Enable

/-! The clock and the power of a needle (R96, R277) -/

section Power

variable {c : Chip} {n : Nat}

theorem ndlIdle_iff : c.ndlIdle n = true ↔
    c.slotsEmpty n = true ∧ (c.ndl n).active = none ∧ (c.ndl n).shadow = none ∧ rdyq (c.ndl n) = 0 := by
  simp [ndlIdle, and_assoc]

/-- The power state of a needle, written. -/
theorem npwr_setPwr (c : Chip) (n x : Nat) {v : Nat} (hv : v < 8) :
    (c.setF (.ndlStat n) F.NdlStat.PWR v).npwr x = if x = n then v else c.npwr x := by
  unfold npwr
  split
  · next h =>
    rw [h, fld_setF_same c _ ⟨by decide, by decide⟩]
    exact Nat.mod_eq_of_lt hv
  · next h => exact fld_setF_other c (by simp only [Reg.offset]; omega) _ _ _

theorem npwr_of_rd {d : Chip} {x : Nat} (h : d.rd (.ndlStat x) = c.rd (.ndlStat x)) : d.npwr x = c.npwr x :=
  congrArg (fget · F.NdlStat.PWR) h

theorem setPwr_keeps (c : Chip) (n v : Nat) : KeepsRegs c (c.setF (.ndlStat n) F.NdlStat.PWR v) [.ndlStat n] :=
  keeps_setF (keeps_refl c _) List.mem_cons_self _ _

/-- One needle fewer is waking. -/
theorem wakingNow_succ {d : Chip} (hn : n < 128) (h3 : c.npwr n = 3) (h : d.npwr n ≠ 3) (ho : ∀ x, x ≠ n → d.npwr x = c.npwr x) :
    d.wakingNow + 1 = c.wakingNow := by
  have hmem : n ∈ (List.range 128).filter fun x => c.npwr x == 3 := List.mem_filter.mpr ⟨List.mem_range.mpr hn, by simp [h3]⟩
  have herase : (List.range 128).filter (fun x => d.npwr x == 3) = ((List.range 128).filter fun x => c.npwr x == 3).erase n := by
    rw [(List.nodup_range.filter _).erase_eq_filter, List.filter_filter]
    refine List.filter_congr fun x _ => ?_
    by_cases hx : x = n
    · simp [hx, h]
    · simp [hx, ho x hx]
  have hpos := List.length_pos_of_mem hmem
  unfold wakingNow
  rw [herase, List.length_erase_of_mem hmem]
  omega

theorem startWakes_nil (h : c.pwr.wakeQ = []) : c.startWakes = c := by
  unfold startWakes
  rw [h]
  rfl

/-- A gated needle takes a place of the eight. -/
theorem startWake_begins (hl : c.pllLocked n = true) (hp : c.npwr n = 2) (hw : c.wakingNow < 8) (hd : c.bdDown n = false) :
    c.startWake n = (c.unqueueWake n).setF (.ndlStat n) F.NdlStat.PWR 3 := by
  unfold startWake
  rw [if_neg (not_not_intro hl), hp]
  exact if_pos ⟨hw, by rw [hd]; exact Bool.false_ne_true⟩

/-- A gated needle waits on where eight are waking. -/
theorem startWake_waits (hp : c.npwr n = 2) (hw : c.wakingNow = 8) : c.startWake n = c := by
  unfold startWake
  split
  · rfl
  · rw [hp]
    exact if_neg fun hb => absurd hb.1 (by omega)

/-- Of the needles that wait to wake the first takes the one place that is free. -/
theorem startWakes_first {m : Nat} {rest : List Nat} (hm : m < 128) (hq : c.pwr.wakeQ = m :: rest) (hrest : ∀ x ∈ rest, x ≠ m ∧ c.npwr x = 2)
    (hw : c.wakingNow = 7) (hl : c.pllLocked m = true) (hp : c.npwr m = 2) (hd : c.bdDown m = false) :
    c.startWakes = (c.unqueueWake m).setF (.ndlStat m) F.NdlStat.PWR 3 := by
  have hpwr (x : Nat) : ((c.unqueueWake m).setF (.ndlStat m) F.NdlStat.PWR 3).npwr x = if x = m then 3 else c.npwr x :=
    npwr_setPwr _ _ _ (by decide)
  unfold startWakes
  rw [hq, List.foldl_cons, startWake_begins hl hp (by omega) hd]
  generalize (c.unqueueWake m).setF (.ndlStat m) F.NdlStat.PWR 3 = d at hpwr ⊢
  have hfull : d.wakingNow = 8 := by
    have := wakingNow_succ (c := d) (d := c) hm (by rw [hpwr, if_pos rfl]) (by rw [hp]; decide) fun x hx => by rw [hpwr, if_neg hx]
    omega
  refine foldl_fixed_of_mem _ fun x hx => ?_
  obtain ⟨hne, h2⟩ := hrest x hx
  exact startWake_waits (by rw [hpwr, if_neg hne]; exact h2) hfull

/-- The needle that has woken, before others go on. -/
def woke (c : Chip) (n : Nat) : Chip := (c.setF (.ndlStat n) F.NdlStat.PWR 0).cntNeedle n 0x01C 1

theorem ndlWakeDone_wakes (hp : c.npwr n = 3) (hl : c.pllLocked n = true) : c.ndlWakeDone n = (c.woke n).startWakes :=
  if_neg fun hor => hor.elim (absurd hp) (absurd hl)

theorem ndlWakeDone_waits (hl : c.pllLocked n = false) : c.ndlWakeDone n = c :=
  if_pos (.inr (by rw [hl]; exact Bool.false_ne_true))

theorem woke_only (c : Chip) (n : Nat) : OnlyRegs c (c.woke n) := only_trans (only_wr (only_refl c) _ _) (cntNeedle_only ..)

section Woke

variable (hn : n < 128)
include hn

theorem woke_keeps (c : Chip) : KeepsButCounts c (c.woke n) [.ndlStat n] :=
  fun r hr hl => (rd_cntNeedle _ hn _ _ hr).trans (setPwr_keeps c n 0 r hl)

theorem npwr_woke (c : Chip) (x : Nat) : (c.woke n).npwr x = if x = n then 0 else c.npwr x := by
  rw [← npwr_setPwr c n x (v := 0) (by decide)]
  exact npwr_of_rd (rd_cntNeedle _ hn _ _ (.inr (by simp only [Reg.offset]; omega)))

end Woke

end Power

/-! Needle PLLs (R274) -/

/-- The needles of PLL q. -/
def pllNeedles (q : Nat) : List Nat := (List.range 32).map fun j => 32 * q + j

theorem mem_pllNeedles {q n : Nat} : n ∈ pllNeedles q ↔ n / 32 = q := by
  unfold pllNeedles
  rw [List.mem_map]
  constructor
  · rintro ⟨j, hj, rfl⟩
    rw [List.mem_range] at hj
    omega
  · rintro rfl
    exact ⟨n % 32, List.mem_range.mpr (Nat.mod_lt _ (by decide)), Nat.div_add_mod n 32⟩

theorem en_off_iff {c : Chip} {r : Reg} {f : Fld} : c.en r f = .off ↔ c.fld r f = 0 := by
  unfold en
  generalize c.fld r f = v
  match v with
  | 0 => decide
  | 1 => decide
  | 2 => decide
  | v + 3 => simp [En.dec]

/-- The condition under which MULT of PLL q may be written. -/
def pllIdle (c : Chip) (q : Nat) : Prop :=
  ∀ n, n / 32 = q → c.fld (.ndlCtl n) F.NdlCtl.EN = 0 ∧ (c.npwr n = 1 ∨ c.npwr n = 2)

theorem pllIdle_iff (c : Chip) (q : Nat) : c.pllIdle q ↔ (List.range 32).all (fun j =>
    c.en (.ndlCtl (32 * q + j)) F.NdlCtl.EN == .off && (c.npwr (32 * q + j) == 1 || c.npwr (32 * q + j) == 2)) = true := by
  have hall : c.pllIdle q ↔ ∀ n ∈ pllNeedles q, c.fld (.ndlCtl n) F.NdlCtl.EN = 0 ∧ (c.npwr n = 1 ∨ c.npwr n = 2) := by
    simp only [mem_pllNeedles, pllIdle]
  simp [hall, pllNeedles, en_off_iff]

section Mult

variable {c : Chip} {q : Nat} {w : Word}

theorem npllWrite_locked (h : ¬ c.pllIdle q) : c.npllWrite q w = c.flag .pwrStat F.PwrStat.CLK_LOCKED :=
  if_pos (mt (c.pllIdle_iff q).mpr h)

theorem npllWrite_ignored (h : c.pllIdle q)
    (hm : fget w F.ClkNpll.MULT < 20 ∨ 80 < fget w F.ClkNpll.MULT ∨ fget w F.ClkNpll.MULT = c.fld (.clkNpll q) F.ClkNpll.MULT) :
    c.npllWrite q w = c :=
  (if_neg (not_not_intro ((c.pllIdle_iff q).mp h))).trans (if_pos hm)

theorem npllWrite_takes (h : c.pllIdle q) (hlo : 20 ≤ fget w F.ClkNpll.MULT) (hhi : fget w F.ClkNpll.MULT ≤ 80)
    (hm : fget w F.ClkNpll.MULT ≠ c.fld (.clkNpll q) F.ClkNpll.MULT) :
    c.npllWrite q w = (c.setF (.clkNpll q) F.ClkNpll.MULT (fget w F.ClkNpll.MULT)).setF (.clkNpll q) F.ClkNpll.LOCK 0 :=
  (if_neg (not_not_intro ((c.pllIdle_iff q).mp h))).trans (if_neg (by omega))

end Mult

/-- d is c after the needles of a list have had their clocks back: the stopped ones that the loss of lock stopped run, but for
those that wait to wake. -/
structure ClocksBack (l : List Nat) (c d : Chip) : Prop where
  only : d = { c with regs := d.regs, pwr := { c.pwr with clkLost := d.pwr.clkLost } }
  lost : ∀ n, n ∈ d.pwr.clkLost ↔ n ∈ c.pwr.clkLost ∧ n ∉ l
  npwr : ∀ n, d.npwr n = if n ∈ l ∧ n ∈ c.pwr.clkLost ∧ c.npwr n = 1 ∧ n ∉ c.pwr.wakeQ then 0 else c.npwr n
  keeps : ∀ r : Reg, (∀ n ∈ l, c.npwr n = 1 → r.offset ≠ (Reg.ndlStat n).offset) → d.rd r = c.rd r

theorem clockBack_one (c : Chip) (a : Nat) : ClocksBack [a] c (c.clockBack a) := by
  unfold clockBack
  split
  · next hin =>
    have hmem : a ∈ c.pwr.clkLost := List.contains_iff_mem.mp hin
    have hlost (n : Nat) : n ∈ (c.pwr.clkLost.filter fun m => m ≠ a) ↔ n ∈ c.pwr.clkLost ∧ n ∉ [a] := by simp
    dsimp only
    split
    · next hback =>
      obtain ⟨hp, hq⟩ := hback
      have hwait : a ∉ c.pwr.wakeQ := fun h => hq (List.contains_iff_mem.mpr h)
      refine ⟨rfl, hlost, fun n => ?_, fun r hr => rd_setF_other _ (hr a List.mem_cons_self hp) _ _⟩
      rw [npwr_setPwr _ _ _ (by decide)]
      by_cases hn : n = a
      · rw [if_pos hn, if_pos (by rw [hn]; exact ⟨List.mem_cons_self, hmem, hp, hwait⟩)]
      · rw [if_neg hn, if_neg fun hall => hn (List.mem_singleton.mp hall.1)]
        rfl
    · next hback =>
      refine ⟨rfl, hlost, fun n => (if_neg fun hall => hback ?_).symm, fun _ _ => rfl⟩
      obtain ⟨ha, -, hp, hq⟩ := hall
      rw [List.mem_singleton.mp ha] at hp hq
      exact ⟨hp, fun h => hq (List.contains_iff_mem.mp h)⟩
  · next hin =>
    have hmem : a ∉ c.pwr.clkLost := fun h => hin (List.contains_iff_mem.mpr h)
    refine ⟨rfl, fun n => ?_, fun n => ?_, fun _ _ => rfl⟩
    · refine ⟨fun h => ⟨h, fun ha => hmem (List.mem_singleton.mp ha ▸ h)⟩, And.left⟩
    · refine (if_neg fun hall => hmem ?_).symm
      obtain ⟨ha, hl, -⟩ := hall
      exact List.mem_singleton.mp ha ▸ hl

theorem ClocksBack.trans {c d e : Chip} {a : Nat} {l : List Nat} (h : ClocksBack [a] c d) (k : ClocksBack l d e) :
    ClocksBack (a :: l) c e := by
  have hq : d.pwr.wakeQ = c.pwr.wakeQ := (congrArg (fun x : Chip => x.pwr.wakeQ) h.only).trans rfl
  refine ⟨by rw [k.only, h.only], fun n => ?_, fun n => ?_, fun r hr => ?_⟩
  · simp [k.lost, h.lost, and_assoc]
  · simp only [k.npwr, h.npwr, h.lost, hq]
    by_cases hn : n = a
    · simp [hn]
    · simp [hn]
  · have hold (n : Nat) (hp : d.npwr n = 1) : c.npwr n = 1 := by
      rw [h.npwr] at hp
      split at hp
      · exact absurd hp (by decide)
      · exact hp
    refine (k.keeps r fun n hn hp => hr n (List.mem_cons_of_mem _ hn) (hold n hp)).trans (h.keeps r fun n hn hp => ?_)
    exact hr n (List.mem_singleton.mp hn ▸ List.mem_cons_self) hp

theorem clocksBack_foldl (l : List Nat) (c : Chip) : ClocksBack l c (l.foldl clockBack c) := by
  induction l generalizing c with
  | nil => exact ⟨rfl, fun n => by simp, fun n => by simp, fun _ _ => rfl⟩
  | cons a l ih => exact (c.clockBack_one a).trans (ih _)

/-- d is c after the running clocks of the needles of a list have stopped for the loss of lock. -/
structure ClocksLost (l : List Nat) (c d : Chip) : Prop where
  only : d = { c with regs := d.regs, pwr := { c.pwr with clkLost := d.pwr.clkLost } }
  lost : ∀ n, n ∈ d.pwr.clkLost ↔ n ∈ c.pwr.clkLost ∨ n ∈ l ∧ c.npwr n = 0
  npwr : ∀ n, d.npwr n = if n ∈ l ∧ c.npwr n = 0 then 1 else c.npwr n
  keeps : ∀ r : Reg, (∀ n ∈ l, r.offset ≠ (Reg.ndlStat n).offset) → d.rd r = c.rd r

theorem clockLost_one (c : Chip) (a : Nat) : ClocksLost [a] c (c.clockLost a) := by
  unfold clockLost
  split
  · next hp =>
    refine ⟨rfl, fun n => ?_, fun n => ?_, fun r hr => rd_setF_other _ (hr a List.mem_cons_self) _ _⟩
    · show n ∈ a :: c.pwr.clkLost ↔ _
      by_cases hn : n = a
      · simp [hn, hp]
      · simp [hn]
    · rw [npwr_setPwr _ _ _ (by decide)]
      by_cases hn : n = a
      · simp [hn, hp]
      · simp [hn]
        rfl
  · next hp =>
    have hnot (n : Nat) : ¬ (n ∈ [a] ∧ c.npwr n = 0) := fun h => hp (List.mem_singleton.mp h.1 ▸ h.2)
    exact ⟨rfl, fun n => (or_iff_left (hnot n)).symm, fun n => (if_neg (hnot n)).symm, fun _ _ => rfl⟩

theorem ClocksLost.trans {c d e : Chip} {a : Nat} {l : List Nat} (h : ClocksLost [a] c d) (k : ClocksLost l d e) :
    ClocksLost (a :: l) c e := by
  refine ⟨by rw [k.only, h.only], fun n => ?_, fun n => ?_, fun r hr => ?_⟩
  · rw [k.lost, h.lost, h.npwr]
    by_cases hn : n = a
    · by_cases hp : c.npwr a = 0 <;> simp [hn, hp]
    · simp [hn]
  · rw [k.npwr, h.npwr]
    by_cases hn : n = a
    · by_cases hp : c.npwr a = 0 <;> simp [hn, hp]
    · simp [hn]
  · exact (k.keeps r fun n hn => hr n (List.mem_cons_of_mem _ hn)).trans
      (h.keeps r fun n hn => hr n (List.mem_singleton.mp hn ▸ List.mem_cons_self))

theorem clocksLost_foldl (l : List Nat) (c : Chip) : ClocksLost l c (l.foldl clockLost c) := by
  induction l generalizing c with
  | nil => exact ⟨rfl, fun n => by simp, fun n => by simp, fun _ _ => rfl⟩
  | cons a l ih => exact (c.clockLost_one a).trans (ih _)

/-- The chip as PLL q has locked, before its needles have their clocks back. -/
def pllOn (c : Chip) (q : Nat) : Chip := c.setF (.clkNpll q) F.ClkNpll.LOCK 1

/-- The chip as PLL q has lost lock, before the clocks of its needles stop. -/
def pllOff (c : Chip) (q : Nat) : Chip := (c.setF (.clkNpll q) F.ClkNpll.LOCK 0).flag .pwrStat F.PwrStat.NPLL_UNLOCK

section Pll

variable (c : Chip) {q : Nat}

theorem npllLock_locks (h : c.bit (.clkNpll q) F.ClkNpll.LOCK = false) :
    c.npllLock q = ((pllNeedles q).foldl clockBack (c.pllOn q)).startWakes := by
  unfold npllLock pllNeedles
  rw [if_neg (by rw [h]; exact Bool.false_ne_true), List.foldl_map]
  rfl

theorem npllUnlock_unlocks (h : c.bit (.clkNpll q) F.ClkNpll.LOCK = true) :
    c.npllUnlock q = (pllNeedles q).foldl clockLost (c.pllOff q) := by
  unfold npllUnlock pllNeedles
  rw [if_neg (not_not_intro h), List.foldl_map]
  rfl

variable (hq : q < 4)
include hq

theorem npwr_pllOn (x : Nat) : (c.pllOn q).npwr x = c.npwr x :=
  fld_setF_other c (by simp only [Reg.offset]; omega) _ _ _

theorem npwr_pllOff (x : Nat) : (c.pllOff q).npwr x = c.npwr x :=
  (npwr_of_rd (rd_flag_other _ (by simp only [Reg.offset]; omega) _)).trans (fld_setF_other c (by simp only [Reg.offset]; omega) _ _ _)

end Pll

end Chip

/-! O32 -/

section Enable

variable {s : State} {n : Fin 128}

/-- What the enable of needle n leaves alone. -/
def EnableOnly (s : State) (n : Fin 128) (t : State) : Prop :=
  KeepsRegs s.chip t.chip [.ndlCtl n] ∧ t.chip.threads = s.chip.threads ∧ (∀ m, m ≠ n.val → t.chip.ndl m = s.chip.ndl m) ∧
    KeepsOutside s t

/-- A command that leaves a needle's enable in state v and changes nothing else. -/
theorem enable_becomes {i : Instr} {v : En} {p : Prop} [Decidable p] {c d : Chip}
    (hi : exec i s = .next { s with chip := if p then c else d }) (hp : p) (hc : c = s.chip.setF (.ndlCtl n) F.NdlCtl.EN v.code) :
    Completes i s fun t => t.chip.en (.ndlCtl n) F.NdlCtl.EN = v ∧ t.chip.ndl n = s.chip.ndl n ∧ EnableOnly s n t := by
  obtain ⟨hen, hkeeps, hths, -⟩ := s.chip.setEn_parts n v
  exact completes_when hi hp hc ⟨hen, rfl, hkeeps, hths, fun _ _ => rfl, keepsOutside_chip ..⟩

section Unparked

variable (hp : ∀ q ∈ s.chip.threads, q.2.st ≠ .parked)
include hp

theorem needleEnable_starts (hs : Ready s) (he : s.chip.en (.ndlCtl n) F.NdlCtl.EN = .off) : Completes (.needleEnable n) s fun t =>
    t.chip.en (.ndlCtl n) F.NdlCtl.EN = .running ∧ t.chip.ndl n = s.chip.ndl n ∧ EnableOnly s n t :=
  enable_becomes rfl hs (Chip.ndlEnWrite_starts s.env he hp)

theorem needleStopComplete_ends (hup : coreUp s.chip = true)
    (he : s.chip.en (.ndlCtl n) F.NdlCtl.EN = .stopping ∨ s.chip.en (.ndlCtl n) F.NdlCtl.EN = .restart)
    (h : s.chip.slotsEmpty n = true) : Completes (.needleStopComplete n) s fun t =>
      t.chip.en (.ndlCtl n) F.NdlCtl.EN = (s.chip.en (.ndlCtl n) F.NdlCtl.EN).complete true ∧ t.chip.ndl n = s.chip.ndl n ∧
      EnableOnly s n t :=
  enable_becomes rfl hup (Chip.ndlComplete_ends he h hp)

end Unparked

theorem needleEnable_restarts (hs : Ready s) (he : s.chip.en (.ndlCtl n) F.NdlCtl.EN = .stopping) :
    Completes (.needleEnable n) s fun t =>
      t.chip.en (.ndlCtl n) F.NdlCtl.EN = .restart ∧ t.chip.ndl n = s.chip.ndl n ∧ EnableOnly s n t :=
  enable_becomes rfl hs (Chip.ndlEnWrite_restarts s.env he)

theorem needleStop_at_once (hs : Ready s) (he : s.chip.en (.ndlCtl n) F.NdlCtl.EN = .running) (h : s.chip.slotsEmpty n = true)
    (hq : (s.chip.ndl n).queues.flatten = []) : Completes (.needleStop n) s fun t =>
      t.chip.en (.ndlCtl n) F.NdlCtl.EN = .off ∧ t.chip.slotsEmpty n = true ∧ EnableOnly s n t := by
  obtain ⟨hen, hkeeps, hths, -⟩ := s.chip.setEn_parts n .off
  have hstop := Chip.ndlEnWrite_stops s.env he h
  have hempty := Chip.evict_empty (c := s.chip.setF (.ndlCtl n) F.NdlCtl.EN En.off.code) s.env h hq
  refine completes_when rfl hs (hstop.trans hempty)
    ⟨hen, ?_, hkeeps, hths, fun _ hm => Chip.ndl_setNdl_other _ hm _, keepsOutside_chip ..⟩
  rw [← h]
  unfold Chip.slotsEmpty Chip.slot
  rw [Chip.ndl_setNdl_same]
  rfl

theorem needleStopComplete_waits (h : s.chip.slotsEmpty n = false) : Completes (.needleStopComplete n) s fun t => t = s :=
  completes_idle rfl (Chip.ndlComplete_waits h)

end Enable

section Power

variable {s : State} {n : Fin 128} (hup : coreUp s.chip = true)
include hup

theorem needleClockStop_stops (hp : s.chip.npwr n = 0) (hs : s.chip.slotsEmpty n = true) (ha : (s.chip.ndl n).active = none)
    (hsh : (s.chip.ndl n).shadow = none) (hq : Chip.rdyq (s.chip.ndl n) = 0) : Completes (.needleClockStop n) s fun t =>
      t.chip.npwr n = 1 ∧ t.chip.ndl n = s.chip.ndl n ∧ KeepsRegs s.chip t.chip [.ndlStat n] ∧
      t.chip.threads = s.chip.threads ∧ (∀ m, m ≠ n.val → t.chip.ndl m = s.chip.ndl m) ∧ KeepsOutside s t :=
  completes_when rfl hup (if_pos ⟨hp, Chip.ndlIdle_iff.mpr ⟨hs, ha, hsh, hq⟩⟩)
    ⟨(Chip.npwr_setPwr s.chip n n (by decide)).trans (if_pos rfl), rfl, Chip.setPwr_keeps s.chip n 1, rfl, fun _ _ => rfl,
      keepsOutside_chip ..⟩

/-- The needle holds no thread and no transfer. -/
abbrev NeedleIdle (s : State) (n : Fin 128) : Prop :=
  s.chip.slotsEmpty n = true ∧ (s.chip.ndl n).active = none ∧ (s.chip.ndl n).shadow = none ∧ Chip.rdyq (s.chip.ndl n) = 0 ∧
    Chip.suspCount (s.chip.ndl n) = 0

theorem needlePowerGate_holds (h : ¬ NeedleIdle s n) : Completes (.needlePowerGate n) s fun t => t = s := by
  refine completes_when rfl hup (if_neg fun hall => h ?_) rfl
  obtain ⟨-, hidle, -, hsusp⟩ := hall
  obtain ⟨hs, ha, hsh, hq⟩ := Chip.ndlIdle_iff.mp hidle
  exact ⟨hs, ha, hsh, hq, hsusp⟩

theorem needlePowerGate_gates (hp : s.chip.npwr n = 1) (hpg : s.chip.fld (.ndlCfg n) F.NdlCfg.PG_IDLE ≠ 0) (h : NeedleIdle s n) :
    Completes (.needlePowerGate n) s fun t =>
      t.chip.npwr n = 2 ∧ t.chip.ndl n = { s.chip.ndl n with ib := [] } ∧ KeepsRegs s.chip t.chip [.ndlStat n] ∧
      t.chip.threads = s.chip.threads ∧ (∀ m, m ≠ n.val → t.chip.ndl m = s.chip.ndl m) ∧ KeepsOutside s t := by
  obtain ⟨hs, ha, hsh, hq, hsusp⟩ := h
  exact completes_when rfl hup (if_pos ⟨hp, Chip.ndlIdle_iff.mpr ⟨hs, ha, hsh, hq⟩, hpg, hsusp⟩)
    ⟨(Chip.npwr_setPwr (s.chip.setNdl n _) n n (by decide)).trans (if_pos rfl), Chip.ndl_setNdl_same .., Chip.setPwr_keeps (s.chip.setNdl n _) n 2,
      rfl, fun _ hm => Chip.ndl_setNdl_other _ hm _, keepsOutside_chip ..⟩

theorem needleWakeDone_waits (hl : s.chip.pllLocked n = false) : Completes (.needleWakeDone n) s fun t => t = s :=
  completes_when rfl hup (Chip.ndlWakeDone_waits hl) rfl

section Wakes

variable (hp : s.chip.npwr n = 3) (hl : s.chip.pllLocked n = true)
include hp hl

theorem needleWakeDone_alone (hq : s.chip.pwr.wakeQ = []) : Completes (.needleWakeDone n) s fun t =>
    t.chip.npwr n = 0 ∧ t.chip.ndl n = s.chip.ndl n ∧ KeepsButCounts s.chip t.chip [.ndlStat n] ∧
    t.chip.threads = s.chip.threads ∧ (∀ m, m ≠ n.val → t.chip.ndl m = s.chip.ndl m) ∧ KeepsOutside s t := by
  have honly := s.chip.woke_only n
  have hnds := Chip.needles_of_only honly
  have hnone := Chip.startWakes_nil ((congrArg Power.wakeQ (Chip.pwr_of_only honly)).trans hq)
  exact completes_when rfl hup ((Chip.ndlWakeDone_wakes hp hl).trans hnone)
    ⟨(Chip.npwr_woke n.isLt s.chip n).trans (if_pos rfl), congrArg (Tab.get Needle.idle · n) hnds, Chip.woke_keeps n.isLt s.chip,
      Chip.threads_of_only honly, fun m _ => congrArg (Tab.get Needle.idle · m) hnds, keepsOutside_chip ..⟩

theorem needleWakeDone_passes {m : Fin 128} {rest : List Nat} (hm : m ≠ n) (hw : s.chip.wakingNow = 8)
    (hq : s.chip.pwr.wakeQ = m.val :: rest) (hfirst : m.val ∉ rest) (hrest : ∀ x ∈ rest, s.chip.npwr x = 2)
    (hmp : s.chip.npwr m = 2) (hml : s.chip.pllLocked m = true) (hmd : s.chip.bdDown m = false) :
    Completes (.needleWakeDone n) s fun t =>
      t.chip.npwr n = 0 ∧ t.chip.npwr m = 3 ∧ t.chip.pwr.wakeQ = rest ∧ KeepsButCounts s.chip t.chip [.ndlStat n, .ndlStat m] ∧
      t.chip.threads = s.chip.threads ∧ (∀ m, m ≠ n.val → t.chip.ndl m = s.chip.ndl m) ∧ KeepsOutside s t := by
  have hmn : m.val ≠ n.val := fun h => hm (Fin.ext h)
  have hdone := Chip.ndlWakeDone_wakes hp hl
  have honly := s.chip.woke_only n
  have hkeeps := Chip.woke_keeps n.isLt s.chip
  have hpwr := Chip.npwr_woke n.isLt s.chip
  generalize s.chip.woke n = d at hdone honly hkeeps hpwr
  have hpower := Chip.pwr_of_only honly
  have hwaking := Chip.wakingNow_succ (c := s.chip) (d := d) n.isLt hp (by rw [hpwr, if_pos rfl]; decide) fun x hx => by rw [hpwr, if_neg hx]
  have hlocked : d.pllLocked m = true := by
    rw [← hml]
    exact congrArg (fbit · F.ClkNpll.LOCK) (hkeeps (.clkNpll (m.val / 32)) (.inl (by simp only [Reg.offset]; omega))
      (by simp only [List.mem_singleton, forall_eq, Reg.offset]; omega))
  have hothers (x : Nat) (hx : x ∈ rest) : x ≠ m.val ∧ d.npwr x = 2 := by
    have h2 := hrest x hx
    exact ⟨fun h => hfirst (h ▸ hx), by rw [hpwr, if_neg fun h => absurd ((h ▸ h2).symm.trans hp) (by decide)]; exact h2⟩
  have hwakes := Chip.startWakes_first (c := d) m.isLt ((congrArg Power.wakeQ hpower).trans hq) hothers (by omega) hlocked
    (by rw [hpwr, if_neg hmn]; exact hmp) (by simpa only [Chip.bdDown, hpower] using hmd)
  have hset (x : Nat) : ((d.unqueueWake m).setF (.ndlStat m) F.NdlStat.PWR 3).npwr x = if x = m.val then 3 else d.npwr x :=
    Chip.npwr_setPwr _ _ _ (by decide)
  have hnds := Chip.needles_of_only honly
  have hths := Chip.threads_of_only honly
  refine completes_when rfl hup (hdone.trans hwakes) ⟨?_, ?_, ?_, fun r hr hl => ?_, hths,
    fun x _ => congrArg (Tab.get Needle.idle · x) hnds, keepsOutside_chip ..⟩
  · rw [hset, if_neg hmn.symm, hpwr, if_pos rfl]
  · rw [hset, if_pos rfl]
  · show d.pwr.wakeQ.filter (fun x => x ≠ m.val) = rest
    rw [hpower, hq, List.filter_cons, if_neg (by simp)]
    exact List.filter_eq_self.mpr fun x hx => by simpa using (hothers x hx).1
  · refine (Chip.rd_setF_other _ (hl _ (by simp)) _ _).trans (hkeeps r hr fun q hq => hl q ?_)
    exact List.mem_singleton.mp hq ▸ List.mem_cons_self

end Wakes
end Power

section Mult

variable {s : State} {q : Fin 4} {data : Word} (hs : Ready s)
include hs

theorem npllMultWrite_takes (h : s.chip.pllIdle q) (hlo : 20 ≤ fget data F.ClkNpll.MULT) (hhi : fget data F.ClkNpll.MULT ≤ 80)
    (hm : fget data F.ClkNpll.MULT ≠ s.chip.fld (.clkNpll q) F.ClkNpll.MULT) : Completes (.npllMultWrite q data) s fun t =>
      t.chip.rd (.clkNpll q) =
        fset (fset (s.chip.rd (.clkNpll q)) F.ClkNpll.MULT (fget data F.ClkNpll.MULT)) F.ClkNpll.LOCK 0 ∧
      KeepsRegs s.chip t.chip [.clkNpll q] ∧ OnlyRegs s.chip t.chip ∧ KeepsOutside s t := by
  refine completes_when rfl hs (Chip.npllWrite_takes h hlo hhi hm) ⟨?_, ?_, Chip.only_wr (Chip.only_wr (Chip.only_refl _) _ _) _ _, keepsOutside_chip ..⟩
  · simp only [Chip.rd_setF_same]
  · exact Chip.keeps_setF (Chip.keeps_setF (Chip.keeps_refl _ _) List.mem_cons_self _ _) List.mem_cons_self _ _

theorem npllMultWrite_ignored (h : s.chip.pllIdle q) (hm : fget data F.ClkNpll.MULT < 20 ∨ 80 < fget data F.ClkNpll.MULT ∨
      fget data F.ClkNpll.MULT = s.chip.fld (.clkNpll q) F.ClkNpll.MULT) : Completes (.npllMultWrite q data) s fun t => t = s :=
  completes_when rfl hs (Chip.npllWrite_ignored h hm) rfl

theorem npllMultWrite_locked (h : ¬ s.chip.pllIdle q) : Completes (.npllMultWrite q data) s fun t =>
    t.chip.rd .pwrStat = fset (s.chip.rd .pwrStat) F.PwrStat.CLK_LOCKED 1 ∧ KeepsRegs s.chip t.chip [.pwrStat] ∧
    OnlyRegs s.chip t.chip ∧ KeepsOutside s t :=
  completes_when rfl hs (Chip.npllWrite_locked h) ⟨Chip.rd_wr_same .., Chip.keeps_flag (Chip.keeps_refl _ _) List.mem_cons_self _,
    Chip.only_wr (Chip.only_refl _) _ _, keepsOutside_chip ..⟩

end Mult

section Lock

variable {s : State} {q : Fin 4}

theorem npllLock_restarts (h : s.chip.bit (.clkNpll q) F.ClkNpll.LOCK = false) (hq : s.chip.pwr.wakeQ = []) :
    Completes (.npllLock q) s fun t =>
      t.chip.bit (.clkNpll q) F.ClkNpll.LOCK = true ∧
      (∀ n, n < 128 → t.chip.npwr n = if n / 32 = q.val ∧ n ∈ s.chip.pwr.clkLost ∧ s.chip.npwr n = 1 then 0 else s.chip.npwr n) ∧
      t.chip.pwr = { s.chip.pwr with clkLost := t.chip.pwr.clkLost } ∧
      (∀ n, n ∈ t.chip.pwr.clkLost ↔ n ∈ s.chip.pwr.clkLost ∧ ¬ n / 32 = q.val) ∧
      t.chip = { s.chip with regs := t.chip.regs, pwr := t.chip.pwr } ∧ KeepsOutside s t := by
  have hlocks := s.chip.npllLock_locks h
  have hback := Chip.clocksBack_foldl (Chip.pllNeedles q) (s.chip.pllOn q)
  generalize (Chip.pllNeedles q).foldl Chip.clockBack (s.chip.pllOn q) = d at hlocks hback
  obtain ⟨honly, hlost, hpwr, hkeeps⟩ := hback
  have hq' : d.pwr.wakeQ = [] := (congrArg (fun x : Chip => x.pwr.wakeQ) honly).trans hq
  rw [Chip.startWakes_nil hq'] at hlocks
  refine completes_chip rfl hlocks ⟨?_, fun n _ => ?_, ?_, fun n => ?_, ?_, keepsOutside_chip ..⟩
  · refine (congrArg (fbit · F.ClkNpll.LOCK) (hkeeps _ fun n _ _ => ?_)).trans (Chip.bit_flag_same _ _ ⟨by decide, by decide⟩)
    simp only [Reg.offset]
    omega
  · rw [hpwr, s.chip.npwr_pllOn q.isLt]
    simp [Chip.mem_pllNeedles, Chip.pllOn, hq]
  · exact (congrArg Chip.pwr honly).trans rfl
  · rw [hlost, Chip.mem_pllNeedles]
    rfl
  · rw [honly]
    rfl

theorem npllLock_wakes {n : Nat} (hmine : n / 32 = q.val) (h : s.chip.bit (.clkNpll q) F.ClkNpll.LOCK = false)
    (hd : s.chip.bdDown n = false) (hq : s.chip.pwr.wakeQ = [n]) (hp : s.chip.npwr n = 2) (hw : s.chip.wakingNow < 8)
    (hno : ∀ m, m / 32 = q.val → s.chip.npwr m ≠ 1) : Completes (.npllLock q) s fun t =>
      t.chip.npwr n = 3 ∧ t.chip.pwr.wakeQ = [] ∧ KeepsRegs s.chip t.chip [.clkNpll q, .ndlStat n] ∧ KeepsOutside s t := by
  have hlocks := s.chip.npllLock_locks h
  have hback := Chip.clocksBack_foldl (Chip.pllNeedles q) (s.chip.pllOn q)
  generalize (Chip.pllNeedles q).foldl Chip.clockBack (s.chip.pllOn q) = d at hlocks hback
  obtain ⟨honly, -, -, hkeeps⟩ := hback
  have hrd (r : Reg) : d.rd r = (s.chip.pllOn q).rd r := hkeeps r fun m hm h1 =>
    absurd ((s.chip.npwr_pllOn q.isLt m).symm.trans h1) (hno m (Chip.mem_pllNeedles.mp hm))
  have hpwr (x : Nat) : d.npwr x = s.chip.npwr x := (Chip.npwr_of_rd (hrd _)).trans (s.chip.npwr_pllOn q.isLt x)
  have hpower : d.pwr = { s.chip.pwr with clkLost := d.pwr.clkLost } := (congrArg Chip.pwr honly).trans rfl
  have hbegins : d.startWakes = (d.unqueueWake n).setF (.ndlStat n) F.NdlStat.PWR 3 := by
    unfold Chip.startWakes
    rw [hpower]
    show List.foldl Chip.startWake d s.chip.pwr.wakeQ = _
    rw [hq]
    refine Chip.startWake_begins ?_ ((hpwr n).trans hp) ?_ ?_
    · unfold Chip.pllLocked
      rw [hmine]
      exact (congrArg (fbit · F.ClkNpll.LOCK) (hrd _)).trans (Chip.bit_flag_same _ _ ⟨by decide, by decide⟩)
    · simpa only [Chip.wakingNow, hpwr] using hw
    · unfold Chip.bdDown
      rw [hpower]
      exact hd
  refine completes_chip rfl (hlocks.trans hbegins) ⟨(Chip.npwr_setPwr _ _ _ (by decide)).trans (if_pos rfl), ?_, fun r hr => ?_, keepsOutside_chip ..⟩
  · show d.pwr.wakeQ.filter (fun x => x ≠ n) = []
    rw [hpower]
    show s.chip.pwr.wakeQ.filter (fun x => x ≠ n) = []
    rw [hq]
    simp
  · exact (Chip.rd_setF_other _ (hr _ (by simp)) _ _).trans ((hrd r).trans (Chip.rd_setF_other _ (hr _ (by simp)) _ _))

theorem npllUnlock_stops (h : s.chip.bit (.clkNpll q) F.ClkNpll.LOCK = true) : Completes (.npllUnlock q) s fun t =>
    t.chip.bit (.clkNpll q) F.ClkNpll.LOCK = false ∧ t.chip.bit .pwrStat F.PwrStat.NPLL_UNLOCK = true ∧
    (∀ n, n < 128 → t.chip.npwr n = if n / 32 = q.val ∧ s.chip.npwr n = 0 then 1 else s.chip.npwr n) ∧
    (∀ n, n ∈ t.chip.pwr.clkLost ↔ n ∈ s.chip.pwr.clkLost ∨ n / 32 = q.val ∧ s.chip.npwr n = 0) ∧
    t.chip = { s.chip with regs := t.chip.regs, pwr := { s.chip.pwr with clkLost := t.chip.pwr.clkLost } } ∧ KeepsOutside s t := by
  have hunlocks := s.chip.npllUnlock_unlocks h
  have hgone := Chip.clocksLost_foldl (Chip.pllNeedles q) (s.chip.pllOff q)
  generalize (Chip.pllNeedles q).foldl Chip.clockLost (s.chip.pllOff q) = d at hunlocks hgone
  obtain ⟨honly, hlost, hpwr, hkeeps⟩ := hgone
  refine completes_chip rfl hunlocks ⟨?_, ?_, fun n _ => ?_, fun n => ?_, ?_, keepsOutside_chip ..⟩
  · have hpll : d.rd (.clkNpll q) = (s.chip.setF (.clkNpll q) F.ClkNpll.LOCK 0).rd (.clkNpll q) := by
      refine (hkeeps _ fun n _ => ?_).trans (Chip.rd_flag_other _ ?_ _) <;> simp only [Reg.offset] <;> omega
    exact (congrArg (fbit · F.ClkNpll.LOCK) hpll).trans (Chip.bit_setF_same s.chip (.clkNpll q) ⟨by decide, by decide⟩ rfl false)
  · refine (congrArg (fbit · F.PwrStat.NPLL_UNLOCK) (hkeeps _ fun n _ => ?_)).trans (Chip.bit_flag_same _ _ ⟨by decide, by decide⟩)
    simp only [Reg.offset]
    omega
  · rw [hpwr, s.chip.npwr_pllOff q.isLt]
    simp [Chip.mem_pllNeedles]
  · rw [hlost, s.chip.npwr_pllOff q.isLt, Chip.mem_pllNeedles]
    rfl
  · rw [honly]
    rfl

end Lock

/-- Settles O32, by a lemma for each command on a needle's enable, its clock, its power and its PLL. -/
theorem needles : Obligations.Needles :=
  ⟨fun _ _ hp => ⟨needleEnable_starts hp, needleStop_at_once, needleEnable_restarts, needleStopComplete_ends hp,
      needleStopComplete_waits⟩,
    fun _ _ hup => ⟨needleClockStop_stops hup, needlePowerGate_holds hup, needlePowerGate_gates hup,
      fun hp hl hq => needleWakeDone_alone hup hp hl hq, fun _ => needleWakeDone_waits hup,
      fun _ _ hm hp hl => needleWakeDone_passes hup hp hl hm⟩,
    fun _ _ => ⟨fun _ hs => ⟨npllMultWrite_takes hs, npllMultWrite_ignored hs, npllMultWrite_locked hs⟩, npllLock_restarts,
      fun _ _ => npllLock_wakes, npllUnlock_stops⟩⟩

end Sys2Proof.Machine
